-- ==== Sys2Proof/Word.lean ====
section
/-! DEFINITION. The word types of the Turolan T8 and their plainest arithmetic (spec/03_encoding.md R32, R39). -/
namespace Sys2Proof

/-- One byte of memory. -/
abbrev Byte := BitVec 8
/-- One instruction word (R39). -/
abbrev Word32 := BitVec 32
/-- One general or control register (R32). -/
abbrev Word := BitVec 64
/-- One vector register (R32). -/
abbrev VReg := BitVec 1024
/-- One lane mask (R32). -/
abbrev Mask := BitVec 128

end Sys2Proof
end

