-- ==== Sys2Proof/Config.lean ====
section
/-! DEFINITION. What one implementation fixes and the free values. A free value is a constant with no body: nothing in Lean can
evaluate it, so a statement that holds of it holds whatever the hardware delivers. Each is named in a log entry of
notes/assumptions. -/
namespace Sys2Proof.Config

/-- The 88-bit contents of an accumulator cell after an uncorrectable error in an operand: "the cells hold unspecified
80-bit values until the next ACZ" (spec/12_tile.md R230); the argument is a fresh number, cell by cell. -/
opaque freeCell : Nat → BitVec 88
/-- The general registers of a process whose save area overlaps another: "the register contents of both processes are
undefined" (spec/17_scheduling.md R269). -/
opaque freeReg : Nat → Word
/-- The vector registers and masks of such a process (R269). -/
opaque freeVec : Nat → VReg
/-- The bytes of the sequencer record: "its content is not architected" (R269). -/
opaque freeByte : Nat → Byte
/-- The reading of a ring whose index software wrote past the other: "empty or full, whichever it finds" (R71). -/
opaque freeBool : Nat → Bool
/-- Sensor readings that Firefly reports (R334). -/
opaque sensor : Nat → BitVec 128
/-- How many sensors Firefly has (R334). -/
opaque sensorCount : Nat → Nat
/-- The part of a copy of the boot images that is a stage's own image: the layout of a copy is not stated (R330). -/
opaque stageImage : Nat → List Byte → List Byte
/-- The signed configuration record that holds an incarnation number (R331). -/
opaque configRecord : Nat → List Byte
/-- The public key that the earlier stage trusts for an image, the digest of the first such key that the ROM holds, and the signature that a copy
carries for a stage's image: the spec states neither the keys nor where a signature lies (R330). -/
opaque trustedKey : Nat → List Byte
opaque romDigest : BitVec 256
opaque stageSig : Nat → List Byte → List Byte
/-- What the SPDM responder has from its manufacture (R335): the chain of slot 0, the identifier of ML-DSA-44 among the extended algorithms, the
exponent of its longest cryptographic operation, and the signature by the identity key, in which the signer may use a random number. -/
opaque certChain : List Byte
opaque extAsym : List Byte
opaque ctExponent : Byte
opaque identitySign : Nat → List Byte → BitVec 19360

end Sys2Proof.Config
end

