-- ==== Sys2Proof/Syntax.lean ====
section
/-! DEFINITION. The instruction set: one constructor per row of spec/opcode_table.json. The first 272 are instruction words
(spec/03_encoding.md R39, R48, R51), one operand structure for each payload format; the last 105 are the steps that the device
takes by itself (spec/95_what_each_step_holds.md), whose operands name the thing that moves (a message, a core, a queue). -/
namespace Sys2Proof

/-- The guard of a word: N in bit 31 and the predicate number in [30:28] (R39, R40). -/
structure Guard where
  neg : Bool
  p   : BitVec 3
  deriving DecidableEq, Repr

/-- Scope codes (R48, R235). -/
inductive Scope | core | pkg | sys | auto
  deriving DecidableEq, Repr
/-- The fmt field of FP, FOP and FOP2; code 11 traps ILLEGAL (R48). -/
inductive FFmt | f32 | f16 | bf16
  deriving DecidableEq, Repr
/-- Vector type codes of VC and VR; 110 and 111 trap ILLEGAL (R48). -/
inductive VTy | i8 | i16 | i32 | f16 | bf16 | f32
  deriving DecidableEq, Repr
/-- VCVT type codes: the vector types and the two 8-bit float formats (R48). -/
inductive CTy | i8 | i16 | i32 | f16 | bf16 | f32 | e4m3 | e5m2
  deriving DecidableEq, Repr
/-- Lane sizes of VM, VMISC and the integer vector majors; code 11 traps ILLEGAL (R48, R201). -/
inductive LSize | b8 | b16 | b32
  deriving DecidableEq, Repr
/-- Rounding modes; codes 101 to 111 trap ILLEGAL (R48, R180). -/
inductive Rm | rne | rtz | rup | rdn | rto
  deriving DecidableEq, Repr

/-- Register-to-register format RRR: TQRY and AMO use it too. -/
structure RRR where
  gu : Guard
  d : BitVec 6
  a : BitVec 6
  b : BitVec 6
  deriving DecidableEq, Repr
/-- RRR and SY words with one source: the b field or imm10[3:0] is zero. -/
structure RR where
  gu : Guard
  d : BitVec 6
  a : BitVec 6
  deriving DecidableEq, Repr
/-- Register-and-immediate format RRI. -/
structure RRI where
  gu : Guard
  d : BitVec 6
  a : BitVec 6
  imm : BitVec 10
  deriving DecidableEq, Repr
/-- Immediate shifts: the amount is imm10[5:0]. -/
structure SHI where
  gu : Guard
  d : BitVec 6
  a : BitVec 6
  amt : BitVec 6
  deriving DecidableEq, Repr
/-- Immediate format RI; J has the same fields. -/
structure RI where
  gu : Guard
  d : BitVec 6
  imm : BitVec 16
  deriving DecidableEq, Repr
/-- Compare format P. -/
structure CP where
  gu : Guard
  pT : BitVec 3
  pF : BitVec 3
  a : BitVec 6
  b : BitVec 6
  deriving DecidableEq, Repr
/-- Compare-immediate format PI. -/
structure CPI where
  gu : Guard
  pT : BitVec 3
  pF : BitVec 3
  a : BitVec 6
  imm : BitVec 6
  deriving DecidableEq, Repr
/-- Predicate-logic format PL and mask-logic format QL. -/
structure PL where
  gu : Guard
  d : BitVec 3
  a : BitVec 3
  b : BitVec 3
  deriving DecidableEq, Repr
/-- Float-compare format FP. -/
structure FP where
  gu : Guard
  pT : BitVec 3
  pF : BitVec 3
  a : BitVec 6
  b : BitVec 6
  fmt : FFmt
  deriving DecidableEq, Repr
/-- FOP and FOP2. -/
structure FR where
  gu : Guard
  d : BitVec 6
  a : BitVec 6
  b : BitVec 6
  fmt : FFmt
  deriving DecidableEq, Repr
/-- FSQRT: the b field is zero. -/
structure FR1 where
  gu : Guard
  d : BitVec 6
  a : BitVec 6
  fmt : FFmt
  deriving DecidableEq, Repr
/-- Branch format B. -/
structure BT where
  gu : Guard
  disp : BitVec 22
  deriving DecidableEq, Repr
/-- Load format M. -/
structure LD where
  gu : Guard
  d : BitVec 6
  a : BitVec 6
  l : BitVec 4
  disp : BitVec 6
  deriving DecidableEq, Repr
/-- Store format S. -/
structure ST where
  gu : Guard
  s : BitVec 6
  a : BitVec 6
  disp : BitVec 10
  deriving DecidableEq, Repr
/-- The TAG group but for TQRY: d is zero. -/
structure TG where
  gu : Guard
  a : BitVec 6
  b : BitVec 6
  deriving DecidableEq, Repr
/-- Acquire format MA. -/
structure LA where
  gu : Guard
  d : BitVec 6
  a : BitVec 6
  l : BitVec 4
  scope : Scope
  disp : BitVec 4
  deriving DecidableEq, Repr
/-- Release format SA. -/
structure SL where
  gu : Guard
  s : BitVec 6
  a : BitVec 6
  scope : Scope
  disp : BitVec 8
  deriving DecidableEq, Repr
/-- Reduction format VR. -/
structure VR where
  gu : Guard
  vd : BitVec 5
  va : BitVec 5
  ty : VTy
  q : BitVec 3
  deriving DecidableEq, Repr
/-- VBCAST: the lane field is zero. -/
structure VB where
  gu : Guard
  v : BitVec 5
  g : BitVec 6
  size : LSize
  deriving DecidableEq, Repr
/-- Vector-move format VM. -/
structure VM where
  gu : Guard
  v : BitVec 5
  g : BitVec 6
  lane : BitVec 5
  size : LSize
  deriving DecidableEq, Repr
/-- VMISC: format V with the lane size in f[1:0]. -/
structure VX where
  gu : Guard
  vd : BitVec 5
  va : BitVec 5
  vb : BitVec 5
  q : BitVec 3
  size : LSize
  deriving DecidableEq, Repr
/-- Fence format FN. -/
structure FN where
  gu : Guard
  before : BitVec 6
  after : BitVec 6
  scope : Scope
  deriving DecidableEq, Repr
/-- Integer format V: the major selects the lane size. -/
structure VI where
  gu : Guard
  size : LSize
  vd : BitVec 5
  va : BitVec 5
  vb : BitVec 5
  q : BitVec 3
  deriving DecidableEq, Repr
/-- Float format V with two sources. -/
structure VF where
  gu : Guard
  vd : BitVec 5
  va : BitVec 5
  vb : BitVec 5
  q : BitVec 3
  deriving DecidableEq, Repr
/-- Float format V with one source: vb is zero. -/
structure VF1 where
  gu : Guard
  vd : BitVec 5
  va : BitVec 5
  q : BitVec 3
  deriving DecidableEq, Repr
/-- Vector-compare format VC. -/
structure VC where
  gu : Guard
  qT : BitVec 3
  qF : BitVec 3
  va : BitVec 5
  vb : BitVec 5
  ty : VTy
  deriving DecidableEq, Repr
/-- Conversion format VV. -/
structure VV where
  gu : Guard
  vd : BitVec 5
  va : BitVec 5
  src : CTy
  dst : CTy
  rm : Rm
  q : BitVec 3
  deriving DecidableEq, Repr
/-- Vector load format VL. -/
structure VL where
  gu : Guard
  vd : BitVec 5
  a : BitVec 6
  l : BitVec 4
  q : BitVec 3
  disp : BitVec 4
  deriving DecidableEq, Repr
/-- Vector store format VS. -/
structure VS where
  gu : Guard
  vs : BitVec 5
  a : BitVec 6
  rm : Rm
  q : BitVec 3
  disp : BitVec 5
  deriving DecidableEq, Repr
/-- Matrix format T. -/
structure MM where
  gu : Guard
  a : BitVec 6
  b : BitVec 6
  l : BitVec 4
  acc : BitVec 3
  pair : BitVec 2
  r : Bool
  deriving DecidableEq, Repr
/-- SHAPE: the shape register stands in b[2:0]; L is zero (R218). -/
structure SH where
  gu : Guard
  a : BitVec 6
  n : BitVec 3
  deriving DecidableEq, Repr
/-- T2 and TH words with no second register. -/
structure T1 where
  gu : Guard
  a : BitVec 6
  l : BitVec 4
  deriving DecidableEq, Repr
/-- T2, TH and FLUSHOUT words with two registers. -/
structure T2 where
  gu : Guard
  a : BitVec 6
  b : BitVec 6
  l : BitVec 4
  deriving DecidableEq, Repr
/-- Copy format TC. -/
structure TC where
  gu : Guard
  a : BitVec 6
  b : BitVec 6
  l : BitVec 4
  sh : BitVec 3
  deriving DecidableEq, Repr
/-- TRAP: imm10. -/
structure TR where
  gu : Guard
  imm : BitVec 10
  deriving DecidableEq, Repr
/-- CTLR and CTLW: a g register and a control-register number. -/
structure CR where
  gu : Guard
  r : BitVec 6
  c : BitVec 10
  deriving DecidableEq, Repr
/-- SY words with register a alone. -/
structure A1 where
  gu : Guard
  a : BitVec 6
  deriving DecidableEq, Repr
/-- SY words with register d alone. -/
structure D1 where
  gu : Guard
  d : BitVec 6
  deriving DecidableEq, Repr
/-- WHOAMI: selector in imm10[1:0]. -/
structure WH where
  gu : Guard
  d : BitVec 6
  sel : BitVec 2
  deriving DecidableEq, Repr

/-- One constructor per row of spec/opcode_table.json, in its order. -/
inductive Instr where
  /-- ADD (R152). Writes a + b modulo 2^64 to gd. -/
  | add (o : RRR)
  /-- SUB (R152). Writes a - b modulo 2^64 to gd. -/
  | sub (o : RRR)
  /-- AND (R152). Writes a AND b to gd. -/
  | and (o : RRR)
  /-- OR (R152). Writes a OR b to gd. -/
  | or (o : RRR)
  /-- XOR (R152). Writes a XOR b to gd. -/
  | xor (o : RRR)
  /-- ANDN (R152). Writes a AND NOT b to gd. -/
  | andn (o : RRR)
  /-- SHL (R152). Shifts a left by b[5:0], filling with zeros. -/
  | shl (o : RRR)
  /-- SHR (R152). Shifts a right logically by b[5:0]. -/
  | shr (o : RRR)
  /-- SRA (R152). Shifts a right arithmetically by b[5:0]. -/
  | sra (o : RRR)
  /-- ROL (R152). Rotates a left by b[5:0]. -/
  | rol (o : RRR)
  /-- MIN (R152). Writes the signed smaller of a and b. -/
  | min (o : RRR)
  /-- MAX (R152). Writes the signed larger of a and b. -/
  | max (o : RRR)
  /-- MINU (R152). Writes the unsigned smaller of a and b. -/
  | minu (o : RRR)
  /-- MAXU (R152). Writes the unsigned larger of a and b. -/
  | maxu (o : RRR)
  /-- ADDS (R153). Writes the signed saturated sum, setting SAT on saturation. -/
  | adds (o : RRR)
  /-- SUBS (R153). Writes the signed saturated difference, setting SAT on saturation. -/
  | subs (o : RRR)
  /-- MUL (R154). Writes the low 64 bits of a × b. -/
  | mul (o : RRR)
  /-- MULH (R154). Writes the high 64 bits of the signed product. -/
  | mulh (o : RRR)
  /-- MULHU (R154). Writes the high 64 bits of the unsigned product. -/
  | mulhu (o : RRR)
  /-- MULHSU (R154). Writes the high 64 bits of signed a times unsigned b. -/
  | mulhsu (o : RRR)
  /-- DIV (R155). Signed division truncating towards zero; by zero writes all ones and sets DZ. -/
  | div (o : RRR)
  /-- DIVU (R155). Unsigned division; by zero writes all ones and sets DZ. -/
  | divu (o : RRR)
  /-- REM (R155). Signed remainder; by zero writes a and sets DZ. -/
  | rem (o : RRR)
  /-- REMU (R155). Unsigned remainder; by zero writes a and sets DZ. -/
  | remu (o : RRR)
  /-- CLZ (R154). Writes the number of leading zero bits of a. -/
  | clz (o : RR)
  /-- CTZ (R154). Writes the number of trailing zero bits of a. -/
  | ctz (o : RR)
  /-- POPC (R154). Writes the number of one bits of a. -/
  | popc (o : RR)
  /-- BREV (R154). Writes a with its bit order reversed. -/
  | brev (o : RR)
  /-- BFX (R156). Extracts the bit field of a that b selects, zero-extended. -/
  | bfx (o : RRR)
  /-- BFI (R156). Inserts a into the bit field of gd that b selects. -/
  | bfi (o : RRR)
  /-- ADDI (R157). Adds a sign-extended 10-bit immediate. -/
  | addi (o : RRI)
  /-- ANDI (R157). ANDs with a sign-extended 10-bit immediate. -/
  | andi (o : RRI)
  /-- ORI (R157). ORs with a zero-extended 10-bit immediate. -/
  | ori (o : RRI)
  /-- XORI (R157). XORs with a zero-extended 10-bit immediate. -/
  | xori (o : RRI)
  /-- SHLI (R157). Shifts left by an immediate amount. -/
  | shli (o : SHI)
  /-- SHRI (R157). Shifts right logically by an immediate amount. -/
  | shri (o : SHI)
  /-- SRAI (R157). Shifts right arithmetically by an immediate amount. -/
  | srai (o : SHI)
  /-- ROLI (R157). Rotates left by an immediate amount. -/
  | roli (o : SHI)
  /-- IMM (R157). Sets gd to a sign-extended 16-bit immediate. -/
  | imm (o : RI)
  /-- IMMH (R157). Shifts gd left by 16 and inserts a 16-bit immediate. -/
  | immh (o : RI)
  /-- CMPEQ (R158). Writes a = b to pT and its complement to pF. -/
  | cmpeq (o : CP)
  /-- CMPNE (R158). Writes a ≠ b to pT and its complement to pF. -/
  | cmpne (o : CP)
  /-- CMPLT (R158). Writes signed a < b and its complement. -/
  | cmplt (o : CP)
  /-- CMPLE (R158). Writes signed a ≤ b and its complement. -/
  | cmple (o : CP)
  /-- CMPGT (R158). Writes signed a > b and its complement. -/
  | cmpgt (o : CP)
  /-- CMPGE (R158). Writes signed a ≥ b and its complement. -/
  | cmpge (o : CP)
  /-- CMPLTU (R158). Writes unsigned a < b and its complement. -/
  | cmpltu (o : CP)
  /-- CMPLEU (R158). Writes unsigned a ≤ b and its complement. -/
  | cmpleu (o : CP)
  /-- CMPGTU (R158). Writes unsigned a > b and its complement. -/
  | cmpgtu (o : CP)
  /-- CMPGEU (R158). Writes unsigned a ≥ b and its complement. -/
  | cmpgeu (o : CP)
  /-- CMPEQI (R158). Compares a for equality with a sign-extended imm6. -/
  | cmpeqi (o : CPI)
  /-- CMPNEI (R158). Compares a for inequality with imm6. -/
  | cmpnei (o : CPI)
  /-- CMPLTI (R158). Signed a < imm6. -/
  | cmplti (o : CPI)
  /-- CMPLEI (R158). Signed a ≤ imm6. -/
  | cmplei (o : CPI)
  /-- CMPGTI (R158). Signed a > imm6. -/
  | cmpgti (o : CPI)
  /-- CMPGEI (R158). Signed a ≥ imm6. -/
  | cmpgei (o : CPI)
  /-- CMPLTUI (R158). Unsigned a < sign-extended imm6. -/
  | cmpltui (o : CPI)
  /-- CMPLEUI (R158). Unsigned a ≤ sign-extended imm6. -/
  | cmpleui (o : CPI)
  /-- CMPGTUI (R158). Unsigned a > sign-extended imm6. -/
  | cmpgtui (o : CPI)
  /-- CMPGEUI (R158). Unsigned a ≥ sign-extended imm6. -/
  | cmpgeui (o : CPI)
  /-- PAND (R159). Writes pa AND pb to pd. -/
  | pand (o : PL)
  /-- POR (R159). Writes pa OR pb to pd. -/
  | por (o : PL)
  /-- PXOR (R159). Writes pa XOR pb to pd. -/
  | pxor (o : PL)
  /-- PANDN (R159). Writes pa AND NOT pb to pd. -/
  | pandn (o : PL)
  /-- PORN (R159). Writes pa OR NOT pb to pd. -/
  | porn (o : PL)
  /-- PNAND (R159). Writes NOT (pa AND pb) to pd. -/
  | pnand (o : PL)
  /-- PNOR (R159). Writes NOT (pa OR pb) to pd. -/
  | pnor (o : PL)
  /-- PXNOR (R159). Writes NOT (pa XOR pb) to pd. -/
  | pxnor (o : PL)
  /-- FCMPEQ (R164). Floating-point equality compare into a predicate pair. -/
  | fcmpeq (o : FP)
  /-- FCMPLT (R164). Floating-point less-than compare, NV for any NaN. -/
  | fcmplt (o : FP)
  /-- FCMPLE (R164). Floating-point less-or-equal compare, NV for any NaN. -/
  | fcmple (o : FP)
  /-- FCMPUN (R164). Floating-point unordered compare. -/
  | fcmpun (o : FP)
  /-- FADD (R162). Scalar floating-point addition, rounded RNE. -/
  | fadd (o : FR)
  /-- FSUB (R162). Scalar floating-point subtraction. -/
  | fsub (o : FR)
  /-- FMUL (R162). Scalar floating-point multiplication. -/
  | fmul (o : FR)
  /-- FMA (R162). Fused multiply-add into gd with one rounding. -/
  | fma (o : FR)
  /-- FMIN (R163). Floating-point minimum with NaN and signed-zero rules. -/
  | fmin (o : FR)
  /-- FMAX (R163). Floating-point maximum with NaN and signed-zero rules. -/
  | fmax (o : FR)
  /-- FDIV (R162). Scalar floating-point division. -/
  | fdiv (o : FR)
  /-- FSQRT (R162). Scalar floating-point square root. -/
  | fsqrt (o : FR1)
  /-- FCVTSH (R165). Converts FP32 to FP16. -/
  | fcvtsh (o : RR)
  /-- FCVTSB (R165). Converts FP32 to BF16. -/
  | fcvtsb (o : RR)
  /-- FCVTHS (R165). Converts FP16 to FP32 exactly. -/
  | fcvths (o : RR)
  /-- FCVTBS (R165). Converts BF16 to FP32 exactly. -/
  | fcvtbs (o : RR)
  /-- FCVTSI (R165). Converts FP32 to signed 64-bit integer, truncating. -/
  | fcvtsi (o : RR)
  /-- FCVTIS (R165). Converts signed 64-bit integer to FP32. -/
  | fcvtis (o : RR)
  /-- FCVTHI (R165). Converts FP16 to signed 64-bit integer. -/
  | fcvthi (o : RR)
  /-- FCVTIH (R165). Converts signed 64-bit integer to FP16. -/
  | fcvtih (o : RR)
  /-- FCVTSU (R165). Converts FP32 to unsigned 64-bit integer. -/
  | fcvtsu (o : RR)
  /-- FCVTUS (R165). Converts unsigned 64-bit integer to FP32. -/
  | fcvtus (o : RR)
  /-- FCVTHB (R165). Converts FP16 to BF16. -/
  | fcvthb (o : RR)
  /-- FCVTBH (R165). Converts BF16 to FP16. -/
  | fcvtbh (o : RR)
  /-- BR (R166). Branches by a word displacement when its guard is true. -/
  | br (o : BT)
  /-- JAL (R166). Jumps by a word displacement and writes the link. -/
  | jal (o : RI)
  /-- JR (R166). Jumps to the address in ga and writes the link. -/
  | jr (o : RR)
  /-- LDB (R168). Loads a sign-extended byte. -/
  | ldb (o : LD)
  /-- LDH (R168). Loads a sign-extended half-word. -/
  | ldh (o : LD)
  /-- LDW (R168). Loads a sign-extended word. -/
  | ldw (o : LD)
  /-- LDD (R168). Loads a dword. -/
  | ldd (o : LD)
  /-- LDBU (R168). Loads a zero-extended byte. -/
  | ldbu (o : LD)
  /-- LDHU (R168). Loads a zero-extended half-word. -/
  | ldhu (o : LD)
  /-- LDWU (R168). Loads a zero-extended word. -/
  | ldwu (o : LD)
  /-- STB (R169). Sends a byte store to its home. -/
  | stb (o : ST)
  /-- STH (R169). Sends a half-word store to its home. -/
  | sth (o : ST)
  /-- STW (R169). Sends a word store to its home. -/
  | stw (o : ST)
  /-- STD (R169). Sends a dword store to its home. -/
  | std (o : ST)
  /-- LDX (R89). Synchronising load that waits for FULL, reads and empties the tile. -/
  | ldx (o : LD)
  /-- LDP (R89). Synchronising load that waits for FULL or LENT and leaves the tag. -/
  | ldp (o : LD)
  /-- STX (R89). Synchronising store that waits for EMPTY, writes 8 bytes and makes the tile FULL. -/
  | stx (o : ST)
  /-- TEMPTY (R95). Applies the TEMPTY row to each tile of a range. -/
  | tempty (o : TG)
  /-- TFULL (R95). Applies the TFULL row to each tile of a range. -/
  | tfull (o : TG)
  /-- TQRY (R95). Snapshots up to 16 tile states and watch bits into gd. -/
  | tqry (o : RRR)
  /-- TWAITF (R95). Waits until every tile of a range is FULL or LENT. -/
  | twaitf (o : TG)
  /-- TWAITE (R95). Waits until every tile of a range is EMPTY. -/
  | twaite (o : TG)
  /-- WATCH (R95). Registers the process as watch holder of each tile. -/
  | watch (o : TG)
  /-- UNWATCH (R95). Removes the process's watches on a range. -/
  | unwatch (o : TG)
  /-- WAITW (R95). Waits for the watch event and clears it. -/
  | waitw (o : Guard)
  /-- LDA (R244). Acquire load holding later accesses in scope until it completes. -/
  | lda (o : LA)
  /-- STL (R245). Release store sent after earlier accesses in scope complete. -/
  | stl (o : SL)
  /-- AMOADD (R238). Atomic add at the home. -/
  | amoadd (o : RRR)
  /-- AMOSMIN (R238). Atomic signed minimum at the home. -/
  | amosmin (o : RRR)
  /-- AMOSMAX (R238). Atomic signed maximum at the home. -/
  | amosmax (o : RRR)
  /-- AMOUMIN (R238). Atomic unsigned minimum at the home. -/
  | amoumin (o : RRR)
  /-- AMOUMAX (R238). Atomic unsigned maximum at the home. -/
  | amoumax (o : RRR)
  /-- AMOAND (R238). Atomic AND at the home. -/
  | amoand (o : RRR)
  /-- AMOOR (R238). Atomic OR at the home. -/
  | amoor (o : RRR)
  /-- AMOXOR (R238). Atomic XOR at the home. -/
  | amoxor (o : RRR)
  /-- AMOSWAP (R238). Atomic swap at the home. -/
  | amoswap (o : RRR)
  /-- AMOCAS (R238). Atomic compare-and-swap against g(b+1). -/
  | amocas (o : RRR)
  /-- VRSUM (R199). Reduces active lanes by sum into lane 0. -/
  | vrsum (o : VR)
  /-- VRMAX (R199). Reduces active lanes by maximum into lane 0. -/
  | vrmax (o : VR)
  /-- VRMIN (R199). Reduces active lanes by minimum into lane 0. -/
  | vrmin (o : VR)
  /-- VBCAST (R200). Broadcasts g[a] into every lane of vd. -/
  | vbcast (o : VB)
  /-- VEXT (R200). Extracts a lane zero-extended into gd. -/
  | vext (o : VM)
  /-- VEXTS (R200). Extracts a lane sign-extended into gd. -/
  | vexts (o : VM)
  /-- VINS (R200). Inserts g[a] into one lane of vd. -/
  | vins (o : VM)
  /-- VSEL (R201). Selects lanes of va or vb by the mask. -/
  | vsel (o : VX)
  /-- VPERM (R201). Permutes lanes of va by indices in vb. -/
  | vperm (o : VX)
  /-- VZIP (R201). Interleaves lanes of va and vb. -/
  | vzip (o : VX)
  /-- VUNZIP (R201). De-interleaves lanes of va and vb. -/
  | vunzip (o : VX)
  /-- QAND (R202). Mask AND. -/
  | qand (o : PL)
  /-- QOR (R202). Mask OR. -/
  | qor (o : PL)
  /-- QXOR (R202). Mask XOR. -/
  | qxor (o : PL)
  /-- QANDN (R202). Mask AND NOT. -/
  | qandn (o : PL)
  /-- QORN (R202). Mask OR NOT. -/
  | qorn (o : PL)
  /-- QNAND (R202). Mask NAND. -/
  | qnand (o : PL)
  /-- QNOR (R202). Mask NOR. -/
  | qnor (o : PL)
  /-- QXNOR (R202). Mask XNOR. -/
  | qxnor (o : PL)
  /-- FENCE (R247). Waits until earlier accesses of the before-mask classes in scope are complete. -/
  | fence (o : FN)
  /-- VADD_I (R193). Integer vector add modulo the lane size. -/
  | vaddI (o : VI)
  /-- VSUB_I (R193). Integer vector subtract. -/
  | vsubI (o : VI)
  /-- VMUL_I (R193). Integer vector multiply, low half. -/
  | vmulI (o : VI)
  /-- VMULH_I (R193). Integer vector signed multiply, high half. -/
  | vmulhI (o : VI)
  /-- VMIN_I (R193). Integer vector signed minimum. -/
  | vminI (o : VI)
  /-- VMAX_I (R193). Integer vector signed maximum. -/
  | vmaxI (o : VI)
  /-- VMINU (R193). Integer vector unsigned minimum. -/
  | vminu (o : VI)
  /-- VMAXU (R193). Integer vector unsigned maximum. -/
  | vmaxu (o : VI)
  /-- VAND (R193). Vector AND. -/
  | vand (o : VI)
  /-- VOR (R193). Vector OR. -/
  | vor (o : VI)
  /-- VXOR (R193). Vector XOR. -/
  | vxor (o : VI)
  /-- VANDN (R193). Vector AND NOT. -/
  | vandn (o : VI)
  /-- VSHL (R193). Vector shift left. -/
  | vshl (o : VI)
  /-- VSHR (R193). Vector logical shift right. -/
  | vshr (o : VI)
  /-- VSRA (R193). Vector arithmetic shift right. -/
  | vsra (o : VI)
  /-- VADDS (R194). Vector signed saturating add, setting SAT. -/
  | vadds (o : VI)
  /-- VADD_F16 (R195). FP16 vector add. -/
  | vaddF16 (o : VF)
  /-- VSUB_F16 (R195). FP16 vector subtract. -/
  | vsubF16 (o : VF)
  /-- VMUL_F16 (R195). FP16 vector multiply. -/
  | vmulF16 (o : VF)
  /-- VFMA_F16 (R195). FP16 vector fused multiply-add. -/
  | vfmaF16 (o : VF)
  /-- VMIN_F16 (R195). FP16 vector minimum. -/
  | vminF16 (o : VF)
  /-- VMAX_F16 (R195). FP16 vector maximum. -/
  | vmaxF16 (o : VF)
  /-- VABS_F16 (R195). FP16 vector absolute value by sign bit. -/
  | vabsF16 (o : VF1)
  /-- VNEG_F16 (R195). FP16 vector negation by sign bit. -/
  | vnegF16 (o : VF1)
  /-- VDIV_F16 (R195). FP16 vector divide. -/
  | vdivF16 (o : VF)
  /-- VSQRT_F16 (R195). FP16 vector square root. -/
  | vsqrtF16 (o : VF1)
  /-- VEXP2_F16 (R196). FP16 vector correctly rounded 2^a. -/
  | vexp2F16 (o : VF1)
  /-- VLOG2_F16 (R196). FP16 vector correctly rounded log2. -/
  | vlog2F16 (o : VF1)
  /-- VRCP_F16 (R196). FP16 vector correctly rounded reciprocal. -/
  | vrcpF16 (o : VF1)
  /-- VRSQ_F16 (R196). FP16 vector correctly rounded reciprocal square root. -/
  | vrsqF16 (o : VF1)
  /-- VADD_BF16 (R195). BF16 vector add. -/
  | vaddBf16 (o : VF)
  /-- VSUB_BF16 (R195). BF16 vector subtract. -/
  | vsubBf16 (o : VF)
  /-- VMUL_BF16 (R195). BF16 vector multiply. -/
  | vmulBf16 (o : VF)
  /-- VFMA_BF16 (R195). BF16 vector fused multiply-add. -/
  | vfmaBf16 (o : VF)
  /-- VMIN_BF16 (R195). BF16 vector minimum. -/
  | vminBf16 (o : VF)
  /-- VMAX_BF16 (R195). BF16 vector maximum. -/
  | vmaxBf16 (o : VF)
  /-- VABS_BF16 (R195). BF16 vector absolute value. -/
  | vabsBf16 (o : VF1)
  /-- VNEG_BF16 (R195). BF16 vector negation. -/
  | vnegBf16 (o : VF1)
  /-- VDIV_BF16 (R195). BF16 vector divide. -/
  | vdivBf16 (o : VF)
  /-- VSQRT_BF16 (R195). BF16 vector square root. -/
  | vsqrtBf16 (o : VF1)
  /-- VEXP2_BF16 (R196). BF16 vector 2^a. -/
  | vexp2Bf16 (o : VF1)
  /-- VLOG2_BF16 (R196). BF16 vector log2. -/
  | vlog2Bf16 (o : VF1)
  /-- VRCP_BF16 (R196). BF16 vector reciprocal. -/
  | vrcpBf16 (o : VF1)
  /-- VRSQ_BF16 (R196). BF16 vector reciprocal square root. -/
  | vrsqBf16 (o : VF1)
  /-- VADD_F32 (R195). FP32 vector add. -/
  | vaddF32 (o : VF)
  /-- VSUB_F32 (R195). FP32 vector subtract. -/
  | vsubF32 (o : VF)
  /-- VMUL_F32 (R195). FP32 vector multiply. -/
  | vmulF32 (o : VF)
  /-- VFMA_F32 (R195). FP32 vector fused multiply-add. -/
  | vfmaF32 (o : VF)
  /-- VMIN_F32 (R195). FP32 vector minimum. -/
  | vminF32 (o : VF)
  /-- VMAX_F32 (R195). FP32 vector maximum. -/
  | vmaxF32 (o : VF)
  /-- VABS_F32 (R195). FP32 vector absolute value. -/
  | vabsF32 (o : VF1)
  /-- VNEG_F32 (R195). FP32 vector negation. -/
  | vnegF32 (o : VF1)
  /-- VDIV_F32 (R195). FP32 vector divide. -/
  | vdivF32 (o : VF)
  /-- VSQRT_F32 (R195). FP32 vector square root. -/
  | vsqrtF32 (o : VF1)
  /-- VEXP2_F32 (R196). FP32 vector 2^a. -/
  | vexp2F32 (o : VF1)
  /-- VLOG2_F32 (R196). FP32 vector log2. -/
  | vlog2F32 (o : VF1)
  /-- VRCP_F32 (R196). FP32 vector reciprocal. -/
  | vrcpF32 (o : VF1)
  /-- VRSQ_F32 (R196). FP32 vector reciprocal square root. -/
  | vrsqF32 (o : VF1)
  /-- VCMPEQ (R197). Vector equality compare into a mask pair. -/
  | vcmpeq (o : VC)
  /-- VCMPNE (R197). Vector inequality compare into a mask pair. -/
  | vcmpne (o : VC)
  /-- VCMPLT (R197). Vector less-than compare. -/
  | vcmplt (o : VC)
  /-- VCMPLE (R197). Vector less-or-equal compare. -/
  | vcmple (o : VC)
  /-- VCMPLTU (R197). Vector unsigned less-than compare. -/
  | vcmpltu (o : VC)
  /-- VCMPLEU (R197). Vector unsigned less-or-equal compare. -/
  | vcmpleu (o : VC)
  /-- VCMPUN (R197). Vector unordered compare. -/
  | vcmpun (o : VC)
  /-- VCMPORD (R197). Vector ordered compare. -/
  | vcmpord (o : VC)
  /-- VCVT (R198). Converts active lanes between vector formats with a rounding mode. -/
  | vcvt (o : VV)
  /-- VLD (R192). Loads 128 window bytes in one access at the home. -/
  | vld (o : VL)
  /-- VST (R192). Stores 128 window bytes, encoding through windows 1–6, in one access. -/
  | vst (o : VS)
  /-- MMA (R220). Queues accN += A · B on the matrix array. -/
  | mma (o : MM)
  /-- SHAPE (R218). Loads and checks a 32-byte shape record into a shape register. -/
  | shape (o : SH)
  /-- ACZ (R219). Queues zeroing of an accumulator tile at an anchor. -/
  | acz (o : T1)
  /-- DRAIN (R228). Queues the staged conversion of an accumulator tile to a destination. -/
  | drain (o : T2)
  /-- TABLE (R224). Queues replacement of a table bank from general store. -/
  | table (o : T2)
  /-- ROWSUM (R223). Queues addition of scaled packed-B column sums into a tile. -/
  | rowsum (o : T2)
  /-- COLSUM (R223). Queues addition of scaled A row sums into a tile. -/
  | colsum (o : T2)
  /-- PACK (R222). Queues conversion of a B source into packed planes. -/
  | pack (o : T2)
  /-- UNPACK (R222). Queues conversion of packed B into FP32. -/
  | unpack (o : T2)
  /-- AREAD (R225). Queues a read of an accumulator cell part or status word. -/
  | aread (o : T2)
  /-- COPY (R112). Checks and hands a shaped copy to the copy unit. -/
  | copy (o : TC)
  /-- COPYS (R113). Hands a slab copy spread over a core rectangle to the copy unit. -/
  | copys (o : TC)
  /-- COPYA (R120). Hands an accumulator-tile sum piece to the copy unit. -/
  | copya (o : TC)
  /-- MCAST (R113). Hands a copy to every member of an open group. -/
  | mcast (o : TC)
  /-- REDG (R113). Hands a reduction of member accumulator tiles into a root tile. -/
  | redg (o : TC)
  /-- FLUSHOUT (R119). Hands an HBM frame to Borer for encoding into flash. -/
  | flushout (o : T2)
  /-- FETCHIN (R119). Hands a flash image to Borer for decoding into a frame, with optional push. -/
  | fetchin (o : TC)
  /-- MKCH (R141). Makes a channel from a free endpoint slot pair on the issuing core. -/
  | mkch (o : T2)
  /-- CLOSE (R144). Closes an endpoint, freeing its slot. -/
  | close (o : T1)
  /-- BIND (R142). Makes the process owner of an unbound endpoint. -/
  | bind (o : T1)
  /-- REBIND (R143). Moves an endpoint to another process. -/
  | rebind (o : T2)
  /-- SEND (R145). Sends a word on a channel. -/
  | send (o : T2)
  /-- RECV (R145). Receives a word from a channel. -/
  | recv (o : T2)
  /-- SENDT (R145). Sends a tile block on a channel. -/
  | sendt (o : T2)
  /-- RECVT (R145). Receives a tile block or waymark into destination tiles. -/
  | recvt (o : T2)
  /-- SENDD (R146). Lends a tensor or re-sends a waymark on a deferred channel. -/
  | sendd (o : T2)
  /-- PULL (R147). Starts pulls on VIA tiles of a range and waits for them. -/
  | pull (o : T2)
  /-- DROPW (R147). Drops a held waymark as R101 states. -/
  | dropw (o : T1)
  /-- ALT (R148). Waits on up to eight guards and takes the lowest ready one. -/
  | alt (o : T2)
  /-- ALTF (R148). Waits on guards, searching fairly from a start index. -/
  | altf (o : T2)
  /-- PROBE (R149). Returns a snapshot status of an endpoint. -/
  | probe (o : T2)
  /-- NOP (R303). Does nothing. -/
  | nop (o : Guard)
  /-- TRAP (R303). Raises SOFT with its immediate. -/
  | trap (o : TR)
  /-- TRAPRET (R303). Clears INH and resumes at TRAPPC. -/
  | trapret (o : Guard)
  /-- HALT (R303). Issues a halt command for its own core. -/
  | halt (o : Guard)
  /-- CTLR (R304). Reads a control register into gd. -/
  | ctlr (o : CR)
  /-- CTLW (R304). Writes a control register by its field access rules. -/
  | ctlw (o : CR)
  /-- SPAWN (R290). Creates a child process from a spawn record. -/
  | spawn (o : RR)
  /-- EXIT (R291). Ends the process after its accesses and macro-operations complete. -/
  | exit (o : Guard)
  /-- YIELD (R292). Makes the process a victim when an equal or higher ready process waits. -/
  | yield (o : Guard)
  /-- PRIO (R293). Sets the process priority and returns the old one. -/
  | prio (o : RR)
  /-- SLEEP (R294). Makes the process SLEEPING until DTIME reaches g[a]. -/
  | sleep (o : A1)
  /-- IFENCE (R249). Waits for acknowledgements and discards held instruction words. -/
  | ifence (o : Guard)
  /-- TLBINV (R308). Starts a shoot-down and waits for its completion. -/
  | tlbinv (o : A1)
  /-- REPART (R278). Moves the core one step to another register partition. -/
  | repart (o : A1)
  /-- QARM (R319). Arms a command queue from its queue control block. -/
  | qarm (o : RR)
  /-- CKPT_SAVE (R313). Writes a checkpoint image of the process (m = 0). -/
  | ckptSave (o : A1)
  /-- CKPT_RESTORE (R313). Restores the process from a checkpoint image (m = 1). -/
  | ckptRestore (o : A1)
  /-- GOPEN (R122). Opens a group from a member table. -/
  | gopen (o : RR)
  /-- GFREE (R123). Moves a group to DRAINING and waits for its pieces. -/
  | gfree (o : D1)
  /-- WHOAMI (R295). Returns a process word or status fields by selector. -/
  | whoami (o : WH)
  /-- PGET (R296). Packs the predicates into gd. -/
  | pget (o : D1)
  /-- PSET (R296). Sets p1–p7 from g[a]. -/
  | pset (o : A1)
  /-- STREAMRES (R314). Replays or refuses the parked request of a frozen stream. -/
  | streamres (o : RR)
  /-- LOAD_PERFORM (R233). A load request is performed at its home once its tag row lets it proceed. -/
  | loadPerform (id : Nat)
  /-- LOAD_COMPLETE (R168). A load's value reaches the issuing core and is written to its destination. -/
  | loadComplete (id : Nat)
  /-- STORE_PERFORM (R169). A store is performed at its home and acknowledged. -/
  | storePerform (id : Nat)
  /-- STORE_ACKNOWLEDGE (R170). An acknowledgement reaches the issuing core and releases waiting ordering. -/
  | storeAcknowledge (id : Nat)
  /-- HOLD_NOTICE (R170). A home's notice that a store waits on a LENT tile blocks the process. -/
  | holdNotice (id : Nat)
  /-- AMO_PERFORM (R238). An AMO or no-return reduction is performed at its home in one step. -/
  | amoPerform (id : Nat)
  /-- ABSMAX_MERGE (R228). DRAIN's absmax signed-max merge is performed at its home. -/
  | absmaxMerge (id : Nat)
  /-- PARK_RETRY (R85). A request returned for lack of park slots is sent again after 64 cycles. -/
  | parkRetry (id : Nat)
  /-- SYNC_LIMIT_EXPIRE (R87). A remote synchronising wait exceeds LIMIT, is withdrawn and traps SYNC-LIMIT. -/
  | syncLimitExpire (id : Nat)
  /-- WATCH_EVENT_MESSAGE (R92). A watch-event message sets the holder's event and ready bit. -/
  | watchEventMessage (id : Nat)
  /-- ARRIVAL_CLAIM (R82). An arrival claims a destination tile at its home by the Arrival-claims row. -/
  | arrivalClaim (id : Nat)
  /-- ARRIVAL_COMPLETE (R81). An arrival's data is written whole and the tile becomes FULL. -/
  | arrivalComplete (id : Nat)
  /-- COPY_ACCEPT (R107). The copy unit accepts a copy into a free slot. -/
  | copyAccept (core : Nat)
  /-- PIECE_DISPATCH (R114). The copy unit translates, claims and sends a piece to its source streamer. -/
  | pieceDispatch (core : Nat)
  /-- STREAMER_READ (R114). A streamer reads a piece's source by the LDP row and pushes it. -/
  | streamerRead (id : Nat)
  /-- COMPLETION_TILE_SET (R111). The copy unit applies TFULL to the completion tile once every piece is performed. -/
  | completionTileSet (core copyId : Nat)
  /-- COPYA_ACCUMULATE (R120). A COPYA or REDG piece adds truncated source cells into a FULL destination tile. -/
  | copyaAccumulate (id : Nat)
  /-- GROUP_DRAIN_COMPLETE (R123). A DRAINING group becomes FREE once its pieces are done. -/
  | groupDrainComplete (die group : Nat)
  /-- BORER_REQUEST (R73). Borer takes a FLUSHOUT or FETCHIN, refusing busy frames or bad ranges. -/
  | borerRequest (id : Nat)
  /-- FETCHIN_COMPLETE (R74). A FETCHIN's page writes and pushes are done and its completion tile becomes FULL. -/
  | fetchinComplete (id : Nat)
  /-- FLUSHOUT_COMPLETE (R72). A FLUSHOUT becomes durable and its completion tile becomes FULL. -/
  | flushoutComplete (id : Nat)
  /-- MIGRATION_COPY_DONE (R70). The page copy ends and the leaf is rewritten by compare or the migration abandoned. -/
  | migrationCopyDone (id : Nat)
  /-- END_MARKER (R70). The new home receives the end marker and performs later requests under the new translation. -/
  | endMarker (id : Nat)
  /-- MIGRATION_COUNT_EXPIRE (R69). A count whose oldest request is older than WINDOW is cleared. -/
  | migrationCountExpire (page requester : Nat)
  /-- PAGE_WALK (R66). A slice walker completes a table walk for a TLB miss. -/
  | pageWalk (id : Nat)
  /-- SHOOTDOWN_ACKNOWLEDGE (R67). A translation unit invalidates and acknowledges once its old requests are performed. -/
  | shootdownAcknowledge (id core : Nat)
  /-- SHOOTDOWN_COMPLETE (R67). The initiator holds every acknowledgement and the shoot-down is complete. -/
  | shootdownComplete (id : Nat)
  /-- PULL_READ (R100). The lender or its Scarab reads lent source bytes and sends the pull data. -/
  | pullRead (id : Nat)
  /-- LEND_RELEASE_MESSAGE (R101). A pull or release lowers the lender's count; at zero the source tiles return to FULL. -/
  | lendReleaseMessage (id : Nat)
  /-- RELINK (R103). A relink message moves a lend to a new holder and serves held pulls. -/
  | relink (id : Nat)
  /-- CHANNEL_SEND_ARRIVE (R133). A send reaches its channel home and waits or matches. -/
  | channelSendArrive (id : Nat)
  /-- CHANNEL_RECEIVE_ARRIVE (R133). A receive reaches its channel home and waits or matches. -/
  | channelReceiveArrive (id : Nat)
  /-- TRANSFER_FINISH (R133). The receiver completes, the pair returns to IDLE and held arrivals proceed. -/
  | transferFinish (core slot : Nat)
  /-- CHANNEL_TIMEOUT_EXPIRE (R136). A waiting channel operation's TIMEOUT expires and it traps CHAN-TIMEOUT. -/
  | channelTimeoutExpire (core pid : Nat)
  /-- TIMER_DEADLINE_EXPIRE (R139). A device timer's deadline passes and a waiting RECV returns DTIME. -/
  | timerDeadlineExpire (slot : Nat)
  /-- ALT_DEADLINE_EXPIRE (R148). A deadline guard becomes ready when DTIME reaches its value. -/
  | altDeadlineExpire (core pid : Nat)
  /-- UNBIND_REQUEST (R297). An exiting owner's unbinding request unbinds an end it still owns. -/
  | unbindRequest (id : Nat)
  /-- EXIT_COMPLETE (R291). An EXIT whose acknowledgements and unbindings are answered frees the process. -/
  | exitComplete (core pid : Nat)
  /-- PROMOTION_NOTICE (R235). A home's promotion notice makes the core wait for remote stores before releasing. -/
  | promotionNotice (id : Nat)
  /-- PROMOTED_RELEASE (R235). The core releases a held STL or send after its remote stores are acknowledged. -/
  | promotedRelease (id : Nat)
  /-- SLEEP_EXPIRE (R294). A SLEEPING process's deadline passes and it becomes ready. -/
  | sleepExpire (core pid : Nat)
  /-- SPAWN_CHILD_CREATE (R290). The target core creates a spawned child when a pid is free. -/
  | spawnChildCreate (id : Nat)
  /-- TASK_START (R281). An inbox record whose inputs and resources hold starts as a task. -/
  | taskStart (core slot : Nat)
  /-- EVENT_RECORD_POST (R284). A held record is posted into the privileged event queue when space appears. -/
  | eventRecordPost (die : Nat)
  /-- EVENT_RECORD_DELIVER (R284). The event queue delivers its oldest record into a free inbox slot. -/
  | eventRecordDeliver (die : Nat)
  /-- CONTEXT_SWITCH (R275). A victim leaves at an instruction boundary and the head of the queue becomes resident. -/
  | contextSwitch (core : Nat)
  /-- SLICE_ROTATION (R272). A RUNNING process reaching 4,096 instructions becomes a victim for a ready peer. -/
  | sliceRotation (core : Nat)
  /-- BLOCKED_WAIT_LIMIT (R272). A resident BLOCKED or SLEEPING process waiting 64 cycles becomes a victim. -/
  | blockedWaitLimit (core : Nat)
  /-- DEADLOCK_PROBE (R288). A die quiet for DLCTL.WAIT probes wait-for chains and reports cycles and stalls. -/
  | deadlockProbe (die : Nat)
  /-- MACRO_OP_START (R214). The sequencer starts the oldest eligible tile-queue entry. -/
  | macroOpStart (core : Nat)
  /-- MACRO_STEP_COMPLETE (R215). A macro-operation step ends and the operation continues, stops or completes. -/
  | macroStepComplete (core : Nat)
  /-- CAUSEWAY_REQUEST_RECEIVE (R256). A remote request is checked at the edge slice for region, key and class. -/
  | causewayRequestReceive (id : Nat)
  /-- FROZEN_NOTICE (R258). A frozen notice stops the source core sending the stream. -/
  | frozenNotice (id : Nat)
  /-- RESUME_MESSAGE (R258). A resume message makes the source resend discarded and held requests. -/
  | resumeMessage (id : Nat)
  /-- FLIT_RECEIVE (R252). A flit is checked by CRC and resent from the replay buffer on failure. -/
  | flitReceive (port peer : Nat) (crcGood : Bool) (reqCredits repCredits : Nat)
  /-- LINK_RETRAIN_COMPLETE (R252). A retraining link succeeds and posts a link-retrained notice, or fails and loses its peer. -/
  | linkRetrainComplete (port peer : Nat) (success : Bool)
  /-- LINK_SILENCE_TIMEOUT (R260). No flit from a peer for 50 us makes the peer lost. -/
  | linkSilenceTimeout (peer : Nat)
  /-- PARTITION_QUIESCE (R260). Survivors enter recovery, clean up and make every context take QUIESCE. -/
  | partitionQuiesce (peer : Nat)
  /-- LASER_RETUNE (R251). The least recently used laser retunes to a new peer. -/
  | laserRetune (port peer : Nat)
  /-- DTIME_ALIGN (R38). An idle-flit timestamp adjusts a member's DTIME rate towards the time master. -/
  | dtimeAlign (stamp : Nat)
  /-- TRAVEL_ADMIT (R263). A guest core admits a travel packet and readies the process. -/
  | travelAdmit (id : Nat)
  /-- TRAVEL_ACKNOWLEDGE (R263). The origin core retires the process's state on the admission acknowledgement. -/
  | travelAcknowledge (id : Nat)
  /-- DOORBELL (R320). A LUDOORBELL write makes the Launch Unit read WPTR and process packets. -/
  | doorbell (queue : Nat)
  /-- LUARM (R319). A LUARM write arms a queue as QARM does. -/
  | luarm (value : BitVec 64)
  /-- LUPREEMPT (R317). A LUPREEMPT write issues a HALTCTL command to each named die. -/
  | lupreempt (value : BitVec 64)
  /-- NOP_PACKET (R321). A NOP packet is skipped. -/
  | nopPacket (queue : Nat)
  /-- LAUNCH (R325). A LAUNCH packet is checked and its target core chosen. -/
  | launch (queue : Nat)
  /-- LAUNCH_RECORD_WRITE (R325). Once free of conflicts and with an inbox slot, the record is pre-translated and written. -/
  | launchRecordWrite (queue : Nat)
  /-- WAIT (R324). A WAIT packet holds its queue until its predicate on memory holds. -/
  | wait (queue : Nat)
  /-- WAIT_POLL (R324). The Launch Unit rereads a WAIT word at least once per microsecond. -/
  | waitPoll (queue : Nat)
  /-- RELEASE (R324). A RELEASE packet waits for earlier tasks to exit. -/
  | release (queue : Nat)
  /-- RELEASE_PERFORM (R324). The RELEASE store is performed as an STL at its scope. -/
  | releasePerform (queue : Nat)
  /-- INDIRECT (R324). An INDIRECT packet processes packets at another address. -/
  | indirect (queue : Nat)
  /-- LOOP (R324). A LOOP packet repeats the next N packets C times. -/
  | loop (queue : Nat)
  /-- FETCHFENCE (R323). A FETCHFENCE discards prefetched packet bytes beyond itself. -/
  | fetchfence (queue : Nat)
  /-- TASK_EXIT_REPORT (R326). A core reports a task's EXIT, removing it from the in-flight table. -/
  | taskExitReport (id : Nat)
  /-- HALT_COMMAND (R310). A HALTCTL write with RUN = 0 halts the named cores. -/
  | haltCommand (die : Nat) (value : BitVec 64)
  /-- RESUME_COMMAND (R310). A HALTCTL write with RUN = 1 resumes issue on the named cores. -/
  | resumeCommand (die : Nat) (value : BitVec 64)
  /-- CORE_HALTED (R311). A core reaches its halted state at an instruction boundary. -/
  | coreHalted (core : Nat)
  /-- PGNOTE_RESUME (R307). A PGNOTE write with ACT 00 posts the notice and readies the process to re-execute. -/
  | pgnoteResume (die : Nat) (value : BitVec 64)
  /-- PGNOTE_DELIVER_PAGE (R307). A PGNOTE write with ACT 01 readies the process to take PAGE. -/
  | pgnoteDeliverPage (die : Nat) (value : BitVec 64)
  /-- PGNOTE_DELIVER_PROT (R307). A PGNOTE write with ACT 10 readies the process to take PROT. -/
  | pgnoteDeliverProt (die : Nat) (value : BitVec 64)
  /-- RGNCTL_COMMIT (R255). A RGNCTL write commits a region entry to every die. -/
  | rgnctlCommit (value : BitVec 64)
  /-- CORECTL_HOLD (R279). A CORECTL write sets HOLD, making unprivileged residents leave. -/
  | corectlHold (core : Nat) (value : BitVec 64)
  /-- IOEPNEW_ENDPOINT (R329). An AMOSWAP to IOEPNEW with KIND 1 creates an IO endpoint. -/
  | ioepnewEndpoint (id : Nat)
  /-- IOEPNEW_TIMER (R329). An AMOSWAP to IOEPNEW with KIND 2 creates a timer. -/
  | ioepnewTimer (id : Nat)
  /-- CONTROL_REGISTER_WRITE (R304). A write to a register with no row of its own updates its fields. -/
  | controlRegisterWrite (die core number : Nat) (value : BitVec 64)
  /-- EVREADY (R334). Mailbox command setting EVCTL.EN on named dies. -/
  | evready
  /-- SENSORS (R334). Mailbox command returning sensor readings. -/
  | sensors
  /-- ERRLOG (R334). Mailbox command returning error-log entries. -/
  | errlog
  /-- UPDATE (R334). Mailbox command writing an image chunk into copy B and verifying the last. -/
  | update
  /-- SPDM (R334). Mailbox command carrying one SPDM request message. -/
  | spdm
  /-- MEASURE (R334). Mailbox command returning the measurement log. -/
  | measure
  /-- MAILBOX_UNKNOWN_COMMAND (R334). An unlisted mailbox command completes with RESULT 1. -/
  | mailboxUnknownCommand
  /-- MODULE_RESET (R331). Module reset sets reset state and increments the incarnation. -/
  | moduleReset
  /-- BOOT_STAGE (R330). Firefly verifies a boot stage image, falling back to its other copy. -/
  | bootStage (stage : Nat)
  /-- DIE_ENTER_SERVICE (R332). A die enters service with a die-reset event on its queue. -/
  | dieEnterService (die : Nat)
  /-- FULL_SERVICE (R332). Firefly raises die 0 to 1.1 GHz, ends forced redundancy and sets FULL. -/
  | fullService
  /-- CORRECTED_ERROR (R315). A corrected ECC error is counted and logged by Firefly. -/
  | correctedError (unit cause addr : Nat)
  /-- ETHERNET_FRAME_RECEIVE (R139). A received frame lands in the next receive-ring slot or is dropped and counted. -/
  | ethernetFrameReceive (port : Nat) (frame : List (BitVec 8))
  /-- TOKEN_BUCKET_REFILL (R259). Tokens are added to an address space's bucket each microsecond up to BURST, letting a request-class flit that waits for a token proceed. -/
  | tokenBucketRefill (die asid : Nat)
  /-- FIREFLY_PEER_DOWN_REPORT (R260). Firefly on either module reports a peer down, making it lost and starting the quiesce. -/
  | fireflyPeerDownReport (peer : Nat)
  /-- ETHERNET_FRAME_TRANSMIT (R139). A port finishes sending a frame from its transmit-ring slot, freeing that slot for a later SENDT. -/
  | ethernetFrameTransmit (port : Nat)
  /-- HOST_QUEUE_MESSAGE (R139). Host-core software puts a message into, or takes one from, a host-queue IO endpoint, whose other end is the host software. -/
  | hostQueueMessage (slot : Nat) (message : Option (List (BitVec 8)))
  /-- POWER_LOSS (R72). The module loses power; only FLUSHOUTs already complete remain durable in flash, and the next power-up is a module reset. -/
  | powerLoss
  deriving DecidableEq, Repr

end Sys2Proof
end

