-- ==== Sys2Proof/WellFormed.lean ====
section
/-! DEFINITION. Which instruction terms are words of the machine: the value checks of spec/03_encoding.md R48 to R50 that the operand
types do not rule out by themselves, each refused under its own name. The numbers that a device step names must name a part. -/
namespace Sys2Proof

/-- Why a word or a term is no instruction. Each is the ILLEGAL case of R41 that its docstring names. -/
inductive DecodeError where
  /-- A major marked reserved in R51. -/
  | reservedMajor
  /-- A sub-op code that R51 does not list. -/
  | unlistedSubOp
  /-- A field holds a reserved value: fmt 11, a type code, a rounding code, a lane size, a scope, an empty fence mask (R48, R50, R247). -/
  | reservedField
  /-- A field drawn as zero is not zero (R48). -/
  | nonzeroZeroField
  /-- One p or q register is named as both destinations (R49). -/
  | samePair
  /-- The bytes end before the word does. -/
  | truncated
  /-- A device step names a core, die, queue, port or stage that the module does not have. -/
  | noSuchPart
  deriving DecidableEq, Repr

/-- R49: a word that names one register other than p0 or q0 as both destinations is no instruction. -/
def pairFlaw (t f : BitVec 3) : Option DecodeError := if t = f ∧ t ≠ 0 then some .samePair else none

/-- The vector types that are integers (R48). -/
def VTy.isInt : VTy → Bool
  | .i8 | .i16 | .i32 => true
  | .f16 | .bf16 | .f32 => false

/-- R50: LTU and LEU need an integer type. -/
def intOnly (o : VC) : Option DecodeError := (pairFlaw o.qT o.qF).or (if o.ty.isInt then none else some .reservedField)
/-- R50: UN and ORD need a float type. -/
def floatOnly (o : VC) : Option DecodeError := (pairFlaw o.qT o.qF).or (if o.ty.isInt then some .reservedField else none)
/-- R48, R247: a mask of zero or scope AUTO. -/
def fenceFlaw (o : FN) : Option DecodeError :=
  if o.before = 0 ∨ o.after = 0 ∨ o.scope = .auto then some .reservedField else none
/-- A part number must be below its count. -/
def partFlaw (n k : Nat) : Option DecodeError := if n < k then none else some .noSuchPart

/-- The flaw of an ill-formed term; none for a well-formed one. -/
def Instr.flaw : Instr → Option DecodeError
  | .cmpeq o => pairFlaw o.pT o.pF
  | .cmpne o => pairFlaw o.pT o.pF
  | .cmplt o => pairFlaw o.pT o.pF
  | .cmple o => pairFlaw o.pT o.pF
  | .cmpgt o => pairFlaw o.pT o.pF
  | .cmpge o => pairFlaw o.pT o.pF
  | .cmpltu o => pairFlaw o.pT o.pF
  | .cmpleu o => pairFlaw o.pT o.pF
  | .cmpgtu o => pairFlaw o.pT o.pF
  | .cmpgeu o => pairFlaw o.pT o.pF
  | .cmpeqi o => pairFlaw o.pT o.pF
  | .cmpnei o => pairFlaw o.pT o.pF
  | .cmplti o => pairFlaw o.pT o.pF
  | .cmplei o => pairFlaw o.pT o.pF
  | .cmpgti o => pairFlaw o.pT o.pF
  | .cmpgei o => pairFlaw o.pT o.pF
  | .cmpltui o => pairFlaw o.pT o.pF
  | .cmpleui o => pairFlaw o.pT o.pF
  | .cmpgtui o => pairFlaw o.pT o.pF
  | .cmpgeui o => pairFlaw o.pT o.pF
  | .fcmpeq o => pairFlaw o.pT o.pF
  | .fcmplt o => pairFlaw o.pT o.pF
  | .fcmple o => pairFlaw o.pT o.pF
  | .fcmpun o => pairFlaw o.pT o.pF
  | .fence o => fenceFlaw o
  | .vcmpeq o => pairFlaw o.qT o.qF
  | .vcmpne o => pairFlaw o.qT o.qF
  | .vcmplt o => pairFlaw o.qT o.qF
  | .vcmple o => pairFlaw o.qT o.qF
  | .vcmpltu o => intOnly o
  | .vcmpleu o => intOnly o
  | .vcmpun o => floatOnly o
  | .vcmpord o => floatOnly o
  | .vcvt o => if o.src = o.dst then some .reservedField else none
  | .whoami o => if o.sel = 3 then some .reservedField else none
  | .copyAccept core => partFlaw core 1536
  | .pieceDispatch core => partFlaw core 1536
  | .completionTileSet core _ => partFlaw core 1536
  | .groupDrainComplete die _ => partFlaw die 4
  -- the acknowledgement of module m comes as that of part 2000 + m
  | .shootdownAcknowledge _ core => if 2000 ≤ core ∧ core < 2128 then none else partFlaw core 1536
  | .transferFinish core _ => partFlaw core 1536
  | .channelTimeoutExpire core _ => partFlaw core 1536
  | .altDeadlineExpire core _ => partFlaw core 1536
  | .exitComplete core _ => partFlaw core 1536
  | .sleepExpire core _ => partFlaw core 1536
  | .taskStart core _ => partFlaw core 1536
  | .eventRecordPost die => partFlaw die 4
  | .eventRecordDeliver die => partFlaw die 4
  | .contextSwitch core => partFlaw core 1536
  | .sliceRotation core => partFlaw core 1536
  | .blockedWaitLimit core => partFlaw core 1536
  | .deadlockProbe die => partFlaw die 4
  | .macroOpStart core => partFlaw core 1536
  | .macroStepComplete core => partFlaw core 1536
  | .flitReceive port _ _ _ _ => partFlaw port 8
  | .linkRetrainComplete port _ _ => partFlaw port 8
  | .laserRetune port _ => partFlaw port 8
  | .doorbell queue => partFlaw queue 256
  | .nopPacket queue => partFlaw queue 256
  | .launch queue => partFlaw queue 256
  | .launchRecordWrite queue => partFlaw queue 256
  | .wait queue => partFlaw queue 256
  | .waitPoll queue => partFlaw queue 256
  | .release queue => partFlaw queue 256
  | .releasePerform queue => partFlaw queue 256
  | .indirect queue => partFlaw queue 256
  | .loop queue => partFlaw queue 256
  | .fetchfence queue => partFlaw queue 256
  | .haltCommand die _ => partFlaw die 4
  | .resumeCommand die _ => partFlaw die 4
  | .coreHalted core => partFlaw core 1536
  | .pgnoteResume die _ => partFlaw die 4
  | .pgnoteDeliverPage die _ => partFlaw die 4
  | .pgnoteDeliverProt die _ => partFlaw die 4
  | .corectlHold core _ => partFlaw core 1536
  | .controlRegisterWrite die core _ _ => (partFlaw die 4).or (partFlaw core 1536)
  | .bootStage stage => partFlaw stage 8
  | .dieEnterService die => partFlaw die 4
  | .ethernetFrameReceive port _ => partFlaw port 4
  | .tokenBucketRefill die _ => partFlaw die 4
  | .ethernetFrameTransmit port => partFlaw port 4
  | .add _ | .sub _ | .and _ | .or _ | .xor _ | .andn _ | .shl _ | .shr _ | .sra _ | .rol _ | .min _ | .max _ | .minu _ |
    .maxu _ | .adds _ | .subs _ | .mul _ | .mulh _ | .mulhu _ | .mulhsu _ | .div _ | .divu _ | .rem _ | .remu _ | .clz _ |
    .ctz _ | .popc _ | .brev _ | .bfx _ | .bfi _ | .addi _ | .andi _ | .ori _ | .xori _ | .shli _ | .shri _ | .srai _ |
    .roli _ | .imm _ | .immh _ | .pand _ | .por _ | .pxor _ | .pandn _ | .porn _ | .pnand _ | .pnor _ | .pxnor _ | .fadd _ |
    .fsub _ | .fmul _ | .fma _ | .fmin _ | .fmax _ | .fdiv _ | .fsqrt _ | .fcvtsh _ | .fcvtsb _ | .fcvths _ | .fcvtbs _ |
    .fcvtsi _ | .fcvtis _ | .fcvthi _ | .fcvtih _ | .fcvtsu _ | .fcvtus _ | .fcvthb _ | .fcvtbh _ | .br _ | .jal _ | .jr _ |
    .ldb _ | .ldh _ | .ldw _ | .ldd _ | .ldbu _ | .ldhu _ | .ldwu _ | .stb _ | .sth _ | .stw _ | .std _ | .ldx _ | .ldp _ |
    .stx _ | .tempty _ | .tfull _ | .tqry _ | .twaitf _ | .twaite _ | .watch _ | .unwatch _ | .waitw _ | .lda _ | .stl _ |
    .amoadd _ | .amosmin _ | .amosmax _ | .amoumin _ | .amoumax _ | .amoand _ | .amoor _ | .amoxor _ | .amoswap _ | .amocas _ |
    .vrsum _ | .vrmax _ | .vrmin _ | .vbcast _ | .vext _ | .vexts _ | .vins _ | .vsel _ | .vperm _ | .vzip _ | .vunzip _ |
    .qand _ | .qor _ | .qxor _ | .qandn _ | .qorn _ | .qnand _ | .qnor _ | .qxnor _ | .vaddI _ | .vsubI _ | .vmulI _ |
    .vmulhI _ | .vminI _ | .vmaxI _ | .vminu _ | .vmaxu _ | .vand _ | .vor _ | .vxor _ | .vandn _ | .vshl _ | .vshr _ |
    .vsra _ | .vadds _ | .vaddF16 _ | .vsubF16 _ | .vmulF16 _ | .vfmaF16 _ | .vminF16 _ | .vmaxF16 _ | .vabsF16 _ |
    .vnegF16 _ | .vdivF16 _ | .vsqrtF16 _ | .vexp2F16 _ | .vlog2F16 _ | .vrcpF16 _ | .vrsqF16 _ | .vaddBf16 _ | .vsubBf16 _ |
    .vmulBf16 _ | .vfmaBf16 _ | .vminBf16 _ | .vmaxBf16 _ | .vabsBf16 _ | .vnegBf16 _ | .vdivBf16 _ | .vsqrtBf16 _ |
    .vexp2Bf16 _ | .vlog2Bf16 _ | .vrcpBf16 _ | .vrsqBf16 _ | .vaddF32 _ | .vsubF32 _ | .vmulF32 _ | .vfmaF32 _ | .vminF32 _ |
    .vmaxF32 _ | .vabsF32 _ | .vnegF32 _ | .vdivF32 _ | .vsqrtF32 _ | .vexp2F32 _ | .vlog2F32 _ | .vrcpF32 _ | .vrsqF32 _ |
    .vld _ | .vst _ | .mma _ | .shape _ | .acz _ | .drain _ | .table _ | .rowsum _ | .colsum _ | .pack _ | .unpack _ |
    .aread _ | .copy _ | .copys _ | .copya _ | .mcast _ | .redg _ | .flushout _ | .fetchin _ | .mkch _ | .close _ | .bind _ |
    .rebind _ | .send _ | .recv _ | .sendt _ | .recvt _ | .sendd _ | .pull _ | .dropw _ | .alt _ | .altf _ | .probe _ |
    .nop _ | .trap _ | .trapret _ | .halt _ | .ctlr _ | .ctlw _ | .spawn _ | .exit _ | .yield _ | .prio _ | .sleep _ |
    .ifence _ | .tlbinv _ | .repart _ | .qarm _ | .ckptSave _ | .ckptRestore _ | .gopen _ | .gfree _ | .pget _ | .pset _ |
    .streamres _ | .loadPerform _ | .loadComplete _ | .storePerform _ | .storeAcknowledge _ | .holdNotice _ | .amoPerform _ |
    .absmaxMerge _ | .parkRetry _ | .syncLimitExpire _ | .watchEventMessage _ | .arrivalClaim _ | .arrivalComplete _ |
    .streamerRead _ | .copyaAccumulate _ | .borerRequest _ | .fetchinComplete _ | .flushoutComplete _ | .migrationCopyDone _ |
    .endMarker _ | .migrationCountExpire _ _ | .pageWalk _ | .shootdownComplete _ | .pullRead _ | .lendReleaseMessage _ |
    .relink _ | .channelSendArrive _ | .channelReceiveArrive _ | .timerDeadlineExpire _ | .unbindRequest _ |
    .promotionNotice _ | .promotedRelease _ | .spawnChildCreate _ | .causewayRequestReceive _ | .frozenNotice _ |
    .resumeMessage _ | .linkSilenceTimeout _ | .partitionQuiesce _ | .dtimeAlign _ | .travelAdmit _ | .travelAcknowledge _ |
    .luarm _ | .lupreempt _ | .taskExitReport _ | .rgnctlCommit _ | .ioepnewEndpoint _ | .ioepnewTimer _ | .evready |
    .sensors | .errlog | .update | .spdm | .measure | .mailboxUnknownCommand | .moduleReset | .fullService |
    .correctedError _ _ _ | .fireflyPeerDownReport _ | .hostQueueMessage _ _ | .powerLoss => none

/-- A term that is an instruction word, or a step of a part that exists. -/
def Instr.wellFormed (i : Instr) : Bool := i.flaw.isNone

end Sys2Proof
end

