-- ==== Sys2Proof/Decode.lean ====
section
/-! DEFINITION. The decoder and the encoder of instruction words, both written from the tables of spec/03_encoding.md (R39, R48, R51):
a word is read as one number with bit 0 the least significant; its bytes lie little-endian. Decoding is total: a word that is no
instruction is refused under the name of the ILLEGAL case it falls under (R41). -/
namespace Sys2Proof

/-! ## Fields and codes -/

/-- Bits [lo + n - 1 : lo] of w. -/
def fld (w lo n : Nat) : Nat := w / 2 ^ lo % 2 ^ n
/-- Fields laid side by side, the first the most significant; each pair is a value and its width. -/
def pack (fs : List (Nat × Nat)) : Nat := fs.foldl (fun acc f => acc * 2 ^ f.2 + f.1) 0

/-- The guard code: N and pred together (R39). -/
def Guard.code (g : Guard) : Nat := (if g.neg then 8 else 0) + g.p.toNat
/-- The guard of a word. -/
def guardOf (w : Nat) : Guard := ⟨decide (fld w 31 1 = 1), BitVec.ofNat 3 (fld w 28 3)⟩
/-- The never guard 0b1000 (R40). -/
def Guard.never (g : Guard) : Bool := g.neg && decide (g.p = 0)

/-- The code of a Scope (R48). -/
def Scope.code : Scope → Nat
  | .core => 0
  | .pkg => 1
  | .sys => 2
  | .auto => 3
/-- The Scope that a code names; none for a reserved code. -/
def Scope.ofCode (n : Nat) : Option Scope :=
  match n with
  | 0 => some .core
  | 1 => some .pkg
  | 2 => some .sys
  | 3 => some .auto
  | _ => none

/-- The code of a FFmt (R48). -/
def FFmt.code : FFmt → Nat
  | .f32 => 0
  | .f16 => 1
  | .bf16 => 2
/-- The FFmt that a code names; none for a reserved code. -/
def FFmt.ofCode (n : Nat) : Option FFmt :=
  match n with
  | 0 => some .f32
  | 1 => some .f16
  | 2 => some .bf16
  | _ => none

/-- The code of a VTy (R48). -/
def VTy.code : VTy → Nat
  | .i8 => 0
  | .i16 => 1
  | .i32 => 2
  | .f16 => 3
  | .bf16 => 4
  | .f32 => 5
/-- The VTy that a code names; none for a reserved code. -/
def VTy.ofCode (n : Nat) : Option VTy :=
  match n with
  | 0 => some .i8
  | 1 => some .i16
  | 2 => some .i32
  | 3 => some .f16
  | 4 => some .bf16
  | 5 => some .f32
  | _ => none

/-- The code of a CTy (R48). -/
def CTy.code : CTy → Nat
  | .i8 => 0
  | .i16 => 1
  | .i32 => 2
  | .f16 => 3
  | .bf16 => 4
  | .f32 => 5
  | .e4m3 => 6
  | .e5m2 => 7
/-- The CTy that a code names; none for a reserved code. -/
def CTy.ofCode (n : Nat) : Option CTy :=
  match n with
  | 0 => some .i8
  | 1 => some .i16
  | 2 => some .i32
  | 3 => some .f16
  | 4 => some .bf16
  | 5 => some .f32
  | 6 => some .e4m3
  | 7 => some .e5m2
  | _ => none

/-- The code of a LSize (R48). -/
def LSize.code : LSize → Nat
  | .b8 => 0
  | .b16 => 1
  | .b32 => 2
/-- The LSize that a code names; none for a reserved code. -/
def LSize.ofCode (n : Nat) : Option LSize :=
  match n with
  | 0 => some .b8
  | 1 => some .b16
  | 2 => some .b32
  | _ => none

/-- The code of a Rm (R48). -/
def Rm.code : Rm → Nat
  | .rne => 0
  | .rtz => 1
  | .rup => 2
  | .rdn => 3
  | .rto => 4
/-- The Rm that a code names; none for a reserved code. -/
def Rm.ofCode (n : Nat) : Option Rm :=
  match n with
  | 0 => some .rne
  | 1 => some .rtz
  | 2 => some .rup
  | 3 => some .rdn
  | 4 => some .rto
  | _ => none

/-- A coded field that must not be reserved. -/
def coded {α : Type} (x : Option α) : Except DecodeError α :=
  match x with
  | some v => .ok v
  | none => .error .reservedField
/-- A field drawn as zero (R48). -/
def zeroField (v : Nat) : Except DecodeError Unit := if v = 0 then .ok () else .error .nonzeroZeroField

/-! ## Packing: the payload formats of R48, each below guard [31:28] and major [27:22] -/

def packRRR (maj f : Nat) (o : RRR) : Nat :=
  pack [(o.gu.code, 4), (maj, 6), (o.d.toNat, 6), (o.a.toNat, 6), (o.b.toNat, 6), (f, 4)]
def packRR (maj f : Nat) (o : RR) : Nat :=
  pack [(o.gu.code, 4), (maj, 6), (o.d.toNat, 6), (o.a.toNat, 6), (f, 10)]
def packRRI (maj : Nat) (o : RRI) : Nat :=
  pack [(o.gu.code, 4), (maj, 6), (o.d.toNat, 6), (o.a.toNat, 6), (o.imm.toNat, 10)]
def packSHI (maj f : Nat) (o : SHI) : Nat :=
  pack [(o.gu.code, 4), (maj, 6), (o.d.toNat, 6), (o.a.toNat, 6), (f, 2), (0, 2), (o.amt.toNat, 6)]
def packRI (maj : Nat) (o : RI) : Nat :=
  pack [(o.gu.code, 4), (maj, 6), (o.d.toNat, 6), (o.imm.toNat, 16)]
def packCP (maj f : Nat) (o : CP) : Nat :=
  pack [(o.gu.code, 4), (maj, 6), (o.pT.toNat, 3), (o.pF.toNat, 3), (o.a.toNat, 6), (o.b.toNat, 6), (f, 4)]
def packCPI (maj f : Nat) (o : CPI) : Nat :=
  pack [(o.gu.code, 4), (maj, 6), (o.pT.toNat, 3), (o.pF.toNat, 3), (o.a.toNat, 6), (f, 4), (o.imm.toNat, 6)]
def packPL (maj f : Nat) (o : PL) : Nat :=
  pack [(o.gu.code, 4), (maj, 6), (o.d.toNat, 3), (o.a.toNat, 3), (o.b.toNat, 3), (f, 3), (0, 10)]
def packFP (maj f : Nat) (o : FP) : Nat :=
  pack [(o.gu.code, 4), (maj, 6), (o.pT.toNat, 3), (o.pF.toNat, 3), (o.a.toNat, 6), (o.b.toNat, 6), (o.fmt.code, 2), (f, 2)]
def packFR (maj f : Nat) (o : FR) : Nat :=
  pack [(o.gu.code, 4), (maj, 6), (o.d.toNat, 6), (o.a.toNat, 6), (o.b.toNat, 6), (o.fmt.code, 2), (f, 2)]
def packFR1 (maj f : Nat) (o : FR1) : Nat :=
  pack [(o.gu.code, 4), (maj, 6), (o.d.toNat, 6), (o.a.toNat, 6), (0, 6), (o.fmt.code, 2), (f, 2)]
def packBT (maj : Nat) (o : BT) : Nat :=
  pack [(o.gu.code, 4), (maj, 6), (o.disp.toNat, 22)]
def packLD (maj : Nat) (o : LD) : Nat :=
  pack [(o.gu.code, 4), (maj, 6), (o.d.toNat, 6), (o.a.toNat, 6), (o.l.toNat, 4), (o.disp.toNat, 6)]
def packST (maj : Nat) (o : ST) : Nat :=
  pack [(o.gu.code, 4), (maj, 6), (o.s.toNat, 6), (o.a.toNat, 6), (o.disp.toNat, 10)]
def packTG (maj f : Nat) (o : TG) : Nat :=
  pack [(o.gu.code, 4), (maj, 6), (0, 6), (o.a.toNat, 6), (o.b.toNat, 6), (f, 4)]
def packG0 (maj f : Nat) (o : Guard) : Nat :=
  pack [(o.code, 4), (maj, 6), (f, 22)]
def packLA (maj : Nat) (o : LA) : Nat :=
  pack [(o.gu.code, 4), (maj, 6), (o.d.toNat, 6), (o.a.toNat, 6), (o.l.toNat, 4), (o.scope.code, 2), (o.disp.toNat, 4)]
def packSL (maj : Nat) (o : SL) : Nat :=
  pack [(o.gu.code, 4), (maj, 6), (o.s.toNat, 6), (o.a.toNat, 6), (o.scope.code, 2), (o.disp.toNat, 8)]
def packVR (maj f : Nat) (o : VR) : Nat :=
  pack [(o.gu.code, 4), (maj, 6), (o.vd.toNat, 5), (o.va.toNat, 5), (o.ty.code, 3), (o.q.toNat, 3), (f, 2), (0, 4)]
def packVB (maj f : Nat) (o : VB) : Nat :=
  pack [(o.gu.code, 4), (maj, 6), (o.v.toNat, 5), (o.g.toNat, 6), (0, 5), (o.size.code, 2), (f, 4)]
def packVM (maj f : Nat) (o : VM) : Nat :=
  pack [(o.gu.code, 4), (maj, 6), (o.v.toNat, 5), (o.g.toNat, 6), (o.lane.toNat, 5), (o.size.code, 2), (f, 4)]
def packVX (maj f : Nat) (o : VX) : Nat :=
  pack [(o.gu.code, 4), (maj, 6), (o.vd.toNat, 5), (o.va.toNat, 5), (o.vb.toNat, 5), (o.q.toNat, 3), (f, 2), (o.size.code, 2)]
def packFN (maj : Nat) (o : FN) : Nat :=
  pack [(o.gu.code, 4), (maj, 6), (o.before.toNat, 6), (o.after.toNat, 6), (o.scope.code, 2), (0, 8)]
def packVI (maj f : Nat) (o : VI) : Nat :=
  pack [(o.gu.code, 4), (maj, 6), (o.vd.toNat, 5), (o.va.toNat, 5), (o.vb.toNat, 5), (o.q.toNat, 3), (f, 4)]
def packVF (maj f : Nat) (o : VF) : Nat :=
  pack [(o.gu.code, 4), (maj, 6), (o.vd.toNat, 5), (o.va.toNat, 5), (o.vb.toNat, 5), (o.q.toNat, 3), (f, 4)]
def packVF1 (maj f : Nat) (o : VF1) : Nat :=
  pack [(o.gu.code, 4), (maj, 6), (o.vd.toNat, 5), (o.va.toNat, 5), (0, 5), (o.q.toNat, 3), (f, 4)]
def packVC (maj f : Nat) (o : VC) : Nat :=
  pack [(o.gu.code, 4), (maj, 6), (o.qT.toNat, 3), (o.qF.toNat, 3), (o.va.toNat, 5), (o.vb.toNat, 5), (o.ty.code, 3), (f, 3)]
def packVV (maj : Nat) (o : VV) : Nat :=
  pack [(o.gu.code, 4), (maj, 6), (o.vd.toNat, 5), (o.va.toNat, 5), (o.src.code, 3), (o.dst.code, 3), (o.rm.code, 3), (o.q.toNat, 3)]
def packVL (maj : Nat) (o : VL) : Nat :=
  pack [(o.gu.code, 4), (maj, 6), (o.vd.toNat, 5), (o.a.toNat, 6), (o.l.toNat, 4), (o.q.toNat, 3), (o.disp.toNat, 4)]
def packVS (maj : Nat) (o : VS) : Nat :=
  pack [(o.gu.code, 4), (maj, 6), (o.vs.toNat, 5), (o.a.toNat, 6), (o.rm.code, 3), (o.q.toNat, 3), (o.disp.toNat, 5)]
def packMM (maj : Nat) (o : MM) : Nat :=
  pack [(o.gu.code, 4), (maj, 6), (o.a.toNat, 6), (o.b.toNat, 6), (o.l.toNat, 4), (o.acc.toNat, 3), (o.pair.toNat, 2), (o.r.toNat, 1)]
def packSH (maj f : Nat) (o : SH) : Nat :=
  pack [(o.gu.code, 4), (maj, 6), (o.a.toNat, 6), (0, 3), (o.n.toNat, 3), (0, 4), (f, 4), (0, 2)]
def packT1 (maj f : Nat) (o : T1) : Nat :=
  pack [(o.gu.code, 4), (maj, 6), (o.a.toNat, 6), (0, 6), (o.l.toNat, 4), (f, 6)]
def packT2 (maj f : Nat) (o : T2) : Nat :=
  pack [(o.gu.code, 4), (maj, 6), (o.a.toNat, 6), (o.b.toNat, 6), (o.l.toNat, 4), (f, 6)]
def packTC (maj f : Nat) (o : TC) : Nat :=
  pack [(o.gu.code, 4), (maj, 6), (o.a.toNat, 6), (o.b.toNat, 6), (o.l.toNat, 4), (f, 3), (o.sh.toNat, 3)]
def packTR (maj f : Nat) (o : TR) : Nat :=
  pack [(o.gu.code, 4), (maj, 6), (0, 6), (o.imm.toNat, 10), (f, 6)]
def packCR (maj f : Nat) (o : CR) : Nat :=
  pack [(o.gu.code, 4), (maj, 6), (o.r.toNat, 6), (o.c.toNat, 10), (f, 6)]
def packA1 (maj f : Nat) (o : A1) : Nat :=
  pack [(o.gu.code, 4), (maj, 6), (0, 6), (o.a.toNat, 6), (f, 10)]
def packD1 (maj f : Nat) (o : D1) : Nat :=
  pack [(o.gu.code, 4), (maj, 6), (o.d.toNat, 6), (0, 6), (f, 10)]
def packWH (maj f : Nat) (o : WH) : Nat :=
  pack [(o.gu.code, 4), (maj, 6), (o.d.toNat, 6), (0, 8), (o.sel.toNat, 2), (f, 6)]

/-! ## Unpacking -/

def unpackRRR (w : Nat) : Except DecodeError RRR :=
  .ok ⟨guardOf w, BitVec.ofNat 6 (fld w 16 6), BitVec.ofNat 6 (fld w 10 6), BitVec.ofNat 6 (fld w 4 6)⟩
def unpackRR (w : Nat) : Except DecodeError RR :=
  .ok ⟨guardOf w, BitVec.ofNat 6 (fld w 16 6), BitVec.ofNat 6 (fld w 10 6)⟩
def unpackRRI (w : Nat) : Except DecodeError RRI :=
  .ok ⟨guardOf w, BitVec.ofNat 6 (fld w 16 6), BitVec.ofNat 6 (fld w 10 6), BitVec.ofNat 10 (fld w 0 10)⟩
def unpackSHI (w : Nat) : Except DecodeError SHI := do
  zeroField (fld w 6 2)
  .ok ⟨guardOf w, BitVec.ofNat 6 (fld w 16 6), BitVec.ofNat 6 (fld w 10 6), BitVec.ofNat 6 (fld w 0 6)⟩
def unpackRI (w : Nat) : Except DecodeError RI :=
  .ok ⟨guardOf w, BitVec.ofNat 6 (fld w 16 6), BitVec.ofNat 16 (fld w 0 16)⟩
def unpackCP (w : Nat) : Except DecodeError CP :=
  .ok ⟨guardOf w, BitVec.ofNat 3 (fld w 19 3), BitVec.ofNat 3 (fld w 16 3), BitVec.ofNat 6 (fld w 10 6), BitVec.ofNat 6 (fld w 4 6)⟩
def unpackCPI (w : Nat) : Except DecodeError CPI :=
  .ok ⟨guardOf w, BitVec.ofNat 3 (fld w 19 3), BitVec.ofNat 3 (fld w 16 3), BitVec.ofNat 6 (fld w 10 6), BitVec.ofNat 6 (fld w 0 6)⟩
def unpackPL (w : Nat) : Except DecodeError PL := do
  zeroField (fld w 0 10)
  .ok ⟨guardOf w, BitVec.ofNat 3 (fld w 19 3), BitVec.ofNat 3 (fld w 16 3), BitVec.ofNat 3 (fld w 13 3)⟩
def unpackFP (w : Nat) : Except DecodeError FP := do
  let fmt ← coded (FFmt.ofCode (fld w 2 2))
  .ok ⟨guardOf w, BitVec.ofNat 3 (fld w 19 3), BitVec.ofNat 3 (fld w 16 3), BitVec.ofNat 6 (fld w 10 6), BitVec.ofNat 6 (fld w 4 6), fmt⟩
def unpackFR (w : Nat) : Except DecodeError FR := do
  let fmt ← coded (FFmt.ofCode (fld w 2 2))
  .ok ⟨guardOf w, BitVec.ofNat 6 (fld w 16 6), BitVec.ofNat 6 (fld w 10 6), BitVec.ofNat 6 (fld w 4 6), fmt⟩
def unpackFR1 (w : Nat) : Except DecodeError FR1 := do
  zeroField (fld w 4 6)
  let fmt ← coded (FFmt.ofCode (fld w 2 2))
  .ok ⟨guardOf w, BitVec.ofNat 6 (fld w 16 6), BitVec.ofNat 6 (fld w 10 6), fmt⟩
def unpackBT (w : Nat) : Except DecodeError BT :=
  .ok ⟨guardOf w, BitVec.ofNat 22 (fld w 0 22)⟩
def unpackLD (w : Nat) : Except DecodeError LD :=
  .ok ⟨guardOf w, BitVec.ofNat 6 (fld w 16 6), BitVec.ofNat 6 (fld w 10 6), BitVec.ofNat 4 (fld w 6 4), BitVec.ofNat 6 (fld w 0 6)⟩
def unpackST (w : Nat) : Except DecodeError ST :=
  .ok ⟨guardOf w, BitVec.ofNat 6 (fld w 16 6), BitVec.ofNat 6 (fld w 10 6), BitVec.ofNat 10 (fld w 0 10)⟩
def unpackTG (w : Nat) : Except DecodeError TG := do
  zeroField (fld w 16 6)
  .ok ⟨guardOf w, BitVec.ofNat 6 (fld w 10 6), BitVec.ofNat 6 (fld w 4 6)⟩
def unpackG0 (w : Nat) : Except DecodeError Guard := .ok (guardOf w)
def unpackLA (w : Nat) : Except DecodeError LA := do
  let scope ← coded (Scope.ofCode (fld w 4 2))
  .ok ⟨guardOf w, BitVec.ofNat 6 (fld w 16 6), BitVec.ofNat 6 (fld w 10 6), BitVec.ofNat 4 (fld w 6 4), scope, BitVec.ofNat 4 (fld w 0 4)⟩
def unpackSL (w : Nat) : Except DecodeError SL := do
  let scope ← coded (Scope.ofCode (fld w 8 2))
  .ok ⟨guardOf w, BitVec.ofNat 6 (fld w 16 6), BitVec.ofNat 6 (fld w 10 6), scope, BitVec.ofNat 8 (fld w 0 8)⟩
def unpackVR (w : Nat) : Except DecodeError VR := do
  zeroField (fld w 0 4)
  let ty ← coded (VTy.ofCode (fld w 9 3))
  .ok ⟨guardOf w, BitVec.ofNat 5 (fld w 17 5), BitVec.ofNat 5 (fld w 12 5), ty, BitVec.ofNat 3 (fld w 6 3)⟩
def unpackVB (w : Nat) : Except DecodeError VB := do
  zeroField (fld w 6 5)
  let size ← coded (LSize.ofCode (fld w 4 2))
  .ok ⟨guardOf w, BitVec.ofNat 5 (fld w 17 5), BitVec.ofNat 6 (fld w 11 6), size⟩
def unpackVM (w : Nat) : Except DecodeError VM := do
  let size ← coded (LSize.ofCode (fld w 4 2))
  .ok ⟨guardOf w, BitVec.ofNat 5 (fld w 17 5), BitVec.ofNat 6 (fld w 11 6), BitVec.ofNat 5 (fld w 6 5), size⟩
def unpackVX (w : Nat) : Except DecodeError VX := do
  let size ← coded (LSize.ofCode (fld w 0 2))
  .ok ⟨guardOf w, BitVec.ofNat 5 (fld w 17 5), BitVec.ofNat 5 (fld w 12 5), BitVec.ofNat 5 (fld w 7 5), BitVec.ofNat 3 (fld w 4 3), size⟩
def unpackFN (w : Nat) : Except DecodeError FN := do
  zeroField (fld w 0 8)
  let scope ← coded (Scope.ofCode (fld w 8 2))
  .ok ⟨guardOf w, BitVec.ofNat 6 (fld w 16 6), BitVec.ofNat 6 (fld w 10 6), scope⟩
def unpackVI (w : Nat) (size : LSize) : Except DecodeError VI :=
  .ok ⟨guardOf w, size, BitVec.ofNat 5 (fld w 17 5), BitVec.ofNat 5 (fld w 12 5), BitVec.ofNat 5 (fld w 7 5), BitVec.ofNat 3 (fld w 4 3)⟩
def unpackVF (w : Nat) : Except DecodeError VF :=
  .ok ⟨guardOf w, BitVec.ofNat 5 (fld w 17 5), BitVec.ofNat 5 (fld w 12 5), BitVec.ofNat 5 (fld w 7 5), BitVec.ofNat 3 (fld w 4 3)⟩
def unpackVF1 (w : Nat) : Except DecodeError VF1 := do
  zeroField (fld w 7 5)
  .ok ⟨guardOf w, BitVec.ofNat 5 (fld w 17 5), BitVec.ofNat 5 (fld w 12 5), BitVec.ofNat 3 (fld w 4 3)⟩
def unpackVC (w : Nat) : Except DecodeError VC := do
  let ty ← coded (VTy.ofCode (fld w 3 3))
  .ok ⟨guardOf w, BitVec.ofNat 3 (fld w 19 3), BitVec.ofNat 3 (fld w 16 3), BitVec.ofNat 5 (fld w 11 5), BitVec.ofNat 5 (fld w 6 5), ty⟩
def unpackVV (w : Nat) : Except DecodeError VV := do
  let src ← coded (CTy.ofCode (fld w 9 3))
  let dst ← coded (CTy.ofCode (fld w 6 3))
  let rm ← coded (Rm.ofCode (fld w 3 3))
  .ok ⟨guardOf w, BitVec.ofNat 5 (fld w 17 5), BitVec.ofNat 5 (fld w 12 5), src, dst, rm, BitVec.ofNat 3 (fld w 0 3)⟩
def unpackVL (w : Nat) : Except DecodeError VL :=
  .ok ⟨guardOf w, BitVec.ofNat 5 (fld w 17 5), BitVec.ofNat 6 (fld w 11 6), BitVec.ofNat 4 (fld w 7 4), BitVec.ofNat 3 (fld w 4 3), BitVec.ofNat 4 (fld w 0 4)⟩
def unpackVS (w : Nat) : Except DecodeError VS := do
  let rm ← coded (Rm.ofCode (fld w 8 3))
  .ok ⟨guardOf w, BitVec.ofNat 5 (fld w 17 5), BitVec.ofNat 6 (fld w 11 6), rm, BitVec.ofNat 3 (fld w 5 3), BitVec.ofNat 5 (fld w 0 5)⟩
def unpackMM (w : Nat) : Except DecodeError MM :=
  .ok ⟨guardOf w, BitVec.ofNat 6 (fld w 16 6), BitVec.ofNat 6 (fld w 10 6), BitVec.ofNat 4 (fld w 6 4), BitVec.ofNat 3 (fld w 3 3), BitVec.ofNat 2 (fld w 1 2), decide (fld w 0 1 = 1)⟩
def unpackSH (w : Nat) : Except DecodeError SH := do
  zeroField (fld w 13 3)
  zeroField (fld w 6 4)
  zeroField (fld w 0 2)
  .ok ⟨guardOf w, BitVec.ofNat 6 (fld w 16 6), BitVec.ofNat 3 (fld w 10 3)⟩
def unpackT1 (w : Nat) : Except DecodeError T1 := do
  zeroField (fld w 10 6)
  .ok ⟨guardOf w, BitVec.ofNat 6 (fld w 16 6), BitVec.ofNat 4 (fld w 6 4)⟩
def unpackT2 (w : Nat) : Except DecodeError T2 :=
  .ok ⟨guardOf w, BitVec.ofNat 6 (fld w 16 6), BitVec.ofNat 6 (fld w 10 6), BitVec.ofNat 4 (fld w 6 4)⟩
def unpackTC (w : Nat) : Except DecodeError TC :=
  .ok ⟨guardOf w, BitVec.ofNat 6 (fld w 16 6), BitVec.ofNat 6 (fld w 10 6), BitVec.ofNat 4 (fld w 6 4), BitVec.ofNat 3 (fld w 0 3)⟩
def unpackTR (w : Nat) : Except DecodeError TR := do
  zeroField (fld w 16 6)
  .ok ⟨guardOf w, BitVec.ofNat 10 (fld w 6 10)⟩
def unpackCR (w : Nat) : Except DecodeError CR :=
  .ok ⟨guardOf w, BitVec.ofNat 6 (fld w 16 6), BitVec.ofNat 10 (fld w 6 10)⟩
def unpackA1 (w : Nat) : Except DecodeError A1 := do
  zeroField (fld w 16 6)
  .ok ⟨guardOf w, BitVec.ofNat 6 (fld w 10 6)⟩
def unpackD1 (w : Nat) : Except DecodeError D1 := do
  zeroField (fld w 10 6)
  .ok ⟨guardOf w, BitVec.ofNat 6 (fld w 16 6)⟩
def unpackWH (w : Nat) : Except DecodeError WH := do
  zeroField (fld w 8 8)
  .ok ⟨guardOf w, BitVec.ofNat 6 (fld w 16 6), BitVec.ofNat 2 (fld w 6 2)⟩

/-! ## The encoder: the word of each instruction (R39, R48, R51); a device step has no word -/

/-- The word of an instruction as a number; none for a device step. -/
def encodeNat : Instr → Option Nat
  | .add o => some (packRRR 0x00 0 o)
  | .sub o => some (packRRR 0x00 1 o)
  | .and o => some (packRRR 0x00 2 o)
  | .or o => some (packRRR 0x00 3 o)
  | .xor o => some (packRRR 0x00 4 o)
  | .andn o => some (packRRR 0x00 5 o)
  | .shl o => some (packRRR 0x00 6 o)
  | .shr o => some (packRRR 0x00 7 o)
  | .sra o => some (packRRR 0x00 8 o)
  | .rol o => some (packRRR 0x00 9 o)
  | .min o => some (packRRR 0x00 10 o)
  | .max o => some (packRRR 0x00 11 o)
  | .minu o => some (packRRR 0x00 12 o)
  | .maxu o => some (packRRR 0x00 13 o)
  | .adds o => some (packRRR 0x00 14 o)
  | .subs o => some (packRRR 0x00 15 o)
  | .mul o => some (packRRR 0x01 0 o)
  | .mulh o => some (packRRR 0x01 1 o)
  | .mulhu o => some (packRRR 0x01 2 o)
  | .mulhsu o => some (packRRR 0x01 3 o)
  | .div o => some (packRRR 0x01 4 o)
  | .divu o => some (packRRR 0x01 5 o)
  | .rem o => some (packRRR 0x01 6 o)
  | .remu o => some (packRRR 0x01 7 o)
  | .clz o => some (packRR 0x01 8 o)
  | .ctz o => some (packRR 0x01 9 o)
  | .popc o => some (packRR 0x01 10 o)
  | .brev o => some (packRR 0x01 11 o)
  | .bfx o => some (packRRR 0x01 12 o)
  | .bfi o => some (packRRR 0x01 13 o)
  | .addi o => some (packRRI 0x02 o)
  | .andi o => some (packRRI 0x03 o)
  | .ori o => some (packRRI 0x04 o)
  | .xori o => some (packRRI 0x05 o)
  | .shli o => some (packSHI 0x06 0 o)
  | .shri o => some (packSHI 0x06 1 o)
  | .srai o => some (packSHI 0x06 2 o)
  | .roli o => some (packSHI 0x06 3 o)
  | .imm o => some (packRI 0x07 o)
  | .immh o => some (packRI 0x08 o)
  | .cmpeq o => some (packCP 0x09 0 o)
  | .cmpne o => some (packCP 0x09 1 o)
  | .cmplt o => some (packCP 0x09 2 o)
  | .cmple o => some (packCP 0x09 3 o)
  | .cmpgt o => some (packCP 0x09 4 o)
  | .cmpge o => some (packCP 0x09 5 o)
  | .cmpltu o => some (packCP 0x09 6 o)
  | .cmpleu o => some (packCP 0x09 7 o)
  | .cmpgtu o => some (packCP 0x09 8 o)
  | .cmpgeu o => some (packCP 0x09 9 o)
  | .cmpeqi o => some (packCPI 0x0A 0 o)
  | .cmpnei o => some (packCPI 0x0A 1 o)
  | .cmplti o => some (packCPI 0x0A 2 o)
  | .cmplei o => some (packCPI 0x0A 3 o)
  | .cmpgti o => some (packCPI 0x0A 4 o)
  | .cmpgei o => some (packCPI 0x0A 5 o)
  | .cmpltui o => some (packCPI 0x0A 6 o)
  | .cmpleui o => some (packCPI 0x0A 7 o)
  | .cmpgtui o => some (packCPI 0x0A 8 o)
  | .cmpgeui o => some (packCPI 0x0A 9 o)
  | .pand o => some (packPL 0x0B 0 o)
  | .por o => some (packPL 0x0B 1 o)
  | .pxor o => some (packPL 0x0B 2 o)
  | .pandn o => some (packPL 0x0B 3 o)
  | .porn o => some (packPL 0x0B 4 o)
  | .pnand o => some (packPL 0x0B 5 o)
  | .pnor o => some (packPL 0x0B 6 o)
  | .pxnor o => some (packPL 0x0B 7 o)
  | .fcmpeq o => some (packFP 0x0C 0 o)
  | .fcmplt o => some (packFP 0x0C 1 o)
  | .fcmple o => some (packFP 0x0C 2 o)
  | .fcmpun o => some (packFP 0x0C 3 o)
  | .fadd o => some (packFR 0x0D 0 o)
  | .fsub o => some (packFR 0x0D 1 o)
  | .fmul o => some (packFR 0x0D 2 o)
  | .fma o => some (packFR 0x0D 3 o)
  | .fmin o => some (packFR 0x0E 0 o)
  | .fmax o => some (packFR 0x0E 1 o)
  | .fdiv o => some (packFR 0x0E 2 o)
  | .fsqrt o => some (packFR1 0x0E 3 o)
  | .fcvtsh o => some (packRR 0x0F 0 o)
  | .fcvtsb o => some (packRR 0x0F 1 o)
  | .fcvths o => some (packRR 0x0F 2 o)
  | .fcvtbs o => some (packRR 0x0F 3 o)
  | .fcvtsi o => some (packRR 0x0F 4 o)
  | .fcvtis o => some (packRR 0x0F 5 o)
  | .fcvthi o => some (packRR 0x0F 6 o)
  | .fcvtih o => some (packRR 0x0F 7 o)
  | .fcvtsu o => some (packRR 0x0F 8 o)
  | .fcvtus o => some (packRR 0x0F 9 o)
  | .fcvthb o => some (packRR 0x0F 10 o)
  | .fcvtbh o => some (packRR 0x0F 11 o)
  | .br o => some (packBT 0x10 o)
  | .jal o => some (packRI 0x11 o)
  | .jr o => some (packRR 0x12 0 o)
  | .ldb o => some (packLD 0x13 o)
  | .ldh o => some (packLD 0x14 o)
  | .ldw o => some (packLD 0x15 o)
  | .ldd o => some (packLD 0x16 o)
  | .ldbu o => some (packLD 0x17 o)
  | .ldhu o => some (packLD 0x18 o)
  | .ldwu o => some (packLD 0x19 o)
  | .stb o => some (packST 0x1A o)
  | .sth o => some (packST 0x1B o)
  | .stw o => some (packST 0x1C o)
  | .std o => some (packST 0x1D o)
  | .ldx o => some (packLD 0x1E o)
  | .ldp o => some (packLD 0x1F o)
  | .stx o => some (packST 0x20 o)
  | .tempty o => some (packTG 0x21 0 o)
  | .tfull o => some (packTG 0x21 1 o)
  | .tqry o => some (packRRR 0x21 2 o)
  | .twaitf o => some (packTG 0x21 3 o)
  | .twaite o => some (packTG 0x21 4 o)
  | .watch o => some (packTG 0x21 5 o)
  | .unwatch o => some (packTG 0x21 6 o)
  | .waitw o => some (packG0 0x21 7 o)
  | .lda o => some (packLA 0x22 o)
  | .stl o => some (packSL 0x23 o)
  | .amoadd o => some (packRRR 0x24 0 o)
  | .amosmin o => some (packRRR 0x24 1 o)
  | .amosmax o => some (packRRR 0x24 2 o)
  | .amoumin o => some (packRRR 0x24 3 o)
  | .amoumax o => some (packRRR 0x24 4 o)
  | .amoand o => some (packRRR 0x24 5 o)
  | .amoor o => some (packRRR 0x24 6 o)
  | .amoxor o => some (packRRR 0x24 7 o)
  | .amoswap o => some (packRRR 0x24 8 o)
  | .amocas o => some (packRRR 0x24 9 o)
  | .vrsum o => some (packVR 0x25 0 o)
  | .vrmax o => some (packVR 0x25 1 o)
  | .vrmin o => some (packVR 0x25 2 o)
  | .vbcast o => some (packVB 0x26 0 o)
  | .vext o => some (packVM 0x26 1 o)
  | .vexts o => some (packVM 0x26 2 o)
  | .vins o => some (packVM 0x26 3 o)
  | .vsel o => some (packVX 0x27 0 o)
  | .vperm o => some (packVX 0x27 1 o)
  | .vzip o => some (packVX 0x27 2 o)
  | .vunzip o => some (packVX 0x27 3 o)
  | .qand o => some (packPL 0x28 0 o)
  | .qor o => some (packPL 0x28 1 o)
  | .qxor o => some (packPL 0x28 2 o)
  | .qandn o => some (packPL 0x28 3 o)
  | .qorn o => some (packPL 0x28 4 o)
  | .qnand o => some (packPL 0x28 5 o)
  | .qnor o => some (packPL 0x28 6 o)
  | .qxnor o => some (packPL 0x28 7 o)
  | .fence o => some (packFN 0x29 o)
  | .vaddI o => some (packVI (0x30 + o.size.code) 0 o)
  | .vsubI o => some (packVI (0x30 + o.size.code) 1 o)
  | .vmulI o => some (packVI (0x30 + o.size.code) 2 o)
  | .vmulhI o => some (packVI (0x30 + o.size.code) 3 o)
  | .vminI o => some (packVI (0x30 + o.size.code) 4 o)
  | .vmaxI o => some (packVI (0x30 + o.size.code) 5 o)
  | .vminu o => some (packVI (0x30 + o.size.code) 6 o)
  | .vmaxu o => some (packVI (0x30 + o.size.code) 7 o)
  | .vand o => some (packVI (0x30 + o.size.code) 8 o)
  | .vor o => some (packVI (0x30 + o.size.code) 9 o)
  | .vxor o => some (packVI (0x30 + o.size.code) 10 o)
  | .vandn o => some (packVI (0x30 + o.size.code) 11 o)
  | .vshl o => some (packVI (0x30 + o.size.code) 12 o)
  | .vshr o => some (packVI (0x30 + o.size.code) 13 o)
  | .vsra o => some (packVI (0x30 + o.size.code) 14 o)
  | .vadds o => some (packVI (0x30 + o.size.code) 15 o)
  | .vaddF16 o => some (packVF 0x33 0 o)
  | .vsubF16 o => some (packVF 0x33 1 o)
  | .vmulF16 o => some (packVF 0x33 2 o)
  | .vfmaF16 o => some (packVF 0x33 3 o)
  | .vminF16 o => some (packVF 0x33 4 o)
  | .vmaxF16 o => some (packVF 0x33 5 o)
  | .vabsF16 o => some (packVF1 0x33 6 o)
  | .vnegF16 o => some (packVF1 0x33 7 o)
  | .vdivF16 o => some (packVF 0x33 8 o)
  | .vsqrtF16 o => some (packVF1 0x33 9 o)
  | .vexp2F16 o => some (packVF1 0x33 10 o)
  | .vlog2F16 o => some (packVF1 0x33 11 o)
  | .vrcpF16 o => some (packVF1 0x33 12 o)
  | .vrsqF16 o => some (packVF1 0x33 13 o)
  | .vaddBf16 o => some (packVF 0x34 0 o)
  | .vsubBf16 o => some (packVF 0x34 1 o)
  | .vmulBf16 o => some (packVF 0x34 2 o)
  | .vfmaBf16 o => some (packVF 0x34 3 o)
  | .vminBf16 o => some (packVF 0x34 4 o)
  | .vmaxBf16 o => some (packVF 0x34 5 o)
  | .vabsBf16 o => some (packVF1 0x34 6 o)
  | .vnegBf16 o => some (packVF1 0x34 7 o)
  | .vdivBf16 o => some (packVF 0x34 8 o)
  | .vsqrtBf16 o => some (packVF1 0x34 9 o)
  | .vexp2Bf16 o => some (packVF1 0x34 10 o)
  | .vlog2Bf16 o => some (packVF1 0x34 11 o)
  | .vrcpBf16 o => some (packVF1 0x34 12 o)
  | .vrsqBf16 o => some (packVF1 0x34 13 o)
  | .vaddF32 o => some (packVF 0x35 0 o)
  | .vsubF32 o => some (packVF 0x35 1 o)
  | .vmulF32 o => some (packVF 0x35 2 o)
  | .vfmaF32 o => some (packVF 0x35 3 o)
  | .vminF32 o => some (packVF 0x35 4 o)
  | .vmaxF32 o => some (packVF 0x35 5 o)
  | .vabsF32 o => some (packVF1 0x35 6 o)
  | .vnegF32 o => some (packVF1 0x35 7 o)
  | .vdivF32 o => some (packVF 0x35 8 o)
  | .vsqrtF32 o => some (packVF1 0x35 9 o)
  | .vexp2F32 o => some (packVF1 0x35 10 o)
  | .vlog2F32 o => some (packVF1 0x35 11 o)
  | .vrcpF32 o => some (packVF1 0x35 12 o)
  | .vrsqF32 o => some (packVF1 0x35 13 o)
  | .vcmpeq o => some (packVC 0x36 0 o)
  | .vcmpne o => some (packVC 0x36 1 o)
  | .vcmplt o => some (packVC 0x36 2 o)
  | .vcmple o => some (packVC 0x36 3 o)
  | .vcmpltu o => some (packVC 0x36 4 o)
  | .vcmpleu o => some (packVC 0x36 5 o)
  | .vcmpun o => some (packVC 0x36 6 o)
  | .vcmpord o => some (packVC 0x36 7 o)
  | .vcvt o => some (packVV 0x37 o)
  | .vld o => some (packVL 0x38 o)
  | .vst o => some (packVS 0x39 o)
  | .mma o => some (packMM 0x3A o)
  | .shape o => some (packSH 0x3B 0 o)
  | .acz o => some (packT1 0x3B 4 o)
  | .drain o => some (packT2 0x3B 8 o)
  | .table o => some (packT2 0x3B 12 o)
  | .rowsum o => some (packT2 0x3B 16 o)
  | .colsum o => some (packT2 0x3B 20 o)
  | .pack o => some (packT2 0x3B 24 o)
  | .unpack o => some (packT2 0x3B 28 o)
  | .aread o => some (packT2 0x3B 32 o)
  | .copy o => some (packTC 0x3C 0 o)
  | .copys o => some (packTC 0x3C 1 o)
  | .copya o => some (packTC 0x3C 2 o)
  | .mcast o => some (packTC 0x3C 3 o)
  | .redg o => some (packTC 0x3C 4 o)
  | .flushout o => some (packT2 0x3C 40 o)
  | .fetchin o => some (packTC 0x3C 6 o)
  | .mkch o => some (packT2 0x3D 0 o)
  | .close o => some (packT1 0x3D 1 o)
  | .bind o => some (packT1 0x3D 2 o)
  | .rebind o => some (packT2 0x3D 3 o)
  | .send o => some (packT2 0x3D 4 o)
  | .recv o => some (packT2 0x3D 5 o)
  | .sendt o => some (packT2 0x3D 6 o)
  | .recvt o => some (packT2 0x3D 7 o)
  | .sendd o => some (packT2 0x3D 8 o)
  | .pull o => some (packT2 0x3D 9 o)
  | .dropw o => some (packT1 0x3D 10 o)
  | .alt o => some (packT2 0x3D 11 o)
  | .altf o => some (packT2 0x3D 12 o)
  | .probe o => some (packT2 0x3D 13 o)
  | .nop o => some (packG0 0x3E 0 o)
  | .trap o => some (packTR 0x3E 1 o)
  | .trapret o => some (packG0 0x3E 2 o)
  | .halt o => some (packG0 0x3E 3 o)
  | .ctlr o => some (packCR 0x3E 4 o)
  | .ctlw o => some (packCR 0x3E 5 o)
  | .spawn o => some (packRR 0x3E 6 o)
  | .exit o => some (packG0 0x3E 7 o)
  | .yield o => some (packG0 0x3E 8 o)
  | .prio o => some (packRR 0x3E 9 o)
  | .sleep o => some (packA1 0x3E 10 o)
  | .ifence o => some (packG0 0x3E 11 o)
  | .tlbinv o => some (packA1 0x3E 12 o)
  | .repart o => some (packA1 0x3E 13 o)
  | .qarm o => some (packRR 0x3E 14 o)
  | .ckptSave o => some (packA1 0x3E 15 o)
  | .ckptRestore o => some (packA1 0x3E 79 o)
  | .gopen o => some (packRR 0x3E 16 o)
  | .gfree o => some (packD1 0x3E 17 o)
  | .whoami o => some (packWH 0x3E 18 o)
  | .pget o => some (packD1 0x3E 19 o)
  | .pset o => some (packA1 0x3E 20 o)
  | .streamres o => some (packRR 0x3E 21 o)
  | .loadPerform _ | .loadComplete _ | .storePerform _ | .storeAcknowledge _ | .holdNotice _ | .amoPerform _ | .absmaxMerge _ |
    .parkRetry _ | .syncLimitExpire _ | .watchEventMessage _ | .arrivalClaim _ | .arrivalComplete _ | .copyAccept _ |
    .pieceDispatch _ | .streamerRead _ | .completionTileSet _ _ | .copyaAccumulate _ | .groupDrainComplete _ _ |
    .borerRequest _ | .fetchinComplete _ | .flushoutComplete _ | .migrationCopyDone _ | .endMarker _ |
    .migrationCountExpire _ _ | .pageWalk _ | .shootdownAcknowledge _ _ | .shootdownComplete _ | .pullRead _ |
    .lendReleaseMessage _ | .relink _ | .channelSendArrive _ | .channelReceiveArrive _ | .transferFinish _ _ |
    .channelTimeoutExpire _ _ | .timerDeadlineExpire _ | .altDeadlineExpire _ _ | .unbindRequest _ | .exitComplete _ _ |
    .promotionNotice _ | .promotedRelease _ | .sleepExpire _ _ | .spawnChildCreate _ | .taskStart _ _ | .eventRecordPost _ |
    .eventRecordDeliver _ | .contextSwitch _ | .sliceRotation _ | .blockedWaitLimit _ | .deadlockProbe _ | .macroOpStart _ |
    .macroStepComplete _ | .causewayRequestReceive _ | .frozenNotice _ | .resumeMessage _ | .flitReceive _ _ _ _ _ |
    .linkRetrainComplete _ _ _ | .linkSilenceTimeout _ | .partitionQuiesce _ | .laserRetune _ _ | .dtimeAlign _ |
    .travelAdmit _ | .travelAcknowledge _ | .doorbell _ | .luarm _ | .lupreempt _ | .nopPacket _ | .launch _ |
    .launchRecordWrite _ | .wait _ | .waitPoll _ | .release _ | .releasePerform _ | .indirect _ | .loop _ | .fetchfence _ |
    .taskExitReport _ | .haltCommand _ _ | .resumeCommand _ _ | .coreHalted _ | .pgnoteResume _ _ | .pgnoteDeliverPage _ _ |
    .pgnoteDeliverProt _ _ | .rgnctlCommit _ | .corectlHold _ _ | .ioepnewEndpoint _ | .ioepnewTimer _ |
    .controlRegisterWrite _ _ _ _ | .evready | .sensors | .errlog | .update | .spdm | .measure | .mailboxUnknownCommand |
    .moduleReset | .bootStage _ | .dieEnterService _ | .fullService | .correctedError _ _ _ | .ethernetFrameReceive _ _ |
    .tokenBucketRefill _ _ | .fireflyPeerDownReport _ | .ethernetFrameTransmit _ | .hostQueueMessage _ _ | .powerLoss => none

/-- The word of an instruction. -/
def encode (i : Instr) : Option Word32 := (encodeNat i).map (BitVec.ofNat 32)
/-- The instruction has a word: it is no step of the device. -/
def Instr.hasWord (i : Instr) : Bool := (encodeNat i).isSome

/-! ## The decoder: the opcode map of R51 -/

/-- Major 0x00: the sub-op stands in bits [3:0]. -/
def decode00 (w : Nat) : Except DecodeError Instr :=
  match fld w 0 4 with
  | 0 => Instr.add <$> unpackRRR w
  | 1 => Instr.sub <$> unpackRRR w
  | 2 => Instr.and <$> unpackRRR w
  | 3 => Instr.or <$> unpackRRR w
  | 4 => Instr.xor <$> unpackRRR w
  | 5 => Instr.andn <$> unpackRRR w
  | 6 => Instr.shl <$> unpackRRR w
  | 7 => Instr.shr <$> unpackRRR w
  | 8 => Instr.sra <$> unpackRRR w
  | 9 => Instr.rol <$> unpackRRR w
  | 10 => Instr.min <$> unpackRRR w
  | 11 => Instr.max <$> unpackRRR w
  | 12 => Instr.minu <$> unpackRRR w
  | 13 => Instr.maxu <$> unpackRRR w
  | 14 => Instr.adds <$> unpackRRR w
  | 15 => Instr.subs <$> unpackRRR w
  | _ => .error .unlistedSubOp
/-- Major 0x01: the sub-op stands in bits [3:0]. -/
def decode01 (w : Nat) : Except DecodeError Instr :=
  match fld w 0 4 with
  | 0 => Instr.mul <$> unpackRRR w
  | 1 => Instr.mulh <$> unpackRRR w
  | 2 => Instr.mulhu <$> unpackRRR w
  | 3 => Instr.mulhsu <$> unpackRRR w
  | 4 => Instr.div <$> unpackRRR w
  | 5 => Instr.divu <$> unpackRRR w
  | 6 => Instr.rem <$> unpackRRR w
  | 7 => Instr.remu <$> unpackRRR w
  | 8 => zeroField (fld w 4 6) *> Instr.clz <$> unpackRR w
  | 9 => zeroField (fld w 4 6) *> Instr.ctz <$> unpackRR w
  | 10 => zeroField (fld w 4 6) *> Instr.popc <$> unpackRR w
  | 11 => zeroField (fld w 4 6) *> Instr.brev <$> unpackRR w
  | 12 => Instr.bfx <$> unpackRRR w
  | 13 => Instr.bfi <$> unpackRRR w
  | _ => .error .unlistedSubOp
/-- Major 0x06: the sub-op stands in bits [9:8]. -/
def decode06 (w : Nat) : Except DecodeError Instr :=
  match fld w 8 2 with
  | 0 => Instr.shli <$> unpackSHI w
  | 1 => Instr.shri <$> unpackSHI w
  | 2 => Instr.srai <$> unpackSHI w
  | 3 => Instr.roli <$> unpackSHI w
  | _ => .error .unlistedSubOp
/-- Major 0x09: the sub-op stands in bits [3:0]. -/
def decode09 (w : Nat) : Except DecodeError Instr :=
  match fld w 0 4 with
  | 0 => Instr.cmpeq <$> unpackCP w
  | 1 => Instr.cmpne <$> unpackCP w
  | 2 => Instr.cmplt <$> unpackCP w
  | 3 => Instr.cmple <$> unpackCP w
  | 4 => Instr.cmpgt <$> unpackCP w
  | 5 => Instr.cmpge <$> unpackCP w
  | 6 => Instr.cmpltu <$> unpackCP w
  | 7 => Instr.cmpleu <$> unpackCP w
  | 8 => Instr.cmpgtu <$> unpackCP w
  | 9 => Instr.cmpgeu <$> unpackCP w
  | _ => .error .unlistedSubOp
/-- Major 0x0A: the sub-op stands in bits [9:6]. -/
def decode0A (w : Nat) : Except DecodeError Instr :=
  match fld w 6 4 with
  | 0 => Instr.cmpeqi <$> unpackCPI w
  | 1 => Instr.cmpnei <$> unpackCPI w
  | 2 => Instr.cmplti <$> unpackCPI w
  | 3 => Instr.cmplei <$> unpackCPI w
  | 4 => Instr.cmpgti <$> unpackCPI w
  | 5 => Instr.cmpgei <$> unpackCPI w
  | 6 => Instr.cmpltui <$> unpackCPI w
  | 7 => Instr.cmpleui <$> unpackCPI w
  | 8 => Instr.cmpgtui <$> unpackCPI w
  | 9 => Instr.cmpgeui <$> unpackCPI w
  | _ => .error .unlistedSubOp
/-- Major 0x0B: the sub-op stands in bits [12:10]. -/
def decode0B (w : Nat) : Except DecodeError Instr :=
  match fld w 10 3 with
  | 0 => Instr.pand <$> unpackPL w
  | 1 => Instr.por <$> unpackPL w
  | 2 => Instr.pxor <$> unpackPL w
  | 3 => Instr.pandn <$> unpackPL w
  | 4 => Instr.porn <$> unpackPL w
  | 5 => Instr.pnand <$> unpackPL w
  | 6 => Instr.pnor <$> unpackPL w
  | 7 => Instr.pxnor <$> unpackPL w
  | _ => .error .unlistedSubOp
/-- Major 0x0C: the sub-op stands in bits [1:0]. -/
def decode0C (w : Nat) : Except DecodeError Instr :=
  match fld w 0 2 with
  | 0 => Instr.fcmpeq <$> unpackFP w
  | 1 => Instr.fcmplt <$> unpackFP w
  | 2 => Instr.fcmple <$> unpackFP w
  | 3 => Instr.fcmpun <$> unpackFP w
  | _ => .error .unlistedSubOp
/-- Major 0x0D: the sub-op stands in bits [1:0]. -/
def decode0D (w : Nat) : Except DecodeError Instr :=
  match fld w 0 2 with
  | 0 => Instr.fadd <$> unpackFR w
  | 1 => Instr.fsub <$> unpackFR w
  | 2 => Instr.fmul <$> unpackFR w
  | 3 => Instr.fma <$> unpackFR w
  | _ => .error .unlistedSubOp
/-- Major 0x0E: the sub-op stands in bits [1:0]. -/
def decode0E (w : Nat) : Except DecodeError Instr :=
  match fld w 0 2 with
  | 0 => Instr.fmin <$> unpackFR w
  | 1 => Instr.fmax <$> unpackFR w
  | 2 => Instr.fdiv <$> unpackFR w
  | 3 => Instr.fsqrt <$> unpackFR1 w
  | _ => .error .unlistedSubOp
/-- Major 0x0F: the sub-op stands in bits [3:0]. -/
def decode0F (w : Nat) : Except DecodeError Instr :=
  match fld w 0 4 with
  | 0 => zeroField (fld w 4 6) *> Instr.fcvtsh <$> unpackRR w
  | 1 => zeroField (fld w 4 6) *> Instr.fcvtsb <$> unpackRR w
  | 2 => zeroField (fld w 4 6) *> Instr.fcvths <$> unpackRR w
  | 3 => zeroField (fld w 4 6) *> Instr.fcvtbs <$> unpackRR w
  | 4 => zeroField (fld w 4 6) *> Instr.fcvtsi <$> unpackRR w
  | 5 => zeroField (fld w 4 6) *> Instr.fcvtis <$> unpackRR w
  | 6 => zeroField (fld w 4 6) *> Instr.fcvthi <$> unpackRR w
  | 7 => zeroField (fld w 4 6) *> Instr.fcvtih <$> unpackRR w
  | 8 => zeroField (fld w 4 6) *> Instr.fcvtsu <$> unpackRR w
  | 9 => zeroField (fld w 4 6) *> Instr.fcvtus <$> unpackRR w
  | 10 => zeroField (fld w 4 6) *> Instr.fcvthb <$> unpackRR w
  | 11 => zeroField (fld w 4 6) *> Instr.fcvtbh <$> unpackRR w
  | _ => .error .unlistedSubOp
/-- Major 0x21: the sub-op stands in bits [3:0]. -/
def decode21 (w : Nat) : Except DecodeError Instr :=
  match fld w 0 4 with
  | 0 => Instr.tempty <$> unpackTG w
  | 1 => Instr.tfull <$> unpackTG w
  | 2 => Instr.tqry <$> unpackRRR w
  | 3 => Instr.twaitf <$> unpackTG w
  | 4 => Instr.twaite <$> unpackTG w
  | 5 => Instr.watch <$> unpackTG w
  | 6 => Instr.unwatch <$> unpackTG w
  | 7 => zeroField (fld w 4 18) *> Instr.waitw <$> unpackG0 w
  | _ => .error .unlistedSubOp
/-- Major 0x24: the sub-op stands in bits [3:0]. -/
def decode24 (w : Nat) : Except DecodeError Instr :=
  match fld w 0 4 with
  | 0 => Instr.amoadd <$> unpackRRR w
  | 1 => Instr.amosmin <$> unpackRRR w
  | 2 => Instr.amosmax <$> unpackRRR w
  | 3 => Instr.amoumin <$> unpackRRR w
  | 4 => Instr.amoumax <$> unpackRRR w
  | 5 => Instr.amoand <$> unpackRRR w
  | 6 => Instr.amoor <$> unpackRRR w
  | 7 => Instr.amoxor <$> unpackRRR w
  | 8 => Instr.amoswap <$> unpackRRR w
  | 9 => Instr.amocas <$> unpackRRR w
  | _ => .error .unlistedSubOp
/-- Major 0x25: the sub-op stands in bits [5:4]. -/
def decode25 (w : Nat) : Except DecodeError Instr :=
  match fld w 4 2 with
  | 0 => Instr.vrsum <$> unpackVR w
  | 1 => Instr.vrmax <$> unpackVR w
  | 2 => Instr.vrmin <$> unpackVR w
  | _ => .error .unlistedSubOp
/-- Major 0x26: the sub-op stands in bits [3:0]. -/
def decode26 (w : Nat) : Except DecodeError Instr :=
  match fld w 0 4 with
  | 0 => Instr.vbcast <$> unpackVB w
  | 1 => Instr.vext <$> unpackVM w
  | 2 => Instr.vexts <$> unpackVM w
  | 3 => Instr.vins <$> unpackVM w
  | _ => .error .unlistedSubOp
/-- Major 0x27: the sub-op stands in bits [3:2]. -/
def decode27 (w : Nat) : Except DecodeError Instr :=
  match fld w 2 2 with
  | 0 => Instr.vsel <$> unpackVX w
  | 1 => Instr.vperm <$> unpackVX w
  | 2 => Instr.vzip <$> unpackVX w
  | 3 => Instr.vunzip <$> unpackVX w
  | _ => .error .unlistedSubOp
/-- Major 0x28: the sub-op stands in bits [12:10]. -/
def decode28 (w : Nat) : Except DecodeError Instr :=
  match fld w 10 3 with
  | 0 => Instr.qand <$> unpackPL w
  | 1 => Instr.qor <$> unpackPL w
  | 2 => Instr.qxor <$> unpackPL w
  | 3 => Instr.qandn <$> unpackPL w
  | 4 => Instr.qorn <$> unpackPL w
  | 5 => Instr.qnand <$> unpackPL w
  | 6 => Instr.qnor <$> unpackPL w
  | 7 => Instr.qxnor <$> unpackPL w
  | _ => .error .unlistedSubOp
/-- Major 0x30: the sub-op stands in bits [3:0]. -/
def decode30 (w : Nat) : Except DecodeError Instr :=
  match fld w 0 4 with
  | 0 => Instr.vaddI <$> unpackVI w .b8
  | 1 => Instr.vsubI <$> unpackVI w .b8
  | 2 => Instr.vmulI <$> unpackVI w .b8
  | 3 => Instr.vmulhI <$> unpackVI w .b8
  | 4 => Instr.vminI <$> unpackVI w .b8
  | 5 => Instr.vmaxI <$> unpackVI w .b8
  | 6 => Instr.vminu <$> unpackVI w .b8
  | 7 => Instr.vmaxu <$> unpackVI w .b8
  | 8 => Instr.vand <$> unpackVI w .b8
  | 9 => Instr.vor <$> unpackVI w .b8
  | 10 => Instr.vxor <$> unpackVI w .b8
  | 11 => Instr.vandn <$> unpackVI w .b8
  | 12 => Instr.vshl <$> unpackVI w .b8
  | 13 => Instr.vshr <$> unpackVI w .b8
  | 14 => Instr.vsra <$> unpackVI w .b8
  | 15 => Instr.vadds <$> unpackVI w .b8
  | _ => .error .unlistedSubOp
/-- Major 0x31: the sub-op stands in bits [3:0]. -/
def decode31 (w : Nat) : Except DecodeError Instr :=
  match fld w 0 4 with
  | 0 => Instr.vaddI <$> unpackVI w .b16
  | 1 => Instr.vsubI <$> unpackVI w .b16
  | 2 => Instr.vmulI <$> unpackVI w .b16
  | 3 => Instr.vmulhI <$> unpackVI w .b16
  | 4 => Instr.vminI <$> unpackVI w .b16
  | 5 => Instr.vmaxI <$> unpackVI w .b16
  | 6 => Instr.vminu <$> unpackVI w .b16
  | 7 => Instr.vmaxu <$> unpackVI w .b16
  | 8 => Instr.vand <$> unpackVI w .b16
  | 9 => Instr.vor <$> unpackVI w .b16
  | 10 => Instr.vxor <$> unpackVI w .b16
  | 11 => Instr.vandn <$> unpackVI w .b16
  | 12 => Instr.vshl <$> unpackVI w .b16
  | 13 => Instr.vshr <$> unpackVI w .b16
  | 14 => Instr.vsra <$> unpackVI w .b16
  | 15 => Instr.vadds <$> unpackVI w .b16
  | _ => .error .unlistedSubOp
/-- Major 0x32: the sub-op stands in bits [3:0]. -/
def decode32 (w : Nat) : Except DecodeError Instr :=
  match fld w 0 4 with
  | 0 => Instr.vaddI <$> unpackVI w .b32
  | 1 => Instr.vsubI <$> unpackVI w .b32
  | 2 => Instr.vmulI <$> unpackVI w .b32
  | 3 => Instr.vmulhI <$> unpackVI w .b32
  | 4 => Instr.vminI <$> unpackVI w .b32
  | 5 => Instr.vmaxI <$> unpackVI w .b32
  | 6 => Instr.vminu <$> unpackVI w .b32
  | 7 => Instr.vmaxu <$> unpackVI w .b32
  | 8 => Instr.vand <$> unpackVI w .b32
  | 9 => Instr.vor <$> unpackVI w .b32
  | 10 => Instr.vxor <$> unpackVI w .b32
  | 11 => Instr.vandn <$> unpackVI w .b32
  | 12 => Instr.vshl <$> unpackVI w .b32
  | 13 => Instr.vshr <$> unpackVI w .b32
  | 14 => Instr.vsra <$> unpackVI w .b32
  | 15 => Instr.vadds <$> unpackVI w .b32
  | _ => .error .unlistedSubOp
/-- Major 0x33: the sub-op stands in bits [3:0]. -/
def decode33 (w : Nat) : Except DecodeError Instr :=
  match fld w 0 4 with
  | 0 => Instr.vaddF16 <$> unpackVF w
  | 1 => Instr.vsubF16 <$> unpackVF w
  | 2 => Instr.vmulF16 <$> unpackVF w
  | 3 => Instr.vfmaF16 <$> unpackVF w
  | 4 => Instr.vminF16 <$> unpackVF w
  | 5 => Instr.vmaxF16 <$> unpackVF w
  | 6 => Instr.vabsF16 <$> unpackVF1 w
  | 7 => Instr.vnegF16 <$> unpackVF1 w
  | 8 => Instr.vdivF16 <$> unpackVF w
  | 9 => Instr.vsqrtF16 <$> unpackVF1 w
  | 10 => Instr.vexp2F16 <$> unpackVF1 w
  | 11 => Instr.vlog2F16 <$> unpackVF1 w
  | 12 => Instr.vrcpF16 <$> unpackVF1 w
  | 13 => Instr.vrsqF16 <$> unpackVF1 w
  | _ => .error .unlistedSubOp
/-- Major 0x34: the sub-op stands in bits [3:0]. -/
def decode34 (w : Nat) : Except DecodeError Instr :=
  match fld w 0 4 with
  | 0 => Instr.vaddBf16 <$> unpackVF w
  | 1 => Instr.vsubBf16 <$> unpackVF w
  | 2 => Instr.vmulBf16 <$> unpackVF w
  | 3 => Instr.vfmaBf16 <$> unpackVF w
  | 4 => Instr.vminBf16 <$> unpackVF w
  | 5 => Instr.vmaxBf16 <$> unpackVF w
  | 6 => Instr.vabsBf16 <$> unpackVF1 w
  | 7 => Instr.vnegBf16 <$> unpackVF1 w
  | 8 => Instr.vdivBf16 <$> unpackVF w
  | 9 => Instr.vsqrtBf16 <$> unpackVF1 w
  | 10 => Instr.vexp2Bf16 <$> unpackVF1 w
  | 11 => Instr.vlog2Bf16 <$> unpackVF1 w
  | 12 => Instr.vrcpBf16 <$> unpackVF1 w
  | 13 => Instr.vrsqBf16 <$> unpackVF1 w
  | _ => .error .unlistedSubOp
/-- Major 0x35: the sub-op stands in bits [3:0]. -/
def decode35 (w : Nat) : Except DecodeError Instr :=
  match fld w 0 4 with
  | 0 => Instr.vaddF32 <$> unpackVF w
  | 1 => Instr.vsubF32 <$> unpackVF w
  | 2 => Instr.vmulF32 <$> unpackVF w
  | 3 => Instr.vfmaF32 <$> unpackVF w
  | 4 => Instr.vminF32 <$> unpackVF w
  | 5 => Instr.vmaxF32 <$> unpackVF w
  | 6 => Instr.vabsF32 <$> unpackVF1 w
  | 7 => Instr.vnegF32 <$> unpackVF1 w
  | 8 => Instr.vdivF32 <$> unpackVF w
  | 9 => Instr.vsqrtF32 <$> unpackVF1 w
  | 10 => Instr.vexp2F32 <$> unpackVF1 w
  | 11 => Instr.vlog2F32 <$> unpackVF1 w
  | 12 => Instr.vrcpF32 <$> unpackVF1 w
  | 13 => Instr.vrsqF32 <$> unpackVF1 w
  | _ => .error .unlistedSubOp
/-- Major 0x36: the sub-op stands in bits [2:0]. -/
def decode36 (w : Nat) : Except DecodeError Instr :=
  match fld w 0 3 with
  | 0 => Instr.vcmpeq <$> unpackVC w
  | 1 => Instr.vcmpne <$> unpackVC w
  | 2 => Instr.vcmplt <$> unpackVC w
  | 3 => Instr.vcmple <$> unpackVC w
  | 4 => Instr.vcmpltu <$> unpackVC w
  | 5 => Instr.vcmpleu <$> unpackVC w
  | 6 => Instr.vcmpun <$> unpackVC w
  | 7 => Instr.vcmpord <$> unpackVC w
  | _ => .error .unlistedSubOp
/-- Major 0x3B: the sub-op stands in bits [5:2]. -/
def decode3B (w : Nat) : Except DecodeError Instr :=
  match fld w 2 4 with
  | 0 => Instr.shape <$> unpackSH w
  | 1 => zeroField (fld w 0 2) *> Instr.acz <$> unpackT1 w
  | 2 => zeroField (fld w 0 2) *> Instr.drain <$> unpackT2 w
  | 3 => zeroField (fld w 0 2) *> Instr.table <$> unpackT2 w
  | 4 => zeroField (fld w 0 2) *> Instr.rowsum <$> unpackT2 w
  | 5 => zeroField (fld w 0 2) *> Instr.colsum <$> unpackT2 w
  | 6 => zeroField (fld w 0 2) *> Instr.pack <$> unpackT2 w
  | 7 => zeroField (fld w 0 2) *> Instr.unpack <$> unpackT2 w
  | 8 => zeroField (fld w 0 2) *> Instr.aread <$> unpackT2 w
  | _ => .error .unlistedSubOp
/-- Major 0x3C: the sub-op stands in bits [5:3]. -/
def decode3C (w : Nat) : Except DecodeError Instr :=
  match fld w 3 3 with
  | 0 => Instr.copy <$> unpackTC w
  | 1 => Instr.copys <$> unpackTC w
  | 2 => Instr.copya <$> unpackTC w
  | 3 => Instr.mcast <$> unpackTC w
  | 4 => Instr.redg <$> unpackTC w
  | 5 => zeroField (fld w 0 3) *> Instr.flushout <$> unpackT2 w
  | 6 => Instr.fetchin <$> unpackTC w
  | _ => .error .unlistedSubOp
/-- Major 0x3D: the sub-op stands in bits [5:0]. -/
noncomputable def decode3D (w : Nat) : Except DecodeError Instr :=
  match fld w 0 6 with
  | 0 => Instr.mkch <$> unpackT2 w
  | 1 => Instr.close <$> unpackT1 w
  | 2 => Instr.bind <$> unpackT1 w
  | 3 => Instr.rebind <$> unpackT2 w
  | 4 => Instr.send <$> unpackT2 w
  | 5 => Instr.recv <$> unpackT2 w
  | 6 => Instr.sendt <$> unpackT2 w
  | 7 => Instr.recvt <$> unpackT2 w
  | 8 => Instr.sendd <$> unpackT2 w
  | 9 => Instr.pull <$> unpackT2 w
  | 10 => Instr.dropw <$> unpackT1 w
  | 11 => Instr.alt <$> unpackT2 w
  | 12 => Instr.altf <$> unpackT2 w
  | 13 => Instr.probe <$> unpackT2 w
  | _ => .error .unlistedSubOp
/-- Major 0x3E: the sub-op stands in bits [5:0]. -/
noncomputable def decode3E (w : Nat) : Except DecodeError Instr :=
  match fld w 0 6 with
  | 0 => zeroField (fld w 6 16) *> Instr.nop <$> unpackG0 w
  | 1 => Instr.trap <$> unpackTR w
  | 2 => zeroField (fld w 6 16) *> Instr.trapret <$> unpackG0 w
  | 3 => zeroField (fld w 6 16) *> Instr.halt <$> unpackG0 w
  | 4 => Instr.ctlr <$> unpackCR w
  | 5 => Instr.ctlw <$> unpackCR w
  | 6 => zeroField (fld w 6 4) *> Instr.spawn <$> unpackRR w
  | 7 => zeroField (fld w 6 16) *> Instr.exit <$> unpackG0 w
  | 8 => zeroField (fld w 6 16) *> Instr.yield <$> unpackG0 w
  | 9 => zeroField (fld w 6 4) *> Instr.prio <$> unpackRR w
  | 10 => zeroField (fld w 6 4) *> Instr.sleep <$> unpackA1 w
  | 11 => zeroField (fld w 6 16) *> Instr.ifence <$> unpackG0 w
  | 12 => zeroField (fld w 6 4) *> Instr.tlbinv <$> unpackA1 w
  | 13 => zeroField (fld w 6 4) *> Instr.repart <$> unpackA1 w
  | 14 => zeroField (fld w 6 4) *> Instr.qarm <$> unpackRR w
  | 15 => do
      zeroField (fld w 7 3)
      if fld w 6 1 = 0 then Instr.ckptSave <$> unpackA1 w else Instr.ckptRestore <$> unpackA1 w
  | 16 => zeroField (fld w 6 4) *> Instr.gopen <$> unpackRR w
  | 17 => zeroField (fld w 6 4) *> Instr.gfree <$> unpackD1 w
  | 18 => Instr.whoami <$> unpackWH w
  | 19 => zeroField (fld w 6 4) *> Instr.pget <$> unpackD1 w
  | 20 => zeroField (fld w 6 4) *> Instr.pset <$> unpackA1 w
  | 21 => zeroField (fld w 6 4) *> Instr.streamres <$> unpackRR w
  | _ => .error .unlistedSubOp

/-- The instruction of a word read as a number, before the value checks of WellFormed: the majors of R51. -/
noncomputable def decodeMajor (w : Nat) : Except DecodeError Instr :=
  match fld w 22 6 with
  | 0x00 => decode00 w
  | 0x01 => decode01 w
  | 0x02 => Instr.addi <$> unpackRRI w
  | 0x03 => Instr.andi <$> unpackRRI w
  | 0x04 => Instr.ori <$> unpackRRI w
  | 0x05 => Instr.xori <$> unpackRRI w
  | 0x06 => decode06 w
  | 0x07 => Instr.imm <$> unpackRI w
  | 0x08 => Instr.immh <$> unpackRI w
  | 0x09 => decode09 w
  | 0x0A => decode0A w
  | 0x0B => decode0B w
  | 0x0C => decode0C w
  | 0x0D => decode0D w
  | 0x0E => decode0E w
  | 0x0F => decode0F w
  | 0x10 => Instr.br <$> unpackBT w
  | 0x11 => Instr.jal <$> unpackRI w
  | 0x12 => zeroField (fld w 0 10) *> Instr.jr <$> unpackRR w
  | 0x13 => Instr.ldb <$> unpackLD w
  | 0x14 => Instr.ldh <$> unpackLD w
  | 0x15 => Instr.ldw <$> unpackLD w
  | 0x16 => Instr.ldd <$> unpackLD w
  | 0x17 => Instr.ldbu <$> unpackLD w
  | 0x18 => Instr.ldhu <$> unpackLD w
  | 0x19 => Instr.ldwu <$> unpackLD w
  | 0x1A => Instr.stb <$> unpackST w
  | 0x1B => Instr.sth <$> unpackST w
  | 0x1C => Instr.stw <$> unpackST w
  | 0x1D => Instr.std <$> unpackST w
  | 0x1E => Instr.ldx <$> unpackLD w
  | 0x1F => Instr.ldp <$> unpackLD w
  | 0x20 => Instr.stx <$> unpackST w
  | 0x21 => decode21 w
  | 0x22 => Instr.lda <$> unpackLA w
  | 0x23 => Instr.stl <$> unpackSL w
  | 0x24 => decode24 w
  | 0x25 => decode25 w
  | 0x26 => decode26 w
  | 0x27 => decode27 w
  | 0x28 => decode28 w
  | 0x29 => Instr.fence <$> unpackFN w
  | 0x30 => decode30 w
  | 0x31 => decode31 w
  | 0x32 => decode32 w
  | 0x33 => decode33 w
  | 0x34 => decode34 w
  | 0x35 => decode35 w
  | 0x36 => decode36 w
  | 0x37 => Instr.vcvt <$> unpackVV w
  | 0x38 => Instr.vld <$> unpackVL w
  | 0x39 => Instr.vst <$> unpackVS w
  | 0x3A => Instr.mma <$> unpackMM w
  | 0x3B => decode3B w
  | 0x3C => decode3C w
  | 0x3D => decode3D w
  | 0x3E => decode3E w
  | _ => .error .reservedMajor

/-- The instruction of a word, or the name of the ILLEGAL case it falls under (R41). -/
noncomputable def decode (w : Word32) : Except DecodeError Instr :=
  match decodeMajor w.toNat with
  | .error e => .error e
  | .ok i =>
    match i.flaw with
    | some e => .error e
    | none => .ok i

/-! ## Bytes -/

/-- The number that bytes hold, the first the least significant (R6, R39). -/
def leNat : List Byte → Nat
  | [] => 0
  | b :: bs => b.toNat + 256 * leNat bs
/-- The n bytes of a number, the least significant first. -/
def leBytes : Nat → Nat → List Byte
  | 0, _ => []
  | n + 1, v => BitVec.ofNat 8 v :: leBytes n (v / 256)

/-- The instruction that a list of bytes begins with, and the bytes after it. -/
noncomputable def decodeBytes (bs : List Byte) : Except DecodeError (Instr × List Byte) :=
  match bs with
  | b0 :: b1 :: b2 :: b3 :: rest =>
    match decode (BitVec.ofNat 32 (leNat [b0, b1, b2, b3])) with
    | .ok i => .ok (i, rest)
    | .error e => .error e
  | _ => .error .truncated

/-- The instruction that the decoder reads from one whose bits are w, numbered as spec/opcode_table.json numbers them. -/
noncomputable def decodeTableWord (nbits w : Nat) : Option Instr :=
  match decodeBytes (leBytes 4 (w % 2 ^ nbits)) with
  | .ok (i, _) => some i
  | .error _ => none

end Sys2Proof
end

