-- ==== Sys2Proof/Machine/Formats.lean ====
section
/-! DEFINITION. Number formats, rounding and conversion (spec/09_formats.md R174 to R187) and the exact arithmetic that the scalar,
vector, window, Borer and tile conversions share. A value is exact until it is rounded: a sign, a natural number and a power of
two, with a sticky bit for a remainder that is not zero. -/
namespace Sys2Proof.Machine

/-! ## FLAGS bits (R36) -/

/-- FLAGS[6:0]. -/
abbrev Flags := BitVec 7
def fNV : Flags := 1
def fOF : Flags := 2
def fUF : Flags := 4
def fNX : Flags := 8
def fDZ : Flags := 16
def fSAT : Flags := 32
def fVCLEAN : Flags := 64
/-- A flag that is raised when a condition holds. -/
def flagIf (f : Flags) (c : Bool) : Flags := if c then f else 0

/-! ## Values -/

/-- A value before rounding: |x| = (m + t) * 2^e with 0 < t < 1 when st holds and t = 0 otherwise. -/
inductive Val where
  | nan (signalling : Bool)
  | inf (neg : Bool)
  | fin (neg : Bool) (m : Nat) (e : Int) (st : Bool)
  deriving DecidableEq, Repr

def Val.isNan : Val → Bool
  | .nan _ => true
  | _ => false
def Val.isSignalling : Val → Bool
  | .nan s => s
  | _ => false
def Val.isInf : Val → Bool
  | .inf _ => true
  | _ => false
def Val.isZero : Val → Bool
  | .fin _ 0 _ false => true
  | _ => false
def Val.isNeg : Val → Bool
  | .nan _ => false
  | .inf n => n
  | .fin n _ _ _ => n
/-- A finite value that is not zero. -/
def Val.isNonzero : Val → Bool
  | .fin _ m _ st => m != 0 || st
  | _ => false
def Val.negate : Val → Val
  | .nan s => .nan s
  | .inf n => .inf (!n)
  | .fin n m e st => .fin (!n) m e st
def Val.abs : Val → Val
  | .nan s => .nan s
  | .inf _ => .inf false
  | .fin _ m e st => .fin false m e st
/-- An integer as a value. -/
def Val.ofInt (i : Int) : Val := .fin (decide (i < 0)) i.natAbs 0 false
/-- i * 2^e as a value. -/
def Val.scaled (i : Int) (e : Int) : Val := .fin (decide (i < 0)) i.natAbs e false
/-- The value times 2^k. -/
def Val.shift (v : Val) (k : Int) : Val :=
  match v with
  | .fin n m e st => .fin n m (e + k) st
  | x => x

/-! ## Formats (R174) -/

/-- A floating-point format: widths of the exponent and fraction fields, bias, whether it has infinities, the magnitude code of
its canonical NaN (none if it has none), its largest finite magnitude code. -/
structure Fmt where
  w : Nat
  f : Nat
  bias : Nat
  hasInf : Bool
  qnan : Option Nat
  maxMag : Nat
  deriving DecidableEq, Repr

def Fmt.fp32 : Fmt := ⟨8, 23, 127, true, some 0x7FC00000, 0x7F7FFFFF⟩
def Fmt.fp16 : Fmt := ⟨5, 10, 15, true, some 0x7E00, 0x7BFF⟩
def Fmt.bf16 : Fmt := ⟨8, 7, 127, true, some 0x7FC0, 0x7F7F⟩
def Fmt.e5m2 : Fmt := ⟨5, 2, 15, true, some 0x7E, 0x7B⟩
def Fmt.e4m3 : Fmt := ⟨4, 3, 7, false, some 0x7F, 0x7E⟩
def Fmt.e3m2 : Fmt := ⟨3, 2, 3, false, none, 0x1F⟩
def Fmt.e2m3 : Fmt := ⟨2, 3, 1, false, none, 0x1F⟩
def Fmt.e2m1 : Fmt := ⟨2, 1, 1, false, none, 0x7⟩

/-- The number of bits of a code. -/
def Fmt.bits (F : Fmt) : Nat := 1 + F.w + F.f
/-- The exponent of the smallest normal value. -/
def Fmt.emin (F : Fmt) : Int := 1 - (F.bias : Int)
/-- The code with a sign and a magnitude code. -/
def Fmt.code (F : Fmt) (neg : Bool) (mag : Nat) : Nat := (if neg then 2 ^ (F.w + F.f) else 0) + mag
/-- The canonical NaN (R175). -/
def Fmt.nanCode (F : Fmt) : Nat := F.qnan.getD 0
/-- The code of an infinity. -/
def Fmt.infCode (F : Fmt) (neg : Bool) : Nat := F.code neg ((2 ^ F.w - 1) * 2 ^ F.f)

/-- The value of a code (R175). A NaN of FP32, FP16, BF16 or E5M2 is signalling when the top bit of its fraction is 0; those of
E4M3 never are. -/
def Fmt.value (F : Fmt) (c : Nat) : Val :=
  let neg := decide (c / 2 ^ (F.w + F.f) % 2 = 1)
  let E := c / 2 ^ F.f % 2 ^ F.w
  let fr := c % 2 ^ F.f
  if F.hasInf && E == 2 ^ F.w - 1 then
    if fr = 0 then .inf neg else .nan (decide (fr < 2 ^ (F.f - 1)))
  else if F.qnan.isSome && !F.hasInf && c % 2 ^ (F.w + F.f) == F.nanCode then .nan false
  else if E = 0 then .fin neg fr (F.emin - F.f) false
  else .fin neg (2 ^ F.f + fr) ((E : Int) - F.bias - F.f) false

/-! ## Rounding (R180, R181) -/

/-- The integer next to (m + t) * 2^(-d) in magnitude that mode rm chooses, and whether it differs. -/
def roundShift (rm : Rm) (neg : Bool) (m d : Nat) (st : Bool) : Nat × Bool :=
  let q := m / 2 ^ d
  let r := m % 2 ^ d
  let inexact := r != 0 || st
  let above := if d = 0 then false else decide (r > 2 ^ (d - 1)) || (r == 2 ^ (d - 1) && st)
  let tie := if d = 0 then false else r == 2 ^ (d - 1) && !st
  let up := match rm with
    | .rne => above || (tie && q % 2 == 1)
    | .rtz => false
    | .rup => inexact && !neg
    | .rdn => inexact && neg
    | .rto => inexact && q % 2 == 0
  (if up then q + 1 else q, inexact)

/-- The magnitude (m + t) * 2^e rounded to the grid of a format with f fraction bits and smallest normal exponent emin, with no
upper bound: q and k with value q * 2^k, whether it differs, and whether the magnitude lies below the smallest normal value. -/
def roundGrid (f : Nat) (emin : Int) (rm : Rm) (neg : Bool) (m : Nat) (e : Int) (st : Bool) : Nat × Int × Bool × Bool :=
  let m' := if st then m * 2 ^ (f + 4) else m
  let e' := if st then e - (f + 4 : Nat) else e
  let E := (Nat.log2 m' : Int) + e'
  let k := max E emin - f
  let tiny := decide (E < emin)
  if k ≤ e' then (m' * 2 ^ (e' - k).toNat, k, st, tiny)
  else
    let (q, x) := roundShift rm neg m' (k - e').toNat st
    (q, k, x, tiny)

/-- The magnitude code of q * 2^k on the grid of F, which may lie above the largest finite one. -/
def Fmt.magCode (F : Fmt) (q : Nat) (k : Int) : Nat :=
  if q < 2 ^ F.f then q
  else if q = 2 ^ (F.f + 1) then ((k + 1 + F.f + F.bias).toNat) * 2 ^ F.f
  else ((k + F.f + F.bias).toNat) * 2 ^ F.f + (q - 2 ^ F.f)

/-- Round into a floating-point format, with the flags it raises (R181). -/
def roundTo (F : Fmt) (rm : Rm) (v : Val) : Nat × Flags :=
  match v with
  | .nan s => (F.nanCode, flagIf fNV s)
  | .inf n => if F.hasInf then (F.infCode n, 0) else (F.code n F.maxMag, fOF)
  | .fin n m e st =>
    if m = 0 ∧ st = false then (F.code n 0, 0)
    else
      let (q, k, x, tiny) := roundGrid F.f F.emin rm n m e st
      let mag := F.magCode q k
      if mag > F.maxMag then
        if F.hasInf && (rm == .rne || (rm == .rup && !n) || (rm == .rdn && n)) then (F.infCode n, fOF ||| fNX)
        else (F.code n F.maxMag, fOF ||| fNX)
      else (F.code n mag, flagIf fNX x ||| flagIf fUF (x && tiny))

/-- The integer that mode rm rounds a finite value to, and whether it differs. -/
def roundInteger (rm : Rm) (neg : Bool) (m : Nat) (e : Int) (st : Bool) : Int × Bool :=
  let (q, x) := if e ≥ 0 then (m * 2 ^ e.toNat, st) else roundShift rm neg m (min (-e).toNat (Nat.log2 m + 2)) (st || decide ((-e).toNat > Nat.log2 m + 2 ∧ m ≠ 0))
  (if neg then -(q : Int) else q, x)

/-- Round into an integer format from lo to hi (R181): NaN gives 0 with NV, an infinity or a value out of range the nearer end
with NV and without NX. -/
def roundInt (lo hi : Int) (rm : Rm) (v : Val) : Int × Flags :=
  match v with
  | .nan _ => (0, fNV)
  | .inf n => (if n then lo else hi, fNV)
  | .fin n m e st =>
    if m = 0 ∧ st = false then (0, 0)
    else
      let (q, x) := if e > 200 then ((if n then lo - 1 else hi + 1), false) else roundInteger rm n m e st
      if q < lo then (lo, fNV) else if q > hi then (hi, fNV) else (q, flagIf fNX x)

/-! ## Exact arithmetic on values (R160 to R163) -/

/-- The signed integer of a finite value at scale 2^e0, e0 at or below its exponent. -/
def sig (neg : Bool) (m : Nat) (e e0 : Int) : Int :=
  let a : Int := m * 2 ^ (e - e0).toNat
  if neg then -a else a

/-- NV of the signalling operands, with a NaN result. -/
def nanOf (vs : List Val) (invalid : Bool) : Val × Flags :=
  (.nan false, flagIf fNV (invalid || vs.any Val.isSignalling))

/-- The exact sum of two finite values; an exact zero is +0 unless both are -0 (R161). -/
def addFin (n1 : Bool) (m1 : Nat) (e1 : Int) (n2 : Bool) (m2 : Nat) (e2 : Int) : Val :=
  if m1 = 0 ∧ m2 = 0 then .fin (n1 && n2) 0 0 false
  else
    let e0 := min e1 e2
    .scaled (sig n1 m1 e1 e0 + sig n2 m2 e2 e0) e0

/-- a + b before rounding, and the flags of its special cases. -/
def valAdd (a b : Val) : Val × Flags :=
  match a, b with
  | .nan _, _ | _, .nan _ => nanOf [a, b] false
  | .inf n, .inf n' => if n = n' then (.inf n, 0) else nanOf [] true
  | .inf n, _ => (.inf n, 0)
  | _, .inf n => (.inf n, 0)
  | .fin n1 m1 e1 _, .fin n2 m2 e2 _ => (addFin n1 m1 e1 n2 m2 e2, 0)

/-- a - b before rounding. -/
def valSub (a b : Val) : Val × Flags := valAdd a b.negate

/-- a * b before rounding. -/
def valMul (a b : Val) : Val × Flags :=
  match a, b with
  | .nan _, _ | _, .nan _ => nanOf [a, b] false
  | .inf n, x | x, .inf n => if x.isZero then nanOf [] true else (.inf (n != x.isNeg), 0)
  | .fin n1 m1 e1 _, .fin n2 m2 e2 _ => (.fin (n1 != n2) (m1 * m2) (e1 + e2) false, 0)

/-- c + a * b with one rounding; a 0 times infinity product raises NV whatever the addend (R161, R162). -/
def valFma (c a b : Val) : Val × Flags :=
  let p := valMul a b
  let s := valAdd c p.1
  (s.1, (if p.1.isNan then p.2 ||| flagIf fNV c.isSignalling else s.2))

/-- a / b before rounding to f fraction bits (R161). -/
def valDiv (f : Nat) (a b : Val) : Val × Flags :=
  match a, b with
  | .nan _, _ | _, .nan _ => nanOf [a, b] false
  | .inf _, .inf _ => nanOf [] true
  | .inf n, x => (.inf (n != x.isNeg), 0)
  | x, .inf n => (.fin (n != x.isNeg) 0 0 false, 0)
  | .fin n1 m1 e1 _, .fin n2 m2 e2 _ =>
    if m2 = 0 then (if m1 = 0 then nanOf [] true else (.inf (n1 != n2), fDZ))
    else
      let s := f + 4 + Nat.log2 m2
      let N := m1 * 2 ^ s
      (.fin (n1 != n2) (N / m2) (e1 - e2 - s) (N % m2 != 0), 0)

/-- The integer square root, found bit by bit from bit n - 1 down. -/
def isqrtAux (x : Nat) : Nat → Nat → Nat
  | 0, r => r
  | n + 1, r => isqrtAux x n (if (r + 2 ^ n) * (r + 2 ^ n) ≤ x then r + 2 ^ n else r)
/-- The largest r with r * r at most x. -/
def isqrt (x : Nat) : Nat := isqrtAux x (Nat.log2 x / 2 + 1) 0

/-- A finite magnitude with an even exponent. -/
def evenExp (m : Nat) (e : Int) : Nat × Int := if e % 2 = 0 then (m, e) else (2 * m, e - 1)

/-- The square root of a before rounding to f fraction bits (R161). -/
def valSqrt (f : Nat) (a : Val) : Val × Flags :=
  match a with
  | .nan _ => nanOf [a] false
  | .inf n => if n then nanOf [] true else (.inf false, 0)
  | .fin n m e _ =>
    if m = 0 then (.fin n 0 0 false, 0)
    else if n then nanOf [] true
    else
      let (m, e) := evenExp m e
      let s := f + 4
      let X := m * 2 ^ (2 * s)
      let r := isqrt X
      (.fin false r (e / 2 - s) (r * r != X), 0)

/-- 1 / sqrt a before rounding to f fraction bits (R196). -/
def valRsq (f : Nat) (a : Val) : Val × Flags :=
  match a with
  | .nan _ => nanOf [a] false
  | .inf n => if n then nanOf [] true else (.fin false 0 0 false, 0)
  | .fin n m e _ =>
    if m = 0 then (.inf n, fDZ)
    else if n then nanOf [] true
    else
      let (m, e) := evenExp m e
      let K := f + 4 + Nat.log2 m
      let X := 2 ^ (2 * K)
      let r := isqrt (X / m)
      (.fin false r (-(K : Int) - e / 2) (r * r * m != X), 0)

/-- 1 / a (R196): an infinity gives a zero of its sign, a zero an infinity of its sign with DZ. -/
def valRcp (f : Nat) (a : Val) : Val × Flags := valDiv f (.fin false 1 0 false) a

/-- Fixed-point bits that the exponential and the logarithm carry. -/
def specialBits : Nat := 256

/-- The product of two fixed-point numbers. -/
def fxMul (a b : Nat) : Nat := a * b / 2 ^ specialBits

/-- 2^r as a fixed-point number in [1, 2), where r is the fraction whose n bits, the most significant first, stand in bs: the
product of the roots 2^(1/2), 2^(1/4), … that the bits select. -/
def exp2Bits : List Bool → Nat → Nat → Nat
  | [], _, acc => acc
  | b :: bs, root, acc =>
    let root' := isqrt (root * 2 ^ specialBits)
    exp2Bits bs root' (if b then fxMul acc root' else acc)

/-- The n low bits of x, the most significant first. -/
def bitsOf : Nat → Nat → List Bool
  | 0, _ => []
  | n + 1, x => (x / 2 ^ n % 2 == 1) :: bitsOf n x

/-- 2^a before rounding (R196). -/
def valExp2 (a : Val) : Val × Flags :=
  match a with
  | .nan _ => nanOf [a] false
  | .inf n => (if n then .fin false 0 0 false else .inf false, 0)
  | .fin n m e _ =>
    let x : Int := if n then -(m : Int) else m
    if m = 0 then (.fin false 1 0 false, 0)
    else if e ≥ 0 then (.fin false 1 (if e > 12 then (if n then -5000 else 5000) else max (-5000) (min 5000 (x * 2 ^ e.toNat))) (decide (e > 12 ∧ n = true)), 0)
    else
      let k := (-e).toNat
      let ip := max (-5000) (min 5000 (x.fdiv (2 ^ k)))
      let fp := (x.fmod (2 ^ k)).toNat
      if fp = 0 then (.fin false 1 ip false, 0)
      else (.fin false (exp2Bits (bitsOf k fp) (2 * 2 ^ specialBits) (2 ^ specialBits)) (ip - specialBits) true, 0)

/-- n bits of the binary logarithm of the fixed-point number z in [1, 2), by repeated squaring. -/
def log2Bits : Nat → Nat → Nat → Nat
  | 0, _, acc => acc
  | n + 1, z, acc =>
    let z' := fxMul z z
    if z' ≥ 2 * 2 ^ specialBits then log2Bits n (z' / 2) (2 * acc + 1) else log2Bits n z' (2 * acc)

/-- Bits of a logarithm's fraction. -/
def logBits : Nat := 112

/-- log2 a before rounding (R196). -/
def valLog2 (a : Val) : Val × Flags :=
  match a with
  | .nan _ => nanOf [a] false
  | .inf n => if n then nanOf [] true else (.inf false, 0)
  | .fin n m e _ =>
    if m = 0 then (.inf true, fDZ)
    else if n then nanOf [] true
    else
      let L := Nat.log2 m
      let E : Int := L + e
      if m = 2 ^ L then (if E = 0 then .fin false 0 0 false else .ofInt E, 0)
      else
        let fr := log2Bits logBits (m * 2 ^ (specialBits - L)) 0
        let Y : Int := E * 2 ^ logBits + fr
        (if Y ≥ 0 then .fin false Y.toNat (-(logBits : Int)) true else .fin true (-Y - 1).toNat (-(logBits : Int)) true, 0)

/-! ## Order of codes (R163, R164) -/

/-- A number that orders the codes of a format that are no NaN; both zeros give 0. -/
def Fmt.key (F : Fmt) (c : Nat) : Int :=
  let mag := c % 2 ^ (F.w + F.f)
  if c / 2 ^ (F.w + F.f) % 2 = 1 then -(mag : Int) else mag
/-- The same order with -0 below +0 (R163). -/
def Fmt.keyZ (F : Fmt) (c : Nat) : Int :=
  let mag := c % 2 ^ (F.w + F.f)
  if c / 2 ^ (F.w + F.f) % 2 = 1 then -(mag : Int) - 1 else mag

/-- FMIN (mx false) and FMAX (mx true): an operand unchanged or the canonical NaN (R163). -/
def Fmt.minmax (F : Fmt) (mx : Bool) (a b : Nat) : Nat × Flags :=
  let va := F.value a
  let vb := F.value b
  let fl := flagIf fNV (va.isSignalling || vb.isSignalling)
  if va.isNan && vb.isNan then (F.nanCode, fl)
  else if va.isNan then (b, fl)
  else if vb.isNan then (a, fl)
  else if mx then (if F.keyZ a ≥ F.keyZ b then a else b, fl)
  else (if F.keyZ a ≤ F.keyZ b then a else b, fl)

/-- Round a value and join the flags of its special cases. -/
def roundRne (F : Fmt) (r : Val × Flags) : Nat × Flags :=
  let x := roundTo F .rne r.1
  (x.1, x.2 ||| r.2)

/-! ## Blocks (R177 to R179, R182, R183) -/

/-- The block formats. -/
inductive Blk | e2m1 | e3m2 | e2m3 | int4
  deriving DecidableEq, Repr

/-- Stored bytes S of a block (R57). -/
def Blk.size : Blk → Nat
  | .e2m1 => 18
  | .e3m2 => 25
  | .e2m3 => 25
  | .int4 => 17
/-- Emax of R182. -/
def Blk.emax : Blk → Int
  | .e3m2 => 4
  | _ => 2
/-- The element format; INT4 has integers instead. -/
def Blk.fmt : Blk → Fmt
  | .e2m1 => .e2m1
  | .e3m2 => .e3m2
  | .e2m3 => .e2m3
  | .int4 => .e2m1
/-- Bits of one element code. -/
def Blk.elemBits : Blk → Nat
  | .e2m1 | .int4 => 4
  | .e3m2 | .e2m3 => 6

/-- The code of element i in the little-endian number of a block's element bytes (R57). -/
def Blk.elem (k : Blk) (n i : Nat) : Nat := n / 2 ^ (k.elemBits * i) % 2 ^ k.elemBits
/-- The bytes that hold the 32 element codes. -/
def Blk.elemBytes (k : Blk) : Nat := 4 * k.elemBits

/-- The value of an element code in a block with a scale byte and, for E2M1, a special byte (R177, R178). -/
def Blk.value (k : Blk) (code scale special : Nat) : Val :=
  if scale = 255 then .nan false
  else
    let x := match k with
      | .e2m1 => if code = 8 then Fmt.e4m3.value special else Fmt.e2m1.value code
      | .int4 => .ofInt (if code ≥ 8 then (code : Int) - 16 else code)
      | _ => k.fmt.value code
    x.shift ((scale : Int) - 127)

/-- The 32 values of a block of S bytes, read as one little-endian number. -/
def Blk.values (k : Blk) (n : Nat) : List Val :=
  let scale := n / 2 ^ (8 * k.elemBytes) % 256
  let special := n / 2 ^ (8 * (k.elemBytes + 1)) % 256
  (List.range 32).map fun i => k.value (k.elem n i) scale special

/-- The FP16 code that a value decodes to; no flag (R179). -/
def toFp16 (v : Val) : Nat := (roundTo .fp16 .rne v).1

/-- One magnitude as a comparable pair. -/
def magLt (a b : Val) : Bool :=
  match a, b with
  | .fin _ m1 e1 _, .fin _ m2 e2 _ =>
    let e0 := min e1 e2
    decide (m1 * 2 ^ (e1 - e0).toNat < m2 * 2 ^ (e2 - e0).toNat)
  | _, _ => false
/-- The largest magnitude of a list of finite values; zero if there is none. -/
def maxMagVal (xs : List Val) : Val := xs.foldl (fun a x => if magLt a x then x.abs else a) (.fin false 0 0 false)
/-- Floor(Log2 |x|) of a finite nonzero value. -/
def Val.floorLog2 : Val → Int
  | .fin _ m e _ => (Nat.log2 m : Int) + e
  | _ => 0

/-- |a - b| for finite values. -/
def valDist (a b : Val) : Val := (valSub a b).1.abs

/-- One element of R182: the code, the value it stands for, and the flags. -/
def Blk.encodeElem (k : Blk) (rm : Rm) (y : Val) : Nat × Val × Flags :=
  match y with
  | .fin n m e _ =>
    if m = 0 then ((if n && k != .int4 then 2 ^ (k.elemBits - 1) else 0), y, 0)
    else
      match k with
      | .int4 =>
        let (q, x) := roundInteger rm n m e false
        let c := max (-7) (min 7 q)
        ((c % 16).toNat, .ofInt c, flagIf fSAT (c != q) ||| flagIf fNX (x || c != q))
      | _ =>
        let F := k.fmt
        let (q, kk, x, _) := roundGrid F.f F.emin rm n m e false
        let mag := F.magCode q kk
        let mag' := min mag F.maxMag
        (F.code n mag', F.value (F.code n mag'), flagIf fSAT (mag > F.maxMag) ||| flagIf fNX (x || mag > F.maxMag))
  | _ => (0, y, 0)

/-- The index and distance of the lowest element whose distance is largest. -/
def farthest : List Val → List Val → Nat → Nat → Val → Nat × Val
  | y :: ys, e :: es, i, bi, bd =>
    let d := valDist y e
    if magLt bd d then farthest ys es (i + 1) i d else farthest ys es (i + 1) bi bd
  | _, _, _, bi, bd => (bi, bd)

/-- A block of 32 values encoded in mode rm (R182, R183): its bytes as one little-endian number, and the flags. The source format
gives the finite value that replaces an infinity. -/
def Blk.encode (k : Blk) (src : Fmt) (rm : Rm) (xs : List Val) : Nat × Flags :=
  if xs.any Val.isNan then (255 * 2 ^ (8 * k.elemBytes), fNV)
  else
    let anyInf := xs.any Val.isInf
    let xs := xs.map fun x => match x with
      | .inf n => (src.value (src.code n src.maxMag))
      | x => x
    let a := maxMagVal xs
    let scale : Int := if a.isZero then 127 else max 0 (min 254 (a.floorLog2 - k.emax + 127))
    let ys := xs.map fun x => x.shift (127 - scale)
    let es := ys.map (k.encodeElem rm)
    let fl := es.foldl (fun f e => f ||| e.2.2) (flagIf fOF anyInf)
    let codes := es.map Prod.fst
    let (special, codes) :=
      if k = .e2m1 then
        let (i, d) := farthest ys (es.map fun e => e.2.1) 0 0 (.fin false 0 0 false)
        if d.isZero then (0, codes)
        else
          let sp := (roundTo .e4m3 rm (ys.getD i (.fin false 0 0 false))).1
          (sp, (ys.zip codes).map fun yc => if (roundTo .e4m3 rm yc.1).1 = sp then 8 else yc.2)
      else (0, codes)
    let body := codes.foldr (fun c acc => c + 2 ^ k.elemBits * acc) 0
    (body + 2 ^ (8 * k.elemBytes) * (scale.toNat + 256 * special), fl)

/-! ## Block-fixed operands (R184, R185) -/

/-- Encodings of a matrix operand (R205). -/
inductive Enc | twos | unsigned | signMag
  deriving DecidableEq, Repr

/-- Block-fixed mantissas of a run with precision P, encoding and mode: the mantissas, the exponent of the step, the flags (R184). -/
def blockFixed (P : Nat) (enc : Enc) (rm : Rm) (xs : List Val) : List Int × Int × Flags :=
  let anyNan := xs.any Val.isNan
  let anyInf := xs.any Val.isInf
  let xs := xs.map fun x => if x.isNan then .fin false 0 0 false else x
  let big := maxMagVal (xs.filter fun x => !x.isInf)
  let xs := xs.map fun x => match x with
    | .inf n => (match big with
      | .fin _ m e _ => .fin n m e false
      | b => b)
    | x => x
  let a := maxMagVal xs
  let e : Int := if a.isZero then 0 else a.floorLog2
  let (step, lo, hi) : Int × Int × Int := match enc with
    | .twos => (e - P + 2, -(2 ^ (P - 1) : Nat), (2 ^ (P - 1) : Nat) - 1)
    | .signMag => (e - P + 2, -((2 ^ (P - 1) : Nat) - 1), (2 ^ (P - 1) : Nat) - 1)
    | .unsigned => (e - P + 1, 0, (2 ^ P : Nat) - 1)
  let rs := xs.map fun x => match x with
    | .fin n m ex _ =>
      let (q, ix) := roundInteger rm n m (ex - step) false
      let c := max lo (min hi q)
      (c, flagIf fSAT (c != q) ||| flagIf fNX (ix || c != q))
    | _ => (0, 0)
  (rs.map Prod.fst, step, rs.foldl (fun f r => f ||| r.2) (flagIf fNV anyNan ||| flagIf fOF anyInf))

/-- An E2M1 run of one scale code in sign-magnitude form with P = 5: its signed mantissas, the exponent of the step, the flags
(R185). Each element is its code and the special byte of its block. -/
def e2m1Fixed (rm : Rm) (scale : Nat) (elems : List (Nat × Nat)) : List Int × Int × Flags :=
  if scale = 255 then (elems.map fun _ => 0, 127, fNV)
  else
    let rs := elems.map fun cs =>
      if cs.1 = 8 then
        match Fmt.e4m3.value cs.2 with
        | .fin n m e _ =>
          let (q, ix) := roundInteger rm n m (e + 1) false
          let mag := min q.natAbs 15
          ((if n then -(mag : Int) else mag), flagIf fSAT (q.natAbs > 15) ||| flagIf fNX ix)
        | _ => (0, fNV)
      else match Fmt.e2m1.value cs.1 with
        | .fin n m e _ => ((roundInteger rm n m (e + 1) false).1, 0)
        | _ => (0, 0)
    (rs.map Prod.fst, (scale : Int) - 128, rs.foldl (fun f r => f ||| r.2) 0)

/-! ## Truncation to an anchor (R186, R211) -/

/-- Truncate(x, an) / 2^an for x = i * 2^e: the floor. -/
def truncAt (i : Int) (e an : Int) : Int :=
  if e ≥ an then i * 2 ^ (e - an).toNat
  else
    let d := (an - e).toNat
    if d > i.natAbs.log2 + 1 then (if i < 0 then -1 else 0) else i.fdiv (2 ^ d)

end Sys2Proof.Machine
end

