-- ==== Sys2Proof/Machine/State.lean ====
section
/-! DEFINITION. The state of one T8-1536 module (spec/01_device.md R8), every piece of it plain data, and its value at module reset.
Other modules, the host software and the wires are the outside world: what they do arrives through the plan. -/
namespace Sys2Proof.Machine

/-! ## Sparse tables and memory -/

/-- Values by number; a number that is not listed has the table's own default. -/
abbrev Table (α : Type) := List (Nat × α)

/-- Memory: the bytes that differ from 0, addresses rising (log 1: a byte that nothing has written reads as 0). -/
abbrev Memory := List Host.Cell

/-! ## Registers of a process (spec/03_encoding.md R32, R36) -/

/-- A register class and number struck by an uncorrectable error: 0 g, 1 v, 2 q, 3 sh (R300, R315). -/
abbrev RegRef := Nat × Nat

/-- The per-process control registers of R37 that a CTLW without external effect or a trap entry writes (R86, R135, R227, R299). -/
structure Ctl where
  trapv : Word
  trappc : Word
  code : BitVec 8
  inh : Bool
  nest : Bool
  trapinfo : Word
  ckptv : Word
  timeout : Word
  synclim : Word
  dbias : Word
  dmult : Word
  dtable : Word
  dabs : Word
  dfmt : Word
  deriving DecidableEq, Repr

/-- R86, R299, R227: their values at process start. -/
def Ctl.start : Ctl :=
  { trapv := 0, trappc := 0, code := 0, inh := false, nest := false, trapinfo := 0, ckptv := 0, timeout := 0, synclim := 4096,
    dbias := 0, dmult := 0, dtable := 0, dabs := 0, dfmt := 0 }

/-- The registers that R46 restores on a trap of an older operation. -/
structure Regs where
  g : Vector Word (2 ^ 6)
  p : Vector Bool (2 ^ 3)
  v : Vector VReg (2 ^ 5)
  q : Vector Mask (2 ^ 3)
  sh : Vector (BitVec 256) (2 ^ 3)
  flags : Flags
  ctl : Ctl
  deriving DecidableEq, Repr

/-- R35, R36: every register zero, FLAGS at its reset value (VCLEAN set). -/
def Regs.start : Regs :=
  { g := Vector.replicate _ 0, p := Vector.replicate _ false, v := Vector.replicate _ 0, q := Vector.replicate _ 0,
    sh := Vector.replicate _ 0, flags := fVCLEAN, ctl := Ctl.start }

/-! ## Traps (spec/19_faults.md R300, R301) -/

/-- Cause codes of R301. -/
inductive Cause
  | illegal | regallot | priv | misalign | shapeAlign | copyAlign | page | prot | syncLimit | tileMismatch | groupBusy
  | groupInvalid | chanType | chanTimeout | handle | ecc | soft | quiesce | repartBusy | remoteKey
  deriving DecidableEq, Repr

/-- The code of a cause (R301). -/
def Cause.code : Cause → BitVec 8
  | .illegal => 0x01 | .regallot => 0x02 | .priv => 0x03 | .misalign => 0x04 | .shapeAlign => 0x05 | .copyAlign => 0x06
  | .page => 0x07 | .prot => 0x08 | .syncLimit => 0x09 | .tileMismatch => 0x0A | .groupBusy => 0x0B | .groupInvalid => 0x0C
  | .chanType => 0x0D | .chanTimeout => 0x0E | .handle => 0x0F | .ecc => 0x10 | .soft => 0x11 | .quiesce => 0x12
  | .repartBusy => 0x13 | .remoteKey => 0x14

/-- A trap with its TRAPINFO (R300). For PAGE, the access class and the level of the absent entry (R306). -/
structure Trap where
  cause : Cause
  info : Word
  cls : Nat := 0
  level : Nat := 0
  deriving DecidableEq, Repr

/-- A value or a trap that ends an outstanding operation. -/
inductive Answer
  | vals (vs : List (BitVec 1024))
  | trap (t : Trap)
  deriving DecidableEq, Repr

/-! ## Outstanding operations (R44 to R46) -/

/-- Where the value of a long-latency operation goes. -/
inductive Dest
  | none
  /-- A g register, from size bytes, sign-extended or zero-extended (R168). -/
  | g (d : BitVec 6) (size : Nat) (signed : Bool)
  /-- Two g registers (MKCH, RECVT). -/
  | gg (d e : BitVec 6)
  /-- Two more dwords that an instruction reads before it takes effect (CKPT, QARM), or one (SPAWN, GOPEN, ALT). -/
  | buf
  | dword
  /-- The bytes of a v register that a mask of 128 bits selects (R191). -/
  | v (d : BitVec 5) (bytes : BitVec 128)
  deriving DecidableEq, Repr

/-- The classes of R44 and R236 that an outstanding operation belongs to. -/
inductive OutKind | load | sync | amo | tileOp | copy | flash | chan
  deriving DecidableEq, Repr

/-! ## Homes, tags and requests (spec/14_atomics_fences.md R232, spec/05_tags.md R79, R82) -/

/-- Home(addr) (R232). Scarabs are numbered by edge slice, die * 32 + s (R11); units of the control and MMIO range: 0 Launch Unit, 1 IO endpoints
and timers, 2 mailbox, 3 + d the registers of die d (R316). -/
inductive Home | core (n : Nat) | scarab (slice : Nat) | host | mmio (unit : Nat) | remote (m : Nat)
  deriving DecidableEq, Repr

/-- States of a tile (R79). -/
inductive Tag | empty | pending | full | lent | via
  deriving DecidableEq, Repr

/-- Who sends a request: R234 keeps order for each source to each home. Another module's requests come in by one port (R251). -/
inductive Src
  | core (n : Nat) | copyUnit (n : Nat) | streamer (n : Nat) | scarab (slice : Nat) | borer | launchUnit
  /-- One of the 32 host cores, or an external host through PCIe (R8, R336). -/
  | hostCore (n : Nat) | pcie
  /-- Host memory and the other units of the host-core die. -/
  | hostDie
  | remote (m port : Nat)
  deriving DecidableEq, Repr

/-- The events of R82. -/
inductive TagEvent
  | arrivalClaims | arrivalCompletes | stx | tfull | ldx | tempty | load | sync | twaite | store | lend | lendReleased | install
  deriving DecidableEq, Repr

/-- An engine that waits for its turn at tiles (R80): with a message, by number; the completion tile of a copy of a core, or of a Borer request; a
process whose word in progress, or MKCH, has reached a tile; a macro-operation of a core. -/
inductive Waiter
  | msg (id : Nat)
  | copy (core id : Nat)
  | flash (id : Nat)
  | proc (pk : Nat)
  | top (core id : Nat)
  deriving DecidableEq, Repr

/-- The translation under which an access was sent (R66, R67): the physical address and the contents of its leaf entry, the range of
virtual addresses that the entry maps, and the address space. A length of 0 stands for an address that is not translated (R61). -/
structure Under where
  leaf : Nat
  pte : Word
  va : Nat
  len : Nat
  asid : Nat
  origin : Nat
  deriving DecidableEq, Repr
/-- An address that is not translated. -/
def Under.none : Under := ⟨0, 0, 0, 0, 0, 0⟩
/-- An untranslated address of a process of an address space. -/
def Under.plain (asid origin : Nat) : Under := ⟨0, 0, 0, 0, asid, origin⟩

/-- Who claimed a tile for an arrival (R81): a piece of a copy of a module's core, a transfer at a module's channel home, or the pull of a
waymark's tile. -/
inductive Claimant
  | piece (m core copyId idx : Nat)
  | transfer (m core xfer idx : Nat)
  | pull (lend : Nat)
  deriving DecidableEq, Repr

/-- What a waymark is made from (R98, R99, R103): the lend and the physical address of its first byte, tiles, tile size, type code, and the
tiles that are still lent. -/
structure Lent where
  lend : Nat
  src : Nat
  n : Nat
  tile : Nat
  ty : BitVec 16
  live : List Nat
  deriving DecidableEq, Repr

/-- What a streamer is asked to move (R114, R131): n bytes at a physical address to another, for a claimant. A sum reads an accumulator tile
(R120); ldx empties the tiles of a ring slot (R132). The translation of the source is that of an own core's access (R69). -/
structure Bulk where
  who : Claimant
  src : Nat
  n : Nat
  dst : Nat
  sum : Bool
  ldx : Bool
  under : Under
  deriving DecidableEq, Repr

/-- What a home does with memory. Addresses are local addresses, with the window of R56 for scratchpads. -/
inductive ROp
  /-- A load of size bytes; ldx empties the tile, sync waits as LDP does (R82, R89). -/
  | load (pa size : Nat) (ldx sync : Bool)
  /-- A store to n bytes at pa: for each stored byte its address, the bits it writes and their values; stx takes the STX row (R82). -/
  | store (pa n : Nat) (bytes : List (Nat × Byte × Byte)) (stx stl : Bool)
  /-- An AMO of form f with operand v and expected value e (R237). -/
  | amo (pa f : Nat) (v e : Word) (ret : Bool)
  /-- One tile of the TAG group by the f of R94; n tiles for a TQRY of another module. -/
  | tag (f core tile n : Nat)
  /-- An arrival's claim of a tile (R81). -/
  | claim (core tile : Nat) (c : Claimant)
  /-- The check of a destination without tags for an arrival (R256). -/
  | claimMem (pa len : Nat) (c : Claimant)
  /-- A lend record for len bytes at src, n destination tiles; for HBM the bytes too (R99). The channel end is slot of core c, the lend's first
  holder is the receive end. -/
  | lendOpen (src len n c slot : Nat) (holder : Word)
  /-- One source tile of a lend (R99 step 1). -/
  | lendTile (core tile c slot : Nat)
  /-- A use of a waymark handle by a re-send: its check, or the taking of its record (R98, R103, R146). -/
  | mark (take : Bool) (core idx : Nat) (handle : Word) (ty : BitVec 16) (c slot : Nat)
  /-- A waymark record, and its tiles from a tile on (R98, R99 step 3, R101, R103). -/
  | markOpen (core tile : Nat) (x : Lent) (va : Word) (c slot : Nat)
  /-- An engine that waits for its turn at the tiles it reaches, by a row: it holds its place in arrival order (R80) until it has acted. -/
  | engine (ts : List (Nat × Nat)) (row : TagEvent) (who : Waiter)
  /-- One destination tile of a waymark (R99 step 3); live when its counterpart is VIA, otherwise the TEMPTY row (R103). -/
  | install (core tile mark : Nat) (live : Bool) (c slot : Nat)
  deriving DecidableEq, Repr

/-- A request at or on its way to its home. -/
structure Req where
  id : Nat
  src : Src
  /-- The issuing process, by its process word (R129); a host core n is 2^26 + n, and an external host 2^26 + 32. -/
  who : Nat
  /-- The outstanding operation or unacknowledged store it belongs to. -/
  op : Nat
  home : Home
  rop : ROp
  va : Word
  /-- Its translation (R67, R69). -/
  under : Under
  /-- The home has told the core that it holds the request (R170, R235). -/
  noticed : Bool
  /-- The home has asked the core to release its promotion (R235). -/
  asked : Bool
  /-- DTIME of its first arrival (R86). -/
  arrived : Option Nat
  /-- The address of its instruction. -/
  pc : Word
  /-- SYNCLIM of its process, when the wait is bounded (R86). -/
  limit : Nat
  /-- An STL at AUTO, or a send, whose promotion the issuing core has released (R235). -/
  released : Bool
  /-- A shoot-down has withdrawn its translation while it waits on a tag: it is translated again before it is performed (R67, R309). -/
  stale : Bool
  deriving DecidableEq, Repr

/-- An outstanding operation of a process. -/
structure OutOp where
  id : Nat
  pc : Word
  /-- The lookahead count L (R43). -/
  l : Nat
  /-- Words issued after it (R44). -/
  issued : Nat
  /-- It has passed its commit point. -/
  committed : Bool
  kind : OutKind
  dest : Dest
  /-- No later instruction has written its destination (R45). -/
  live : Bool
  /-- The registers as they stood when it issued (R46). -/
  snap : Regs
  /-- The older operations whose results belong in the snapshot too, each with the destination that it then had. -/
  older : List (Nat × Dest)
  /-- The VA or handle it names. -/
  va : Word
  /-- Later accesses to these homes are held until it completes: 0 none, 1 CORE, 2 PKG, 3 SYS (R90, R150, R244). -/
  acquire : Nat
  /-- The home that it accesses, where it has one. -/
  home : Option Home
  /-- Of an operation on a range, the requests that have not left yet: each leaves when the one before it is answered (R94). -/
  more : List Req
  /-- Values that have arrived of the requests of a range (R95). -/
  got : List Nat
  /-- The translation of the operand of a channel operation (R145). -/
  under : Under
  deriving DecidableEq, Repr

/-- A MKCH, ALT or ALTF that waits while later words may issue (R43): what it has captured and how far it has come. -/
structure Multi where
  /-- Its outstanding operation. -/
  op : Nat
  /-- 0 MKCH, 1 ALT, 2 ALTF. -/
  form : Nat
  /-- The word itself, for TRAPINFO (R300). -/
  word : Nat
  args : List Word
  prog : Nat
  /-- Of an ALT or ALTF, its guards on other modules: number, and what is known: 0 asked, 1 not ready, 2 ready, 3 its commit is asked for, 4 it is
  committed. -/
  far : List (Nat × Nat)
  deriving DecidableEq, Repr

/-- A guard of an ALT or ALTF of another module, which its home here watches (R148). -/
structure Guarding where
  /-- The process, its operation, and the number of the guard. -/
  who : Nat
  op : Nat
  idx : Nat
  /-- 1 a receive end, by its handle; 2 a tile, by its physical address and its core and number. -/
  kind : Nat
  val : Word
  core : Nat
  tile : Nat
  asid : Nat
  priv : Bool
  via : Src
  /-- Its process has been told that it is ready. -/
  told : Bool
  deriving DecidableEq, Repr

/-- What a shoot-down calls back from another module: a piece that waits on its source, or a channel operation, by its process and number (R115,
R145). -/
inductive Recalled
  | piece (core copyId idx : Nat)
  | chan (who op : Nat)
  deriving DecidableEq, Repr

/-- Where a run ahead of a fault stands (R305). Class 4 of a register reference is a predicate. -/
structure Run where
  /-- The fault that the batch will report. -/
  trap : Trap
  pc : Word
  jumped : Bool
  r : Regs
  unknown : List RegRef
  /-- The page of the fault, and the further ones in the order found. -/
  first : Nat
  pages : List Nat
  words : Nat
  deriving DecidableEq, Repr

/-- An unacknowledged store: its number, its home, whether it is a no-return reduction, and its address (R170, R239). -/
structure Unacked where
  op : Nat
  home : Home
  red : Bool
  pa : Nat
  deriving DecidableEq, Repr

/-! ## Pieces and copies (spec/06_copies.md R107 to R118) -/

/-- A piece of a copy in progress. -/
structure Piece where
  idx : Nat
  row : Nat
  member : Nat
  src : Word
  dst : Word
  /-- 0 new, 1 claim sent, 2 claimed, 3 at the streamer, 4 parked before its claim, 5 parked after it, 6 its claim parked at another module. -/
  stage : Nat
  /-- Physical address of the destination once translated. -/
  dpa : Nat
  spa : Nat
  /-- Translations of its destination and its source (R67, R115). -/
  dtr : Under
  str : Under
  /-- The state from which its claim took the tile (R116). -/
  prior : Tag
  /-- A page-fault record has been posted for it (R116, R307). -/
  reported : Bool
  deriving DecidableEq, Repr

/-- An accepted copy, or one that waits to be accepted. -/
structure Copy where
  id : Nat
  pk : Nat
  op : Nat
  pc : Word
  asid : Nat
  form : Nat
  src : Word
  dst : Word
  shape : BitVec 256
  ctl : Word
  members : List Word
  priv : Bool
  /-- The issuer's process word, and the origin module and the root of its address space, kept while the pieces last (R107, R114, R118). -/
  who : Nat
  origin : Nat
  root : Nat
  /-- Pieces formed so far, and in all (R113). -/
  next : Nat
  total : Nat
  active : List Piece
  abandoned : Bool
  deriving DecidableEq, Repr

/-- A Borer request: FLUSHOUT (5) or FETCHIN (6) (R72 to R76, R119). -/
structure Flash where
  id : Nat
  core : Nat
  pk : Nat
  pc : Word
  form : Nat
  word : Word
  frame : Nat
  push : Word
  shape : BitVec 256
  ctile : Nat
  asid : Nat
  /-- The issuer's process word, origin module and root, as of a copy. -/
  who : Nat
  origin : Nat
  root : Nat
  /-- 0 waiting for Borer, 1 taken, 2 the page of a FETCHIN written and its pushes handed over. -/
  stage : Nat
  /-- The image of a FLUSHOUT as it was read from the frame. -/
  image : List Byte
  deriving DecidableEq, Repr

/-! ## Macro-operations (spec/12_tile.md R214) -/

/-- A queued, running or stopped macro-operation with what it captured at issue. -/
structure TileOp where
  id : Nat
  pk : Nat
  op : Nat
  pc : Word
  /-- Sub-op of major 0x3B, or 15 for MMA. -/
  sub : Nat
  acc : Nat
  a : Word
  b : Word
  shA : BitVec 256
  shB : BitVec 256
  red : Bool
  dfmt : Word
  dbias : Word
  dmult : Word
  dtable : Word
  dabs : Word
  priv : Bool
  /-- Steps done (R215). -/
  step : Nat
  /-- It has taken its accumulator tile and claimed its destination tiles. -/
  taken : Bool
  /-- Prior states of the destination tiles it claimed (R230). -/
  prior : List Tag
  running : Bool
  /-- Its word waits for a place in the queue, and its process with it (R214). -/
  entering : Bool
  flags : Flags
  /-- Bytes that it writes to its destination, and the absmax of a DRAIN. -/
  out : List Byte
  amax : Word
  /-- The wait-for edge of the tile that it stopped on, or 0 (R215). -/
  waits : Word
  deriving DecidableEq, Repr

/-- An accumulator tile (R211, R212). -/
structure Acc where
  tag : Tag
  cells : Table (BitVec 88)
  anchor : Int
  ovf : Bool
  mm : Bool
  ecce : Bool
  mmstep : Nat
  steps : Nat
  deriving DecidableEq, Repr

def Acc.reset : Acc := ⟨.empty, [], 0, false, false, false, 0, 0⟩

/-! ## Channels and waymarks (spec/07_channels.md R128, R133; spec/05_tags.md R98) -/

/-- A channel operation that waits at, or travels to, its channel home. -/
structure ChanOp where
  /-- Message number. -/
  id : Nat
  /-- The sender or receiver, by process word. -/
  who : Nat
  op : Nat
  /-- 4 SEND, 5 RECV, 6 SENDT, 7 RECVT, 8 SENDD (R140). -/
  form : Nat
  handle : Word
  /-- The word sent; or the physical address of the source or destination; or a waymark handle. -/
  val : Word
  /-- VA of the source or destination, and the translation that gave val (R145). -/
  va : Word
  under : Under
  asid : Nat
  priv : Bool
  /-- The failure of its operand's checks on the issuing core, which it takes after the checks of its handle (R145, R146). -/
  bad : Option Trap
  /-- Where it came from, by which its answers go back (R251). -/
  via : Src
  /-- TIMEOUT of its process in ns, 0 for none, and the DTIME of its arrival (R135). -/
  limit : Nat
  arrived : Option Nat
  /-- ALT committed to it: no timeout any more (R133). -/
  committed : Bool
  /-- A shoot-down has withdrawn its translation (R145). -/
  stale : Bool
  /-- Of a SENDD: the source tiles taken so far, whether the whole range is taken or the waymark checked, and then the lend record, the tiles
  still lent and, at val, the first source byte (R99, R103). -/
  taken : List Nat
  lent : Bool
  lend : Nat
  live : List Nat
  /-- A re-send by R104: the tensor itself is sent, from val. -/
  eager : Bool
  deriving DecidableEq, Repr

/-- State of the pair, kept at its send end (R133). -/
inductive Pair | idle | sw | rw | xfer
  deriving DecidableEq, Repr

/-- An endpoint slot (R128). -/
structure Endpoint where
  /-- 0 free, 1 unbound, 2 bound. -/
  state : Nat
  gen : BitVec 16
  owner : Nat
  maker : Nat
  asid : Nat
  ty : BitVec 16
  cap : Nat
  ring : Nat
  /-- Of a buffered pair, at the receive slot: head, claimed count (R132). -/
  head : Nat
  count : Nat
  pair : Pair
  /-- The operation of this end that waits at the home. -/
  waiting : Option ChanOp
  /-- A SENDD that still takes its source tiles (R99 step 1), or whose waymark is being checked. -/
  lending : Option ChanOp
  /-- Arrivals and requests held while the pair is in XFER, in order. -/
  held : List ChanOp
  /-- Deferred messages in the ring: the send of each claimed slot, the one at the head first. -/
  refs : List ChanOp
  lost : Bool
  deriving DecidableEq, Repr

/-- R128: at core reset every slot is free with generation 1. -/
def Endpoint.free : Endpoint :=
  ⟨0, 1, 0, 0, 0, 0, 0, 0, 0, 0, .idle, none, none, [], [], false⟩

/-- A transfer that a rendezvous or a ring has matched and that has not finished (R131, R132). -/
structure Xfer where
  id : Nat
  /-- Channel home and its slot: a core and its send slot, or 1536 and a unit slot. -/
  core : Nat
  slot : Nat
  send : Option ChanOp
  recv : Option ChanOp
  /-- Physical addresses of source and destination, tile count and tile size. -/
  src : Nat
  dst : Nat
  n : Nat
  tile : Nat
  /-- Tiles read and tiles full, or installed, so far. -/
  read : Nat
  done : Nat
  /-- Ring slot that the data goes to or comes from (R132). -/
  ringSlot : Option Nat
  /-- The waymark handle of a deferred transfer. -/
  mark : Option Word
  /-- A promotion holds it (R150). -/
  promoted : Bool
  /-- Bytes of a message of an IO endpoint. -/
  data : List Byte
  /-- Prior states of the destination tiles claimed so far, by tile index (R116, R137). -/
  prior : List (Nat × Tag)
  deriving DecidableEq, Repr

/-- A lend record of a core or a Scarab (R98, R99). -/
structure Lend where
  id : Nat
  /-- Lending process, by process word. -/
  lender : Nat
  /-- Source range: local address and length in bytes. -/
  src : Nat
  len : Nat
  /-- The holder's handle: the receive end's while the send waits for its RECVT, then the waymark's (R98, R132). -/
  holder : Word
  outstanding : Nat
  pristine : Bool
  /-- Whether the source tiles are tagged (a scratchpad) or lie in HBM. -/
  hbm : Bool
  deriving DecidableEq, Repr

/-- A waymark record (R98). -/
structure Mark where
  /-- 0 free, 1 in use, 2 spent. -/
  state : Nat
  gen : BitVec 16
  holder : Nat
  lend : Nat
  lender : Home
  /-- Local address of the first source byte at the lender. -/
  src : Nat
  /-- First destination tile of the core, tile count and size. -/
  tile : Nat
  n : Nat
  tsize : Nat
  ty : BitVec 16
  pristine : Bool
  spentAt : Nat
  /-- VA of the first destination tile, in the holder's address space (R339). -/
  va : Word
  /-- Destination tiles that are VIA, the number of those not installed yet, and the tiles of pulls in flight. -/
  via : List Nat
  pending : Nat
  /-- Of each pull in flight, the tile and the number at which it started. -/
  pulling : List (Nat × Nat)
  deriving DecidableEq, Repr

def Mark.free : Mark := ⟨0, 1, 0, 0, .host, 0, 0, 0, 0, 0, false, 0, 0, [], 0, []⟩

/-! ## Translation (spec/04_memory.md R62 to R68) -/

/-- A TLB entry (R66). -/
structure TlbEntry where
  asid : Nat
  origin : Nat
  glob : Bool
  va : Nat
  size : Nat
  pa : Nat
  u : Bool
  x : Bool
  w : Bool
  rd : Bool
  /-- Physical address of the leaf entry and its contents. -/
  leaf : Nat
  pte : Word
  deriving DecidableEq, Repr

/-- An extent of a task (R68). -/
structure Extent where
  va : Nat
  len : Nat
  pa : Nat
  load : Bool
  store : Bool
  /-- The translations of its pages (R67, R69). -/
  pages : List Under
  deriving DecidableEq, Repr

/-- A walk that queues at a slice (R66), for an access of an address space of a module: of a process, by its key, or of an engine. A
failure is kept for the engine that asked (R65). -/
structure Walk where
  id : Nat
  core : Nat
  asid : Nat
  origin : Nat
  root : Nat
  by_ : Option Nat
  va : Nat
  failed : Option (Cause × Nat)
  deriving DecidableEq, Repr

/-- A shoot-down in progress (R67, R308). -/
structure Shootdown where
  id : Nat
  mode : Nat
  asid : Nat
  va : Nat
  /-- Cores whose acknowledgement the initiator holds. -/
  acked : List Nat
  /-- Every core of the module whose units have to acknowledge and that hold state; the others have nothing to invalidate. -/
  need : List Nat
  /-- The migration that started it, or none for TLBINV. -/
  migration : Option Nat
  complete : Bool
  /-- The module whose address spaces it is about, and, where that is another one, the port and the number by which it is answered (R264). -/
  origin : Nat
  reply : Option (Nat × Nat)
  /-- Of a migration, the contents of the leaf entry before (R70). -/
  pte : Word
  deriving DecidableEq, Repr

/-! ## Records, groups, inbox (spec/17_scheduling.md R280 to R285) -/

/-- Eight dwords: a task record or an event record. -/
abbrev Record := List Word

/-- A group of a die (R121). -/
structure Group where
  /-- 0 FREE, 1 OPEN, 2 DRAINING. -/
  state : Nat
  asid : Nat
  /-- The origin module of its address space (R264). -/
  origin : Nat
  bases : List Word
  deriving DecidableEq, Repr

/-- A group that is not in use. -/
def Group.free : Group := ⟨0, 0, 0, []⟩

/-- An inbox slot: the record, whether it is an event record, its arrival number, its in-flight number, its extents. -/
structure Inbox where
  record : Record
  event : Bool
  order : Nat
  task : Nat
  extents : List Extent
  deriving DecidableEq, Repr

/-- A reply-cache entry (R243): the AMO's number, the operation of its source, and its reply unless it is in progress. -/
structure Reply where
  srcModule : Nat
  srcCore : Nat
  seq : Nat
  op : Nat
  value : Option Answer
  deriving DecidableEq, Repr

/-! ## Process, core, die -/

/-- States of a process (R266). -/
inductive PState | free | running | ready | blocked | sleeping | parked | exited
  deriving DecidableEq, Repr

/-- A process (R35, R267, R268, R299). -/
structure Proc where
  r : Regs
  pc : Word
  /-- Control arrived at pc by a transfer (R42). -/
  transferred : Bool
  state : PState
  prio : Nat
  priv : Bool
  task : Bool
  wev : Bool
  guest : Bool
  need : Nat
  /-- The partition under which its registers were last written out (R277). -/
  allot : Nat
  asid : Nat
  save : Nat
  /-- WAIT (R287): the wait-for edge when BLOCKED, the deadline when SLEEPING. -/
  wait : Word
  /-- What a BLOCKED process waits for: 0 a request, 1 its watch event, 2 an ALT guard, 3 a free pid, 4 a group drain, 5 a batch,
  6 an EXIT, 7 a stream, 8 a FENCE. -/
  why : Nat
  /-- The operation or store that a BLOCKED process waits for. -/
  on : Nat
  outs : List OutOp
  /-- The operation that a fifth long-latency word waits for, or the store that a seventeenth store waits for (R44, R170). -/
  fifth : Option Nat
  /-- Transfers and merges handed to another module and not known complete: the class bit of R236 and the operation. -/
  far : List (Nat × Nat)
  unacked : List Unacked
  /-- Progress of an instruction that waits part-way (R94, R95, R141, R291, R305). -/
  prog : Nat
  /-- Dwords that its instruction has read so far, and the address and tiles that its next read waits at. -/
  buf : List Word
  polls : Option (Word × List (Nat × Nat))
  /-- The registers from which an instruction in progress took its operands, and the addresses that it translated at its first step. -/
  base : Option Regs
  seen : List (Nat × Under)
  /-- A MKCH, ALT or ALTF that waits in its window. -/
  multi : Option Multi
  /-- The word in progress, as it was fetched (R5). -/
  cur : Option Word32
  /-- A run ahead of a fault, in progress (R305). -/
  ahead : Option Run
  /-- The failure of the walk of its access: the virtual address, the cause and the level (R65). -/
  walked : Option (Nat × Cause × Nat)
  /-- The 32 dwords of its descriptor as they were last written (R267). -/
  desc : List Word
  /-- A trap that is entered when the process next issues (R47, R307). -/
  pend : Option Trap
  /-- EXIT in progress (R291): 0 no, 1 it waits for acknowledgements, 2 it waits for unbindings and lends. -/
  ending : Nat
  /-- The page-fault batch it waits on: SEQ and faulting VA (R305, R307). -/
  batch : Option (Nat × Word)
  issuedRes : Nat
  since : Nat
  resSince : Nat
  extents : List Extent
  /-- Its origin process word (R263). -/
  origin : Nat
  /-- The in-flight number of the task, for the Launch Unit (R326), and its save-area pool slot (R282). -/
  taskId : Nat
  poolSlot : Nat
  /-- Registers with an uncorrectable error (R315). -/
  struck : List RegRef
  /-- Macro-operations saved with the context (R215). -/
  savedOps : List TileOp
  /-- Root of its address space, for a guest (R263, R264). -/
  guestRoot : Nat
  /-- The module where it runs now, when this descriptor is only its forwarding entry (R263). -/
  away : Option Nat
  deriving DecidableEq, Repr

/-- R267, R268, R299: an unused descriptor, and the values a created process starts from. -/
def Proc.reset : Proc :=
  { r := Regs.start, pc := 0, transferred := false, state := .free, prio := 0, priv := false, task := false, wev := false,
    guest := false, need := 0, allot := 0, asid := 0, save := 0, wait := 0, why := 0, on := 0, outs := [], fifth := none, far := [], unacked := [], prog := 0, buf := [],
    polls := none, base := none, seen := [], multi := none, cur := none, ahead := none, walked := none, desc := List.replicate 32 0, pend := none, ending := 0, batch := none, issuedRes := 0, since := 0, resSince := 0,
    extents := [], origin := 0, taskId := 0, poolSlot := 0, struck := [], savedOps := [], guestRoot := 0, away := none }

/-- A compute core (R33, R270 to R283). -/
structure Core where
  partition : Nat
  hold : Bool
  taskFirst : Nat
  taskCount : Nat
  gsEn : Bool
  gsFirst : Nat
  /-- Ready queues of priorities 0 to 3, head first: pids. -/
  queues : List (List Nat)
  /-- Resident pids, in the order of the barrel's turn. -/
  slots : List Nat
  /-- Park slots: pid of each parked entry and its first slot and length (R276). -/
  parkMap : List (Nat × Nat × Nat)
  /-- Free pids, the one freed longest ago first (R290). -/
  freePids : List Nat
  /-- Save-area slots of the task pool that tasks hold (R282). -/
  pool : List Nat
  /-- Eight inbox slots (R281). -/
  inbox : Table Inbox
  halted : Bool
  halting : Bool
  /-- Tags of general store tiles 0-2047, activation tiles 2048-2303, weight tiles 2304-2559; EMPTY if not listed. -/
  tags : Table Tag
  /-- Watch table: tile and holder's process word (R91). -/
  watches : List (Nat × Nat)
  acc : Table Acc
  /-- FP32 entries of the four banks: bank * 256 + index; +0 if not listed (R224). -/
  tables : Table (BitVec 32)
  tileq : List TileOp
  tileWait : List TileOp
  copyq : List Copy
  copyWait : List Copy
  eps : Table Endpoint
  lends : List Lend
  marks : Table Mark
  tlb : List TlbEntry
  /-- Instruction words held: physical address and word (R249). -/
  ibuf : List (Nat × Word32)
  /-- Words of another module that could not be read there, each with the cause (R167). -/
  badWords : List (Nat × Cause)
  /-- AMO sequence numbers by target module, and those without a reply: module, operation and number (R243). -/
  amoSeq : Table Nat
  amoOut : List (Nat × Nat × Nat)
  /-- The redundant rows of the next MMA step differ (R221): an input. -/
  rowFault : Bool
  deriving DecidableEq, Repr

/-- R33, R79, R128, R212, R224, R270, R279, R282, R283: a core at reset. -/
def Core.reset : Core :=
  { partition := 1, hold := false, taskFirst := 0, taskCount := 0, gsEn := false, gsFirst := 0, queues := [[], [], [], []],
    slots := [], parkMap := [], freePids := List.range 248, pool := [], inbox := [], halted := false, halting := false,
    tags := [], watches := [], acc := [], tables := [], tileq := [], tileWait := [], copyq := [], copyWait := [], eps := [],
    lends := [], marks := [], tlb := [], ibuf := [], badWords := [], amoSeq := [], amoOut := [], rowFault := false }

/-- A compute die with its edge slices (R11, R37, R285). -/
structure Die where
  evEn : Bool
  evAsid : Nat
  evDrop : Nat
  evvec : Table Word
  queue : List Record
  posting : List Record
  seq : BitVec 8
  dlWait : Nat
  quietSince : Nat
  /-- Chains already reported in this quiet period. -/
  reported : List Nat
  tadmit : Nat
  migWindow : Nat
  migThresh : Nat
  migEn : Bool
  migBase0 : Nat
  migBase1 : Nat
  migHead0 : Nat
  migTail0 : Nat
  migHead1 : Nat
  migTail1 : Nat
  relBase : Nat
  relHead : Nat
  relTail : Nat
  /-- Rings whose index software wrote past the other (R71): stacks 2d and 2d + 1, release ring. -/
  migBad0 : Bool
  migBad1 : Bool
  relBad : Bool
  pgnote : Word
  haltReg : Word
  haltCores : List Nat
  asroot : Table Word
  asrate : Table Word
  tokens : Table Nat
  /-- DTIME up to which the tokens have been added (R259). -/
  refilled : Table Nat
  groups : Table Group
  l2tlb : List (Nat × TlbEntry)
  inService : Bool
  deriving DecidableEq, Repr

/-- R64, R71, R121, R259, R285, R286, R288, R307, R310: a die at reset. -/
def Die.reset : Die :=
  { evEn := false, evAsid := 0, evDrop := 0, evvec := [], queue := [], posting := [], seq := 0, dlWait := 1000000,
    quietSince := 0, reported := [], tadmit := 0, migWindow := 1000000, migThresh := 64, migEn := true, migBase0 := 0,
    migBase1 := 0, migHead0 := 0, migTail0 := 0, migHead1 := 0, migTail1 := 0, relBase := 0, relHead := 0, relTail := 0, migBad0 := false,
    migBad1 := false, relBad := false, pgnote := 0, haltReg := 0, haltCores := [], asroot := [], asrate := [], tokens := [], refilled := [], groups := [], l2tlb := [],
    inService := false }

/-! ## The fabric (spec/15_causeway.md) -/

/-- A region-table entry (R255): local base and size, and the fields of RGNCTL. -/
structure Region where
  base : Word
  size : Word
  ctl : Word
  deriving DecidableEq, Repr

/-- What the module knows of a peer (R260, R261). -/
structure Peer where
  present : Bool
  lost : Bool
  incarn : Nat
  lastFlit : Nat
  /-- Guest cores of the peer that would take in a travelling process now: an input (R262). -/
  guestFree : Bool
  /-- It is in normal service: an input (R38). -/
  service : Bool
  deriving DecidableEq, Repr

/-- A peer of which nothing is known. -/
def Peer.unknown : Peer := ⟨false, false, 0, 0, false, false⟩

/-- A link of a port to a peer (R251, R252). -/
structure Link where
  port : Nat
  peer : Nat
  /-- A laser is tuned to it, with its wavelength; and when it last sent: larger is more recent (R251). -/
  tuned : Bool
  wave : Nat
  used : Nat
  fails : Nat
  retraining : Bool
  /-- The replay buffer: packets, each with its flits that are not yet known good; and flits received good. -/
  replay : List (Nat × Nat)
  received : Nat
  /-- Credits for the request and reply classes (R254). -/
  reqCredit : Nat
  repCredit : Nat
  deriving DecidableEq, Repr

/-- What the header of a packet says (R243, R253, R256, R261); and what a guest's local access is checked by (R264). -/
structure Header where
  /-- Sending module, its core and its incarnation; this module itself for a local access of a guest. -/
  m : Nat
  srcCore : Nat
  incarn : Nat
  /-- The source process, and the number in its ordering stream; none for what no process sends, and for a reply (R253). -/
  who : Nat
  seq : Option Nat
  key : BitVec 32
  /-- Access class of R340: 0 load, 1 store, 2 AMO, 3 copy source, 4 copy destination, 5 guest; 6 for a request that R256 exempts. -/
  cls : Nat
  /-- The whole access: local address and length. -/
  pa : Nat
  len : Nat
  /-- Number of an AMO, and the cumulative acknowledgement of AMO replies (R243). -/
  amo : Nat
  ackTo : Nat
  deriving DecidableEq, Repr

/-- A travel packet (R263). -/
structure Travel where
  who : Nat
  /-- The operation of the load that made it travel. -/
  op : Nat
  origin : Nat
  fromModule : Nat
  pc : Word
  prio : Nat
  need : Nat
  asid : Nat
  root : Nat
  wev : Bool
  task : Bool
  r : Regs
  /-- Its stores that are not acknowledged yet (R170, R234), and transfers and merges not known complete. -/
  unacked : List Unacked
  far : List (Nat × Nat)
  /-- Its ordering streams: target module, next number, frozen (R253, R258, R264). -/
  streams : List (Nat × Nat × Bool)
  pa : Nat
  deriving DecidableEq, Repr

/-- An ordering stream as its source sees it. -/
structure StreamOut where
  who : Nat
  target : Nat
  next : Nat
  frozen : Bool
  deriving DecidableEq, Repr

/-! ## The Launch Unit (spec/21_launch_management.md R317 to R328) -/

/-- A command queue (R318 to R324). -/
structure Queue where
  armed : Bool
  qcb : Nat
  base : Nat
  logsize : Nat
  vec : Nat
  dies : Nat
  prioCap : Nat
  tenant : Nat
  owner : Nat
  rptr : Nat
  wptr : Nat
  halted : Bool
  code : Nat
  refused : Nat
  faultpa : Nat
  /-- Bytes read ahead: local address and byte (R323). -/
  ahead : List (Nat × Byte)
  /-- INDIRECTs in progress, innermost first: the address of the next packet and the end (R324). -/
  frames : List (Nat × Nat)
  /-- A LOOP in progress: how many INDIRECTs are around it, where its body starts, N, packets of this pass left, passes left. -/
  loop : Option (Nat × Nat × Nat × Nat × Nat)
  /-- The packet in progress waits: 0 no, 1 WAIT, 2 RELEASE, 3 LAUNCH with its target core, 4 LAUNCH for a die to enter service. -/
  waiting : Nat
  target : Nat
  /-- Budget and deadline with which a priority-2 LAUNCH was admitted (R327). -/
  share : Option (Nat × Nat)
  lastPoll : Nat
  /-- When its LAUNCH began to wait: smaller is earlier (R326). -/
  stamp : Nat
  deriving DecidableEq, Repr

def Queue.reset : Queue :=
  ⟨false, 0, 0, 0, 0, 0, 0, 0, 0, 0, 0, false, 0, 0, 0, [], [], none, 0, 0, none, 0, 0⟩

/-- A task in flight (R326), with its admission share (R286). -/
structure Flight where
  id : Nat
  queue : Nat
  core : Nat
  asid : Nat
  ranges : List (Nat × Nat × Bool)
  prio2 : Option (Nat × Nat)
  deriving DecidableEq, Repr

/-- A unit endpoint slot: IO endpoint or timer (R139, R329). -/
structure UnitSlot where
  unit : Nat
  kind : Nat
  gen : BitVec 16
  state : Nat
  owner : Nat
  asid : Nat
  ty : BitVec 16
  cap : Nat
  /-- Messages towards the module, oldest first, and away from it. -/
  inq : List (List Byte)
  outq : List (List Byte)
  deadline : Option Nat
  waiting : Option ChanOp
  sender : Option ChanOp
  deriving DecidableEq, Repr

/-- An unused unit slot. -/
def UnitSlot.free : UnitSlot := ⟨0, 0, 1, 0, 0, 0, 0, 0, [], [], none, none, none⟩

/-- A page migration in progress (R70). -/
structure Migration where
  id : Nat
  page : Nat
  frame : Nat
  die : Nat
  stack : Nat
  leaf : Nat
  oldPte : Word
  /-- 0 copying, 1 shoot-down, 2 forwarding. -/
  stage : Nat
  deriving DecidableEq, Repr

/-- An access count of a Scarab: page, requester half (die * 2 + half), count, time of the oldest counted request, last
increment, the leaf entry that the counted translations carried and its contents (R69, R70). -/
structure Count where
  page : Nat
  requester : Nat
  times : List Nat
  touched : Nat
  leaf : Nat
  pte : Word
  mg : Bool
  deriving DecidableEq, Repr

/-- A firmware error-log entry (R333, R334). -/
structure LogEntry where
  unit : Nat
  cause : Nat
  addr : Nat
  time : Nat
  deriving DecidableEq, Repr

/-! ## Messages -/

/-- What a message carries; each kind has its row in spec/opcode_table.json. Where a message crosses to another module, a process stands in it by
its process word, within the module by its key. -/
inductive Body
  | req (r : Req)
  | answer (pk op : Nat) (a : Answer)
  | ack (pk op : Nat)
  | hold (pk : Nat) (op : Nat) (edge : Word)
  | watchEvent (who : Nat)
  | push (core tile : Nat) (bytes : List Byte) (c : Claimant)
  | pushMem (pa : Nat) (bytes : List Byte) (c : Claimant)
  | stream (b : Bulk)
  /-- The channel home delivers a tile of a transfer that lies in no memory: a word, a lend reference, a message of a unit. -/
  | xferRead (id idx : Nat)
  /-- The answer of a home to a step that a channel home asked for: a SENDD's, by its number, or a transfer's; idx tells the tile. -/
  | chanStep (core slot op idx : Nat) (a : Answer)
  /-- What is known of a tile of a transfer: 0 claimed, 1 read, 2 in place, otherwise the CAUSE for which it was not read. -/
  | xferStep (xfer idx code : Nat) (prior : Tag)
  /-- A read that waits at another module is withdrawn, since the limit of its re-send has passed (R104). -/
  | unread (c : Claimant)
  /-- A claim, or the source tiles of a lend, are given back at another module (R116, R136, R137). -/
  | unclaim (core tile : Nat) (c : Claimant) (prior : Tag)
  | unlend (core : Nat) (tiles : List Nat) (lend : Nat)
  | accum (core acc : Nat) (src : Acc) (c : Claimant)
  | pullRead (lend src : Nat) (core tile : Nat) (holder : Word)
  /-- A pull is abandoned: the failing source address (R339). -/
  | pullFailed (core tile : Nat) (lend src : Nat)
  | lendRelease (lend n : Nat) (pull : Bool)
  | relink (lend : Nat) (holder : Word)
  | chanSend (core : Nat) (o : ChanOp)
  | chanRecv (core : Nat) (o : ChanOp)
  | unbind (core slot who : Nat) (pk : Nat)
  /-- An exiting process gives up its endpoints, or its watches, at another module (R91, R297). -/
  | unbindAll (who op : Nat)
  | unwatch (who : Nat)
  | promote (pk op : Nat) (o : Nat)
  | promoted (op : Nat)
  | spawn (core : Nat) (record : Record) (pk op : Nat) (asid : Nat) (priv : Bool)
  | exited (task : Nat)
  | frozenNotice (who target : Nat)
  | resume (who target next : Nat)
  | travel (t : Travel)
  | travelAck (who : Nat)
  | absmax (pa : Nat) (v : Word) (who op core : Nat) (va pc dest : Word) (under : Under)
  | retry (r : Req) (at_ : Nat)
  | endMarker (migration : Nat)
  /-- A shoot-down for the guests of the space on another module, and its acknowledgement (R264). -/
  | shoot (id mode asid va : Nat) (pte : Word)
  | shootAck (id : Nat)
  /-- The end of a transfer or a merge that another module performed for a process, for its FENCE (R236): 0, or the CAUSE for which it was not. -/
  | farEnd (pk op code : Nat)
  /-- A write of PGNOTE whose process is elsewhere, with the operation of the CTLW that waits for its answer (R307). -/
  | pgnote (v : Word) (pk op : Nat)
  /-- What another module says of a piece: 0 its destination is claimed, 1 it has been performed, 2 it is parked there, otherwise the CAUSE of
  R116; at the source or at the destination. -/
  | pieceEnd (core copyId idx code : Nat) (atSource : Bool) (prior : Tag)
  /-- Another module tells the origin of a process where it runs now, or that it has ended (R263). -/
  | relocated (who : Nat) (module_ : Option Nat)
  /-- The page-fault batch of a guest, for the event queue of its origin core's die on its origin module (R305). -/
  | batch (die : Nat) (r : Record)
  /-- A shoot-down calls something back; what is called back, with a channel operation as it stands at its home; and that operation, translated
  again (R67, R115, R145). -/
  | recall (w : Recalled)
  | recalled (w : Recalled) (o : Option ChanOp)
  | chanVal (o : ChanOp)
  /-- A guard of an ALT on another module: its home is asked to watch it, or to commit it; what the home says, 1 not ready, 2 ready, 4 committed, or
  the trap of its checks; and the end of its watching (R133, R148). -/
  | guardAsk (g : Guarding) (commit : Bool)
  | guardSaid (who op idx code : Nat) (t : Option Trap)
  | guardDrop (who op : Nat)
  deriving DecidableEq, Repr

/-- A packet for another module. -/
structure Packet where
  id : Nat
  target : Nat
  /-- Request class (true) or reply class. -/
  request : Bool
  /-- The address space whose tokens it takes (R259). -/
  asid : Nat
  /-- Its flits, and those that have left (R252). -/
  flits : Nat
  left : Nat
  port : Nat
  header : Header
  body : Body
  deriving DecidableEq, Repr

/-- A message in flight; one that the edge slice has still to check carries its header (R256). -/
structure Msg where
  id : Nat
  src : Src
  dst : Home
  body : Body
  check : Option Header := none
  /-- It has reached its destination and waits there: it keeps back no later message (R10). -/
  here : Bool := false
  deriving DecidableEq, Repr

/-- An ordering stream as its target sees it (R253, R258): the next number, requests ahead of a gap, the parked request. -/
structure StreamIn where
  who : Nat
  expect : Nat
  early : List Msg
  frozen : Option Msg
  noticed : Bool
  deriving DecidableEq, Repr

/-! ## Firefly's services (spec/21_launch_management.md R330 to R335) -/

/-- By which key the configuration record is signed (R331). -/
inductive Signer | vendor | identity | other
  deriving DecidableEq, Repr

/-- A request over SMBus (R333): sensor readings, error-log entries from an index on, a chunk of an image at an offset, the report of a halted boot. -/
inductive Smbus
  | sensors
  | errlog (first : Nat)
  | update (off : Nat) (bytes : List Byte) (last : Bool)
  | report
  deriving DecidableEq, Repr

/-- The SPDM responder (R335): 0 nothing negotiated, 1 after GET_VERSION, 2 after GET_CAPABILITIES, 3 after NEGOTIATE_ALGORITHMS; the messages of the
negotiation, and those that the next signature of CHALLENGE and of GET_MEASUREMENTS covers beside it. -/
structure Spdm where
  stage : Nat
  vca : List Byte
  auth : List Byte
  meas : List Byte
  deriving DecidableEq, Repr

/-- What an external host asks through PCIe (R336). -/
inductive PcieOp
  | read (n : Nat)
  | write (bytes : List Byte)
  | swap (v : Word)
  deriving DecidableEq, Repr

/-! ## The plan: which agent moves next -/

/-- One move. The plan is plain data, so that every order of moves that the hardware may take is some plan. -/
inductive Move
  /-- The process of this key issues its next word. -/
  | issue (pk : Nat)
  /-- A step of the device, or an event of the outside world. -/
  | event (i : Instr)
  /-- A message arrives from another module, with the header of its packet, or from a host core. -/
  | arrive (m : Msg) (h : Header)
  /-- The fabric manager admits a peer, recording its incarnation number (R261). -/
  | admitPeer (peer incarn : Nat)
  /-- Whether the guest cores of a peer have room for a travelling process (R262). -/
  | guestSlot (peer : Nat) (free : Bool)
  /-- The Launch Unit reads packets ahead (R323). -/
  | readAhead (queue n : Nat)
  /-- An instruction word whose home is on another module reaches a core (R167, R249). -/
  | fetchWord (core pa : Nat) (w : Word32)
  /-- Nothing but time passes: nanoseconds. -/
  | pass (ns : Nat)
  /-- An entry of a first-level TLB is replaced (R66). -/
  | evictTlb (core idx : Nat)
  /-- An instruction word that a core holds is replaced (R249). -/
  | evictWord (core pa : Nat)
  /-- A walk reads an entry whose home is on another module: the translation comes from outside (R264). -/
  | fillTlb (core : Nat) (e : TlbEntry)
  /-- Such a walk meets an entry that fails a check of R65. -/
  | failWalk (id : Nat) (c : Cause) (level : Nat)
  /-- An instruction word whose home is on another module cannot be read there: the cause (R167). -/
  | failFetch (core pa : Nat) (c : Cause)
  /-- An uncorrectable error strikes a byte of memory; Firefly logs it under a unit number (R315, R333). -/
  | strike (pa unit : Nat)
  /-- An uncorrectable error strikes a byte of flash (R315). -/
  | strikeFlash (addr unit : Nat)
  /-- An uncorrectable error strikes a register of a process; Firefly logs it under a unit number (R315, R333). -/
  | strikeReg (pk : Nat) (r : RegRef) (unit : Nat)
  /-- A peer enters normal service, or leaves it (R38). -/
  | peerPhase (peer : Nat) (service : Bool)
  /-- A request over SMBus is served (R333). -/
  | smbus (r : Smbus)
  /-- An external host reaches a byte offset of BAR0 or BAR2 (R336). -/
  | pcie (bar off : Nat) (op : PcieOp)
  /-- The configuration record in flash is replaced by one signed so (R331). -/
  | signRecord (by_ : Signer)
  /-- The redundant rows of a core's next MMA step differ (R221). -/
  | rowFault (core : Nat)
  /-- A router merges the second reduction into the first (R240). -/
  | merge (first second : Nat)
  deriving DecidableEq, Repr

/-! ## The module -/

/-- The state of the module. -/
structure State where
  mem : Memory
  flash : Memory
  /-- Local addresses of bytes struck by an uncorrectable error (R315). -/
  struck : List Nat
  /-- Flash addresses of such bytes. -/
  flashHurt : List Nat
  dtime : Nat
  /-- Nanoseconds for which DTIME is held in start-up, because it is ahead of the time master's (R38). -/
  timeHold : Nat
  /-- Nanoseconds by which DTIME is behind the time master's, or ahead, which the rate makes up; and reference time towards the next of them (R38). -/
  drift : Int
  slew : Nat
  /-- Its time has been aligned with the time master's since reset (R38). -/
  aligned : Bool
  /-- CWSTAT, STALECNT, PARTLO, PARTHI (R250). -/
  phase : Nat
  incarn : BitVec 8
  modid : Nat
  stale : Nat
  partLo : Word
  partHi : BitVec 8
  rgnIdx : Nat
  regions : Table Region
  rgnBase : Word
  rgnSize : Word
  askey : Table (BitVec 32)
  peers : Table Peer
  links : List Link
  streamsIn : List StreamIn
  streamsOut : List StreamOut
  /-- Reply cache of the edge slices, 64 entries for each source core (R243). -/
  replies : List Reply
  /-- Packets that wait for a token, a laser, a credit or a frozen stream, and packets sent. -/
  outbox : List Packet
  sent : List Packet
  cores : Table Core
  procs : Table Proc
  dies : Table Die
  net : List Msg
  /-- The answers that each host core has, and number 32 the external host: the number of the request and its value. -/
  hosts : Table (List (Nat × Answer))
  held : List Req
  xfers : List Xfer
  borer : List Flash
  walks : List Walk
  shoots : List Shootdown
  /-- What has been called back from other modules and has not come yet (R115, R145). -/
  recalls : List Recalled
  /-- Guards that are watched here for ALTs of other modules (R148). -/
  guards : List Guarding
  migs : List Migration
  counts : List Count
  lendsHbm : List (Nat × Lend)
  /-- Tiles that arrivals of other modules have claimed, each with the state from which its claim took it (R81, R116). -/
  claims : List (Claimant × Nat × Nat × Tag)
  queues : Table Queue
  flights : List Flight
  luTurn : Nat
  luarm : Word
  fltenq : Table Word
  fltchan : Table Word
  units : Table UnitSlot
  ethDropped : Nat
  fullService : Bool
  mbStat : Word
  mbCmd : Word
  mbArg : Table Word
  mbData : Table Byte
  evready : Nat
  errlog : List LogEntry
  measures : List (BitVec 256)
  bootStage : Nat
  bootHalted : Bool
  /-- Copies A and B of the boot images in flash (R330). -/
  imageA : List Byte
  imageB : List Byte
  updateOk : Bool
  /-- An update into copy B has begun and not been verified: that copy is unused (R334). -/
  unusedB : Bool
  /-- By which key the configuration record is signed (R331). -/
  signer : Signer
  /-- The last answer over SMBus, and the stages at which boot has halted, reported there (R330, R333). -/
  smbus : List Byte
  reports : List Nat
  spdm : Spdm
  storedIncarn : BitVec 8
  /-- Host-core interrupt vectors raised by halted queues (R322). -/
  raised : List Nat
  quiesced : Bool
  /-- Operations that went with a lost module, at whose instructions their processes take QUIESCE (R260, R312). -/
  lostOps : List Nat
  /-- The model's own fields (log 4): the moves to come, whose turn it is, the time a step takes, counters. -/
  plan : List Move
  turn : Nat
  pace : Nat
  fresh : Nat
  nextId : Nat
  deriving DecidableEq, Repr

/-- The machine right after module reset: R33, R38, R64, R71, R79, R121, R128, R250, R255, R285, R288, R328 and log 5. -/
def State.reset : State :=
  { mem := [], flash := [], struck := [], flashHurt := [], dtime := 0, timeHold := 0, drift := 0, slew := 0, aligned := false, phase := 0, incarn := 1, modid := 127, stale := 0, partLo := 0,
    partHi := 0, rgnIdx := 0, regions := [], rgnBase := 0, rgnSize := 0, askey := [], peers := [], links := [],
    streamsIn := [], streamsOut := [], replies := [], outbox := [], sent := [], cores := [], procs := [], dies := [], net := [], hosts := [], held := [],
    xfers := [], borer := [], walks := [], shoots := [], recalls := [], guards := [], migs := [], counts := [], lendsHbm := [], claims := [],
    queues := [], flights := [], luTurn := 0, luarm := 0, fltenq := [], fltchan := [], units := [], ethDropped := 0,
    fullService := false, mbStat := 0, mbCmd := 0, mbArg := [], mbData := [], evready := 0, errlog := [],
    measures := [], bootStage := 0, bootHalted := false, imageA := [], imageB := [], updateOk := false, unusedB := false, signer := .vendor, smbus := [], reports := [], spdm := ⟨0, [], [], []⟩, storedIncarn := 1,
    raised := [], quiesced := false, lostOps := [], plan := [], turn := 0, pace := 4, fresh := 0, nextId := 1 }

/-! ## Stops -/

/-- Why the machine stops. -/
inductive Fault where
  /-- Raised by step when the plan names a part that the module does not have (a core above 1,535, a die above 3, a queue above
  255): no such agent can move. Safe: the machine stops where the hardware has nothing that could act. -/
  | noSuchPart
  deriving DecidableEq, Repr

/-- Why an instruction has no meaning here. -/
inductive Refusal where
  /-- Raised by exec alone, for an instruction that has no meaning yet. Safe: the model stops where the hardware goes on. -/
  | notModelled (mnemonic : String)
  /-- Raised by step when the plan asks for an instruction word as a step of the device. Safe: the plan is no behaviour. -/
  | notAStep
  deriving DecidableEq, Repr

end Sys2Proof.Machine
end

