-- ==== Sys2Proof/Machine/Ops.lean ====
section
/-! DEFINITION. The named operations over memory, registers, processes and records, taking a trap and returning from one, and the
rules that every issued word obeys (spec/03_encoding.md R40 to R47, spec/19_faults.md R298 to R303). -/
namespace Sys2Proof.Machine

/-! ## Tables -/

/-- The value of key k, or d. -/
def Table.get {α : Type} (t : Table α) (d : α) (k : Nat) : α :=
  match t with
  | [] => d
  | (j, w) :: r => if j = k then w else Table.get r d k
/-- Key k now has value v; keys stay in rising order. -/
def Table.set {α : Type} (t : Table α) (k : Nat) (v : α) : Table α :=
  match t with
  | [] => [(k, v)]
  | (j, w) :: r => if k < j then (k, v) :: (j, w) :: r else if k = j then (k, v) :: r else (j, w) :: Table.set r k v
/-- Key k is listed no more. -/
def Table.drop {α : Type} (t : Table α) (k : Nat) : Table α := t.filter (fun e => e.1 != k)

/-! ## Bytes of memory (R6: little-endian) -/

/-- The byte at an address; 0 where nothing is listed (log 1). -/
def Memory.read (m : Memory) (a : Nat) : Byte :=
  match m with
  | [] => 0
  | c :: r => if c.1 = a then c.2 else Memory.read r a
/-- Writes one byte and keeps the canonical form. -/
def Memory.write (m : Memory) (a : Nat) (b : Byte) : Memory :=
  match m with
  | [] => if b = 0 then [] else [(a, b)]
  | c :: r =>
    if a < c.1 then (if b = 0 then c :: r else (a, b) :: c :: r)
    else if a = c.1 then (if b = 0 then r else (a, b) :: r)
    else c :: Memory.write r a b
/-- The canonical form: addresses strictly rising, no byte 0. -/
def Memory.wf : Memory → Bool
  | [] => true
  | [c] => c.2 != 0
  | c :: d :: r => c.2 != 0 && decide (c.1 < d.1) && Memory.wf (d :: r)

/-- n bytes from an address, as one little-endian number. -/
def Memory.readN (m : Memory) (a n : Nat) : Nat := leNat ((List.range n).map (fun i => m.read (a + i)))
/-- n bytes from an address. -/
def Memory.bytes (m : Memory) (a n : Nat) : List Byte := (List.range n).map (fun i => m.read (a + i))
/-- Writes bytes from an address upwards. -/
def Memory.writeBytes (m : Memory) (a : Nat) (bs : List Byte) : Memory :=
  match bs with
  | [] => m
  | b :: r => Memory.writeBytes (m.write a b) (a + 1) r
/-- Writes a number as n little-endian bytes. -/
def Memory.writeN (m : Memory) (a n x : Nat) : Memory := m.writeBytes a (leBytes n x)
/-- Writes, for each entry, the bits of a byte that its mask selects. -/
def Memory.writeMasked (m : Memory) (ws : List (Nat × Byte × Byte)) : Memory :=
  match ws with
  | [] => m
  | (a, k, v) :: r => Memory.writeMasked (m.write a ((m.read a &&& ~~~ k) ||| (v &&& k))) r

/-! ## Parts of the module -/

/-- A compute core by global index (R9). -/
def State.core (s : State) (c : Nat) : Core := s.cores.get Core.reset c
def State.setCore (s : State) (c : Nat) (v : Core) : State := { s with cores := s.cores.set c v }
def State.modCore (s : State) (c : Nat) (f : Core → Core) : State := s.setCore c (f (s.core c))
/-- A process by its key, core * 256 + pid. -/
def State.proc (s : State) (pk : Nat) : Proc := s.procs.get Proc.reset pk
def State.setProc (s : State) (pk : Nat) (v : Proc) : State := { s with procs := s.procs.set pk v }
def State.modProc (s : State) (pk : Nat) (f : Proc → Proc) : State := s.setProc pk (f (s.proc pk))
def State.die (s : State) (d : Nat) : Die := s.dies.get Die.reset d
def State.setDie (s : State) (d : Nat) (v : Die) : State := { s with dies := s.dies.set d v }
def State.modDie (s : State) (d : Nat) (f : Die → Die) : State := s.setDie d (f (s.die d))

/-- Core, die and pid of a process key; 384 cores a die (R9). -/
def coreOf (pk : Nat) : Nat := pk / 256
def pidOf (pk : Nat) : Nat := pk % 256
def dieOfCore (c : Nat) : Nat := c / 384
/-- Column, row and half of a core: index in the die is y * 16 + x; rows 0-11 are the bottom half (R9, R69). -/
def colOf (c : Nat) : Nat := c % 384 % 16
def rowOf (c : Nat) : Nat := c % 384 / 16
def halfOf (c : Nat) : Nat := if rowOf c < 12 then 0 else 1
/-- The port that carries the requests of a core (R251). -/
def portOf (c : Nat) : Nat := if c < 1536 then dieOfCore c * 2 + halfOf c else 0
/-- The walking slice of a core, as a Scarab number (R66). -/
def walkSlice (c : Nat) : Nat := dieOfCore c * 32 + halfOf c * 16 + colOf c

/-- The process word of a key (R129). -/
def State.word (s : State) (pk : Nat) : Nat :=
  s.modid * 2 ^ 19 + dieOfCore (coreOf pk) * 2 ^ 17 + coreOf pk % 384 * 2 ^ 8 + pidOf pk
/-- Module, key of a process word. -/
def wordModule (w : Nat) : Nat := fld w 19 7
def wordKey (w : Nat) : Nat := (fld w 17 2 * 384 + fld w 8 9) * 256 + fld w 0 8
/-- The origin process word of a process (R263): its own, unless it is a guest. -/
def State.originWord (s : State) (pk : Nat) : Nat := if (s.proc pk).guest then (s.proc pk).origin else s.word pk
/-- The key where a process of this origin word runs now: a guest context, or its own (R263). -/
def State.keyOf (s : State) (w : Nat) : Nat :=
  match s.procs.find? (fun e => e.2.guest && decide (e.2.origin = w)) with
  | some e => e.1
  | none => wordKey w

/-- Context slots of a core and registers of a process by partition (R33). -/
def Core.slotCount (c : Core) : Nat := if c.partition = 0 then 32 else if c.partition = 1 then 16 else 8
def gAllot (partition : Nat) : Nat := if partition = 0 then 16 else if partition = 1 then 32 else 64
def vAllot (partition : Nat) : Nat := if partition = 0 then 8 else if partition = 1 then 16 else 32

/-- Cycles of a die's clock in ns nanoseconds: 1.1 GHz, 550 MHz on die 0 before full service (R332). -/
def State.cycles (s : State) (d ns : Nat) : Nat := if d = 0 && !s.fullService then ns * 11 / 20 else ns * 11 / 10

/-! ## Registers (R32, R36) -/

def Regs.getG (r : Regs) (i : BitVec 6) : Word := if i = 0 then 0 else r.g.get i.toFin
def Regs.setG (r : Regs) (i : BitVec 6) (x : Word) : Regs := if i = 0 then r else { r with g := r.g.set i.toFin x }
def Regs.getP (r : Regs) (i : BitVec 3) : Bool := if i = 0 then true else r.p.get i.toFin
def Regs.setP (r : Regs) (i : BitVec 3) (x : Bool) : Regs := if i = 0 then r else { r with p := r.p.set i.toFin x }
def Regs.getV (r : Regs) (i : BitVec 5) : VReg := r.v.get i.toFin
/-- A write to a v register clears VCLEAN. -/
def Regs.setV (r : Regs) (i : BitVec 5) (x : VReg) : Regs :=
  { r with v := r.v.set i.toFin x, flags := r.flags &&& ~~~ fVCLEAN }
def Regs.getQ (r : Regs) (i : BitVec 3) : Mask := if i = 0 then BitVec.allOnes 128 else r.q.get i.toFin
/-- A write to q1-q7 clears VCLEAN; a write to q0 is discarded. -/
def Regs.setQ (r : Regs) (i : BitVec 3) (x : Mask) : Regs :=
  if i = 0 then r else { r with q := r.q.set i.toFin x, flags := r.flags &&& ~~~ fVCLEAN }
def Regs.getSh (r : Regs) (i : BitVec 3) : BitVec 256 := r.sh.get i.toFin
def Regs.setSh (r : Regs) (i : BitVec 3) (x : BitVec 256) : Regs := { r with sh := r.sh.set i.toFin x }
/-- ORs sticky flags in. -/
def Regs.orFlags (r : Regs) (f : Flags) : Regs := { r with flags := r.flags ||| f }
/-- Writing 1 to VCLEAN discards the vector state (R36). -/
def Regs.clean (r : Regs) : Regs :=
  { r with v := Vector.replicate _ 0, q := Vector.replicate _ 0, flags := r.flags ||| fVCLEAN }
/-- The value of a guard (R40). -/
def Regs.guard (r : Regs) (g : Guard) : Bool := if g.neg then !r.getP g.p else r.getP g.p

/-! ## Messages -/

/-- Sends a message. -/
def State.send (s : State) (src : Src) (dst : Home) (b : Body) : State :=
  { s with net := s.net ++ [⟨s.nextId, src, dst, b, none, false⟩], nextId := s.nextId + 1 }
/-- The message of this number, unless the edge slice has still to check it (R256). -/
def State.msg (s : State) (id : Nat) : Option Msg := s.net.find? (fun m => decide (m.id = id) && m.check.isNone)
/-- The message of this number that has still to be checked. -/
def State.unchecked (s : State) (id : Nat) : Option Msg := s.net.find? (fun m => decide (m.id = id) && m.check.isSome)
/-- Takes a message off the net. -/
def State.take (s : State) (id : Nat) : State := { s with net := s.net.filter (fun m => m.id != id) }
/-- A message has reached its destination and waits there (R10). -/
def State.stay (s : State) (id : Nat) : State := { s with net := s.net.map (fun (m : Msg) => if m.id = id then { m with here := true } else m) }
/-- A fresh number for a free value. -/
def State.bump (s : State) (n : Nat) : State := { s with fresh := s.fresh + n }

/-! ## Records of the privileged event queue (R284) -/

/-- Posts a record on a die: header from kind, address space and process word, then dwords 1 to 7. A full queue makes the poster
hold it; its place in the posting order is its SEQ. -/
def State.post (s : State) (d kind asid proc : Nat) (dw : List Word) : State :=
  let v := s.die d
  let hdr : Word := BitVec.ofNat 64 (kind * 2 ^ 56 + v.seq.toNat * 2 ^ 48 + asid * 2 ^ 26 + proc)
  let rec8 := (hdr :: dw ++ List.replicate 7 0).take 8
  if v.posting.isEmpty && decide (v.queue.length < 256) then s.setDie d { v with queue := v.queue ++ [rec8], seq := v.seq + 1 }
  else s.setDie d { v with posting := v.posting ++ [rec8], seq := v.seq + 1 }

/-- A KIND 9 record (R302). -/
def State.postOther (s : State) (d asid proc : Nat) (cause : BitVec 8) (reason : Nat) (pc info : Word) : State :=
  s.post d 9 asid proc [BitVec.ofNat 64 (cause.toNat + reason * 2 ^ 8), pc, info]

/-! ## Save areas (R56, R269) -/

def scratchBase : Nat := 0x8000000000
/-- The local address, through window 0, of a window offset of a core. -/
def scratchAddr (core o : Nat) : Nat := scratchBase + core * 2 ^ 24 + o
/-- A byte of the range is struck (R315). -/
def State.hurt (s : State) (lo n : Nat) : Bool := s.struck.any (fun a => decide (lo ≤ a ∧ a < lo + n))
/-- A whole write makes the bytes good again. -/
def State.heal (s : State) (lo n : Nat) : State := { s with struck := s.struck.filter (fun a => !decide (lo ≤ a ∧ a < lo + n)) }

/-- Bytes of a save area by NEED. -/
def saveSize (need : Nat) : Nat := if need = 0 then 2048 else if need = 1 then 3072 else 5120
/-- Tiles of a save-area slot by partition (R282). -/
def saveTiles (partition : Nat) : Nat := if partition = 0 then 32 else if partition = 1 then 48 else 80
/-- TRAPCAUSE (R299). -/
def Ctl.trapcause (c : Ctl) : Word := BitVec.ofNat 64 (c.code.toNat + c.inh.toNat * 2 ^ 8 + c.nest.toNat * 2 ^ 9)
/-- The twelve control registers of a save area and of a checkpoint image, in order (R269, R313). -/
def Ctl.words (c : Ctl) : List Word :=
  [c.trapv, c.trappc, c.trapcause, c.trapinfo, c.ckptv, c.timeout, c.synclim, c.dbias, c.dmult, c.dtable, c.dabs, c.dfmt]

/-- The g registers that a save area keeps: up to the partition's allotment, since every area has room for g16 to g63 (R269). -/
def savedG (partition : Nat) : Nat := gAllot partition
/-- The v registers that it keeps: of the allotment, those for which an area of its size has room (R269, R277; log 32). -/
def savedV (partition need : Nat) : Nat := min (vAllot partition) (vAllot need)

/-- What is written to a save area: offset, size and value. A parked process writes its control and shape registers alone (R274). -/
def Proc.saveItems (p : Proc) (partition : Nat) (parked : Bool) : List (Nat × Nat × Nat) :=
  let ctl := p.r.ctl.words.zipIdx.map (fun e => (8 * e.2, 8, e.1.toNat))
  let sh := (List.range 8).map (fun i => (0x160 + 32 * i, 32, (p.r.sh.toList.getD i 0).toNat))
  let g := (List.range (savedG partition - 16)).map (fun i => (0x260 + 8 * i, 8, (p.r.g.toList.getD (16 + i) 0).toNat))
  let v := if p.r.flags &&& fVCLEAN = 0 then (List.range (savedV partition p.need)).map (fun i => (0x400 + 128 * i, 128, (p.r.v.toList.getD i 0).toNat)) else []
  if parked then ctl ++ sh else ctl ++ sh ++ g ++ v
/-- Writes the save area, whatever the tags say, as far as it lies in general store. -/
def State.writeSave (s : State) (pk : Nat) (parked : Bool) : State :=
  let p := s.proc pk
  let base := 64 * p.save
  let at_ (o : Nat) : Nat := scratchAddr (coreOf pk) (base + o)
  let items := (p.saveItems (s.core (coreOf pk)).partition parked).filter (fun e => decide (base + e.1 + e.2.1 ≤ 0x20000))
  let rec0 := (List.range (32 * p.savedOps.length)).filter (fun i => decide (base + 0x60 + i < 0x20000 ∧ i < 0x100))
  let m1 := items.foldl (fun m e => m.writeN (at_ e.1) e.2.1 e.2.2) s.mem
  -- the sequencer record's content is not architected
  let m2 := rec0.foldl (fun m i => m.write (at_ (0x60 + i)) (Config.freeByte (s.fresh + i))) m1
  -- the sequencer record is written too, whatever its length
  ((((0x60, 0x100, 0) :: items).foldl (fun (s : State) e => s.heal (at_ e.1) e.2.1) ({ s with mem := m2, fresh := s.fresh + rec0.length } : State)).modProc pk
    (fun p => { p with allot := (s.core (coreOf pk)).partition }))

/-! ## Becoming ready and waiting (R266, R270) -/

/-- Puts a pid at the tail of its priority's queue. -/
def Core.enqueue (c : Core) (prio pid : Nat) : Core :=
  { c with queues := (List.range 4).map (fun i => let q := c.queues.getD i []; if i = prio then q ++ [pid] else q) }
/-- Takes a pid off the ready queues. -/
def Core.dequeue (c : Core) (pid : Nat) : Core := { c with queues := c.queues.map (fun q => q.filter (· != pid)) }

/-- The code of a state (R266). -/
def PState.code : PState → Nat
  | .free => 0 | .running => 1 | .ready => 2 | .blocked => 3 | .sleeping => 4 | .parked => 5 | .exited => 6
/-- STATUS (R267), with the queue link. -/
def Proc.status (p : Proc) (next : Option Nat) : Word :=
  BitVec.ofNat 64 (p.state.code * 2 ^ 61 + p.prio * 2 ^ 59 + p.priv.toNat * 2 ^ 58 + p.task.toNat * 2 ^ 57 + p.wev.toNat * 2 ^ 56 +
    p.guest.toNat * 2 ^ 55 + p.need * 2 ^ 53 + p.asid * 2 ^ 47 + (next.getD 0) * 2 ^ 39 + next.isSome.toNat * 2 ^ 38 + p.save * 2 ^ 21 + p.r.flags.toNat)
/-- The descriptor's dwords (R267). -/
def Proc.descriptor (p : Proc) (next : Option Nat) : List Word :=
  let preds := (List.range 7).foldl (fun a i => a + (p.r.p.toList.getD (i + 1) false).toNat * 2 ^ (56 + i)) 0
  let qm : List Mask := (List.range 7).map (fun i => p.r.q.toList.getD (i + 1) 0)
  let qs : List Word := (qm.map (fun (q : BitVec 128) => [BitVec.ofNat 64 q.toNat, BitVec.ofNat 64 (q.toNat / 2 ^ 64)])).flatten
  let gs := (List.range 15).map (fun i => p.r.g.toList.getD (i + 1) (0 : Word))
  [p.status next, BitVec.ofNat 64 (p.pc.toNat % 2 ^ 56 + preds), p.wait] ++ qs ++ gs
/-- The pid after this one in a queue. -/
def nextIn (q : List Nat) (pid : Nat) : Option Nat :=
  match q with
  | [] => none
  | x :: r => if x = pid then r.head? else nextIn r pid
/-- The links of the ready queues are written into the descriptors of their READY members (R267, R270). -/
def State.relink (s : State) (c : Nat) : State :=
  let qs := (s.core c).queues
  qs.flatten.foldl (fun s pid =>
    s.modProc (c * 256 + pid) (fun p =>
      if p.state = .ready then { p with desc := p.status (nextIn (qs.find? (·.contains pid) |>.getD []) pid) :: p.desc.drop 1 } else p)) s

/-- A process whose wait ends: a resident one is RUNNING, another becomes READY and enters its queue. -/
def State.wake (s : State) (pk : Nat) : State :=
  let p := s.proc pk
  match p.state with
  | .blocked | .sleeping =>
    if (s.core (coreOf pk)).slots.contains (pidOf pk) then s.setProc pk { p with state := .running, wait := 0 }
    else let q := { p with state := .ready, wait := 0, since := s.dtime }
      ((s.setProc pk { q with desc := q.descriptor none }).modCore (coreOf pk) (·.enqueue p.prio (pidOf pk))).relink (coreOf pk)
  | _ => s

/-- The process waits on an event outside it: BLOCKED, with its wait-for edge (R266, R287). One that is READY or PARKED leaves the queues;
a parked one has its state moved to the process store and the save area first (R274). -/
def State.block (s : State) (pk why : Nat) (edge : Word) (on : Nat := 0) : State :=
  let p := s.proc pk
  let q := { p with state := .blocked, wait := edge, why := why, on := on, since := if p.state = .blocked then p.since else s.dtime }
  let out := { q with desc := q.descriptor none }
  match p.state with
  | .ready | .parked =>
    let s1 := s.modCore (coreOf pk) (fun c => { (c.dequeue (pidOf pk)) with parkMap := c.parkMap.filter (fun e => e.1 != pidOf pk) })
    (((s1.setProc pk out).writeSave pk false).heal (scratchAddr (coreOf pk) (0xC0000 + 256 * pidOf pk)) 256).relink (coreOf pk)
  | _ => s.setProc pk (if (s.core (coreOf pk)).slots.contains (pidOf pk) then q else out)

/-- Wait-for edges (R287). -/
def edgeTile (pa : Nat) : Word := BitVec.ofNat 64 (2 ^ 60 + pa % 2 ^ 52)
def edgeEndpoint (handle : Word) : Word := BitVec.ofNat 64 (2 * 2 ^ 60 + fld handle.toNat 32 28 * 2 ^ 28)
def edgeProc (w : Nat) : Word := BitVec.ofNat 64 (3 * 2 ^ 60 + w)
def edgeGroup (d id : Nat) : Word := BitVec.ofNat 64 (4 * 2 ^ 60 + d * 2 ^ 8 + id)
def edgeStream (m : Nat) : Word := BitVec.ofNat 64 (5 * 2 ^ 60 + m)
def edgeBatch (seq : Nat) : Word := BitVec.ofNat 64 (6 * 2 ^ 60 + seq)
def edgeTable (w : Nat) : Word := BitVec.ofNat 64 (7 * 2 ^ 60 + w / 2 ^ 8 * 2 ^ 8)

/-! ## Traps (R298, R302) -/

/-- Bits [55:2]: what TRAPV, CKPTV and TRAPPC hold of an address (R299). -/
def vaMask (x : Word) : Word := x &&& 0x00FFFFFFFFFFFFFC#64

/-- No word of the process is in progress any more. -/
def Proc.settled (p : Proc) : Proc := { p with prog := 0, buf := [], polls := none, base := none, seen := [], cur := none, ahead := none, walked := none }
/-- The registers from which the word that is issuing, or is in progress, takes its operands. -/
def Proc.word (p : Proc) : Regs := p.base.getD p.r
/-- The word stays in progress: its operands are kept as they were at its first step. -/
def Proc.going (p : Proc) (prog : Nat) : Proc := { p with prog := prog, base := some p.word }
/-- A word of the process is in progress. -/
def Proc.midWord (p : Proc) : Bool := decide (p.prog ≠ 0) || !p.buf.isEmpty

/-- A trap that is not delivered: the record of KIND 9, then EXIT (R302). -/
def State.endProcess (s : State) (pk : Nat) (t : Trap) (at_ : Word) (reason : Nat) : State :=
  let p := s.proc pk
  (s.setProc pk { p.settled with ending := 1, pend := none, batch := none, fifth := none }).postOther (dieOfCore (coreOf pk)) p.asid
    (s.originWord pk) t.cause.code reason (vaMask at_) t.info

/-- Taking a trap (R298): TRAPPC, TRAPCAUSE and TRAPINFO are written and control goes to TRAPV, or to CKPTV for QUIESCE. Entry at CKPTV counts
as a transfer of control for R42, which names trap entry at TRAPV alone (DESIGN CHOICE, log 70). -/
def State.trap (s : State) (pk : Nat) (t : Trap) (at_ : Word) : State :=
  let p := s.proc pk
  let c := p.r.ctl
  let v := if t.cause = .quiesce then c.ckptv else c.trapv
  if c.inh = true ∧ t.cause ≠ .quiesce then s.endProcess pk t at_ 2
  else if v = 0 then s.endProcess pk t at_ 1
  else s.setProc pk { p.settled with
    r := { p.r with ctl := { c with code := t.cause.code, inh := true, nest := c.inh, trappc := vaMask at_, trapinfo := t.info } },
    pc := v, transferred := true, pend := none, batch := none, fifth := none }

/-- A word that traps has issued too: it counts in every window (R44). -/
def State.count (s : State) (pk : Nat) : State :=
  s.modProc pk (fun p => { p with outs := p.outs.map (fun o => { o with issued := o.issued + 1 }) })
/-- A trap that an instruction raises. PAGE of an unprivileged process is not delivered: it pends, and the same step runs ahead
from here (R305). -/
def State.raise (s : State) (pk : Nat) (t : Trap) : State :=
  let p := s.proc pk
  if t.cause = .page ∧ p.priv = false then s.setProc pk { p.settled with pend := some t }
  else (s.count pk).trap pk t p.pc

/-- Return from a trap (R303): INH is cleared and control goes to TRAPPC. -/
def State.trapReturn (s : State) (pk : Nat) : State :=
  let p := s.proc pk
  s.setProc pk { p with r := { p.r with ctl := { p.r.ctl with inh := false } }, pc := p.r.ctl.trappc, transferred := true }

/-- Rollback (R46): the registers as they stood when the operation issued, the younger operations discarded, the trap pending at
the operation's address. An older operation whose destination only an undone word has written writes it again. -/
def State.rollback (s : State) (pk : Nat) (o : OutOp) (t : Trap) : State :=
  s.modProc pk (fun p => { p.settled with
    r := o.snap
    pc := o.pc
    transferred := false
    outs := (p.outs.filter (fun x => decide (x.id < o.id))).map (fun x => match o.older.find? (fun e => decide (e.1 = x.id)) with
      | some e => { x with live := true, dest := e.2 }
      | none => { x with live := false })
    multi := p.multi.filter (fun m => decide (m.op < o.id))
    fifth := none
    batch := none
    pend := some t })

/-! ## Issue (R40 to R47) -/

/-- What the issue rules need to know of a word. -/
structure Issue where
  /-- The word itself, for TRAPINFO (R300). -/
  word : Nat
  gu : Guard
  /-- A reserved value of a field that the decoder lets through, the number of a control register (R41, R304). -/
  illegal : Bool := false
  /-- The instruction is privileged (R41). -/
  priv : Bool := false
  /-- g and v registers that it names, those named implicitly too (R34). -/
  gs : List Nat := []
  vs : List Nat := []
  /-- Registers that it reads (R315) and writes (R45). -/
  reads : List RegRef := []
  writes : List RegRef := []
  /-- It is long-latency (R43). -/
  long : Bool := false
  /-- It has an external effect (R44). -/
  ext : Bool := false

/-- R41. A word that is no instruction is refused by the decoder before it comes here (step 1). -/
def Issue.check (w : Issue) (p : Proc) (partition : Nat) : Option Trap :=
  if w.illegal then some ⟨.illegal, BitVec.ofNat 64 w.word, 0, 0⟩
  else if w.priv && !p.priv then some ⟨.priv, BitVec.ofNat 64 w.word, 0, 0⟩
  else if w.gs.any (fun i => decide (gAllot partition ≤ i)) || w.vs.any (fun i => decide (vAllot partition ≤ i))
  then some ⟨.regallot, BitVec.ofNat 64 w.word, 0, 0⟩
  else none

/-- A fifth long-latency word waits for the operation that was the oldest when it was first held (R44). -/
def Proc.holdsFifth (p : Proc) : Bool := match p.fifth with
  | some i => p.outs.any (fun o => decide (o.id = i))
  | none => false
/-- R44: whether the windows, the count of four and the commit points let the word issue. -/
def Proc.mayIssue (p : Proc) (long ext : Bool) : Bool :=
  p.outs.all (fun o => decide (o.issued ≠ o.l)) && !(long && (decide (4 ≤ p.outs.length) || p.holdsFifth)) && !(ext && p.outs.any (fun o => !o.committed))

/-- A word has issued: it counts in every window, and control goes to pc. -/
def Proc.passTo (p : Proc) (pc : Word) (jumped : Bool) : Proc :=
  { p.settled with pc := pc, transferred := jumped, fifth := none, issuedRes := p.issuedRes + 1, outs := p.outs.map (fun o => { o with issued := o.issued + 1 }) }
/-- A word has issued and control falls through. -/
def Proc.pass (p : Proc) : Proc := p.passTo (p.pc + 4) false
/-- What a destination still writes once a later instruction has written the registers ws (R45), none when nothing is left; of two registers the one
that was not written stays, and g0 stands for the other. -/
def Dest.without (d : Dest) (ws : List RegRef) : Option Dest :=
  let hit (r : BitVec 6) : Bool := ws.contains (0, r.toNat)
  match d with
  | .none | .buf | .dword => some d
  | .g r _ _ => if hit r then none else some d
  | .gg r e => if hit r && hit e then none else some (.gg (if hit r then 0 else r) (if hit e then 0 else e))
  | .v r _ => if ws.contains (1, r.toNat) then none else some d
/-- R45: an outstanding operation no longer writes what a later instruction writes. -/
def Proc.kill (p : Proc) (ws : List RegRef) : Proc :=
  { p with outs := p.outs.map (fun o => match o.dest.without ws with
    | some d => { o with dest := d }
    | none => { o with live := false }) }

/-- TRAPINFO of a struck register (R300). -/
def regInfo (r : RegRef) : Word := BitVec.ofNat 64 (2 ^ 63 + r.1 * 2 ^ 8 + r.2)

/-- A word may not issue yet (R44). A fifth long-latency word that no window keeps back remembers the oldest operation. Where a macro-operation that
has stopped on a tile, or one behind it, closes a window, is that oldest operation, or has not passed its commit point, or where a word of the process waits for its place in the tile
queue behind one that has stopped, the process is BLOCKED with an edge to that tile (R215, R287); and it is BLOCKED where the MKCH, ALT or ALTF that
waits keeps the word back so (R141, R148). -/
def State.stall (s : State) (pk : Nat) (long ext : Bool) : State :=
  let p0 := s.proc pk
  let s1 := if long && decide (4 ≤ p0.outs.length) && p0.fifth.isNone && p0.outs.all (fun o => decide (o.issued ≠ o.l)) then s.setProc pk { p0 with fifth := (p0.outs.head?).map (·.id) } else s
  let p := s1.proc pk
  let k := s.core (coreOf pk)
  let entry := k.tileWait.any (fun t => decide (t.pk = pk) && t.entering)
  let holds (o : OutOp) : Bool := decide (o.issued = o.l) || (long && decide (p.fifth = some o.id)) || (ext && !o.committed)
  match k.tileq.find? (fun t => decide (t.waits ≠ 0) && (entry || (decide (t.pk = pk) && p.outs.any (fun o => (decide (o.id = t.op) || (decide (o.kind = .tileOp) && decide (t.op < o.id))) && holds o)))) with
  | some t => s1.block pk 0 t.waits t.op
  | none => match p.multi with
    | some m => if p.outs.any (fun o => decide (o.id = m.op) && holds o) then s1.block pk 2 0 m.op else s1
    | none => s1
/-- A word of the process waits for a place in the tile queue, so that no later word issues (R214). -/
def State.entering (s : State) (pk : Nat) : Bool := (s.core (coreOf pk)).tileWait.any (fun t => decide (t.pk = pk) && t.entering)

/-- The rules that every issued word obeys, around what the instruction does. A word that may not issue yet leaves the registers as they
are: it issues when the process's turn comes again. A word in progress has passed its checks. -/
def issue (w : Issue) (body : Nat → State → State) (s : State) : Host.Outcome State Fault Refusal :=
  .next <|
    let pk := s.turn
    let p := s.proc pk
    let go := !w.gu.never && (p.midWord || p.r.guard w.gu)
    if !p.mayIssue (w.long && go) (w.ext && go) || s.entering pk then s.stall pk (w.long && go) (w.ext && go)
    else if w.gu.never then
      if p.transferred then (s.count pk).trap pk ⟨.illegal, BitVec.ofNat 64 w.word, 0, 0⟩ p.pc
      else s.setProc pk p.pass
    else if p.midWord then body pk s
    else match w.check p (s.core (coreOf pk)).partition with
      | some t => (s.count pk).trap pk t p.pc
      | none =>
        if !go then s.setProc pk p.pass
        else match w.reads.find? (fun r => p.struck.contains r) with
          | some r => (s.count pk).trap pk ⟨.ecc, regInfo r, 0, 0⟩ p.pc
          | none => body pk s

/-- The process after a word that wrote the registers ws, leaving r, with control at pc; a written register is good again (R315). -/
def Proc.retire (p : Proc) (ws : List RegRef) (r : Regs) (pc : Word) (jumped : Bool) : Proc :=
  { (p.kill ws).passTo pc jumped with r := r, struck := p.struck.filter (fun x => !ws.contains x) }

/-- A short-latency instruction that only computes on registers: f gives the registers after it. -/
def issuePure (w : Issue) (f : Regs → Regs) (s : State) : Host.Outcome State Fault Refusal :=
  issue w (fun pk s => s.modProc pk (fun p => p.retire w.writes (f p.r) (p.pc + 4) false)) s

end Sys2Proof.Machine
end

