-- ==== Sys2Proof/Machine/Homes.lean ====
section
/-! DEFINITION. The address space, the homes and the tag state machine: where an address lies (spec/04_memory.md R53 to R60), what
the rows of R82 do to a tile (spec/05_tags.md R78 to R87), and how a home performs a request (spec/14_atomics_fences.md R232 to R241). -/
namespace Sys2Proof.Machine

/-! ## Where a local address lies (R54, R55, R56) -/

/-- The ranges of R54. -/
inductive Place | hbm | scratch (core off : Nat) | host | mmio | hole
  deriving DecidableEq, Repr

/-- R54. What no row of its table lists is a hole, the addresses from 0x0200_0000_0000 on too, of which the rule says nothing (DESIGN CHOICE, log 103). -/
def placeOf (la : Nat) : Place :=
  if la < 0x6000000000 then .hbm
  else if la < 0x8000000000 then .hole
  else if la < 0x8600000000 then .scratch ((la - scratchBase) / 2 ^ 24) ((la - scratchBase) % 2 ^ 24)
  else if la < 0x10000000000 then .hole
  else if la < 0x14000000000 then .host
  else if la < 0x18000000000 then .hole
  else if la < 0x20000000000 then .mmio
  else .hole

/-- The home Scarab of an HBM address, die * 32 + slice (R55). -/
def scarabOf (la : Nat) : Nat :=
  let k := la / 0xC00000000
  let o := la % 0xC00000000
  let i := Nat.xor (o / 2 ^ 16 % 16) (o / 2 ^ 20 % 16)
  k / 2 * 32 + k % 2 * 16 + i
/-- The stack of an HBM address (R55). -/
def stackOf (la : Nat) : Nat := la / 0xC00000000

/-- Module and local parts of a physical address (R53). -/
def paModule (pa : Nat) : Nat := pa / 2 ^ 45
def paLocal (pa : Nat) : Nat := pa % 2 ^ 45
/-- The physical address of a local address of this module. -/
def State.paOf (s : State) (la : Nat) : Nat := s.modid * 2 ^ 45 + la
/-- The address lies on this module. An own id of 127 counts as the module's own (R38, R53; log 6). -/
def State.isHere (s : State) (pa : Nat) : Bool := decide (paModule pa = s.modid)
/-- A module id that names no live module (R53). -/
def State.absent (s : State) (m : Nat) : Bool :=
  let p := s.peers.get Peer.unknown m
  decide (m ≠ s.modid) && (decide (71 < m) || !p.present || p.lost)
/-- R54: a malformed physical address. -/
def State.malformed (s : State) (pa : Nat) : Bool :=
  s.absent (paModule pa) || decide (placeOf (paLocal pa) = .hole) || (decide (s.modid = 127) && !s.isHere pa)

/-- The unit that an address of the control and MMIO range addresses (R232, R316). -/
def mmioUnit (la : Nat) : Nat :=
  if la < 0x18000010000 then 0 else if la < 0x18000020000 then 1 else if la < 0x18100000000 then 2 else 3 + (la - 0x18100000000) / 2 ^ 16
/-- A unit of the control and MMIO range. -/
def Home.isMmio : Home → Bool
  | .mmio _ => true
  | _ => false
/-- Home(addr) (R232). -/
def State.homeOf (s : State) (pa : Nat) : Home :=
  if !s.isHere pa then .remote (paModule pa)
  else match placeOf (paLocal pa) with
    | .hbm => .scarab (scarabOf (paLocal pa))
    | .scratch c _ => .core c
    | .host => .host
    | .mmio | .hole => .mmio (mmioUnit (paLocal pa))

/-- Buffers of a core's scratchpad window (R56). -/
inductive Buf | gs | act | wt | acc | park | procst | none
  deriving DecidableEq, Repr
/-- The buffer at a window offset (R56, R78). -/
def bufAt (o : Nat) : Buf :=
  if o < 0x20000 then .gs else if o < 0x60000 then .act else if o < 0xA0000 then .wt else if o < 0xB4000 then .acc
  else if o < 0xB8000 then .park else if o < 0xC0000 then .none else if o < 0xD0000 then .procst else .none
def Buf.base : Buf → Nat
  | .gs => 0 | .act => 0x20000 | .wt => 0x60000 | .acc => 0xA0000 | .park => 0xB4000 | .procst => 0xC0000 | .none => 0
def Buf.size : Buf → Nat
  | .gs => 0x20000 | .act => 0x40000 | .wt => 0x40000 | .acc => 0x14000 | .park => 0x4000 | .procst => 0x10000 | .none => 0
/-- Tile sizes (R78); 0 for a buffer without tags. -/
def Buf.tile : Buf → Nat
  | .gs => 64 | .act => 1024 | .wt => 1024 | .acc => 0x2800 | .park | .procst | .none => 0
/-- The number of a buffer's first tile; the accumulator tiles are numbers 2560 to 2567. -/
def Buf.firstTile : Buf → Nat
  | .gs => 0 | .act => 2048 | .wt => 2304 | .acc => 2560 | .park | .procst | .none => 0
/-- Window number and offset in the window (R56). -/
def windowOf (off : Nat) : Nat := off / 2 ^ 21
def inWindow (off : Nat) : Nat := off % 2 ^ 21
/-- The tile at a window offset, in the buffers with tags. -/
def tileAt (o : Nat) : Option Nat :=
  let b := bufAt o
  if b.tile = 0 then none else some (b.firstTile + (o - b.base) / b.tile)
/-- The buffer, window offset and size of a tile. -/
def tileBuf (t : Nat) : Buf := if t < 2048 then .gs else if t < 2304 then .act else if t < 2560 then .wt else .acc
def tileOff (t : Nat) : Nat := (tileBuf t).base + (t - (tileBuf t).firstTile) * (tileBuf t).tile
def tileSize (t : Nat) : Nat := (tileBuf t).tile
/-- The local address of a tile. -/
def tileAddr (core t : Nat) : Nat := scratchAddr core (tileOff t)
/-- The tiles under a window-0 byte range. -/
def tilesUnder (core lo n : Nat) : List (Nat × Nat) :=
  if n = 0 then []
  else match tileAt lo, tileAt (lo + n - 1) with
    | some a, some b => (List.range (b + 1 - a)).map (fun i => (core, a + i))
    | _, _ => []

/-- Block format, size of the stored unit and lanes of it, of windows 1 to 6 (R57). -/
def winUnit (w : Nat) : Nat × Nat :=
  match w with
  | 1 => (18, 32)
  | 2 => (25, 32)
  | 3 => (25, 32)
  | 6 => (17, 32)
  | _ => (1, 1)
/-- The stored bytes behind n bytes at a window offset: start and length, as window-0 offsets (R57, R60). -/
def storedRange (w o n : Nat) : Nat × Nat :=
  let b := bufAt o
  let r := o - b.base
  if w = 0 then (o, n)
  else if w = 7 then (b.base + r / 128 * 128, (r + n - 1) / 128 * 128 + 128 - r / 128 * 128)
  else
    let u := winUnit w
    let first := r / 2 / u.2
    let last := (r + n - 1) / 2 / u.2
    (b.base + first * u.1, (last + 1 - first) * u.1)
/-- The stored range lies inside its buffer (R57). -/
def storedFits (w o n : Nat) : Bool :=
  let b := bufAt o
  let x := storedRange w o n
  decide (x.1 + x.2 ≤ b.base + b.size)
/-- Local byte addresses that an access to n bytes at a local address reaches, as a start and a length. Through windows 1 to 7 these are the
whole stored units that it touches, the 128-byte group in window 7; an uncorrectable error in any byte of them counts as one in the bytes read
(R168; DESIGN CHOICE, log 72). -/
def touchedRange (la n : Nat) : Nat × Nat :=
  match placeOf la with
  | .scratch c off => let x := storedRange (windowOf off) (inWindow off) n; (scratchAddr c x.1, x.2)
  | _ => (la, n)
/-- Tiles that an access to n bytes at a local address reaches (R59). -/
def touchedTiles (la n : Nat) : List (Nat × Nat) :=
  match placeOf la with
  | .scratch c off => let x := storedRange (windowOf off) (inWindow off) n; tilesUnder c x.1 x.2
  | _ => []

/-! ## Reading and writing through a window (R57, R60) -/

/-- FP16 code of lane j of a buffer through a block or float window. -/
def State.lane (s : State) (core w : Nat) (b : Buf) (j : Nat) : Nat :=
  let u := winUnit w
  let n := s.mem.readN (scratchAddr core (b.base + j / u.2 * u.1)) u.1
  let pick (k : Blk) : Nat := toFp16 ((k.values n).getD (j % 32) (.nan false))
  match w with
  | 1 => pick .e2m1
  | 2 => pick .e3m2
  | 3 => pick .e2m3
  | 6 => pick .int4
  | 4 => toFp16 (Fmt.e4m3.value n)
  | _ => toFp16 (Fmt.e5m2.value n)
/-- Bit i of plane p of a 128-byte group is bit p of its byte i (R60): the byte at offset k of the plane view of a group. -/
def planeByte (group : Nat) (k : Nat) : Byte :=
  BitVec.ofNat 8 (leBits ((List.range 8).map (fun i => decide (group / 2 ^ (((k % 16) * 8 + i) * 8 + k / 16) % 2 = 1))))
where
  leBits : List Bool → Nat
    | [] => 0
    | b :: r => (if b then 1 else 0) + 2 * leBits r
/-- The n bytes that an access at a local address reads, as one number. -/
def State.view (s : State) (la n : Nat) : Nat :=
  match placeOf la with
  | .scratch c off =>
    let w := windowOf off
    let o := inWindow off
    let b := bufAt o
    let r := o - b.base
    if w = 0 ∧ b = .procst then
      -- the descriptors as they were last written (R267)
      leNat ((List.range n).map (fun i =>
        let k := r + i
        BitVec.ofNat 8 (((s.proc (c * 256 + k / 256)).desc.getD (k % 256 / 8) 0).toNat / 2 ^ (8 * (k % 8)))))
    else if w = 0 then s.mem.readN (scratchAddr c o) n
    else if w = 7 then
      leNat ((List.range n).map (fun i =>
        planeByte (s.mem.readN (scratchAddr c (b.base + (r + i) / 128 * 128)) 128) ((r + i) % 128)))
    else leNat ((List.range n).map (fun i => BitVec.ofNat 8 (s.lane c w b ((r + i) / 2) / 2 ^ (8 * ((r + i) % 2)))))
  | _ => s.mem.readN la n
/-- The writes that a store of n bytes x at a local address makes: for each stored byte its mask and bits. Windows 1 to 6 have their
own conversions at the core (R58). -/
def storeWrites (la n x : Nat) : List (Nat × Byte × Byte) :=
  match placeOf la with
  | .scratch c off =>
    let o := inWindow off
    if windowOf off = 7 then
      let b := bufAt o
      let r := o - b.base
      let bits := (List.range (8 * n)).map (fun i =>
        let k := r + i / 8
        (scratchAddr c (b.base + k / 128 * 128 + k % 16 * 8 + i % 8), k % 128 / 16, decide (x / 2 ^ i % 2 = 1)))
      bits.map (fun e => (e.1, BitVec.ofNat 8 (2 ^ e.2.1), if e.2.2 then BitVec.ofNat 8 (2 ^ e.2.1) else 0))
    else (List.range n).map (fun i => (scratchAddr c (o + i), BitVec.allOnes 8, BitVec.ofNat 8 (x / 2 ^ (8 * i))))
  | _ => (List.range n).map (fun i => (la + i, BitVec.allOnes 8, BitVec.ofNat 8 (x / 2 ^ (8 * i))))

/-! ## Uncorrectable errors in memory (R315) -/

/-- A write that merges into a struck aligned 8-byte word: some byte of that word is struck and the write does not cover it all. -/
def State.mergeHurt (s : State) (ws : List (Nat × Byte × Byte)) : Bool :=
  s.struck.any (fun a =>
    ws.any (fun w => decide (w.1 / 8 = a / 8)) &&
      !(List.range 8).all (fun i => ws.any (fun w => decide (w.1 = a / 8 * 8 + i) && decide (w.2.1 = BitVec.allOnes 8))))

/-! ## Tags (R79, R82) -/

def Core.tag (c : Core) (t : Nat) : Tag := if t < 2560 then c.tags.get .empty t else (c.acc.get Acc.reset (t - 2560)).tag
def State.tag (s : State) (c t : Nat) : Tag := (s.core c).tag t
def Core.setTag (c : Core) (t : Nat) (v : Tag) : Core :=
  if t < 2560 then { c with tags := c.tags.set t v }
  else { c with acc := c.acc.set (t - 2560) { c.acc.get Acc.reset (t - 2560) with tag := v } }

/-- What a row does: proceed to a state, with or without a release; wait; pull; or the dash. -/
inductive RowAct | go (t : Tag) (release : Bool) | wait | pull | never
  deriving DecidableEq, Repr

/-- The table of R82, row by row. -/
def TagEvent.row (e : TagEvent) (t : Tag) : RowAct :=
  match e, t with
  | .arrivalClaims, .empty => .go .pending false
  | .arrivalClaims, .pending => .wait
  | .arrivalClaims, .full => .go .pending false
  | .arrivalClaims, .lent => .wait
  | .arrivalClaims, .via => .go .pending true
  | .arrivalCompletes, .pending => .go .full false
  | .arrivalCompletes, _ => .never
  | .stx, .empty => .go .full false
  | .stx, .via => .go .full true
  | .stx, _ => .wait
  | .tfull, .empty => .go .full false
  | .tfull, .pending => .wait
  | .tfull, .full => .go .full false
  | .tfull, .lent => .go .lent false
  | .tfull, .via => .pull
  | .ldx, .full => .go .empty false
  | .ldx, .via => .pull
  | .ldx, _ => .wait
  | .tempty, .empty => .go .empty false
  | .tempty, .full => .go .empty false
  | .tempty, .via => .go .empty true
  | .tempty, _ => .wait
  | .load, .pending => .wait
  | .load, .via => .pull
  | .load, t => .go t false
  | .sync, .full => .go .full false
  | .sync, .lent => .go .lent false
  | .sync, .via => .pull
  | .sync, _ => .wait
  | .twaite, .empty => .go .empty false
  | .twaite, _ => .wait
  | .store, .empty => .go .empty false
  | .store, .full => .go .full false
  | .store, .via => .pull
  | .store, _ => .wait
  | .lend, .full => .go .lent false
  | .lend, .via => .pull
  | .lend, _ => .wait
  | .lendReleased, .lent => .go .full false
  | .lendReleased, _ => .never
  | .install, .empty => .go .via false
  | .install, .full => .go .via false
  | .install, .via => .go .via true
  | .install, _ => .wait

/-! ## Handles and types (R126, R127) -/

def hKind (h : Word) : Nat := fld h.toNat 60 4
def hModule (h : Word) : Nat := fld h.toNat 53 7
def hDie (h : Word) : Nat := fld h.toNat 51 2
def hCore (h : Word) : Nat := fld h.toNat 41 10
def hSlot (h : Word) : Nat := fld h.toNat 32 9
def hType (h : Word) : BitVec 16 := (h >>> 16).setWidth 16
def hGen (h : Word) : BitVec 16 := h.setWidth 16
/-- The channel home by global index. -/
def hHome (h : Word) : Nat := hDie h * 384 + hCore h
def handleOf (kind m core slot : Nat) (ty gen : BitVec 16) : Word :=
  BitVec.ofNat 64 (kind * 2 ^ 60 + m * 2 ^ 53 + core / 384 * 2 ^ 51 + core % 384 * 2 ^ 41 + slot * 2 ^ 32 + ty.toNat * 2 ^ 16 + gen.toNat)
def tyClass (t : BitVec 16) : Nat := fld t.toNat 14 2
def tyTile (t : BitVec 16) : Nat := if t.getLsbD 13 then 1024 else 64
def tyCount (t : BitVec 16) : Nat := fld t.toNat 5 8 + 1
def tyFmt (t : BitVec 16) : Nat := fld t.toNat 0 5
/-- A type code that MKCH accepts (R141). -/
def tyGood (t : BitVec 16) : Bool := !decide (tyClass t = 3 ∨ 11 < tyFmt t ∨ (tyClass t = 0 ∧ fld t.toNat 0 14 ≠ 0))
/-- Ring tiles of one slot (R132). -/
def tySlotTiles (t : BitVec 16) : Nat := if tyClass t = 1 then tyCount t * tyTile t / 64 else 1

/-! ## Watches (R91, R92) -/

/-- The holder of a tile's watch, by process word. -/
def Core.holder (c : Core) (t : Nat) : Option Nat := (c.watches.find? (fun e => decide (e.1 = t))).map (·.2)
/-- The watch event of a process is set (R92); one that waits in WAITW becomes ready. -/
def State.setEvent (s : State) (pk : Nat) : State :=
  let p := s.proc pk
  let s1 := s.setProc pk { p with wev := true }
  if p.state = .blocked ∧ p.why = 1 then s1.wake pk else s1
/-- A watched tile's event: the bit is set at once on the home core, by a message elsewhere (R92). -/
def State.raiseWatch (s : State) (c t : Nat) : State :=
  match (s.core c).holder t with
  | none => s
  | some w =>
    if wordModule w ≠ s.modid ∧ s.keyOf w = wordKey w then s.send (.core c) (.remote (wordModule w)) (.watchEvent w)
    else if let some m := (s.proc (s.keyOf w)).away then s.send (.core c) (.remote m) (.watchEvent w)
    else if coreOf (s.keyOf w) = c then s.setEvent (s.keyOf w)
    else s.send (.core c) (.core (coreOf (s.keyOf w))) (.watchEvent w)
/-- The process has a context slot. -/
def State.resident (s : State) (pk : Nat) : Bool := (s.core (coreOf pk)).slots.contains (pidOf pk)
/-- Resident processes that wait in an ALT look at their guards again (R82, R148); one off the slots looks when its turn comes (R47). -/
def State.wakeAlts (s : State) : State :=
  (s.procs.map (·.1)).foldl (fun s pk => if (s.proc pk).state = .blocked ∧ (s.proc pk).why = 2 ∧ s.resident pk = true then s.wake pk else s) s
/-- A resident process whose MKCH waits for a ring tile becomes ready when that tile changes (R141). -/
def State.wakeSaved (s : State) (c t : Nat) : State :=
  let e := edgeTile (s.paOf (tileAddr c t))
  (s.procs.map (·.1)).foldl (fun s pk =>
    let p := s.proc pk
    if p.state = .blocked ∧ p.why = 2 ∧ p.wait = e ∧ s.resident pk = true then s.wake pk else s) s
/-- Moves a tile to a state; entering FULL raises the watch event and readies ALT guards (R82). -/
def State.setTag (s : State) (c t : Nat) (v : Tag) : State :=
  let old := s.tag c t
  let s1 := (s.modCore c (·.setTag t v)).wakeSaved c t
  if v = .full ∧ old ≠ .full then (s1.raiseWatch c t).wakeAlts else s1

/-! ## Waymarks: leaving VIA (R100, R101) -/

/-- The waymark record of a core through which a tile is VIA. -/
def Core.markOf (c : Core) (t : Nat) : Option (Nat × Mark) := c.marks.find? (fun e => decide (e.2.state = 1) && e.2.via.contains t)
def State.setMark (s : State) (c i : Nat) (m : Mark) : State := s.modCore c (fun x => { x with marks := x.marks.set i m })
/-- A tile leaves VIA; with the last one the record becomes spent (R101). -/
def State.leaveVia (s : State) (c i : Nat) (m : Mark) (t : Nat) : State :=
  let via := m.via.filter (fun x => x != t)
  if via.isEmpty && decide (m.pending = 0) then s.setMark c i { m with via := via, state := 2, spentAt := s.dtime } else s.setMark c i { m with via := via }
/-- A tile leaves its waymark without a pull: the lender's count falls by one (R82 release, R101). -/
def State.releaseTile (s : State) (c t : Nat) : State :=
  match (s.core c).markOf t with
  | none => s
  | some (i, m) => (s.send (.core c) m.lender (.lendRelease m.lend 1 false)).leaveVia c i m t
/-- The handle of a waymark record (R98, R126). -/
def State.markHandle (s : State) (c i : Nat) (m : Mark) : Word := handleOf 3 s.modid c i m.ty m.gen
/-- A pull starts (R100 step 1): the tile becomes PENDING and the lender is asked for its bytes. -/
def State.startPull (s : State) (c t : Nat) : State :=
  match (s.core c).markOf t with
  | none => s
  | some (i, m) =>
    let s1 := s.modCore c (·.setTag t .pending)
    let s2 := s1.send (.core c) m.lender (.pullRead m.lend (m.src + (t - m.tile) * m.tsize) c t (s.markHandle c i m))
    s2.leaveVia c i { m with pristine := false, pulling := m.pulling ++ [(t, s.nextId)] } t
/-- A tile is PENDING because it is being pulled. -/
def State.beingPulled (s : State) (c t : Nat) : Bool := (s.core c).marks.any (fun e => decide (e.2.state ≠ 0) && e.2.pulling.any (fun x => decide (x.1 = t)))

/-- Applies a row to one tile: the state after it and whether it proceeded. -/
def State.applyRow (s : State) (e : TagEvent) (c t : Nat) : State × Bool :=
  match e.row (s.tag c t) with
  | .go v release =>
    let s1 := s.setTag c t v
    (if release then s1.releaseTile c t else s1, true)
  | .wait | .never => (s, false)
  | .pull => (s.startPull c t, false)
/-- The access rows leave tags alone: proceed only when every tile does; start a pull on each VIA tile (R59, R192). -/
def State.touchAll (s : State) (e : TagEvent) (ts : List (Nat × Nat)) : State × Bool :=
  ts.foldl (fun a t =>
    match e.row (a.1.tag t.1 t.2) with
    | .go _ _ => a
    | .wait | .never => (a.1, false)
    | .pull => (a.1.startPull t.1 t.2, false)) (s, true)

/-! ## Lent bytes of HBM and pages that migrate (R70, R99) -/

/-- The range overlaps HBM bytes that are lent (R99). -/
def State.hbmLent (s : State) (la n : Nat) : Bool :=
  s.lendsHbm.any (fun e => decide (0 < n ∧ e.2.src < la + n ∧ la < e.2.src + e.2.len ∧ e.1 = scarabOf la))
/-- Requests to the page are held by a migration; those that come to the new frame, from the rewriting of the entry on, until those of the old one
have been performed there (R70 steps 2, 4, 5). -/
def State.migrating (s : State) (la : Nat) : Bool :=
  decide (placeOf la = .hbm) && s.migs.any (fun m => decide (la / 2 ^ 16 = m.page / 2 ^ 16 ∨ (m.stage ≠ 0 ∧ la / 2 ^ 16 = m.frame / 2 ^ 16)))

/-! ## Access counters (R69) -/

/-- The stack nearest to a half of a die. -/
def nearStack (req : Nat) : Nat := req
/-- Drops the least recently touched count of a Scarab that holds 4,096. -/
def trimCounts (cs : List Count) (scarab : Nat) : List Count :=
  let mine := cs.filter (fun c => decide (scarabOf c.page = scarab))
  if mine.length < 4096 then cs
  else
    let oldest := mine.foldl (fun a c => if c.touched < a then c.touched else a) (mine.headD ⟨0, 0, [], 0, 0, 0, false⟩).touched
    match mine.find? (fun c => decide (c.touched = oldest)) with
    | some v => cs.filter (fun c => c != v)
    | none => cs
/-- One counted request to an HBM page from a requester, under a translation (R69). At THRESH, with MG set,
the Scarab starts a migration: it takes a free frame, or clears the count when it finds none (R70 step 1). -/
def State.countAccess (s : State) (core la : Nat) (u : Under) : State :=
  let req := dieOfCore core * 2 + halfOf core
  let d := s.die (scarabOf la / 32)
  let page := la / 2 ^ 16 * 2 ^ 16
  if placeOf la ≠ .hbm ∨ !d.migEn ∨ d.migWindow = 0 ∨ stackOf la = nearStack req then s
  else
    let same (c : Count) : Bool := decide (c.page = page ∧ c.requester = req)
    let old := (s.counts.find? same).getD ⟨page, req, [], 0, u.leaf, u.pte, false⟩
    -- a count is cleared when its oldest request is older than WINDOW
    let times := (if (old.times.headD s.dtime) + d.migWindow < s.dtime then [] else old.times) ++ [s.dtime]
    let c : Count := ⟨page, req, times, s.dtime, u.leaf, u.pte, fld u.pte.toNat 7 1 = 1⟩
    let rest := s.counts.filter (fun x => !same x)
    if u.len ≠ 0 ∧ d.migThresh ≠ 0 ∧ d.migThresh ≤ times.length ∧ c.mg = true ∧ s.migs.all (fun m => m.page != page) then
      let t := s.die (req / 2)
      let head := if req % 2 = 0 then t.migHead0 else t.migHead1
      let tail := if req % 2 = 0 then t.migTail0 else t.migTail1
      let base := if req % 2 = 0 then t.migBase0 else t.migBase1
      -- a ring whose index software wrote past the other reads as empty or full, whichever it finds (R71)
      let none1 := if (if req % 2 = 0 then t.migBad0 else t.migBad1) then Config.freeBool s.fresh else decide (head = tail)
      let full1 := if d.relBad then Config.freeBool (s.fresh + 1) else decide ((d.relTail + 1) % 8192 = d.relHead)
      if none1 || full1 then { s with counts := rest, fresh := s.fresh + 2 }
      else
        let frame := paLocal (s.mem.readN (paLocal base + head * 8) 8)
        let t' := if req % 2 = 0 then { t with migHead0 := (head + 1) % 8192 } else { t with migHead1 := (head + 1) % 8192 }
        { (s.setDie (req / 2) t') with
          counts := rest
          fresh := s.fresh + 2
          migs := s.migs ++ [⟨s.nextId, page, frame, scarabOf la / 32, stackOf la, u.leaf, u.pte, 0⟩]
          nextId := s.nextId + 1 }
    else { s with counts := trimCounts rest (scarabOf la) ++ [c] }

/-! ## Packets (R251 to R254) -/

/-- The class of a message to another module (R254): replies, acknowledgements, write-backs, pull data, relinks and resume messages; what else
leaves is a request or a notice. -/
def Body.isReply : Body → Bool
  | .answer .. | .ack .. | .push .. | .pushMem .. | .accum .. | .relink .. | .resume .. | .retry .. | .pieceEnd .. | .chanStep .. | .xferStep .. | .pullFailed .. |
    .farEnd .. | .shootAck .. | .travelAck .. | .recalled .. | .chanVal .. | .guardSaid .. => true
  | _ => false
/-- Bytes of a value that an answer carries: those of a vector for what is wider than a word. -/
def valBytes (v : BitVec 1024) : Nat := if v.toNat < 2 ^ 64 then 8 else 128
/-- Bytes that a body carries after its header: data, the operands of an AMO, the word of a message, a record; the other bodies fit in the header
(DESIGN CHOICE, log 78). -/
def Body.payload : Body → Nat
  | .req r => (match r.rop with
    | .store _ n _ _ _ => n
    | .amo .. => 16
    | .markOpen .. => 64
    | _ => 0)
  | .answer _ _ (.vals vs) => (vs.map valBytes).sum
  | .chanStep _ _ _ _ (.vals vs) => (vs.map valBytes).sum
  | .push _ _ bs _ => bs.length
  | .pushMem _ bs _ => bs.length
  | .accum .. => 0x2800
  | .chanSend .. | .chanRecv .. | .recalled .. | .chanVal .. | .guardAsk .. => 16
  | .spawn .. | .batch .. => 64
  | .travel _ => 1024
  | .stream _ => 16
  | _ => 0
/-- Flits of 64 bytes for bytes of data: a packet has a header flit and at most 16 of data, and what is longer goes as several packets (R252). -/
def flitsOf (bytes : Nat) : Nat := let n := (bytes + 63) / 64; n + max 1 ((n + 15) / 16)
/-- The flits of a body. -/
def Body.flits (b : Body) : Nat := flitsOf b.payload
/-- The wavelength from this module to another (R251). -/
def State.waveTo (s : State) (m : Nat) : Nat := (m + 72 - s.modid) % 72
/-- The numbers of AMO replies that a core has, cumulatively (R243). -/
def Core.ackTo (k : Core) (m : Nat) : Nat :=
  match k.amoOut.find? (fun x => decide (x.1 = m)) with
  | some x => (x.2.2 + 2 ^ 16 - 1) % 2 ^ 16
  | none => (k.amoSeq.get 0 m + 2 ^ 16 - 1) % 2 ^ 16
/-- The port that carries what a source sends (R251). -/
def Src.port : Src → Nat
  | .remote _ p => p
  | .core c | .copyUnit c | .streamer c => portOf c
  | .scarab n => n / 32 * 2 + n % 32 / 16
  | _ => 0
/-- A packet of some flits that is no request of a process. -/
def State.tellFlits (s : State) (m port who asid flits : Nat) (b : Body) : State :=
  { s with outbox := s.outbox ++ [⟨s.nextId, m, !b.isReply, asid, flits, 0, port, ⟨s.modid, 0, s.incarn.toNat, who, none, 0, 6, 0, 0, 0, 0⟩, b⟩], nextId := s.nextId + 1 }
/-- A packet that is no request of a process. -/
def State.tell (s : State) (m port who asid : Nat) (b : Body) : State := s.tellFlits m port who asid b.flits b

/-! ## Answers -/

/-- The module where a process runs, as far as this module knows: here as a guest, where it travelled to, or where its word was made (R263). -/
def State.moduleOf (s : State) (w : Nat) : Nat :=
  if s.procs.any (fun e => e.2.guest && decide (e.2.origin = w)) then s.modid
  else if wordModule w = s.modid then ((s.proc (wordKey w)).away).getD s.modid
  else wordModule w
/-- The number under which an operation is known on another module to which its process has moved: it names the module that gave it. -/
def carryOp (m op : Nat) : Nat := if op < 2 ^ 64 then op + (m + 1) * 2 ^ 64 else op
/-- Mail for a process, as it is sent after one that has moved. -/
def Body.carried (m : Nat) : Body → Body
  | .answer pk op a => .answer pk (carryOp m op) a
  | .ack pk op => .ack pk (carryOp m op)
  | .hold pk op e => .hold pk (carryOp m op) e
  | .promote pk op o => .promote pk (carryOp m op) o
  | .farEnd pk op c => .farEnd pk (carryOp m op) c
  | b => b
/-- Bytes that the answer of a request carries: of a load its size, whatever the value. -/
def Req.answerBytes (r : Req) (b : Body) : Nat :=
  match r.rop, b with
  | .load _ n _ _, .answer _ _ (.vals _) => n
  | _, b => b.payload
/-- What a host core keeps of an answer: its value. -/
def Body.answered : Body → Option (Nat × Answer)
  | .answer _ op a => some (op, a)
  | .ack _ op => some (op, .vals [])
  | _ => none
/-- An answer reaches a host core, or the external host. -/
def State.tellHost (s : State) (n : Nat) (b : Body) : State := { s with hosts := s.hosts.set n (s.hosts.get [] n ++ b.answered.toList) }
/-- Sends the answer of a request to its issuer: to a core of this module, to another module, or to the host cores; of a process that has moved
to another module, after it (R263). -/
def State.answer (s : State) (r : Req) (from_ : Src) (b : Nat → Body) : State :=
  match r.src with
  | .remote m port =>
    -- the reply of an AMO is cached (R243)
    let val : Option Answer := match b r.who with
      | .answer _ _ a => some a
      | .ack _ _ => some (.vals [])
      | _ => none
    ({ s with replies := s.replies.map (fun (e : Reply) => if e.srcModule = m ∧ e.op = r.op ∧ e.value = none then { e with value := val } else e) } : State).tellFlits
      m port r.who 0 (flitsOf (r.answerBytes (b r.who))) (b r.who)
  | .hostCore n => s.tellHost n (b 0)
  | .pcie => s.tellHost 32 (b 0)
  | _ => if s.moduleOf r.who = s.modid then s.send from_ (.core (coreOf (s.keyOf r.who))) (b (s.keyOf r.who))
    else s.tellFlits (s.moduleOf r.who) from_.port r.who 0 (flitsOf (r.answerBytes (b r.who))) ((b r.who).carried s.modid)
/-- The home as a sender. -/
def Home.src : Home → Src
  | .core n => .core n
  | .scarab n => .scarab n
  | .host | .mmio _ => .hostDie
  | .remote m => .remote m 0
/-- Where the answer to a message goes, by who sent it: its home, for what a home sent. -/
def Src.home : Src → Home
  | .core n | .copyUnit n | .streamer n => .core n
  | .scarab n => .scarab n
  | .borer | .launchUnit | .hostCore _ | .pcie | .hostDie => .mmio 0
  | .remote m _ => .remote m
/-- The other module that a source is (127 for none). -/
def Src.module : Src → Nat
  | .remote m _ => m
  | _ => 127
def State.reply (s : State) (r : Req) (a : Answer) : State := s.answer r r.home.src (fun pk => .answer pk r.op a)
def State.ack (s : State) (r : Req) : State := s.answer r r.home.src (fun pk => .ack pk r.op)

/-- The record of a store or reduction that was not performed, on the die of the issuing core (R170, R239); the home tells another module, which
posts it there. A store of a host core has no issuing core and leaves no record (DESIGN CHOICE, log 94). -/
def State.refuseStore (s : State) (r : Req) (cause : Cause) (reason : Nat) : State :=
  match r.src with
  | .remote _ _ => s.reply r (.trap ⟨cause, r.va, 0, 0⟩)
  | .core k => (s.postOther (dieOfCore k) r.under.asid r.who cause.code reason r.pc r.va).ack r
  | _ => s.ack r

/-! ## Performing a request (R233) -/

/-- A table of R237. -/
def amoNew (f : Nat) (old v : Word) : Word :=
  match f with
  | 0 => old + v
  | 1 => if old.slt v then old else v
  | 2 => if old.slt v then v else old
  | 3 => if old.ult v then old else v
  | 4 => if old.ult v then v else old
  | 5 => old &&& v
  | 6 => old ||| v
  | 7 => old ^^^ v
  | _ => v

/-- A store or AMO to a watched tile by another process than the holder (R92). -/
def State.watchWrite (s : State) (r : Req) (ts : List (Nat × Nat)) : State :=
  ts.foldl (fun s t => if (s.core t.1).holder t.2 = some r.who then s else s.raiseWatch t.1 t.2) s

/-- The module that a request comes from. -/
def State.moduleFrom (s : State) (r : Req) : Nat := match r.src with
  | .remote m _ => m
  | _ => s.modid
/-- The tile's watch is held by a process that runs on another module than the issuer (R93, R235). -/
def State.watchedAway (s : State) (r : Req) (ts : List (Nat × Nat)) : Bool :=
  ts.any (fun t => match (s.core t.1).holder t.2 with
    | some w => decide (s.moduleOf w ≠ s.moduleFrom r)
    | none => false)

/-- The edge of a wait on a tile. -/
def State.tileEdge (s : State) (t : Nat × Nat) : Word := edgeTile (s.paOf (tileAddr t.1 t.2))

/-- A tile's code in TQRY's result: watch bit and state (R79, R95). -/
def Tag.code : Tag → Nat
  | .empty => 0
  | .pending => 1
  | .full => 2
  | .lent => 3
  | .via => 4
def State.snapshot (s : State) (c t : Nat) : Nat := (s.tag c t).code + (if ((s.core c).holder t).isSome then 8 else 0)

/-- A record of lent HBM bytes at every home Scarab of the range (R99). -/
def lendScarabs (src len : Nat) : List Nat :=
  ((List.range ((src % 2 ^ 16 + len + 65535) / 2 ^ 16)).map (fun i => scarabOf (src / 2 ^ 16 * 2 ^ 16 + i * 2 ^ 16))).dedup
/-- A step that a channel home asked for is done. -/
def State.stepDone (s : State) (r : Req) (c slot idx : Nat) (a : Answer) : State :=
  match r.src with
  | .remote m port => s.tell m port r.who 0 (.chanStep c slot r.op idx a)
  | _ => s.send r.home.src (.core c) (.chanStep c slot r.op idx a)
/-- The waymark record that a new waymark on a core takes: a free one, else the one that became spent earliest (R101); of those that became
spent at one time, the one of the lowest index (DESIGN CHOICE, log 73). A record with pulls in flight is not reclaimed: an abandoned one still needs
it (R339). -/
def Core.markSlot (c : Core) : Option Nat :=
  match (List.range 32).find? (fun i => decide ((c.marks.get Mark.free i).state = 0)) with
  | some i => some i
  | none =>
    let spent := (List.range 32).filter (fun i => decide ((c.marks.get Mark.free i).state = 2) && (c.marks.get Mark.free i).pulling.isEmpty)
    spent.find? (fun i => spent.all (fun j => decide ((c.marks.get Mark.free i).spentAt ≤ (c.marks.get Mark.free j).spentAt)))
/-- The next generation, 0 skipped. -/
def nextGen (g : BitVec 16) : BitVec 16 := if g + 1 = 0 then 1 else g + 1
/-- A waymark record is freed (R98, R101). -/
def State.freeMark (s : State) (c i : Nat) : State :=
  s.setMark c i { Mark.free with gen := nextGen ((s.core c).marks.get Mark.free i).gen }
/-- The lend record that counts, of the records of an HBM range the one at the home of its first byte (R99). -/
def lendCounts (e : Nat × Lend) (id : Nat) : Bool := decide (e.2.id = id ∧ e.1 = scarabOf e.2.src)
/-- The lend of a number. -/
def State.lendOf (s : State) (id : Nat) : Option Lend :=
  match s.cores.findSome? (fun (k : Nat × Core) => k.2.lends.find? (fun l => decide (l.id = id))) with
  | some l => some l
  | none => (s.lendsHbm.find? (fun e => lendCounts e id)).map (·.2)
def State.modLend (s : State) (id : Nat) (f : Lend → Lend) : State :=
  { s with
    cores := s.cores.map (fun (k : Nat × Core) => (k.1, { k.2 with lends := k.2.lends.map (fun l => if l.id = id then f l else l) }))
    lendsHbm := s.lendsHbm.map (fun e => if lendCounts e id then (e.1, f e.2) else e) }
/-- What is wrong with a use of a waymark handle (R98, R130): a stale or free record, another holder, another type; the handle is TRAPINFO. A
re-send names the type of the channel on which it sends, whose tiles have to be the waymark's (R146). -/
def State.markCheck (s : State) (c : Nat) (h : Word) (who : Nat) (ty : Option (BitVec 16)) : Option Trap :=
  let m := (s.core c).marks.get Mark.free (hSlot h)
  if hGen h ≠ m.gen ∨ m.state = 0 then some ⟨.handle, h, 0, 0⟩
  else if m.holder ≠ who then some ⟨.prot, h, 0, 0⟩
  else if hType h ≠ m.ty then some ⟨.chanType, h, 0, 0⟩
  else match ty with
    | some t => if m.n ≠ tyCount t ∨ m.tsize ≠ tyTile t then some ⟨.chanType, h, 0, 0⟩ else none
    | none => none

/-! ## Transfers and claims (R81, R114, R131, R132) -/

def State.ep (s : State) (c slot : Nat) : Endpoint := (s.core c).eps.get Endpoint.free slot
def State.unit (s : State) (i : Nat) : UnitSlot := s.units.get UnitSlot.free i
def State.xfer (s : State) (id : Nat) : Option Xfer := s.xfers.find? (fun x => decide (x.id = id))
def State.modXfer (s : State) (id : Nat) (f : Xfer → Xfer) : State := { s with xfers := s.xfers.map (fun (x : Xfer) => if x.id = id then f x else x) }
/-- Type of the channel of a transfer; core 1536 stands for the units. -/
def State.xferType (s : State) (x : Xfer) : BitVec 16 := if x.core < 1536 then (s.ep x.core x.slot).ty else (s.unit x.slot).ty
/-- The process and the address space for which a channel home moves a transfer: the sender's, else the receiver's (R259). -/
def Xfer.payer (x : Xfer) : Nat × Nat := match x.send, x.recv with
  | some o, _ | none, some o => (o.who, o.asid)
  | none, none => (0, 0)
/-- A receive that takes the slot at the head of a ring (R132). -/
def Xfer.fromRing (x : Xfer) : Bool := x.ringSlot.isSome && x.send.isNone && decide (x.core < 1536)
/-- Tile idx of a transfer is asked for: from the streamer of its source, or of the channel home itself where it lies in no memory. A tile that
goes to a unit, and what stands in a ring slot of a word or a lend, has no destination. -/
def State.xferNext (s : State) (x : Xfer) (idx : Nat) : State :=
  let who : Claimant := .transfer s.modid x.core x.id idx
  let head := x.fromRing && decide (tyClass (s.xferType x) ≠ 1)
  if x.src = 0 ∨ (x.core = 1536 ∧ x.recv.isSome = true) then s.send (.core x.core) (.core x.core) (.xferRead x.id idx)
  else
    let src := if head then x.src else x.src + idx * x.tile
    let n := if head then 64 else x.tile
    let dst := if head ∨ x.core = 1536 then 0 else x.dst + idx * x.tile
    let b : Body := .stream ⟨who, src, n, dst, false, x.fromRing, Under.none⟩
    match s.homeOf src with
    | .remote m => s.tell m (portOf x.core) x.payer.1 x.payer.2 b
    | h => s.send (.core x.core) h b
/-- A claim has been accepted: the claimant goes on (R114 step 2). -/
def State.claimed (s : State) (who : Claimant) (prior : Tag) : State :=
  match who with
  | .piece _ k cid idx =>
    s.modCore k (fun x => { x with copyq := x.copyq.map (fun y => if y.id = cid then
      { y with active := y.active.map (fun z => if z.idx = idx ∧ (z.stage = 1 ∨ z.stage = 6) then { z with stage := 2, prior := prior } else z) } else y) })
  | .transfer _ _ id idx =>
    (match s.xfer id with
    | some x => (s.modXfer id (fun x => { x with prior := x.prior ++ [(idx, prior)] })).xferNext x idx
    | none => s)
  | .pull _ => s
/-- The claimant's module is told, where it is another one, and the claim is noted here, in case that module is lost (R260). -/
def State.claimDone (s0 : State) (r : Req) (who : Claimant) (prior : Tag) : State :=
  let s : State := match r.src, r.rop with
    | .remote _ _, .claim c t _ => { s0 with claims := s0.claims ++ [(who, c, t, prior)] }
    | _, _ => s0
  match r.src, who with
  | .remote m p, .piece _ k cid idx => s.tell m p r.who 0 (.pieceEnd k cid idx 0 false prior)
  | .remote m p, .transfer _ _ id idx => s.tell m p r.who 0 (.xferStep id idx 0 prior)
  | _, _ => s.claimed who prior

/-- An engine that took a place among the held requests has acted, or has gone (R80). -/
def State.waiterGone (s : State) : Waiter → Bool
  | .msg id => (s.msg id).isNone
  | .copy c id => !(s.core c).copyq.any (fun x => decide (x.id = id))
  | .flash id => !s.borer.any (fun f => decide (f.id = id))
  | .proc pk => (s.proc pk).polls.isNone && (s.proc pk).multi.isNone
  | .top c id => !(s.core c).tileq.any (fun t => decide (t.id = id ∧ t.waits ≠ 0))
/-- One try of a request at its home: the state after it, and whether it was performed. A request that waits may start pulls. -/
def State.tryReq (s : State) (r : Req) : State × Bool :=
  if r.stale then (s, false)
  else match r.rop with
  | .load pa n ldx sync =>
    let la := paLocal pa
    let x := touchedRange la n
    let ts := touchedTiles la n
    let ev : TagEvent := if ldx then .ldx else if sync then .sync else .load
    if s.migrating la then (s, false)
    else match s.touchAll ev ts with
      | (s1, false) => (s1, false)
      | (s1, true) =>
        if s1.hurt x.1 x.2 then (s1.reply r (.trap ⟨.ecc, r.va, 0, 0⟩), true)
        else
          let v := s1.view la n
          let s2 := if ldx then ts.foldl (fun s t => (s.applyRow .ldx t.1 t.2).1) s1 else s1
          -- a copy piece that another module reads may be longer than a register
          (s2.reply r (.vals ((List.range ((n + 127) / 128)).map (fun i => BitVec.ofNat 1024 (v / 2 ^ (1024 * i))))), true)
  | .store pa n ws stx stl =>
    let la := paLocal pa
    let ts := touchedTiles la n
    if s.migrating la || (s.hbmLent la n && decide (placeOf la = .hbm)) then (s, false)
    else if stl && !r.released && s.watchedAway r ts then (s, false)
    else match s.touchAll (if stx then .stx else .store) ts with
      | (s1, false) => (s1, false)
      | (s1, true) =>
        if stx && s1.hurt la 8 then (s1.reply r (.trap ⟨.ecc, r.va, 0, 0⟩), true)
        else if s1.mergeHurt ws then (s1.refuseStore r .ecc 4, true)
        else
          let s2 := { s1 with mem := s1.mem.writeMasked ws, struck := s1.struck.filter (fun a => !ws.any (fun w => decide (w.1 = a))) }
          let s3 := if stx then ts.foldl (fun s t => (s.applyRow .stx t.1 t.2).1) s2 else s2.watchWrite r ts
          (s3.ack r, true)
  | .amo pa f v e ret =>
    let la := paLocal pa
    let ts := touchedTiles la 8
    if s.migrating la || (decide (placeOf la = .hbm) && s.hbmLent la 8) then (s, false)
    else match s.touchAll .store ts with
      | (s1, false) => (s1, false)
      | (s1, true) =>
        if s1.hurt la 8 then
          (if ret then s1.reply r (.trap ⟨.ecc, r.va, 0, 0⟩) else s1.refuseStore r .ecc 4, true)
        else
          let old : Word := BitVec.ofNat 64 (s1.view la 8)
          if f = 9 ∧ old ≠ e then (s1.reply r (.vals [old.setWidth 1024]), true)
          else
            let new := if f = 9 then v else amoNew f old v
            let s2 := ({ s1 with mem := s1.mem.writeMasked (storeWrites la 8 new.toNat) } : State).watchWrite r ts
            (if ret then s2.reply r (.vals [old.setWidth 1024]) else s2.ack r, true)
  | .tag f c t n =>
    if f = 2 then
      -- TQRY (R95)
      let v := (List.range n).foldl (fun a i => a + s.snapshot c (t + i) * 16 ^ i) 0
      (s.reply r (.vals [BitVec.ofNat 1024 v]), true)
    else if f = 6 then
      -- UNWATCH (R95)
      ((s.modCore c (fun k => { k with watches := k.watches.filter (fun e => !decide (e = (t, r.who))) })).reply r (.vals []), true)
    else if f = 5 then
      -- WATCH (R95)
      let k := s.core c
      if k.holder t = some r.who then (s.reply r (.vals []), true)
      else if k.holder t ≠ none ∨ 64 ≤ k.watches.length then (s, false)
      else ((s.modCore c (fun k => { k with watches := k.watches ++ [(t, r.who)] })).reply r (.vals []), true)
    else if f = 7 then
      -- PULL (R147): released marks a request that found its tile VIA, or being pulled (R84)
      if s.tag c t = .via ∧ r.released = true then (s.startPull c t, false)
      else if s.tag c t = .pending ∧ r.released = true then (s, false)
      else (s.reply r (.vals []), true)
    else
      let ev : TagEvent := if f = 0 then .tempty else if f = 1 then .tfull else if f = 3 then .sync else .twaite
      match s.applyRow ev c t with
      | (s1, false) => (s1, false)
      | (s1, true) =>
        let s2 := if f = 1 ∧ s.tag c t ≠ .empty then s1.raiseWatch c t else s1
        (s2.reply r (.vals []), true)
  | .claim c t who =>
    let prior := s.tag c t
    match s.applyRow .arrivalClaims c t with
    | (s1, false) => (s1, false)
    | (s1, true) => (s1.claimDone r who prior, true)
  | .claimMem _ _ who => (s.claimDone r who .empty, true)
  | .lendOpen src len n c slot holder =>
    let id := s.nextId
    let s0 : State := { s with nextId := s.nextId + 1 }
    match r.home with
    | .core k =>
      if 32 ≤ (s.core k).lends.length then (s, false)
      else ((s0.modCore k (fun x => { x with lends := x.lends ++ [⟨id, r.who, src, len, holder, n, true, false⟩] })).stepDone r c slot 0 (.vals [BitVec.ofNat 1024 id]), true)
    | _ =>
      let homes := lendScarabs src len
      let pages := (List.range ((src % 2 ^ 16 + len + 65535) / 2 ^ 16)).map (fun i => src / 2 ^ 16 * 2 ^ 16 + i * 2 ^ 16)
      let clash := s.lendsHbm.any (fun e => decide (src < e.2.src + e.2.len ∧ e.2.src < src + len)) || pages.any s.migrating
      if clash || homes.any (fun h => decide (64 ≤ (s.lendsHbm.filter (fun e => decide (e.1 = h))).length)) then (s, false)
      else
        -- the record at the home of the first byte holds the count
        let recs := homes.map (fun h => (h, (⟨id, r.who, src, len, holder, if h = scarabOf src then n else 0, true, true⟩ : Lend)))
        (({ s0 with lendsHbm := s.lendsHbm ++ recs } : State).stepDone r c slot 0 (.vals [BitVec.ofNat 1024 id]), true)
  | .lendTile k t c slot =>
    match s.applyRow .lend k t with
    | (s1, true) => (s1.stepDone r c slot (2 ^ 24 + k * 4096 + t) (.vals []), true)
    | (s1, false) => (s1, false)
  | .mark take k i h ty c slot =>
    match s.markCheck k h r.who (some ty) with
    | some t => (s.stepDone r c slot 0 (.trap t), true)
    | none =>
      let m := (s.core k).marks.get Mark.free i
      if !take then (s.stepDone r c slot 0 (.vals []), true)
      else if m.pristine then
        -- the record passes on; the tiles still VIA become EMPTY, which is no release (R103)
        let bits := (List.range m.n).foldl (fun a j => if m.via.contains (m.tile + j) then a + 2 ^ j else a) 0
        let pa := (match m.lender with | .remote x => x | _ => s.modid) * 2 ^ 45 + m.src
        let s1 := (m.via.foldl (fun s t => s.setTag k t .empty) s).freeMark k i
        (s1.stepDone r c slot 1 (.vals [BitVec.ofNat 1024 m.lend, BitVec.ofNat 1024 pa, BitVec.ofNat 1024 bits]), true)
      else
        -- every tile still VIA is pulled, and the tensor itself is sent (R104)
        let s1 := m.via.foldl (fun s t => s.startPull k t) s
        (s1.stepDone r c slot 2 (.vals [BitVec.ofNat 1024 (s.paOf (tileAddr k m.tile))]), true)
  | .markOpen k t x va c slot =>
    match (s.core k).markSlot with
    | none => (s, false)
    | some i =>
      let s0 := if ((s.core k).marks.get Mark.free i).state = 2 then s.freeMark k i else s
      let m : Mark := { ((s0.core k).marks.get Mark.free i) with
        state := 1, holder := r.who, lend := x.lend, lender := s.homeOf x.src, src := paLocal x.src, tile := t, n := x.n, tsize := x.tile, ty := x.ty,
        pristine := true, va := va, via := [], pending := x.n, pulling := [] }
      let s1 := (s0.setMark k i m).send (.core k) m.lender (.relink x.lend (s0.markHandle k i m))
      let asks := (List.range x.n).map (fun j => { r with id := s1.nextId + j, home := .core k, rop := .install k (t + j) i (x.live.contains j) c slot })
      ({ s1 with held := s1.held ++ asks, nextId := s1.nextId + x.n }, true)
  | .engine _ _ w => (s, s.waiterGone w)
  | .install k t i live c slot =>
    match s.applyRow (if live then .install else .tempty) k t with
    | (s1, false) => (s1, false)
    | (s1, true) =>
      let m := (s1.core k).marks.get Mark.free i
      let via := if live then m.via ++ [t] else m.via
      let m1 := { m with via := via, pending := m.pending - 1 }
      let m2 := if via.isEmpty && decide (m1.pending = 0) then { m1 with state := 2, spentAt := s1.dtime } else m1
      let s2 := s1.setMark k i m2
      (if m1.pending = 0 then s2.stepDone r c slot 0 (.vals [(s.markHandle k i m2).setWidth 1024]) else s2, true)

end Sys2Proof.Machine
end

