-- ==== Sys2Proof/Machine/Requests.lean ====
section
/-! DEFINITION. Requests on their way to homes and held there (spec/05_tags.md R80, R85 to R87, spec/08_scalar.md R170, R172,
spec/14_atomics_fences.md R234, R235), translation (spec/04_memory.md R61 to R68) and the checks of an access before it leaves the
core (R56 to R58, R88, R168, R169, R238). -/
namespace Sys2Proof.Machine

/-! ## Held requests (R80) -/

/-- A request of an instruction, as against an engine's claim. -/
def Req.isInstr (r : Req) : Bool := match r.rop with | .load .. | .store .. | .amo .. | .tag .. => true | _ => false
/-- A synchronising access (R85). -/
def Req.isSync (r : Req) : Bool :=
  match r.rop with
  | .load _ _ ldx sync => ldx || sync
  | .store _ _ _ stx _ => stx
  | .tag f _ _ _ => decide (f = 3 ∨ f = 4)
  | _ => false
/-- Core homes. -/
def Home.coreNo : Home → Option Nat
  | .core n => some n
  | _ => none
/-- The request comes from the core that is its home. -/
def Req.isLocal (r : Req) : Bool := match r.src, r.home with | .core a, .core b => decide (a = b) | _, _ => false
/-- Tiles of a request. -/
def Req.tiles (r : Req) : List (Nat × Nat) :=
  match r.rop with
  | .load pa n _ _ => touchedTiles (paLocal pa) n
  | .store pa n _ _ _ => touchedTiles (paLocal pa) n
  | .amo pa _ _ _ _ => touchedTiles (paLocal pa) 8
  | .tag _ c t _ => [(c, t)]
  | .claim c t _ | .lendTile c t _ _ | .install c t _ _ _ _ => [(c, t)]
  | .engine ts _ _ => ts
  | .lendOpen .. | .markOpen .. | .mark .. | .claimMem .. => []
/-- A held STL at AUTO that waits for its promotion (R235). -/
def State.promotionHeld (s : State) (r : Req) : Bool :=
  match r.rop with
  | .store _ _ _ _ true => !r.released && s.watchedAway r r.tiles
  | _ => false
/-- The tile lets an event proceed. -/
def State.lets (s : State) (e : TagEvent) (t : Nat × Nat) : Bool := match e.row (s.tag t.1 t.2) with | .go _ _ => true | _ => false
/-- An engine that waits at its tiles and that every one of them would let proceed now (R80). -/
def State.engineReady (s : State) (h : Req) : Bool :=
  match h.rop with
  | .engine ts e w => !s.waiterGone w && ts.all (s.lets e)
  | _ => false
/-- A held promotion keeps back what comes later from a source to a home (R235). -/
def State.sourceHeld (s : State) (src : Src) (home : Home) : Bool := s.held.any (fun h => s.promotionHeld h && decide (h.src = src ∧ h.home = home))
/-- An earlier held request keeps a later one waiting: one process's accesses to one home stay in order (R172, R234), a held promotion keeps back
its source (R235), and an engine whose turn has come at a tile goes before a later request to that tile (R80). -/
def State.keepsBack (s : State) (h r : Req) : Bool :=
  decide (h.home = r.home) && ((h.isInstr && r.isInstr && decide (h.who = r.who)) || (s.promotionHeld h && decide (h.src = r.src)) ||
    (s.engineReady h && h.tiles.any (fun t => r.tiles.contains t)))
/-- Some request held earlier keeps this one back. -/
def State.behind (s : State) (r : Req) : Bool := (s.held.takeWhile (fun h => h.id != r.id)).any (fun h => s.keepsBack h r)

/-- What the home tells the core of a request that waits: a hold notice for a store or AMO on a LENT tile or lent HBM (R99, R102, R170), a
promotion notice (R235), and at the home core itself BLOCKED for a synchronising or TAG access (R85). -/
def State.notify (s : State) (r : Req) : State :=
  if s.promotionHeld r && !r.asked then
    ({ s with held := s.held.map (fun (h : Req) => if h.id = r.id then { h with asked := true } else h) } : State).answer r r.home.src (fun pk => .promote pk r.op r.id)
  else if r.noticed then s
  else
    let mark (s : State) : State := { s with held := s.held.map (fun (h : Req) => if h.id = r.id then { h with noticed := true } else h) }
    let lent : Option Word := match r.tiles.find? (fun t => decide (s.tag t.1 t.2 = .lent)) with
      | some t => some (s.tileEdge t)
      | none => match r.rop with
        | .store pa n _ _ _ => if placeOf (paLocal pa) = .hbm ∧ s.hbmLent (paLocal pa) n then some (edgeTile pa) else none
        | .amo pa _ _ _ _ => if placeOf (paLocal pa) = .hbm ∧ s.hbmLent (paLocal pa) 8 then some (edgeTile pa) else none
        | _ => none
    match r.rop with
    | .claim .. | .claimMem .. | .lendOpen .. | .lendTile .. | .mark .. | .markOpen .. | .install .. | .engine .. => s
    | .tag _ _ _ _ | .load _ _ true _ | .load _ _ _ true | .store _ _ _ true _ =>
      if r.isLocal then mark (s.block (s.keyOf r.who) 0 (s.tileEdge (r.tiles.headD (0, 0))) r.op) else s
    | .store _ _ _ _ _ | .amo _ _ _ _ _ =>
      match lent with
      | some e => mark (s.answer r r.home.src (fun pk => .hold pk r.op e))
      | none => s
    | _ => s

/-- One pass over the held requests in arrival order. -/
def State.sweep : List Req → State → State × Bool
  | [], s => (s, false)
  | r :: rest, s =>
    if s.behind r then State.sweep rest s
    else match s.tryReq r with
      | (s1, true) => ((State.sweep rest { s1 with held := s1.held.filter (fun h => h.id != r.id) }).1, true)
      | (s1, false) => State.sweep rest (s1.notify r)
/-- Passes until none performs a request. -/
def State.settleN : Nat → State → State
  | 0, s => s
  | n + 1, s => match State.sweep s.held s with
    | (s1, true) => State.settleN n s1
    | (s1, false) => s1
/-- Held requests are re-evaluated in arrival order, each seeing the state that those before it left (R80). -/
def State.settle (s : State) : State := State.settleN (s.held.length + 1) s

/-- Synchronising requests of other cores parked at a core (R85). -/
def State.parkedAt (s : State) (h : Home) : Nat := (s.held.filter (fun r => decide (r.home = h) && r.isSync && !r.isLocal)).length

/-- A request that waits is held, or returned for want of a park slot (R80, R85). -/
def State.hold (s : State) (r : Req) : State :=
  if r.isSync && !r.isLocal && decide (64 ≤ s.parkedAt r.home) then s.answer r r.home.src (fun _ => .retry r s.dtime)
  else { s with held := s.held ++ [r] }.notify r
/-- A request reaches its home: it is performed, held, or returned for want of a park slot (R80, R85). A PULL that finds its tile VIA, or being
pulled, waits for it to be FULL (R84, R147). -/
def State.arriveReq (s : State) (r0 : Req) : State :=
  let pulls : Bool := match r0.rop with
    | .tag 7 c t _ => decide (s.tag c t = .via) || (decide (s.tag c t = .pending) && s.beingPulled c t)
    | _ => false
  let r := { r0 with arrived := some (r0.arrived.getD s.dtime), released := r0.released || pulls }
  if s.held.any (fun h => s.keepsBack h r) then s.hold r
  else match s.tryReq r with
    | (s1, true) => s1.settle
    | (s1, false) => s1.hold r
/-- The place of an engine among the held requests. -/
def Req.isPlace (r : Req) (w : Waiter) : Bool := match r.rop with | .engine _ _ x => decide (x = w) | _ => false
/-- An engine's message that has arrived and waits at its tiles (R80). -/
def State.queuedEngine (s : State) (id : Nat) : Bool := s.held.any (fun h => h.isPlace (.msg id))
/-- An engine that finds its tiles not ready takes a place among the held requests of its home (R80); one that has come to other tiles takes a new
one. -/
def State.queueAt (s : State) (src : Src) (home : Home) (ts : List (Nat × Nat)) (e : TagEvent) (w : Waiter) : State :=
  if s.held.any (fun h => h.isPlace w && decide (h.rop = .engine ts e w)) then s
  else { s with
    held := s.held.filter (fun h => !h.isPlace w) ++
      [⟨s.nextId, src, 2 ^ 26 + 64, 0, home, .engine ts e w, 0, Under.none, false, false, some s.dtime, 0, 0, false, false⟩]
    nextId := s.nextId + 1 }
/-- An engine's message does so. -/
def State.queueEngine (s : State) (m : Msg) (ts : List (Nat × Nat)) (e : TagEvent) : State := s.queueAt m.src m.dst ts e (.msg m.id)
/-- The engine has acted, and gives up its place. -/
def State.unqueue (s : State) (w : Waiter) : State := { s with held := s.held.filter (fun h => !h.isPlace w) }
/-- An engine may act at tiles now: no earlier held request that could go, and no earlier engine's turn, stands before its place (R80). -/
def State.atTurn (s : State) (ts : List (Nat × Nat)) (w : Waiter) : Bool :=
  !(s.held.takeWhile (fun h => !h.isPlace w)).any (fun h => s.engineReady h && h.tiles.any (fun t => ts.contains t))

/-! ## Order on the net (R10, R234) -/

/-- What a core asks of homes for its instructions and its copy unit of homes and streamers, and what a streamer pushes. -/
def Body.isRequest : Body → Bool
  | .req _ | .chanSend _ _ | .chanRecv _ _ | .unbind _ _ _ _ | .absmax .. | .stream _ | .push .. | .pushMem .. | .accum .. => true
  | _ => false
/-- The process of an access of an instruction. -/
def Body.whose : Body → Option Nat
  | .req r => if r.isInstr && decide (r.who < 2 ^ 26) then some r.who else none
  | .chanSend _ o | .chanRecv _ o => some o.who
  | _ => none
/-- Two accesses of one process: after a move to another core the later one waits for the earlier (R234). -/
def Body.sameProcess (a b : Body) : Bool := match a.whose with | some w => b.whose == some w | none => false
/-- A returned request waits at its core for its time (R85): it keeps nothing back. -/
def Body.isRetry : Body → Bool
  | .retry _ _ => true
  | _ => false
/-- No earlier message between the same pair, or access of the same process to the same home, is still on its way (R10, R234). One that has reached
its destination and waits there keeps back nothing. -/
def State.isFirst (s : State) (m : Msg) : Bool :=
  !(s.net.takeWhile (fun x => x.id != m.id)).any (fun x =>
    decide (x.dst = m.dst) && (decide (x.src = m.src) || x.body.sameProcess m.body) && !x.here && !x.body.isRetry && !s.queuedEngine x.id)
/-- The message of this number, when no earlier one keeps it back. -/
def State.inTurn (s : State) (id : Nat) : Option Msg := (s.msg id).filter s.isFirst
/-- A request of this source, or an access of this process, is on its way to this home, or is held there. -/
def State.busyTo (s : State) (src : Src) (who : Nat) (h : Home) : Bool :=
  s.net.any (fun x => decide (x.dst = h) && !x.here && ((x.body.isRequest && decide (x.src = src)) || x.body.whose == some who)) ||
    s.held.any (fun r => r.isInstr && decide (r.who = who ∧ r.home = h)) || s.sourceHeld src h

/-! ## Translation (R61 to R68) -/

/-- Access classes (R65). -/
inductive Access | rd | wr | rw | x
  deriving DecidableEq, Repr
/-- What a translation gives. -/
inductive Xlate
  | ok (pa : Nat) (under : Under)
  | fail (c : Cause) (level : Nat)
  | miss
  deriving DecidableEq, Repr

/-- Whose access it is: an instruction's process, or the process that an engine works for. -/
structure Ctx where
  core : Nat
  asid : Nat
  priv : Bool
  origin : Nat
  extents : List Extent
  guestRoot : Nat
  /-- The process whose access it is, by its key; none for an engine. -/
  by_ : Option Nat
  /-- The failure of its walk, which the access reports (R65). -/
  walked : Option (Nat × Cause × Nat)

def State.ctxOf (s : State) (pk : Nat) : Ctx :=
  let p := s.proc pk
  ⟨coreOf pk, p.asid, p.priv, if p.guest then wordModule p.origin else s.modid, p.extents, p.guestRoot, some pk, p.walked⟩

def TlbEntry.covers (e : TlbEntry) (asid origin va : Nat) : Bool :=
  (e.glob || decide (e.asid = asid ∧ e.origin = origin)) && decide (e.va ≤ va ∧ va < e.va + e.size)
/-- The entry as the translation of an access. -/
def TlbEntry.under (e : TlbEntry) : Under := ⟨e.leaf, e.pte, e.va, e.size, e.asid, e.origin⟩
/-- R65 step 4. -/
def TlbEntry.permits (e : TlbEntry) (a : Access) (priv : Bool) : Bool :=
  (priv || e.u) && (match a with | .rd => e.rd | .wr => e.w | .rw => e.rd && e.w | .x => e.x)
def Extent.permits (e : Extent) (a : Access) (va : Nat) : Bool :=
  decide (e.va ≤ va ∧ va < e.va + e.len) && (match a with | .rd => e.load | .wr => e.store | .rw => e.load && e.store | .x => false)

/-- The root of an address space and whether it is in use (R64). -/
def State.rootOf (s : State) (c : Ctx) : Option Nat :=
  if c.guestRoot ≠ 0 then some c.guestRoot
  else
    let r := (s.die (dieOfCore c.core)).asroot.get 0 c.asid
    if r.getLsbD 0 then some (r.toNat / 2 ^ 16 % 2 ^ 36 * 2 ^ 16) else none

/-- A physical address that an instruction may reach: R54, and stacks 0 and 1 alone before full service (R332). -/
def State.reachable (s : State) (pa : Nat) : Bool :=
  !s.malformed pa && (s.fullService || !s.isHere pa || decide (placeOf (paLocal pa) ≠ .hbm) || decide (stackOf (paLocal pa) < 2))

/-- A walk is the one that an access to va asks for. -/
def Ctx.asks (c : Ctx) (va : Nat) (w : Walk) : Bool :=
  decide (w.core = c.core ∧ w.asid = c.asid ∧ w.origin = c.origin ∧ w.root = c.guestRoot ∧ w.by_ = c.by_ ∧ w.va / 2 ^ 16 = va / 2 ^ 16)
/-- Translation of one virtual address in the order of R66, with the checks of R61 and R65. -/
def State.xlate (s : State) (c : Ctx) (a : Access) (va : Nat) : Xlate :=
  let good (pa : Nat) (u : Under) : Xlate := if s.reachable pa then .ok pa u else .fail .prot 0
  if 2 ^ 56 ≤ va then .fail .prot 0
  else if va / 2 ^ 52 = 15 then
    if va < 0xF0000001000000 then .ok (s.paOf (scratchAddr c.core (va - 0xF0000000000000))) (Under.plain c.asid c.origin) else .fail .prot 0
  else match s.rootOf c with
    | none => .fail .prot 0
    | some _ =>
      match c.extents.find? (fun e => e.permits a va) with
      | some e => good (e.pa + (va - e.va)) ((e.pages.find? (fun u => decide (u.va ≤ va ∧ va < u.va + u.len))).getD (Under.plain c.asid c.origin))
      | none =>
        let k := s.core c.core
        let d := s.die (dieOfCore c.core)
        match (k.tlb ++ (d.l2tlb.filter (fun e => decide (e.1 = walkSlice c.core))).map (·.2)).find? (fun e => e.covers c.asid c.origin va) with
        | some e => if e.permits a c.priv then good (e.pa + (va - e.va)) { e.under with asid := c.asid } else .fail .prot 0
        | none =>
          match (if c.by_.isSome then c.walked else (s.walks.find? (fun w => c.asks va w && w.failed.isSome)).bind (fun w => w.failed.map (fun f => (w.va, f)))) with
          | some (v, x, l) => if v / 2 ^ 16 = va / 2 ^ 16 then .fail x l else .miss
          | none => .miss

/-- A miss queues a walk at the slice (R66). -/
def State.queueWalk (s : State) (c : Ctx) (va : Nat) : State :=
  if s.walks.any (c.asks va) then s
  else { s with walks := s.walks ++ [⟨s.nextId, c.core, c.asid, c.origin, c.guestRoot, c.by_, va, none⟩], nextId := s.nextId + 1 }
/-- A failed walk has been reported to the engine's access. -/
def State.dropWalk (s : State) (c : Ctx) (va : Nat) : State :=
  { s with walks := s.walks.filter (fun w => !(c.asks va w && w.failed.isSome)) }

/-- The trap of a failed translation. -/
def xlateTrap (c : Cause) (level cls va : Nat) : Trap := ⟨c, BitVec.ofNat 64 va, cls, level⟩

/-- An instruction's translation: a miss queues a walk and the instruction waits; a failure traps; otherwise the body goes on with the
physical address and its translation. -/
def State.translated (s : State) (pk : Nat) (a : Access) (cls va : Nat) (body : Nat → Under → State → State) : State :=
  let c := s.ctxOf pk
  match s.xlate c a va with
  | .ok pa u => body pa u s
  | .fail x l => s.raise pk (xlateTrap x l cls va)
  | .miss => s.queueWalk c va

/-! ## Checks of an access (R56, R57, R58) -/

/-- The MMIO addresses that a row of R316 names. -/
def mmioNamed (la : Nat) : Bool :=
  decide (0x18000000000 ≤ la ∧ la < 0x18000001000) || decide (0x18000020000 ≤ la ∧ la < 0x18000021000) ||
    (decide (0x18100000000 ≤ la ∧ la < 0x18100040000) && decide (0x800 ≤ la % 2 ^ 16 ∧ la % 2 ^ 16 < 0x2000))
/-- IOEPNEW (R329). -/
def isIoepnew (la : Nat) : Bool := decide (0x18000010000 ≤ la ∧ la < 0x18000010008)

/-- Plain and vector loads. An unprivileged load at a process-store offset through windows 1 to 7 fails with PROT, as every access through them
does, and not with PRIV, the exception of window 0 (DESIGN CHOICE, log 74). -/
def loadCheck (priv : Bool) (pa n : Nat) : Option Cause :=
  match placeOf (paLocal pa) with
  | .hbm | .host => none
  | .mmio => if mmioNamed (paLocal pa) then none else some .prot
  | .hole => some .prot
  | .scratch _ off =>
    let w := windowOf off
    let o := inWindow off
    match bufAt o with
    | .gs | .act => if storedFits w o n then none else some .prot
    | .wt => if w = 0 ∨ w = 7 then none else some .prot
    | .procst => if w ≠ 0 then some .prot else if priv then none else some .priv
    | .acc | .park | .none => some .prot
/-- Plain and vector stores. -/
def storeCheck (vec : Bool) (pa n : Nat) : Option Cause :=
  match placeOf (paLocal pa) with
  | .hbm | .host => none
  | .mmio => if mmioNamed (paLocal pa) then none else some .prot
  | .hole => some .prot
  | .scratch _ off =>
    let w := windowOf off
    let o := inWindow off
    match bufAt o with
    | .gs | .act =>
      if (w = 1 ∨ w = 2 ∨ w = 3 ∨ w = 6) ∧ !vec then some .misalign
      else if (w = 4 ∨ w = 5) ∧ n = 1 then some .misalign
      else if storedFits w o n then none else some .prot
    | _ => some .prot
/-- A scratchpad address through a window other than 0. -/
def offWindow0 (pa : Nat) : Bool :=
  match placeOf (paLocal pa) with
  | .scratch _ off => decide (windowOf off ≠ 0)
  | _ => false
/-- The buffer of a scratchpad address. -/
def bufOf (pa : Nat) : Option Buf :=
  match placeOf (paLocal pa) with
  | .scratch _ off => some (bufAt (inWindow off))
  | _ => none
/-- LDX, LDP and STX (R88). -/
def syncCheck (stx : Bool) (pa : Nat) : Option Cause :=
  if offWindow0 pa then some .misalign
  else match bufOf pa with
    | some .gs | some .act => none
    | some .wt => if stx then some .prot else none
    | _ => some .prot
/-- LDA and STL (R244, R245). -/
def ldaCheck (priv : Bool) (pa : Nat) : Option Cause := if offWindow0 pa then some .misalign else loadCheck priv pa 8
def stlCheck (pa : Nat) : Option Cause := if offWindow0 pa then some .misalign else storeCheck false pa 8
/-- AMO (R238); an AMOSWAP reaches IOEPNEW (R329). -/
def amoCheck (f : Nat) (pa : Nat) : Option Cause :=
  if offWindow0 pa then some .misalign
  else match placeOf (paLocal pa) with
    | .hbm | .host => none
    | .mmio => if f = 8 ∧ isIoepnew (paLocal pa) then none else some .prot
    | .hole => some .prot
    | .scratch _ off => match bufAt (inWindow off) with
      | .gs | .act => none
      | _ => some .prot

/-! ## Sending requests (R172, R234, R253, R258) -/

/-- A scope covers a home (R235); 1 CORE, 2 PKG, 3 SYS. -/
def scopeCovers (scope : Nat) (core : Nat) (h : Home) : Bool :=
  match scope, h with
  | 0, _ => false
  | 1, .core n => decide (n = core)
  | 1, _ => false
  | 2, .remote _ => false
  | _, _ => true
/-- An acquire that is not complete keeps back an access to this home (R90, R244). -/
def Proc.acquires (p : Proc) (core : Nat) (h : Home) : Bool := p.outs.any (fun o => scopeCovers o.acquire core h)

/-- The stream of a process to a module, at its source. -/
def State.streamTo (s : State) (who target : Nat) : StreamOut :=
  (s.streamsOut.find? (fun x => decide (x.who = who ∧ x.target = target))).getD ⟨who, target, 0, false⟩
def State.setStreamOut (s : State) (x : StreamOut) : State :=
  { s with streamsOut := s.streamsOut.filter (fun y => !decide (y.who = x.who ∧ y.target = x.target)) ++ [x] }
/-- Access class of R340, local address and length of what a request does; the class 6 stands for a request that R256 exempts. -/
def ROp.access : ROp → Nat × Nat × Nat
  | .load pa n _ _ => (0, paLocal pa, n)
  | .store pa n _ _ _ => (1, paLocal pa, n)
  | .amo pa _ _ _ _ => (2, paLocal pa, 8)
  | .tag f c t n => (if f = 0 ∨ f = 1 ∨ f = 5 then 1 else 0, tileAddr c t, if f = 2 then n * tileSize t else tileSize t)
  | .claim c t (.piece _ _ _ _) => (4, tileAddr c t, tileSize t)
  | .claimMem pa n (.piece _ _ _ _) => (4, paLocal pa, n)
  | _ => (6, 0, 0)
def Body.access : Body → Nat × Nat × Nat
  | .req r => r.rop.access
  | .absmax pa .. => (2, paLocal pa, 8)
  | .stream b => (match b.who with | .piece _ _ _ _ => (3, paLocal b.src, b.n) | _ => (6, 0, 0))
  | .travel t => (5, paLocal t.pa, 1)
  | .guardAsk g _ => if g.kind = 2 then (0, tileAddr g.core g.tile, tileSize g.tile) else (6, 0, 0)
  | _ => (6, 0, 0)
/-- The header of a request of a process of a core for a module (R253, R256, R261); an AMO takes the core's next number there (R243). -/
def State.headerTo (s : State) (core who m : Nat) (seq : Option Nat) (key : BitVec 32) (b : Body) : Header :=
  let a := b.access
  ⟨s.modid, core, s.incarn.toNat, who, seq, key, a.1, a.2.1, a.2.2, (s.core core).amoSeq.get 0 m, (s.core core).ackTo m⟩
/-- Hands a request of a process to the port of its core: it takes the next number of its stream (R253). -/
def State.sendAway (s : State) (core who target asid : Nat) (key : BitVec 32) (b : Body) : State :=
  let x := s.streamTo who target
  { (s.setStreamOut { x with next := (x.next + 1) % 2 ^ 16 }) with
    outbox := s.outbox ++ [⟨s.nextId, target, true, asid, b.flits, 0, portOf core, s.headerTo core who target (some x.next) key b, b⟩], nextId := s.nextId + 1 }
/-- A request for a process, by its process word, to any home; a guest's access to this module is checked at the edge slice as a request of another
module would be (R264). -/
def State.routeFor (s : State) (src : Src) (core who : Nat) (guest : Bool) (asid : Nat) (key : BitVec 32) (dst : Home) (b : Body) : State :=
  match dst with
  | .remote m => s.sendAway core who m asid key b
  | _ => if guest && decide (b.access.1 ≠ 6) then
      { s with net := s.net ++ [⟨s.nextId, src, dst, b, some (s.headerTo core who s.modid none key b), false⟩], nextId := s.nextId + 1 }
    else s.send src dst b
/-- A request of an instruction, or of an engine that works for the process of a key. -/
def State.route (s : State) (src : Src) (core pk asid : Nat) (key : BitVec 32) (dst : Home) (b : Body) : State :=
  s.routeFor src core (s.originWord pk) (s.proc pk).guest asid key dst b
/-- A request of a process before it leaves. -/
def State.mkReq (s : State) (pk op : Nat) (rop : ROp) (va : Word) (h : Home) (u : Under) (limit : Nat) : Req :=
  ⟨s.nextId, .core (coreOf pk), s.originWord pk, op, h, rop, va, u, false, false, none, (s.proc pk).pc, limit, false, false⟩
/-- Puts a request of an instruction on its way. -/
def State.request (s : State) (pk op : Nat) (rop : ROp) (va : Word) (pa : Nat) (u : Under) (limit : Nat) : State :=
  let r := s.mkReq pk op rop va (s.homeOf pa) u limit
  s.route r.src (coreOf pk) pk (s.proc pk).asid (s.askey.get 0 (s.proc pk).asid) r.home (.req r)

/-- The stream to a remote home is frozen or its partition recovers: the access waits at issue (R258, R312). -/
def State.awayWait (s : State) (pk : Nat) (h : Home) : Bool :=
  match h with
  | .remote m => (s.streamTo (s.originWord pk) m).frozen || (decide (s.phase = 3) && !(s.proc pk).priv)
  | _ => (s.proc pk).guest && (s.streamTo (s.originWord pk) s.modid).frozen
/-- What a process does while it waits for a frozen stream: BLOCKED with an edge on the stream (R258). -/
def State.awayBlock (s : State) (pk : Nat) (h : Home) : State :=
  match h with
  | .remote m => if (s.streamTo (s.originWord pk) m).frozen then s.block pk 7 (edgeStream m) else s
  | _ => s.block pk 7 (edgeStream s.modid)

/-- A new outstanding operation of a long-latency instruction; it passes the word (R43, R44). -/
def Proc.open_ (p : Proc) (id l : Nat) (committed : Bool) (kind : OutKind) (dest : Dest) (va : Word) (acquire : Nat) (writes : List RegRef)
    (home : Option Home := none) (more : List Req := []) (under : Under := Under.none) : Proc :=
  let older := (p.outs.filter (·.live)).map (fun o => (o.id, o.dest))
  let q := (p.kill writes).pass
  { q with outs := q.outs ++ [⟨id, p.pc, l, 0, committed, kind, dest, true, p.r, older, va, acquire, home, more, [], under⟩] }
/-- An operation that a word in progress waits for before its next step; the word keeps its operands. -/
def Proc.openStep (p : Proc) (id : Nat) (kind : OutKind) (dest : Dest) (va : Word) (home : Option Home := none) : Proc :=
  { p with base := some p.word, outs := p.outs ++ [⟨id, p.pc, 0, 0, false, kind, dest, true, p.r, (p.outs.filter (·.live)).map (fun o => (o.id, o.dest)), va, 0, home, [], [], Under.none⟩] }

/-- Registers after an operation's value arrives (R168, R191). -/
def Dest.write (d : Dest) (vs : List (BitVec 1024)) (r : Regs) : Regs :=
  let v := vs.headD 0
  match d with
  | .none | .buf | .dword => r
  | .g d n sgn =>
    let x := v.toNat % 2 ^ (8 * n)
    r.setG d (if sgn then (BitVec.ofNat (8 * n) x).signExtend 64 else BitVec.ofNat 64 x)
  | .gg d e => (r.setG d (v.setWidth 64)).setG e ((vs.getD 1 0).setWidth 64)
  | .v d bytes =>
    let m : VReg := spread bytes
    { r with v := r.v.set d.toFin ((r.getV d &&& ~~~ m) ||| (v &&& m)) }
where
  /-- Eight mask bits for each byte that is selected. -/
  spread (b : BitVec 128) : VReg := (List.range 128).foldl (fun a i => if b.getLsbD i then a ||| (0xFF#1024 <<< (8 * i)) else a) 0

/-- Sends one request of a range: at once at a home of this module, to the ports of the core for another (R94, R253). -/
def State.sendPart (s : State) (pk : Nat) (r0 : Req) : State :=
  let r := { r0 with id := s.nextId }
  let s1 : State := { s with nextId := s.nextId + 1 }
  -- one that has lost its translation is translated again first (R67)
  if r.stale then { s1 with held := s1.held ++ [r] }
  else if (match r.home with | .remote _ => true | _ => false) || (s.proc pk).guest then
    s1.route r.src (coreOf pk) pk (s.proc pk).asid (s.askey.get 0 (s.proc pk).asid) r.home (.req r)
  else s1.arriveReq r
/-- The value of an operation on a range: the codes of its tiles in turn (R95). -/
def OutOp.whole (o : OutOp) (vs : List (BitVec 1024)) : List (BitVec 1024) :=
  if o.got.isEmpty then vs
  else [BitVec.ofNat 1024 ((o.got ++ [(vs.headD 0).toNat]).zipIdx.foldl (fun a e => a + e.1 * 16 ^ e.2) 0)]
/-- The operation's value has arrived: it is written where no later word has written (R45), into the snapshots of younger operations
too (R46), and a process that is BLOCKED for it goes on. An operation on a range sends its next request instead. -/
def State.complete (s : State) (pk op : Nat) (vs : List (BitVec 1024)) : State :=
  let p := s.proc pk
  match p.outs.find? (fun o => decide (o.id = op)) with
  | none => s
  | some o =>
    match o.more with
    | r :: rest =>
      let next (x : OutOp) : OutOp := if x.id = op then { x with more := rest, got := x.got ++ [(vs.headD 0).toNat] } else x
      (s.setProc pk { p with outs := p.outs.map next }).sendPart pk r
    | [] =>
      let all := o.whole vs
      let v := all.headD 0
      let younger (y : OutOp) : OutOp := match y.older.find? (fun e => decide (e.1 = op)) with
        | some e => { y with snap := e.2.write all y.snap, older := y.older.filter (fun x => x.1 != op) }
        | none => y
      let got := match o.dest with
        | .buf => p.buf ++ [v.setWidth 64, (v >>> 64).setWidth 64]
        | .dword => p.buf ++ [v.setWidth 64]
        | _ => p.buf
      let written : List RegRef := match o.dest with
        | .g d _ _ => [(0, d.toNat)]
        | .gg d e => [(0, d.toNat), (0, e.toNat)]
        | _ => []
      let s1 := s.setProc pk { p with
        outs := (p.outs.filter (fun x => x.id != op)).map younger
        multi := p.multi.filter (fun m => m.op != op)
        r := if o.live then o.dest.write all p.r else p.r
        struck := if o.live then p.struck.filter (fun x => !written.contains x) else p.struck
        buf := got }
      if p.state = .blocked ∧ p.on = op then s1.wake pk else s1
/-- The operation traps: the process is as it was when the operation issued, and takes the trap when it next issues (R46, R47). -/
def State.failOp (s : State) (pk op : Nat) (t : Trap) : State :=
  match (s.proc pk).outs.find? (fun o => decide (o.id = op)) with
  | none => s
  | some o => let s1 := s.rollback pk o t; if (s.proc pk).state = .blocked then s1.wake pk else s1

/-- A store leaves the core unacknowledged (R170). -/
def Proc.sent (p : Proc) (op : Nat) (h : Home) (red : Bool) (pa : Nat) : Proc := { p with unacked := p.unacked ++ [⟨op, h, red, pa⟩] }

/-! ## The region table (R256, R257, R340) -/

/-- The region table's answer. -/
inductive Verdict | pass | violation | fault (c : Cause)
  deriving DecidableEq, Repr
/-- The enabled entry that covers an access. -/
def State.regionOf (s : State) (la n : Nat) : Option Region :=
  (s.regions.find? (fun e =>
    let b := fld e.2.base.toNat 16 29 * 2 ^ 16
    e.2.ctl.getLsbD 0 && decide (b ≤ la ∧ la + n ≤ b + fld e.2.size.toNat 16 29 * 2 ^ 16))).map (·.2)
/-- R256 steps 2 to 4. -/
def State.regionCheck (s : State) (cls la n : Nat) (key : BitVec 32) : Verdict :=
  match s.regionOf la n with
  | none => .fault .page
  | some r =>
    if r.ctl.getLsbD 9 then .fault .prot
    else if ((r.ctl >>> 32).setWidth 32 : BitVec 32) ≠ key then .violation
    else if r.ctl.getLsbD (3 + cls) then .pass else .fault .prot
/-- The die that holds an address; of host memory and the MMIO range, which no die holds, die 0 (R257 names none for them; DESIGN CHOICE, log 107). -/
def dieOfAddr (la : Nat) : Nat :=
  match placeOf la with
  | .hbm => scarabOf la / 32
  | .scratch c _ => c / 384
  | _ => 0
/-- The remote-violation notice (R340). -/
def State.notice (s : State) (h : Header) (c : Cause) : State :=
  let as := match s.regionOf h.pa h.len with | some r => fld r.ctl.toNat 10 6 | none => 0
  s.post (dieOfAddr h.pa) 6 as h.who [BitVec.ofNat 64 (c.code.toNat + h.cls * 2 ^ 8), BitVec.ofNat 64 (h.pa % 2 ^ 52)]
/-- What bars a guest from a range of this module's memory that its core reads or writes itself, in the class of R340: such an access is checked as a
request would be (R264), and one that fails ends its operation as a refused request does (DESIGN CHOICE, log 106). A guest whose origin is this module
is checked too. -/
def State.guestBar (s : State) (pk cls la n : Nat) : Option Cause :=
  let p := s.proc pk
  if !p.guest || decide (n = 0) then none
  else match s.regionCheck cls la n (s.askey.get 0 p.asid) with
    | .pass => none
    | .violation => some .remoteKey
    | .fault _ => some .prot
/-- It is barred, and the die that holds the address hears of it (R257). -/
def State.barNotice (s : State) (pk cls la n : Nat) (c : Cause) : State :=
  let p := s.proc pk
  let v : Cause := match s.regionCheck cls la n (s.askey.get 0 p.asid) with | .fault x => x | _ => c
  s.notice (s.headerTo (coreOf pk) p.origin s.modid none (s.askey.get 0 p.asid) (.watchEvent 0) |> fun h => { h with cls := cls, pa := la, len := n }) v

end Sys2Proof.Machine
end

