-- ==== Sys2Proof/Machine/Walk.lean ====
section
/-! DEFINITION. Table walks, shoot-downs and page migration (spec/04_memory.md R62 to R71). -/
namespace Sys2Proof.Machine

/-! ## Walks (R62, R63, R65) -/

/-- Shift and width of the index of a level. -/
def levelShift : Nat → Nat
  | 3 => 43
  | 2 => 30
  | 1 => 21
  | _ => 16
def levelBits : Nat → Nat
  | 3 => 13
  | 2 => 13
  | 1 => 9
  | _ => 5
/-- Alignment of the table below a level (R62). -/
def tableAlign : Nat → Nat
  | 3 => 65536
  | 2 => 4096
  | _ => 256
/-- A page meets an enabled registered region (R63, R255). -/
def State.inRegion (s : State) (la n : Nat) : Bool :=
  s.regions.any (fun e => let r := e.2
    let b := fld r.base.toNat 16 29 * 2 ^ 16
    let z := fld r.size.toNat 16 29 * 2 ^ 16
    r.ctl.getLsbD 0 && decide (la < b + z ∧ b < la + n))

/-- How a walk ends or goes on: with a leaf, with the check of R65 that failed and its level, at an entry of another module (R264), or at a tile
that makes a plain load wait (R62, R82). -/
inductive Walked
  | leaf (e : TlbEntry)
  | fail (c : Cause) (level : Nat)
  | away
  | waits (c t : Nat)
  deriving DecidableEq, Repr
/-- One walk from a table at a level, with the checks of R65 steps 2 and 3 in order. Each entry is read at its home as a plain load of 8 bytes. -/
def State.walkFrom (s : State) (c : Ctx) (va : Nat) : Nat → Nat → Nat → Walked
  | 0, _, _ => .fail .prot 0
  | fuel + 1, lvl, table =>
    let a := table + fld va (levelShift lvl) (levelBits lvl) * 8
    if !s.isHere a || s.migrating (paLocal a) then .away
    else match (touchedTiles (paLocal a) 8).find? (fun t => match TagEvent.load.row (s.tag t.1 t.2) with | .go _ _ => false | _ => true) with
    | some t => .waits t.1 t.2
    | none =>
    if s.hurt (paLocal a) 8 then .fail .ecc lvl
    else
      let e := s.view (paLocal a) 8
      let addr := e / 2 ^ 8 % 2 ^ 44 * 2 ^ 8
      let isTable := fld e 1 1 = 1
      let mg := fld e 7 1 = 1
      if fld e 0 1 = 0 then .fail .page lvl
      else if fld e 52 4 ≠ 0 ∨ s.malformed addr then .fail .prot lvl
      else if isTable then
        if lvl = 0 ∨ mg ∨ addr % tableAlign lvl ≠ 0 then .fail .prot lvl else s.walkFrom c va fuel (lvl - 1) addr
      else
        let size := 2 ^ levelShift lvl
        if lvl = 3 ∨ addr % size ≠ 0 ∨ (mg ∧ (lvl ≠ 0 ∨ s.inRegion (paLocal addr) size)) then .fail .prot lvl
        else .leaf { asid := c.asid, origin := c.origin, glob := fld e 6 1 = 1, va := va / size * size, size := size, pa := addr,
                     u := fld e 5 1 = 1, x := fld e 4 1 = 1, w := fld e 3 1 = 1, rd := fld e 2 1 = 1, leaf := a, pte := BitVec.ofNat 64 e }
/-- A whole walk (R62, R65). -/
def State.walk (s : State) (c : Ctx) (va : Nat) : Walked :=
  match s.rootOf c with
  | none => .fail .prot 3
  | some root => if s.malformed root then .fail .prot 3 else s.walkFrom c va 4 3 root

/-- Translation that walks at once where the TLBs do not hold the page: for the Launch Unit and for tests of task inputs. A miss has to wait for
a walk that another module or a tile holds up. -/
def State.xlateNow (s : State) (c : Ctx) (a : Access) (va : Nat) : Xlate :=
  match s.xlate c a va with
  | .miss =>
    match s.walk c va with
    | .leaf e =>
      if !e.permits a c.priv then .fail .prot 0
      else
        let pa := e.pa + (va - e.va)
        if s.reachable pa then .ok pa e.under else .fail .prot 0
    | .fail x l => .fail x l
    | .away | .waits _ _ => .miss
  | r => r

/-- A translation enters both TLB levels (R66); the oldest entry makes room. -/
def State.fillTlb (s : State) (core : Nat) (e : TlbEntry) : State :=
  let keep {α : Type} (n : Nat) (xs : List α) : List α := xs.drop (xs.length + 1 - n)
  let d := dieOfCore core
  let sl := walkSlice core
  let mine := (s.die d).l2tlb.filter (fun x => decide (x.1 = sl))
  let others := (s.die d).l2tlb.filter (fun x => decide (x.1 ≠ sl))
  (s.modCore core (fun c => { c with tlb := keep 512 c.tlb ++ [e] })).modDie d (fun v => { v with l2tlb := others ++ keep 4096 mine ++ [(sl, e)] })

/-- A walk fails: the process's access reports it (R65), or it is kept for the engine that asked. -/
def State.failWalk (s : State) (w : Walk) (x : Cause) (l : Nat) : State :=
  match w.by_ with
  | some pk => { (s.modProc pk (fun p => { p with walked := some (w.va, x, l) })) with walks := s.walks.filter (fun y => y.id != w.id) }
  | none => { s with walks := s.walks.map (fun y => if y.id = w.id then { y with failed := some (x, l) } else y) }
/-- PAGE_WALK (R66). A slice walker completes a table walk for a TLB miss: one of the first twelve of its slice. At an entry under a VIA tile it
starts a pull (R82); one at an entry of another module waits for a move from outside. -/
def execPageWalk (id : Nat) (s : State) : Host.Outcome State Fault Refusal :=
  .next <| match s.walks.find? (fun w => decide (w.id = id) && w.failed.isNone) with
  | none => s
  | some w =>
    let slice := s.walks.filter (fun x => x.failed.isNone && decide (walkSlice x.core = walkSlice w.core))
    if !(slice.take 12).any (fun x => decide (x.id = id)) then s
    else match s.walk ⟨w.core, w.asid, true, w.origin, [], w.root, none, none⟩ w.va with
      | .leaf e => ({ s with walks := s.walks.filter (fun x => x.id != id) }).fillTlb w.core e
      | .fail x l => s.failWalk w x l
      | .away => s
      | .waits c t => if s.tag c t = .via then s.startPull c t else s

/-! ## Operands of channel operations (R145, R146) -/

/-- A handle names a slot or a record of a live module. -/
def State.handlePlaced (s : State) (h : Word) : Bool := !s.absent (hModule h) && decide (hCore h < 384) && (hKind h != 3 || decide (hSlot h < 32))
/-- The process of the operation runs on this module. -/
def State.ours (s : State) (o : ChanOp) : Bool := decide (s.moduleOf o.who = s.modid)
/-- The operation re-sends a waymark (R146). -/
def ChanOp.resend (o : ChanOp) : Bool := decide (o.form = 8 ∧ hKind o.va = 3)
/-- Whose translation the operand of an operation takes, once its instruction has issued (R115, R145). -/
def State.chanCtx (s : State) (o : ChanOp) : Ctx := { s.ctxOf (s.keyOf o.who) with by_ := none, walked := none }
/-- The operand of SENDT, RECVT and SENDD, translated in a context and checked on the core of its process: the operation with the physical
address, or with the trap that it takes once its handle has passed its own checks; none while the walk is still to come. -/
def State.chanVa (s : State) (x : Ctx) (now : Bool) (o : ChanOp) (ty : BitVec 16) : Option ChanOp :=
  let T := tyTile ty
  let len := tyCount ty * T
  let no (c : Cause) : Option ChanOp := some { o with bad := some ⟨c, o.va, 0, 0⟩, under := Under.none, stale := false }
  if o.form < 6 ∨ 8 < o.form then some o
  else if o.resend then (if s.handlePlaced o.va then some o else no .handle)
  else if o.va.toNat % T ≠ 0 then no .misalign
  else
    let a : Access := if o.form = 7 then .wr else .rd
    match (if now then s.xlateNow x a o.va.toNat else s.xlate x a o.va.toNat) with
    | .miss => none
    | .fail c l => some { o with bad := some (xlateTrap c l 7 o.va.toNat), under := Under.none, stale := false }
    | .ok pa u =>
      let good := match placeOf (paLocal pa) with
        | .scratch _ off =>
          let b := bufAt (inWindow off)
          let fits := decide (inWindow off + len ≤ b.base + b.size)
          if o.form = 8 then decide (b = .gs ∨ b = .act) && fits else decide (b = (if T = 64 then .gs else .act)) && fits
        | .hbm => decide (o.form = 8 ∧ paLocal pa + len ≤ 0x6000000000)
        | _ => false
      if offWindow0 pa then no .misalign
      else if !good then no .prot
      else some { o with val := BitVec.ofNat 64 pa, under := u, stale := false }

/-! ## Shoot-downs (R67, R308) -/

/-- The translations that a shoot-down covers (R308), of any page size: 0 a page of an address space, 1 an address space, 2 all; 3 those by one leaf
entry as it stood, of a migration. One of another module is about that module's address spaces alone (R264). -/
def Shootdown.coversU (d : Shootdown) (u : Under) : Bool :=
  let glob := fld u.pte.toNat 6 1 = 1
  decide (u.len ≠ 0 ∧ (d.reply.isSome = true → u.origin = d.origin)) && (match d.mode with
    | 0 => decide (u.va ≤ d.va ∧ d.va < u.va + u.len ∧ (glob ∨ (u.asid = d.asid ∧ u.origin = d.origin)))
    | 1 => decide (u.asid = d.asid ∧ u.origin = d.origin ∧ ¬ glob)
    | 3 => decide (u.leaf = d.va ∧ u.pte = d.pte)
    | _ => true)
/-- The entries that it covers. -/
def Shootdown.covers (d : Shootdown) (e : TlbEntry) : Bool :=
  decide (d.reply.isSome = true → e.origin = d.origin) && (match d.mode with
    | 0 => decide (e.va ≤ d.va ∧ d.va < e.va + e.size) && (e.glob || decide (e.asid = d.asid ∧ e.origin = d.origin))
    | 1 => decide (e.asid = d.asid ∧ e.origin = d.origin) && !e.glob
    | 3 => decide (e.leaf = d.va)
    | _ => true)
/-- The extents of an address space of this module that it covers; a guest has none. -/
def Shootdown.coversExtent (d : Shootdown) (asid : Nat) (x : Extent) : Bool :=
  d.reply.isNone && (match d.mode with
    | 0 => decide (asid = d.asid ∧ x.va / 2 ^ 16 ≤ d.va / 2 ^ 16 ∧ d.va / 2 ^ 16 * 2 ^ 16 < x.va + x.len) || x.pages.any d.coversU
    | 1 => decide (asid = d.asid)
    | 3 => x.pages.any d.coversU
    | _ => true)
/-- A shoot-down starts: the cores that hold state have to acknowledge, and, but for the one of every space, other modules that hold guests, to which
it is sent (R67, R264, R308). -/
def State.startShootdown (s : State) (mode asid va : Nat) (mig : Option Nat) (pte : Word := 0) : State × Nat :=
  let away := s.procs.filterMap (fun e => match e.2.away with
    | some m => if mode = 3 ∨ (mode < 2 ∧ e.2.asid = asid) then some (2000 + m) else none
    | none => none)
  let id := s.nextId
  let s1 : State := { s with shoots := s.shoots ++ [⟨id, mode, asid, va, [], s.cores.map (·.1) ++ away.dedup, mig, false, s.modid, none, pte⟩], nextId := id + 1 }
  (away.dedup.foldl (fun s m => s.tell (m - 2000) 0 0 asid (.shoot id mode asid va pte)) s1, id)

/-- A request for a byte of one page goes to the same byte of another. -/
def movePage (old new a : Nat) : Nat := if a / 2 ^ 16 = old / 2 ^ 16 then new / 2 ^ 16 * 2 ^ 16 + a % 2 ^ 16 else a
def movePa (old new pa : Nat) : Nat := paModule pa * 2 ^ 45 + movePage old new (paLocal pa)
def Req.moved (r : Req) (old new : Nat) (home : Nat → Home) : Req :=
  let mv (pa : Nat) : Nat := movePa old new pa
  match r.rop with
  | .load pa n a b => { r with rop := .load (mv pa) n a b, home := home (mv pa) }
  | .store pa n ws a b => { r with rop := .store (mv pa) n (ws.map (fun w => (movePage old new w.1, w.2))) a b, home := home (mv pa) }
  | .amo pa f v e b => { r with rop := .amo (mv pa) f v e b, home := home (mv pa) }
  | .lendOpen src n k c slot h => match r.home with
    | .scarab _ => { r with rop := .lendOpen (movePage old new src) n k c slot h, home := home (mv src) }
    | _ => r
  | _ => r
def Req.onPage (r : Req) (page : Nat) : Bool :=
  match r.rop with
  | .load pa _ _ _ | .store pa _ _ _ _ | .amo pa _ _ _ _ => decide (paLocal pa / 2 ^ 16 = page / 2 ^ 16)
  | .lendOpen src _ _ _ _ _ => decide (src / 2 ^ 16 = page / 2 ^ 16)
  | _ => false
/-- A request whose instruction can still trap: one that is no plain store or reduction. -/
def Req.mayTrap (r : Req) : Bool :=
  match r.rop with
  | .load .. | .tag .. => true
  | .store _ _ _ stx _ => stx
  | .amo _ _ _ _ ret => ret
  | _ => false
/-- The requests of a core, of an instruction or of its copy unit. -/
def Src.ofCore (src : Src) (core : Nat) : Bool := decide (src = .core core ∨ src = .copyUnit core)
/-- The physical page of a leaf entry. -/
def Under.page (u : Under) : Nat := u.pte.toNat / 2 ^ 8 % 2 ^ 44 * 2 ^ 8
/-- Requests of a core under a covered translation that are not performed yet (R67): at or on the way to their homes, those of a range that
have not left, addresses that a word in progress has translated, claims and pushes of pieces, merges of DRAIN, and transfers of channels. A request
that waits on a tag and will be translated again does not count (R309), nor does one for the page of a migration, which is held, or will be when it
arrives, until the shoot-down is complete (R70 step 4; DEDUCED, log 75). -/
def State.oldRequests (s : State) (d : Shootdown) (core : Nat) : Bool :=
  let old (u : Under) : Bool := d.coversU u && !decide (d.mode = 3 ∧ u.page / 2 ^ 16 = d.pte.toNat / 2 ^ 8 % 2 ^ 44 * 2 ^ 8 / 2 ^ 16)
  let bad (r : Req) : Bool := r.src.ofCore core && old r.under && !r.stale
  let mine (o : Option ChanOp) : Bool := match o with | some o => decide (coreOf (s.keyOf o.who) = core) && s.ours o && old o.under | none => false
  let body (b : Body) : Bool := match b with
    | .req r => bad r
    | .absmax _ _ _ _ c _ _ _ u => decide (c = core) && old u
    | .push _ _ _ (.piece m c cid idx) | .pushMem _ _ (.piece m c cid idx) | .accum _ _ _ (.piece m c cid idx) =>
      decide (m = s.modid ∧ c = core) && (s.core core).copyq.any (fun x => decide (x.id = cid) && x.active.any (fun z => decide (z.idx = idx) && (old z.dtr || old z.str)))
    | _ => false
  -- a piece at the streamer of another module is known to be performed by its end alone
  let farPiece (z : Piece) : Bool := decide (z.stage = 3) && !s.isHere z.spa && (old z.dtr || old z.str)
  s.held.any bad || s.net.any (fun m => body m.body) || (s.outbox ++ s.sent).any (fun p => body p.body) ||
    s.streamsIn.any (fun x => (x.early ++ x.frozen.toList).any (fun m => body m.body)) ||
    (s.core core).copyq.any (fun c => c.active.any (fun z => (decide (z.stage = 1 ∨ z.stage = 6) && old z.dtr) || farPiece z)) ||
    s.procs.any (fun e => decide (coreOf e.1 = core) && (e.2.seen.any (fun x => old x.2) || e.2.outs.any (fun o => o.more.any bad ||
      -- a channel operation at another module has not been called back yet
      (decide (o.kind = .chan ∧ hModule o.va ≠ s.modid) && old o.under)))) ||
    s.xfers.any (fun x => (mine x.send && decide (x.read < x.n)) || (mine x.recv && decide (x.done < x.n)))

/-- What is called back from another module goes in the ordering stream of its process, behind what it calls back (R253). -/
def State.callBack (s : State) (core who m asid : Nat) (key : BitVec 32) (w : Recalled) : State :=
  if s.recalls.contains w then s else ({ s with recalls := s.recalls ++ [w] } : State).sendAway core who m asid key (.recall w)
/-- The translation unit of a core invalidates: its TLB, the entries of its slice, extents of its processes and of its inbox (R67, R68); pieces
that wait on a source tag are withdrawn to be translated again, and those that have not been sent are too (R115); waiting tile transfers lose
their translation (R145), and so do requests that wait on a tag and can still trap (R309; DEDUCED, log 104). What waits at another module is called
back from there. -/
def State.invalidate (s : State) (d : Shootdown) (core : Nat) : State :=
  let old (u : Under) : Bool := d.coversU u
  -- a piece at its streamer that has not been read: its message is still on its way
  let isRead (cid idx : Nat) (b : Body) : Bool := match b with | .stream b => decide (b.who = .piece s.modid core cid idx) | _ => false
  let waitsAt (cid idx : Nat) : Bool := s.net.any (fun m => isRead cid idx m.body) || s.outbox.any (fun p => isRead cid idx p.body)
  let pulled := (s.core core).copyq.flatMap (fun c =>
    (c.active.filter (fun z => decide (z.stage = 3) && (old z.str || old z.dtr) && waitsAt c.id z.idx)).map (fun z => (c.id, z.idx)))
  -- a claim stands; a destination without tags is translated again
  let anew (c : Copy) (z : Piece) : Piece :=
    let z1 := if pulled.contains (c.id, z.idx) then { z with stage := 2, spa := 0, str := Under.none } else z
    if z1.stage = 2 ∧ old z1.dtr = true then { z1 with dtr := Under.none, stage := if (touchedTiles (paLocal z1.dpa) 1).isEmpty ∨ c.form = 2 ∨ c.form = 4 then 0 else 2 } else z1
  let s1 := s.modCore core (fun k => { k with
    tlb := k.tlb.filter (fun e => !d.covers e)
    inbox := k.inbox.map (fun e => (e.1, { e.2 with extents := e.2.extents.filter (fun x => !d.coversExtent (fld (e.2.record.getD 0 0).toNat 50 6) x) }))
    copyq := k.copyq.map (fun c => { c with active := c.active.map (anew c) }) })
  let stale (o : ChanOp) : ChanOp := if coreOf (s.keyOf o.who) = core ∧ old o.under = true then { o with stale := true } else o
  let staleIn (b : Body) : Body := match b with
    | .chanSend c o => .chanSend c (stale o)
    | .chanRecv c o => .chanRecv c (stale o)
    | b => b
  let again (r : Req) : Req := if r.src = .core core ∧ old r.under ∧ r.mayTrap = true ∧ d.mode ≠ 3 then { r with stale := true } else r
  let s2 := s1.modDie (dieOfCore core) (fun v => { v with l2tlb := v.l2tlb.filter (fun e => !(decide (e.1 = walkSlice core) && d.covers e.2)) })
  let keep (b : Body) : Bool := !pulled.any (fun x => isRead x.1 x.2 b)
  let s3 := { s2 with
    net := (s2.net.filter (fun (m : Msg) => keep m.body)).map (fun (m : Msg) => { m with body := staleIn m.body })
    outbox := (s2.outbox.filter (fun (p : Packet) => keep p.body)).map (fun (p : Packet) => { p with body := staleIn p.body })
    held := s2.held.map again
    procs := s2.procs.map (fun (e : Nat × Proc) => if coreOf e.1 = core then
      (e.1, { e.2 with
        extents := e.2.extents.filter (fun x => !d.coversExtent e.2.asid x)
        -- the guards of an ALT on other modules are asked for again
        multi := e.2.multi.map (fun (m : Multi) => { m with far := m.far.filter (fun f => decide (3 ≤ f.2)) })
        outs := e.2.outs.map (fun (o : OutOp) => { o with more := o.more.map again }) }) else e) }
  let s4 := { s3 with
    cores := s3.cores.map (fun (k : Nat × Core) => (k.1, { k.2 with eps := k.2.eps.map (fun (e : Nat × Endpoint) => (e.1, { e.2 with
      waiting := e.2.waiting.map stale, lending := e.2.lending.map stale, held := e.2.held.map stale, refs := e.2.refs.map stale })) }))
    units := s3.units.map (fun (u : Nat × UnitSlot) => (u.1, { u.2 with waiting := u.2.waiting.map stale, sender := u.2.sender.map stale })) }
  if d.mode = 3 then s4
  else
    -- pieces at a streamer of another module, and channel operations at homes there
    let pieces := (s4.core core).copyq.flatMap (fun c => (c.active.filter (fun z => decide (z.stage = 3) && (old z.str || old z.dtr) && !s.isHere z.spa)).map (fun z => (c, z)))
    let s5 := pieces.foldl (fun s x => s.callBack core x.1.who (paModule x.2.spa) x.1.asid ((x.1.ctl >>> 32).setWidth 32) (.piece core x.1.id x.2.idx)) s4
    let chans := (s5.procs.filter (fun e => decide (coreOf e.1 = core))).flatMap (fun e =>
      (e.2.outs.filter (fun o => decide (o.kind = .chan ∧ hModule o.va ≠ s.modid) && old o.under)).map (fun o => (e.1, e.2.asid, o)))
    chans.foldl (fun s x => s.callBack core (s.originWord x.1) (hModule x.2.2.va) x.2.1 (s.askey.get 0 x.2.1) (.chan (s.originWord x.1) x.2.2.id)) s5

/-- An acknowledgement of a shoot-down is here: of a core, or of another module, number 2000 + m. -/
def State.shootAcked (s : State) (id from_ : Nat) : State :=
  { s with shoots := s.shoots.map (fun x => if x.id = id then { x with acked := x.acked ++ [from_] } else x) }
/-- The home of a channel operation that was called back is told of its new translation. -/
def State.recallBack (s : State) (src : Src) (o : ChanOp) : State :=
  match src with
  | .remote m p => s.tell m p o.who o.asid (.chanVal o)
  | _ => s
/-- SHOOTDOWN_ACKNOWLEDGE (R67). A translation unit invalidates and acknowledges once its old requests are performed. A shoot-down that another module
has sent for its guests starts here (R264), and its acknowledgement counts where it arrives; a channel operation that has been called back is
translated again, once its walk is over, and its home is told (R145). -/
def execShootdownAcknowledge (id core : Nat) (s : State) : Host.Outcome State Fault Refusal :=
  .next <| match s.shoots.find? (fun d => decide (d.id = id)), s.msg id with
  | some d, _ =>
    if !d.need.contains core || d.acked.contains core || decide (1536 ≤ core) then s
    else
      let s1 := s.invalidate d core
      if s1.oldRequests d core then s1 else s1.shootAcked id core
  | none, some ⟨_, .remote m p, _, .shoot n mode asid va pte, _, _⟩ =>
    let s1 := s.take id
    { s1 with shoots := s1.shoots ++ [⟨s1.nextId, mode, asid, va, [], s1.cores.map (·.1), none, false, m, some (p, n), pte⟩], nextId := s1.nextId + 1 }
  | none, some ⟨_, .remote m _, _, .shootAck n, _, _⟩ => (s.take id).shootAcked n (2000 + m)
  | none, some ⟨_, src, _, .recalled w (some o), _, _⟩ =>
    (match s.chanVa (s.chanCtx o) true o (hType o.handle) with
    | none => (s.stay id).queueWalk (s.chanCtx o) o.va.toNat
    | some q => (({ (s.take id) with recalls := s.recalls.filter (fun x => x != w) } : State).modProc (s.keyOf o.who) (fun p => { p with outs := p.outs.map (fun (x : OutOp) => if x.id = o.op then { x with under := q.under } else x) })).recallBack src q)
  | _, _ => s

/-! ## Migration (R70) -/

/-- The bytes of a 64 KiB page copied to another. -/
def Memory.copyPage (m : Memory) (old new : Nat) : Memory :=
  let page := m.filter (fun c => decide (c.1 / 2 ^ 16 = old / 2 ^ 16))
  let rest := m.filter (fun c => decide (c.1 / 2 ^ 16 ≠ new / 2 ^ 16))
  page.foldl (fun (a : Memory) (c : Host.Cell) => a.write (movePage old new c.1) c.2) rest

/-- The stack whose pool gave a migration its frame: half and die of the requester. -/
def poolOf (frame : Nat) : Nat := stackOf frame

/-- MIGRATION_COPY_DONE (R70). The page copy ends and the leaf is rewritten by compare or the migration abandoned. A page with lent bytes is not moved
until they are released, since their record names the frame (R99; DESIGN CHOICE, log 101). -/
def execMigrationCopyDone (id : Nat) (s : State) : Host.Outcome State Fault Refusal :=
  .next <| match s.migs.find? (fun m => decide (m.id = id ∧ m.stage = 0)) with
  | none => s
  | some m =>
    if s.lendsHbm.any (fun e => decide (e.2.src < m.page + 2 ^ 16 ∧ m.page < e.2.src + e.2.len)) then s else
    -- an entry of another module is compared there (log 76)
    let same : Bool := if s.isHere m.leaf then decide (BitVec.ofNat 64 (s.mem.readN (paLocal m.leaf) 8) = m.oldPte) else Config.freeBool s.fresh
    if !same then
      -- abandoned: the frame goes back to its pool and the held requests are performed
      let k := poolOf m.frame
      let d := s.die (k / 2)
      let head := ((if k % 2 = 0 then d.migHead0 else d.migHead1) + 8191) % 8192
      let base := if k % 2 = 0 then d.migBase0 else d.migBase1
      let s1 := s.setDie (k / 2) (if k % 2 = 0 then { d with migHead0 := head } else { d with migHead1 := head })
      ({ s1 with migs := s1.migs.filter (fun (x : Migration) => x.id != id), mem := s1.mem.writeN (paLocal base + head * 8) 8 (s1.paOf m.frame) } : State).settle
    else
      let fresh : Nat := (m.oldPte.toNat / 2 ^ 52 * 2 ^ 52) + s.paOf m.frame + m.oldPte.toNat % 2 ^ 8
      let s1 : State := { s with
        mem := if s.isHere m.leaf then (s.mem.copyPage m.page m.frame).writeN (paLocal m.leaf) 8 fresh else s.mem.copyPage m.page m.frame
        migs := s.migs.map (fun (x : Migration) => if x.id = id then { x with stage := 1 } else x) }
      let s2 := if s.isHere m.leaf then s1 else
        let r : Req := ⟨s1.nextId, .scarab (scarabOf m.page), 0, 0, .remote (paModule m.leaf), .amo m.leaf 9 (BitVec.ofNat 64 fresh) m.oldPte true, 0, Under.none,
          false, false, none, 0, 0, false, false⟩
        ({ s1 with nextId := s1.nextId + 1, fresh := s1.fresh + 1 } : State).tell (paModule m.leaf) (m.die * 2) 0 0 (.req r)
      (s2.startShootdown 3 0 m.leaf (some id) m.oldPte).1

/-- SHOOTDOWN_COMPLETE (R67). The initiator holds every acknowledgement and the shoot-down is complete; a migration then forwards its
held requests and those that still arrive, followed by an end marker (R70 step 4): they stand in the order of their arrival. -/
def execShootdownComplete (id : Nat) (s : State) : Host.Outcome State Fault Refusal :=
  .next <| match s.shoots.find? (fun d => decide (d.id = id)) with
  | none => s
  | some d =>
    if !d.need.all (fun c => d.acked.contains c) then s
    else match d.reply, d.migration with
      | some (port, n), _ => ({ s with shoots := s.shoots.filter (fun x => x.id != id) } : State).tell d.origin port 0 0 (.shootAck n)
      | none, none => { s with shoots := s.shoots.map (fun x => if x.id = id then { x with complete := true } else x) }
      | none, some mid =>
        let s1 : State := { s with shoots := s.shoots.filter (fun x => x.id != id) }
        match s1.migs.find? (fun m => decide (m.id = mid)) with
        | none => s1
        | some m =>
          { s1 with migs := s1.migs.map (fun (x : Migration) => if x.id = mid then { x with stage := 2 } else x) }.send (.scarab (scarabOf m.page)) (.scarab (scarabOf m.frame)) (.endMarker mid)

/-- Every address on a page that moves goes to the new frame: of requests that are held or on their way, of words, copies and sends in progress. -/
def State.forwardPage (s : State) (old new : Nat) : State :=
  let req (r : Req) : Req := if r.onPage old then r.moved old new s.homeOf else r
  let body (b : Body) : Body := match b with
    | .req r => .req (req r)
    | .retry r t => .retry (req r) t
    | .pushMem pa bs c => .pushMem (movePa old new pa) bs c
    | .absmax pa v pk op c va pc dest u => .absmax (movePa old new pa) v pk op c va pc dest u
    | .stream b => .stream { b with src := movePa old new b.src, dst := movePa old new b.dst }
    | b => b
  let dst (m : Msg) : Home := match m.dst, m.body with
    | .scarab _, .req r => if r.onPage old then (r.moved old new s.homeOf).home else m.dst
    | .scarab _, .pushMem pa _ _ | .scarab _, .absmax pa _ _ _ _ _ _ _ _ => s.homeOf (movePa old new pa)
    | .scarab _, .stream b => s.homeOf (movePa old new b.src)
    | d, _ => d
  let msg (m : Msg) : Msg := { m with body := body m.body, dst := dst m }
  let piece (z : Piece) : Piece := { z with spa := movePa old new z.spa, dpa := movePa old new z.dpa }
  let chan (o : ChanOp) : ChanOp := if o.form = 8 ∧ o.resend = false ∧ o.lend = 0 then { o with val := BitVec.ofNat 64 (movePa old new o.val.toNat) } else o
  let ep (e : Endpoint) : Endpoint := { e with waiting := e.waiting.map chan, lending := e.lending.map chan, held := e.held.map chan, refs := e.refs.map chan }
  { s with
    net := s.net.map msg
    held := s.held.map req
    streamsIn := s.streamsIn.map (fun (x : StreamIn) => { x with early := x.early.map msg, frozen := x.frozen.map msg })
    xfers := s.xfers.map (fun (x : Xfer) => { x with send := x.send.map chan })
    procs := s.procs.map (fun (e : Nat × Proc) => (e.1, { e.2 with
      seen := e.2.seen.map (fun x => (movePa old new x.1, x.2)), outs := e.2.outs.map (fun (o : OutOp) => { o with more := o.more.map req }) }))
    cores := s.cores.map (fun (k : Nat × Core) => (k.1, { k.2 with
      copyq := k.2.copyq.map (fun (c : Copy) => { c with active := c.active.map piece }), eps := k.2.eps.map (fun (e : Nat × Endpoint) => (e.1, ep e.2)) })) }
/-- END_MARKER (R70). The new home receives the end marker: it performs the forwarded requests in the order of their arrival and then those that
came under the new translation; the old frame goes to the release ring. -/
def execEndMarker (id : Nat) (s : State) : Host.Outcome State Fault Refusal :=
  .next <| match s.msg id with
  | some ⟨_, _, _, .endMarker mid, _, _⟩ =>
    let s1 := s.take id
    match s1.migs.find? (fun m => decide (m.id = mid)) with
    | none => s1
    | some m =>
      let d := s1.die m.die
      -- the forwarded requests stand before those that came under the new translation
      let s2 : State := { (s1.setDie m.die { d with relTail := (d.relTail + 1) % 8192 }) with
        mem := s1.mem.writeN (paLocal d.relBase + d.relTail * 8) 8 (s1.paOf m.page)
        migs := s1.migs.filter (fun (x : Migration) => x.id != mid)
        held := s1.held.filter (·.onPage m.page) ++ s1.held.filter (fun r => !r.onPage m.page) }
      (s2.forwardPage m.page m.frame).settle
  | _ => s

/-- MIGRATION_COUNT_EXPIRE (R69). A count whose oldest request is older than WINDOW is cleared. -/
def execMigrationCountExpire (page requester : Nat) (s : State) : Host.Outcome State Fault Refusal :=
  .next { s with counts := s.counts.filter (fun c =>
    !(decide (c.page = page ∧ c.requester = requester ∧ (c.times.headD s.dtime) + (s.die (scarabOf page / 32)).migWindow < s.dtime))) }

end Sys2Proof.Machine
end

