-- ==== Sys2Proof/Machine/Context.lean ====
section
/-! DEFINITION. Leaving and entering residency: save areas, the park area, the tile queue's part of a context (spec/17_scheduling.md R269
to R277, spec/12_tile.md R215, spec/04_memory.md R68). -/
namespace Sys2Proof.Machine

/-! ## Save areas (R269) -/

/-- The control registers from those words. -/
def Ctl.ofWords (w : Nat → Word) : Ctl :=
  { trapv := vaMask (w 0), trappc := vaMask (w 1), code := (w 2).setWidth 8, inh := (w 2).getLsbD 8, nest := (w 2).getLsbD 9, trapinfo := w 3,
    ckptv := vaMask (w 4),
    timeout := w 5 &&& 0xFFFFFFFFFF#64, synclim := w 6 &&& 0xFFFFFFFF#64, dbias := w 7, dmult := w 8, dtable := w 9, dabs := w 10, dfmt := w 11 }

/-- The save areas of two processes of a core overlap (R269). -/
def saveOverlap (p q : Proc) : Bool :=
  decide (64 * p.save < 64 * q.save + saveSize q.need ∧ 64 * q.save < 64 * p.save + saveSize p.need)
def State.saveClash (s : State) (pk : Nat) : Bool :=
  s.procs.any (fun e => decide (e.1 ≠ pk ∧ coreOf e.1 = coreOf pk ∧ e.2.state ≠ .free) && e.2.away.isNone && saveOverlap (s.proc pk) e.2)
/-- Registers about which nothing is known (R269). -/
def Regs.free (r : Regs) (n : Nat) : Regs :=
  { r with
    g := Vector.ofFn (fun i => Config.freeReg (n + i.val))
    p := Vector.ofFn (fun i => Config.freeBool (n + i.val))
    v := Vector.ofFn (fun i => Config.freeVec (n + i.val))
    q := Vector.ofFn (fun i => (Config.freeVec (n + 32 + i.val)).setWidth 128)
    sh := Vector.ofFn (fun i => (Config.freeVec (n + 40 + i.val)).setWidth 256)
    ctl := Ctl.ofWords (fun i => Config.freeReg (n + 64 + i)) }
/-- The registers that come back from the save area; those beyond the earlier allotment read zero (R277). -/
def State.readSave (s : State) (pk : Nat) (parked : Bool) : Regs :=
  let p := s.proc pk
  let part := (s.core (coreOf pk)).partition
  let at_ (o n : Nat) : Nat := s.mem.readN (scratchAddr (coreOf pk) (64 * p.save + o)) n
  let ctl := Ctl.ofWords (fun i => BitVec.ofNat 64 (at_ (8 * i) 8))
  let sh : Vector (BitVec 256) (2 ^ 3) := Vector.ofFn (fun i => BitVec.ofNat 256 (at_ (0x160 + 32 * i.val) 32))
  if parked then { p.r with ctl := ctl, sh := sh }
  else { p.r with
    ctl := ctl
    sh := sh
    g := Vector.ofFn (fun i => if i.val < 16 then p.r.g.get i else if i.val < min (savedG part) (savedG p.allot) then BitVec.ofNat 64 (at_ (0x260 + 8 * (i.val - 16)) 8) else 0)
    v := Vector.ofFn (fun i => if p.r.flags &&& fVCLEAN = 0 ∧ i.val < min (savedV part p.need) (vAllot p.allot) then BitVec.ofNat 1024 (at_ (0x400 + 128 * i.val) 128) else 0) }

/-- The saved state of a process that is not resident has changed: it is written out again (R47). -/
def State.synced (s : State) (pk : Nat) : State :=
  let p := s.proc pk
  if (s.core (coreOf pk)).slots.contains (pidOf pk) ∨ p.state = .free ∨ p.away.isSome = true then s
  else if p.state = .parked then s.writeSave pk true
  else (((s.setProc pk { p with desc := p.descriptor none }).writeSave pk false).heal (scratchAddr (coreOf pk) (0xC0000 + 256 * pidOf pk)) 256).relink (coreOf pk)

/-- The value of an operation reaches its process, resident or not. -/
def State.done (s : State) (pk op : Nat) (vs : List (BitVec 1024)) : State := (s.complete pk op vs).synced pk
/-- A trap of an operation reaches its process, resident or not. -/
def State.failed (s : State) (pk op : Nat) (t : Trap) : State := (s.failOp pk op t).synced pk

/-! ## The park area (R276) -/

/-- Slots of a parked entry. -/
def parkLength (partition : Nat) (clean : Bool) : Nat :=
  if partition = 0 then (if clean then 1 else 3) else if partition = 1 then (if clean then 1 else 5) else (if clean then 2 else 10)
/-- Occupied slots. -/
def Core.parkUsed (c : Core) (i : Nat) : Bool := c.parkMap.any (fun e => decide (e.2.1 ≤ i ∧ i < e.2.1 + e.2.2))
/-- The run of free slots that an entry takes: the lowest that is long enough (DESIGN CHOICE, log 105). -/
def Core.parkRun (c : Core) (n : Nat) : Option Nat :=
  (List.range 32).find? (fun i => decide (i + n ≤ 32) && (List.range n).all (fun k => !c.parkUsed (i + k)))
/-- SPILLMAP. -/
def Core.spillMap (c : Core) : Word := BitVec.ofNat 64 ((List.range 32).foldl (fun a i => a + (c.parkUsed i).toNat * 2 ^ i) 0)

/-! ## Switching (R274, R275) -/

/-- Waiting entries take the free places of the tile queue. -/
def Core.fillTileq (c : Core) : Core :=
  let room := 8 - c.tileq.length
  { c with tileq := c.tileq ++ (c.tileWait.take room).map (fun t => { t with entering := false }), tileWait := c.tileWait.drop room }
/-- Processes that are BLOCKED behind an operation look again: it has started, or it has left its place. -/
def State.wakeOn (s : State) (op : Nat) : State :=
  (s.procs.map (·.1)).foldl (fun s pk => if (s.proc pk).state = .blocked ∧ (s.proc pk).on = op then s.wake pk else s) s
/-- Words that waited for a place in the tile queue, before, have one now: their processes go on. -/
def State.placed (s : State) (core : Nat) (before : Core) : State :=
  before.tileWait.foldl (fun s t =>
    if t.entering ∧ s.entering t.pk = false ∧ (s.proc t.pk).state = .blocked ∧ before.tileq.any (fun x => decide (x.op = (s.proc t.pk).on)) = true ∧ core = coreOf t.pk
    then s.wake t.pk else s) s
/-- A process that stays off the slots takes its queued and stopped macro-operations with it, and the places it leaves are taken (R215). -/
def State.pullOps (s : State) (pk : Nat) : State :=
  let c := s.core (coreOf pk)
  let mine (t : TileOp) : Bool := decide (t.pk = pk)
  let ops := (c.tileq ++ c.tileWait).filter mine
  let s1 := (s.setCore (coreOf pk) ({ c with tileq := c.tileq.filter (fun t => !mine t), tileWait := c.tileWait.filter (fun t => !mine t) } : Core).fillTileq).modProc pk
    (fun p => { p with savedOps := ops.map (fun t => { t with running := false }) ++ p.savedOps })
  let s2 := ops.foldl (fun s t => s.unqueue (.top (coreOf pk) t.id)) (s1.placed (coreOf pk) c)
  (s.procs.map (·.1)).foldl (fun s k => if k ≠ pk ∧ (s.proc k).state = .blocked ∧ ops.any (fun t => decide (t.op = (s.proc k).on)) = true then s.wake k else s) s2
/-- They re-enter the queue in their order; those that find it full wait (R215). -/
def State.pushOps (s : State) (pk : Nat) : State :=
  let ops := (s.proc pk).savedOps
  (s.modCore (coreOf pk) (fun c =>
    let room := if c.tileWait.isEmpty then 8 - c.tileq.length else 0
    { c with tileq := c.tileq ++ ops.take room, tileWait := c.tileWait ++ ops.drop room })).modProc pk (fun p => { p with savedOps := [] })

/-! ## Page-fault batches (R305, R306) -/

/-- Dwords 1 to 7 of a batch record (R306). -/
def batchDwords (t : Trap) (pages : List Nat) (pc : Word) : List Word :=
  let field := pages.reverse.foldl (fun n g => n * 2 ^ 40 + g % 2 ^ 40) 0
  [BitVec.ofNat 64 (pages.length * 2 ^ 61 + t.cls * 2 ^ 58 + t.level * 2 ^ 56 + t.info.toNat % 2 ^ 56)] ++
    (List.range 5).map (fun k => BitVec.ofNat 64 (field / 2 ^ (64 * k))) ++ [pc]
/-- The batch is posted and the process is BLOCKED on it (R305 step 6). A guest's goes to its origin core's die. -/
def State.postBatch (s : State) (pk : Nat) (t : Trap) (pages : List Nat) : State :=
  let p := s.proc pk
  let who := s.originWord pk
  let dw := batchDwords t pages p.pc
  let wait (seq : Nat) (s : State) : State := (s.modProc pk (fun p => { p.settled with pend := none, batch := some (seq, t.info) })).block pk 5 (edgeBatch seq)
  if wordModule who = s.modid then
    let d := dieOfCore (coreOf (wordKey who))
    wait (s.die d).seq.toNat (s.post d 2 p.asid who dw)
  else
    -- the number that the other module's die gives the record comes back as the edge of the wait; until then it is not known, and WAIT is free
    let hdr : Word := BitVec.ofNat 64 (2 * 2 ^ 56 + p.asid * 2 ^ 26 + who)
    let s1 := wait 256 ((s.bump 1).tell (wordModule who) (portOf (coreOf pk)) who p.asid (.batch (dieOfCore (coreOf (wordKey who))) (hdr :: dw)))
    s1.modProc pk (fun p => { p with wait := edgeBatch ((Config.freeReg s.fresh).toNat % 256) })
/-- A run ahead of a fault ends, and the process posts its batch (R305). -/
def State.endAhead (s : State) (pk : Nat) : State :=
  match (s.proc pk).ahead with
  | some a => s.postBatch pk a.trap a.pages
  | none => s

/-- A resident process leaves its slot (R274); a run ahead of a fault ends with it (R305). -/
def State.leave (s0 : State) (pk : Nat) : State :=
  let s := (s0.endAhead pk).pullOps pk
  let c := s.core (coreOf pk)
  let p := s.proc pk
  let k := parkLength c.partition (p.r.flags &&& fVCLEAN != 0)
  let c1 := { c with slots := c.slots.filter (fun x => x != pidOf pk) }
  match p.state with
  | .running =>
    match c.parkRun k with
    | some i =>
      ((s.setCore (coreOf pk) { (c1.enqueue p.prio (pidOf pk)) with parkMap := c.parkMap ++ [(pidOf pk, i, k)] }).setProc pk
        { p with state := .parked, since := s.dtime, extents := [] }).writeSave pk true |>.heal (scratchAddr (coreOf pk) (0xB4000 + 512 * i)) (512 * k) |>.relink (coreOf pk)
    | none => ((s.setCore (coreOf pk) (c1.enqueue p.prio (pidOf pk))).setProc pk { p with state := .ready, since := s.dtime, extents := [] }).synced pk
  | _ => ((s.setCore (coreOf pk) c1).setProc pk { p with extents := [] }).synced pk

/-- What a switch reads of a process: ranges of window offsets, the park entry or the descriptor and the save area (R275). -/
def State.switchReads (s : State) (pk : Nat) : List (Nat × Nat) :=
  let p := s.proc pk
  match (s.core (coreOf pk)).parkMap.find? (fun e => e.1 = pidOf pk) with
  | some e => [(0xB4000 + 512 * e.2.1, 512 * e.2.2), (64 * p.save, 0x260)]
  | none => [(0xC0000 + 256 * pidOf pk, 256), (64 * p.save, saveSize p.need)]
/-- The first struck byte that a switch reads, as an address of the core's local view (log 71). -/
def State.switchHurt (s : State) (pk : Nat) : Option Word :=
  (s.switchReads pk).findSome? (fun e =>
    ((List.range e.2).find? (fun i => s.struck.contains (scratchAddr (coreOf pk) (e.1 + i)))).map (fun i => BitVec.ofNat 64 (0xF0000000000000 + e.1 + i)))
/-- A process of the ready queues takes a free slot (R275). An uncorrectable error in what the switch reads ends it (R315). -/
def State.enter (s : State) (pk : Nat) : State :=
  let c := s.core (coreOf pk)
  let p := s.proc pk
  let parked := decide (p.state = .parked)
  let clash := s.saveClash pk
  let r := s.readSave pk parked
  let q := { p with
    r := if clash then r.free s.fresh else r
    state := .running
    issuedRes := 0
    resSince := s.dtime
    wait := 0 }
  let c1 := { (c.dequeue (pidOf pk)) with slots := c.slots ++ [pidOf pk], parkMap := c.parkMap.filter (fun e => e.1 != pidOf pk) }
  let s1 := ((((s.setCore (coreOf pk) c1).setProc pk q).bump (if clash then 128 else 0)).pushOps pk).relink (coreOf pk)
  match s.switchHurt pk with
  | some a => s1.endProcess pk ⟨.ecc, a, 0, 0⟩ p.pc 3
  | none => s1

/-- The process waits, as R272 means it. -/
def Proc.waits (p : Proc) : Bool := decide (p.state = .blocked ∨ p.state = .sleeping)
/-- It stands at an instruction boundary, where alone a victim leaves (R47): it waits, or no word of it is in progress. -/
def Proc.atBoundary (p : Proc) : Bool := p.waits || !p.midWord
/-- CORECTL.HOLD is set, and the process is unprivileged and stands at a boundary: it issues no word before it has left its slot (R279). -/
def State.heldOut (s : State) (pk : Nat) : Bool := (s.core (coreOf pk)).hold && !(s.proc pk).priv && (s.proc pk).atBoundary
/-- A process that may be the head h of R272: it can start on the core (R277), it has no outstanding operation but macro-operations
(R47), and HOLD lets it in (R279). -/
def State.mayEnter (s : State) (pk : Nat) : Bool :=
  let p := s.proc pk
  let c := s.core (coreOf pk)
  decide (p.need ≤ c.partition) && p.outs.all (fun o => decide (o.kind = .tileOp)) && (!c.hold || p.priv)
/-- The head of the highest-priority ready queue (R272). -/
def State.headOf (s : State) (c : Nat) : Option Nat :=
  let q := (s.core c).queues
  ((q.getD 3 []) ++ (q.getD 2 []) ++ (q.getD 1 []) ++ (q.getD 0 [])).find? (fun pid => s.mayEnter (c * 256 + pid))

/-! ## Task records (R280, R281) -/

/-- Fields of dword 0. -/
def recPrio (r : Record) : Nat := fld (r.getD 0 0).toNat 62 2
def recNeed (r : Record) : Nat := fld (r.getD 0 0).toNat 60 2
def recNr (r : Record) : Nat := fld (r.getD 0 0).toNat 57 3
def recAsid (r : Record) : Nat := fld (r.getD 0 0).toNat 50 6
def recEntry (r : Record) : Nat := fld (r.getD 0 0).toNat 2 48 * 4
/-- The declared ranges: mode, base and length in bytes. -/
def recRanges (r : Record) : List (Nat × Nat × Nat) :=
  (List.range (recNr r)).map (fun i =>
    let d := (r.getD (8 - recNr r + i) 0).toNat
    (fld d 62 2, fld d 6 50 * 64, (fld d 56 6 * 64 + fld d 0 6 + 1) * 64))
/-- A record that R280 discards. -/
def recBad (r : Record) : Bool :=
  decide (recNeed r = 3 ∨ 4 < recNr r) || (r.getD 0 0).getLsbD 56 || decide (fld (r.getD 0 0).toNat 0 2 ≠ 0) ||
    (recRanges r).any (fun x => decide (x.1 = 0))
/-- The tiles under the input ranges of an inbox record, and whether one lies on another module, or under a table entry that is not read yet. -/
def State.inputTiles (s : State) (c : Nat) (b : Inbox) : List (Nat × Nat) × Bool :=
  if b.event then ([], false)
  else
    let x : Ctx := ⟨c, recAsid b.record, decide (recPrio b.record = 3), s.modid, b.extents, 0, none, none⟩
    let xs := ((recRanges b.record).filter (fun r => decide (r.1 = 1 ∨ r.1 = 3))).flatMap (fun r =>
      (List.range (r.2.2 / 64)).map (fun i => s.xlateNow x .rd (r.2.1 + 64 * i)))
    let pas := xs.filterMap (fun y => match y with | .ok pa _ => some pa | _ => none)
    ((pas.flatMap (fun pa => if s.isHere pa then touchedTiles (paLocal pa) 64 else [])).dedup,
      pas.any (fun pa => !s.isHere pa && decide (bufOf pa ≠ none)) || xs.contains .miss)
/-- The input test of an inbox slot (R281 point 1); what another module answers comes from outside. -/
def State.inputsHold (s : State) (c : Nat) (b : Inbox) : Bool :=
  let x := s.inputTiles c b
  x.1.all (fun t => decide (s.tag t.1 t.2 = .full ∨ s.tag t.1 t.2 = .lent)) && (!x.2 || Config.freeBool s.fresh)

end Sys2Proof.Machine
end

