-- ==== Sys2Proof/Machine/Flags.lean ====
section
/-! DEFINITION. The flags of integer arithmetic and of compares (spec/08_scalar.md R153, R155, R158, R161, R164); those of rounding
stand with the formats. -/
namespace Sys2Proof.Machine

/-- The nearer end of the signed n-bit range, with SAT when the value lay outside it (R153, R194). -/
def satInt (n : Nat) (x : Int) : Int × Flags :=
  if x > 2 ^ (n - 1) - 1 then (2 ^ (n - 1) - 1, fSAT)
  else if x < -(2 ^ (n - 1)) then (-(2 ^ (n - 1)), fSAT)
  else (x, 0)

/-- Division by zero sets DZ (R155). -/
def dzFlag (b : Word) : Flags := flagIf fDZ (b == 0)

/-- The ten conditions of CMP and CMPI (R158). -/
def condEq (x y : Word) : Bool := x == y
def condNe (x y : Word) : Bool := x != y
def condLt (x y : Word) : Bool := x.slt y
def condLe (x y : Word) : Bool := x.sle y
def condGt (x y : Word) : Bool := y.slt x
def condGe (x y : Word) : Bool := y.sle x
def condLtu (x y : Word) : Bool := x.ult y
def condLeu (x y : Word) : Bool := x.ule y
def condGtu (x y : Word) : Bool := y.ult x
def condGeu (x y : Word) : Bool := y.ule x

/-- The conditions of FCMP and of the float VCMP on codes of a format, with NV (R164, R197). -/
def fcondEq (F : Fmt) (a b : Nat) : Bool × Flags :=
  let x := F.value a
  let y := F.value b
  (!x.isNan && !y.isNan && decide (F.key a = F.key b), flagIf fNV (x.isSignalling || y.isSignalling))
def fcondLt (F : Fmt) (a b : Nat) : Bool × Flags :=
  let n := (F.value a).isNan || (F.value b).isNan
  (!n && decide (F.key a < F.key b), flagIf fNV n)
def fcondLe (F : Fmt) (a b : Nat) : Bool × Flags :=
  let n := (F.value a).isNan || (F.value b).isNan
  (!n && decide (F.key a ≤ F.key b), flagIf fNV n)
def fcondUn (F : Fmt) (a b : Nat) : Bool × Flags :=
  let x := F.value a
  let y := F.value b
  (x.isNan || y.isNan, flagIf fNV (x.isSignalling || y.isSignalling))

end Sys2Proof.Machine
end

