-- ==== Sys2Proof/Machine/Operands.lean ====
section
/-! DEFINITION. The operand forms of spec/03_encoding.md R48: for each payload format what the issue rules need to know of it, and how
its fields give values, addresses, lanes and formats. -/
namespace Sys2Proof.Machine

/-! ## What a word names (R34, R41), reads and writes -/

def infoRRR (o : RRR) (w : Nat) : Issue :=
  { word := w, gu := o.gu, gs := [o.d.toNat, o.a.toNat, o.b.toNat], reads := [(0, o.a.toNat), (0, o.b.toNat)], writes := [(0, o.d.toNat)] }
/-- A form that reads its destination too. -/
def infoRRRD (o : RRR) (w : Nat) : Issue := { infoRRR o w with reads := [(0, o.a.toNat), (0, o.b.toNat), (0, o.d.toNat)] }
def infoRR (o : RR) (w : Nat) : Issue :=
  { word := w, gu := o.gu, gs := [o.d.toNat, o.a.toNat], reads := [(0, o.a.toNat)], writes := [(0, o.d.toNat)] }
def infoRRI (o : RRI) (w : Nat) : Issue :=
  { word := w, gu := o.gu, gs := [o.d.toNat, o.a.toNat], reads := [(0, o.a.toNat)], writes := [(0, o.d.toNat)] }
def infoSHI (o : SHI) (w : Nat) : Issue :=
  { word := w, gu := o.gu, gs := [o.d.toNat, o.a.toNat], reads := [(0, o.a.toNat)], writes := [(0, o.d.toNat)] }
def infoRI (o : RI) (w : Nat) : Issue := { word := w, gu := o.gu, gs := [o.d.toNat], writes := [(0, o.d.toNat)] }
def infoRID (o : RI) (w : Nat) : Issue := { infoRI o w with reads := [(0, o.d.toNat)] }
def infoCP (o : CP) (w : Nat) : Issue :=
  { word := w, gu := o.gu, gs := [o.a.toNat, o.b.toNat], reads := [(0, o.a.toNat), (0, o.b.toNat)] }
def infoCPI (o : CPI) (w : Nat) : Issue := { word := w, gu := o.gu, gs := [o.a.toNat], reads := [(0, o.a.toNat)] }
def infoPL (o : PL) (w : Nat) : Issue := { word := w, gu := o.gu }
/-- The mask-logic use of the same format. -/
def infoPLQ (o : PL) (w : Nat) : Issue :=
  { word := w, gu := o.gu, reads := [(2, o.a.toNat), (2, o.b.toNat)], writes := [(2, o.d.toNat)] }
def infoFP (o : FP) (w : Nat) : Issue :=
  { word := w, gu := o.gu, gs := [o.a.toNat, o.b.toNat], reads := [(0, o.a.toNat), (0, o.b.toNat)] }
def infoFR (o : FR) (w : Nat) : Issue :=
  { word := w, gu := o.gu, gs := [o.d.toNat, o.a.toNat, o.b.toNat], reads := [(0, o.a.toNat), (0, o.b.toNat)], writes := [(0, o.d.toNat)] }
def infoFRD (o : FR) (w : Nat) : Issue := { infoFR o w with reads := [(0, o.a.toNat), (0, o.b.toNat), (0, o.d.toNat)] }
def infoFR1 (o : FR1) (w : Nat) : Issue :=
  { word := w, gu := o.gu, gs := [o.d.toNat, o.a.toNat], reads := [(0, o.a.toNat)], writes := [(0, o.d.toNat)] }
def infoBT (o : BT) (w : Nat) : Issue := { word := w, gu := o.gu }
def infoLD (o : LD) (w : Nat) : Issue :=
  { word := w, gu := o.gu, gs := [o.d.toNat, o.a.toNat], reads := [(0, o.a.toNat)], writes := [(0, o.d.toNat)], long := true }
def infoST (o : ST) (w : Nat) : Issue :=
  { word := w, gu := o.gu, gs := [o.s.toNat, o.a.toNat], reads := [(0, o.s.toNat), (0, o.a.toNat)], ext := true }
def infoTG (o : TG) (w : Nat) : Issue :=
  { word := w, gu := o.gu, gs := [o.a.toNat, o.b.toNat], reads := [(0, o.a.toNat), (0, o.b.toNat)], ext := true }
def infoLA (o : LA) (w : Nat) : Issue :=
  { word := w, gu := o.gu, gs := [o.d.toNat, o.a.toNat], reads := [(0, o.a.toNat)], writes := [(0, o.d.toNat)], long := true, ext := true }
def infoSL (o : SL) (w : Nat) : Issue :=
  { word := w, gu := o.gu, gs := [o.s.toNat, o.a.toNat], reads := [(0, o.s.toNat), (0, o.a.toNat)], ext := true }
def infoVR (o : VR) (w : Nat) : Issue :=
  { word := w, gu := o.gu, vs := [o.vd.toNat, o.va.toNat], reads := [(1, o.va.toNat), (2, o.q.toNat)], writes := [(1, o.vd.toNat)] }
def infoVB (o : VB) (w : Nat) : Issue :=
  { word := w, gu := o.gu, gs := [o.g.toNat], vs := [o.v.toNat], reads := [(0, o.g.toNat)], writes := [(1, o.v.toNat)] }
/-- VEXT and VEXTS read v and write g. -/
def infoVMX (o : VM) (w : Nat) : Issue :=
  { word := w, gu := o.gu, gs := [o.g.toNat], vs := [o.v.toNat], reads := [(1, o.v.toNat)], writes := [(0, o.g.toNat)] }
/-- VINS reads g and v and writes v. -/
def infoVMI (o : VM) (w : Nat) : Issue :=
  { word := w, gu := o.gu, gs := [o.g.toNat], vs := [o.v.toNat], reads := [(0, o.g.toNat), (1, o.v.toNat)], writes := [(1, o.v.toNat)] }
def infoVX (o : VX) (w : Nat) : Issue :=
  { word := w, gu := o.gu, vs := [o.vd.toNat, o.va.toNat, o.vb.toNat],
    reads := [(1, o.va.toNat), (1, o.vb.toNat), (2, o.q.toNat), (1, o.vd.toNat)], writes := [(1, o.vd.toNat)] }
def infoFN (o : FN) (w : Nat) : Issue := { word := w, gu := o.gu, ext := true }
def infoVI (o : VI) (w : Nat) : Issue :=
  { word := w, gu := o.gu, vs := [o.vd.toNat, o.va.toNat, o.vb.toNat],
    reads := [(1, o.va.toNat), (1, o.vb.toNat), (2, o.q.toNat), (1, o.vd.toNat)], writes := [(1, o.vd.toNat)] }
def infoVF (o : VF) (w : Nat) : Issue :=
  { word := w, gu := o.gu, vs := [o.vd.toNat, o.va.toNat, o.vb.toNat],
    reads := [(1, o.va.toNat), (1, o.vb.toNat), (2, o.q.toNat), (1, o.vd.toNat)], writes := [(1, o.vd.toNat)] }
def infoVF1 (o : VF1) (w : Nat) : Issue :=
  { word := w, gu := o.gu, vs := [o.vd.toNat, o.va.toNat], reads := [(1, o.va.toNat), (2, o.q.toNat), (1, o.vd.toNat)], writes := [(1, o.vd.toNat)] }
def infoVC (o : VC) (w : Nat) : Issue :=
  { word := w, gu := o.gu, vs := [o.va.toNat, o.vb.toNat], reads := [(1, o.va.toNat), (1, o.vb.toNat)],
    writes := [(2, o.qT.toNat), (2, o.qF.toNat)] }
def infoVV (o : VV) (w : Nat) : Issue :=
  { word := w, gu := o.gu, vs := [o.vd.toNat, o.va.toNat], reads := [(1, o.va.toNat), (2, o.q.toNat), (1, o.vd.toNat)], writes := [(1, o.vd.toNat)] }
def infoVL (o : VL) (w : Nat) : Issue :=
  { word := w, gu := o.gu, gs := [o.a.toNat], vs := [o.vd.toNat], reads := [(0, o.a.toNat), (2, o.q.toNat)], writes := [(1, o.vd.toNat)], long := true }
def infoVS (o : VS) (w : Nat) : Issue :=
  { word := w, gu := o.gu, gs := [o.a.toNat], vs := [o.vs.toNat], reads := [(0, o.a.toNat), (1, o.vs.toNat), (2, o.q.toNat)], ext := true }
def infoMM (o : MM) (w : Nat) : Issue :=
  { word := w, gu := o.gu, gs := [o.a.toNat, o.b.toNat], reads := [(0, o.a.toNat), (0, o.b.toNat)], long := true, ext := true }
def infoSH (o : SH) (w : Nat) : Issue :=
  { word := w, gu := o.gu, gs := [o.a.toNat], reads := [(0, o.a.toNat)], writes := [(3, o.n.toNat)], long := true, ext := true }
def infoT1 (o : T1) (w : Nat) : Issue :=
  { word := w, gu := o.gu, gs := [o.a.toNat], reads := [(0, o.a.toNat)], long := true, ext := true }
def infoT2 (o : T2) (w : Nat) : Issue :=
  { word := w, gu := o.gu, gs := [o.a.toNat, o.b.toNat], reads := [(0, o.a.toNat), (0, o.b.toNat)], long := true, ext := true }
/-- The COPY group names g(b+1) implicitly (R34). -/
def infoTC (o : TC) (w : Nat) : Issue :=
  { word := w, gu := o.gu, gs := [o.a.toNat, o.b.toNat, o.b.toNat + 1],
    reads := [(0, o.a.toNat), (0, o.b.toNat), (0, o.b.toNat + 1), (3, o.sh.toNat)], long := true, ext := true }
def infoTR (o : TR) (w : Nat) : Issue := { word := w, gu := o.gu }
def infoCRR (o : CR) (w : Nat) : Issue := { word := w, gu := o.gu, gs := [o.r.toNat], writes := [(0, o.r.toNat)] }
def infoCRW (o : CR) (w : Nat) : Issue := { word := w, gu := o.gu, gs := [o.r.toNat], reads := [(0, o.r.toNat)] }
def infoA1 (o : A1) (w : Nat) : Issue := { word := w, gu := o.gu, gs := [o.a.toNat], reads := [(0, o.a.toNat)], ext := true }
def infoD1 (o : D1) (w : Nat) : Issue := { word := w, gu := o.gu, gs := [o.d.toNat], writes := [(0, o.d.toNat)], ext := true }
def infoWH (o : WH) (w : Nat) : Issue := { word := w, gu := o.gu, gs := [o.d.toNat], writes := [(0, o.d.toNat)] }

/-- g(i + 1), where an instruction names the register after one of its fields. -/
def Regs.nextG (r : Regs) (i : BitVec 6) : Word := if i = 63 then 0 else r.getG (i + 1)

/-! ## Effective addresses -/

/-- g[a] + disp * z, modulo 2^64, for a signed displacement field. -/
def eaSigned {n : Nat} (base : Word) (disp : BitVec n) (z : Nat) : Word := base + disp.signExtend 64 * BitVec.ofNat 64 z
/-- The same for an unsigned field. -/
def eaUnsigned {n : Nat} (base : Word) (disp : BitVec n) (z : Nat) : Word := base + disp.setWidth 64 * BitVec.ofNat 64 z

/-! ## Scalar float operands (R160) -/

/-- The format of a fmt field. -/
def fmtOf : FFmt → Fmt
  | .f32 => .fp32
  | .f16 => .fp16
  | .bf16 => .bf16
/-- The code in the low bits of a register; the other bits are ignored. -/
def lowBits (F : Fmt) (x : Word) : Nat := x.toNat % 2 ^ F.bits

/-! ## Vector lanes (R188) -/

/-- Lane size in bits. -/
def sizeBits : LSize → Nat
  | .b8 => 8
  | .b16 => 16
  | .b32 => 32
def vtyBits : VTy → Nat
  | .i8 => 8
  | .i16 | .f16 | .bf16 => 16
  | .i32 | .f32 => 32
def ctyBits : CTy → Nat
  | .i8 | .e4m3 | .e5m2 => 8
  | .i16 | .f16 | .bf16 => 16
  | .i32 | .f32 => 32
/-- Number of lanes of s bits. -/
def laneCount (s : Nat) : Nat := 1024 / s
/-- Lane j of s bits. -/
def getLane (x : VReg) (s j : Nat) : Nat := x.toNat / 2 ^ (s * j) % 2 ^ s
/-- A register from its lanes, lane 0 first. -/
def ofLanes (s : Nat) (xs : List Nat) : VReg := BitVec.ofNat 1024 (xs.foldr (fun x acc => x % 2 ^ s + 2 ^ s * acc) 0)
/-- The lanes of a register. -/
def toLanes (s : Nat) (x : VReg) : List Nat := (List.range (laneCount s)).map (getLane x s)
/-- A lane as a signed number. -/
def signedLane (s x : Nat) : Int := if x < 2 ^ (s - 1) then (x : Int) else (x : Int) - 2 ^ s
/-- The low s bits of a number. -/
def laneOfInt (s : Nat) (i : Int) : Nat := (i % (2 ^ s : Nat)).toNat
/-- A mask from its bits, lane 0 first. -/
def maskOf (bs : List Bool) : Mask := BitVec.ofNat 128 (bs.foldr (fun b acc => (if b then 1 else 0) + 2 * acc) 0)

/-- The lanes of vd after an operation: active lanes take f j, with the flags ORed over them; the others keep their value (R188, R189). -/
def vecMap (s : Nat) (q : Mask) (old : VReg) (f : Nat → Nat × Flags) : VReg × Flags :=
  let r := (List.range (laneCount s)).map (fun j => if q.getLsbD j then f j else (getLane old s j, 0))
  (ofLanes s (r.map (·.1)), r.foldl (fun a x => a ||| x.2) 0)

end Sys2Proof.Machine
end

