-- ==== Sys2Proof/Machine/LoadStore.lean ====
section
/-! DEFINITION. Loads and stores of every kind, the TAG group, atomics, acquire and release, fences and IFENCE (spec/08_scalar.md R168 to
R172, spec/05_tags.md R85 to R96, spec/14_atomics_fences.md R232 to R249, spec/10_vector.md R190 to R192, spec/15_causeway.md R262). -/
namespace Sys2Proof.Machine

/-! ## Accesses that are not complete (R236) -/

/-- A home, where it is known, counts for a scope. -/
def inScope (scope core : Nat) (h : Option Home) : Bool := match h with
  | some h => scopeCovers scope core h
  | none => true
/-- Homes of a piece: its destination, its source; none where it has not been translated. -/
def State.pieceHomes (s : State) (z : Piece) : List (Option Home) :=
  [if z.dpa = 0 then none else some (s.homeOf z.dpa), if z.spa = 0 then none else some (s.homeOf z.spa)]
/-- What engines of this module still do for a process, of a class, at homes in scope (R236), each with its number and its tile or endpoint (R287). It
goes on while the process is elsewhere (R107). A copy counts while it has pieces to send, and so does an access whose homes are not known yet (log 14). -/
def State.engineOpen (s : State) (who scope me bit : Nat) : List (Nat × Word) :=
  let on (h : Option Home) : Bool := inScope scope me h
  let tile (c t : Nat) : Word := s.tileEdge (c, t)
  match bit with
  | 2 => s.cores.flatMap (fun (k : Nat × Core) => (k.2.copyq ++ k.2.copyWait).filterMap (fun x =>
      if x.who = who ∧ x.form < 5 ∧ (x.next < x.total ∨ x.active.any (fun z => (s.pieceHomes z).any on) = true) then
        some (x.id, edgeTile (x.active.head?.map (·.dpa) |>.getD 0)) else none))
  | 3 => s.net.filterMap (fun m => match m.src, m.body with
      | .remote _ _, _ => none
      | _, .absmax pa _ w op _ _ _ _ _ => if w = who ∧ scopeCovers scope me m.dst = true then some (op, edgeTile pa) else none
      | _, _ => none)
  | 4 => (s.borer.filter (fun x => decide (x.who = who) && (decide (2 ≤ scope) || x.word.getLsbD 36))).map (fun x => (x.id, tile x.core x.ctile))
  | 5 => s.xfers.filterMap (fun x =>
      match x.send.filter (fun o => decide (o.who = who)) <|> x.recv.filter (fun o => decide (o.who = who)) with
      | some o => if x.dst = 0 ∨ x.src = 0 ∨ on (some (s.homeOf x.dst)) = true ∨ on (some (s.homeOf x.src)) = true then some (o.op, edgeEndpoint o.handle) else none
      | none => none) ++
      s.cores.flatMap (fun (e : Nat × Core) => e.2.marks.flatMap (fun m =>
        if m.2.holder = who ∧ (on (some (.core e.1)) = true ∨ on (some m.2.lender) = true) then m.2.pulling.map (fun t => (t.2, tile e.1 t.1)) else []))
  | _ => []
/-- The incomplete accesses of a class of a process to homes in scope (R236, R247): its own loads and stores, those of engines here, and what engines
that it left on another module still do. A macro-operation counts at every scope, since it works on its own core's scratchpad. -/
def State.openAccesses (s : State) (pk scope bit : Nat) : List (Nat × Word) :=
  let p := s.proc pk
  let me := coreOf pk
  let k := s.core me
  let on (h : Option Home) : Bool := inScope scope me h
  (match bit with
  | 0 => (p.unacked.filter (fun u => on (some u.home))).map (fun u => (u.op, edgeTile u.pa)) ++
      (p.outs.filter (fun o => decide (o.kind = .load ∨ o.kind = .sync ∨ o.kind = .amo) && on o.home)).map (fun o => (o.id, edgeTile o.va.toNat))
  | 1 => (k.tileq ++ k.tileWait ++ p.savedOps).filterMap (fun t =>
      if t.pk = pk then some (t.id, if t.waits ≠ 0 then t.waits else s.tileEdge (me, 2560 + t.acc)) else none)
  | 3 => (p.unacked.filter (fun u => u.red && on (some u.home))).map (fun u => (u.op, edgeTile u.pa)) ++
      (p.outs.filter (fun o => decide (o.kind = .amo) && on o.home)).map (fun o => (o.id, edgeTile o.va.toNat))
  | _ => []) ++ s.engineOpen (s.originWord pk) scope me bit ++
    -- the homes of what another module does are not known here: it counts at SYS, and where it moves data at PKG too (log 14)
    (if 3 ≤ scope ∨ (2 ≤ scope ∧ (bit = 2 ∨ bit = 4)) then (p.far.filter (fun f => decide (f.1 = bit))).map (fun f => (f.2, edgeTile 0)) else [])
/-- Whether a process has an incomplete access of a class to a home in scope (R236, R247). -/
def State.incomplete (s : State) (pk scope bit : Nat) : Bool := !(s.openAccesses pk scope bit).isEmpty
/-- What a process that travels takes along of the work of engines, under the numbers that it has on this module (R107, R236). -/
def State.leftOpen (s : State) (pk : Nat) : List (Nat × Nat) :=
  let p := s.proc pk
  p.far.map (fun f => (f.1, carryOp s.modid f.2)) ++
    [2, 3, 4, 5].flatMap (fun b => (s.engineOpen (s.originWord pk) 3 (coreOf pk) b).map (fun x => (b, carryOp s.modid x.1)))
/-- Work that an engine did for a process is over: a process that has come here since, or has gone to another module, hears it (R236). -/
def State.farOver (s : State) (who op : Nat) : State :=
  if s.moduleOf who ≠ s.modid then s.tell (s.moduleOf who) 0 who 0 (.farEnd who (carryOp s.modid op) 0)
  else
    let mine (f : Nat × Nat) : Bool := decide (f.2 = op ∨ f.2 = carryOp s.modid op)
    if (s.proc (s.keyOf who)).far.any mine then s.modProc (s.keyOf who) (fun p => { p with far := p.far.filter (fun f => !mine f) }) else s
/-- An access is older than another: what a process has brought from another module is older than all that it has issued here. -/
def olderOp (a b : Nat) : Bool := if 2 ^ 64 ≤ a ∧ 2 ^ 64 ≤ b then decide (a % 2 ^ 64 ≤ b % 2 ^ 64) else if 2 ^ 64 ≤ a then true else if 2 ^ 64 ≤ b then false else decide (a ≤ b)
/-- The wait-for edge of a FENCE: the oldest access that it waits for (R247, R287). -/
def State.fenceEdge (s : State) (pk scope bits : Nat) : Word :=
  let all := (List.range 6).flatMap (fun b => if bits / 2 ^ b % 2 = 1 then s.openAccesses pk scope b else [])
  ((all.find? (fun x => all.all (fun y => olderOp x.1 y.1))).map (·.2)).getD (edgeTile 0)

/-! ## Loads -/

/-- Whether a load goes to the control and MMIO range, so that it has an external effect (R44). -/
def State.toMmio (s : State) (pk : Nat) (ea : Word) : Bool :=
  match s.xlate (s.ctxOf pk) .rd ea.toNat with
  | .ok pa _ => decide (placeOf (paLocal pa) = .mmio)
  | _ => false

/-- The guest core of an address (R263). -/
def guestCoreOf (la : Nat) : Nat :=
  match placeOf la with
  | .scratch c _ => c
  | .hbm => let k := scarabOf la; k / 32 * 384 + (if k % 32 < 16 then k % 32 else 23 * 16 + k % 32 - 16)
  | _ => 0
/-- R262: the load moves the process to the memory instead of fetching the data. -/
def State.travels (s : State) (pk pa : Nat) : Bool :=
  let p := s.proc pk
  !s.isHere pa && decide (placeOf (paLocal pa) ≠ .mmio) && (p.r.flags &&& fVCLEAN != 0) && p.outs.isEmpty && p.savedOps.isEmpty &&
    !((s.core (coreOf pk)).tileq ++ (s.core (coreOf pk)).tileWait).any (fun t => decide (t.pk = pk)) && !p.priv &&
    (s.peers.get Peer.unknown (paModule pa)).guestFree
/-- The streams of a process as they go on after its travel packet to a module (R253, R264). -/
def State.carriedStreams (s : State) (who target : Nat) : List (Nat × Nat × Bool) :=
  let x := s.streamTo who target
  ((s.setStreamOut { x with next := (x.next + 1) % 2 ^ 16 }).streamsOut.filter (fun y => decide (y.who = who))).map (fun y => (y.target, y.next, y.frozen))
/-- SYNCLIM of a remote synchronising wait; 0, no limit, on the home core itself (R85, R86). -/
def State.limitFor (s : State) (pk pa : Nat) : Nat :=
  if s.homeOf pa = .core (coreOf pk) then 0 else (s.proc pk).r.ctl.synclim.toNat % 2 ^ 32

/-- What a load needs beyond its address. -/
structure LoadForm where
  size : Nat
  l : Nat
  dest : Dest
  writes : List RegRef
  /-- The access class of R306. -/
  cls : Nat
  /-- Scope of the acquire, 0 for none. -/
  acquire : Nat
  ldx : Bool := false
  sync : Bool := false
  /-- A VLD never moves its process (R262). -/
  mayTravel : Bool := true
  /-- The vector destination clears VCLEAN (R189). -/
  dirties : Bool := false

/-- A load whose guard is true (R88, R168, R190, R244): its checks, then the request on its way and the window open. -/
def loadBody (f : LoadForm) (check : Bool → Nat → Option Cause) (ea : Word) (pk : Nat) (s : State) : State :=
  if ea.toNat % f.size ≠ 0 then s.raise pk ⟨.misalign, ea, 0, 0⟩
  else s.translated pk .rd f.cls ea.toNat (fun pa u s =>
    let p := s.proc pk
    match check p.priv pa with
    | some c => s.raise pk ⟨c, ea, 0, 0⟩
    | none =>
      let h := s.homeOf pa
      if s.awayWait pk h then s.awayBlock pk h
      else if p.acquires (coreOf pk) h then s
      else
        let op := s.nextId
        let moves := f.mayTravel && s.travels pk pa
        let s1 := { s with nextId := s.nextId + 1 }
        let s2 :=
          if moves then
            let t : Travel := ⟨s.originWord pk, op, wordModule (s.originWord pk), s.modid, p.pc, p.prio, p.need, p.asid, (s.rootOf (s.ctxOf pk)).getD 0, p.wev, p.task,
              p.r, p.unacked.map (fun u => { u with op := carryOp s.modid u.op }), s.leftOpen pk,
              s1.carriedStreams (s.originWord pk) (paModule pa), pa⟩
            s1.sendAway (coreOf pk) (s.originWord pk) (paModule pa) p.asid (s.askey.get 0 p.asid) (.travel t)
          else s1.request pk op (.load pa f.size f.ldx f.sync) ea pa u (if f.ldx || f.sync then s.limitFor pk pa else 0)
        s2.modProc pk (fun p =>
          let q := p.open_ op (if moves then 0 else f.l) false (if f.ldx || f.sync then .sync else .load) f.dest ea f.acquire f.writes (some h)
          if f.dirties then { q with r := { q.r with flags := q.r.flags &&& ~~~ fVCLEAN } } else q))

/-- The plain loads (R168). -/
def plainLoad (w : Nat) (o : LD) (z : Nat) (sgn : Bool) (s : State) : Host.Outcome State Fault Refusal :=
  let ea := eaSigned ((s.proc s.turn).r.getG o.a) o.disp z
  issue { infoLD o w with ext := s.toMmio s.turn ea }
    (loadBody { size := z, l := o.l.toNat, dest := .g o.d z sgn, writes := [(0, o.d.toNat)], cls := 0, acquire := 0 }
      (fun priv pa => loadCheck priv pa z) ea) s
/-- LDX and LDP (R88, R89): acquires at PKG scope, which keep back any later access, whatever its home (R90, R337). -/
def syncLoad (w : Nat) (o : LD) (ldx : Bool) (s : State) : Host.Outcome State Fault Refusal :=
  issue { infoLD o w with ext := true }
    (fun pk s => loadBody { size := 8, l := o.l.toNat, dest := .g o.d 8 false, writes := [(0, o.d.toNat)], cls := 3, acquire := 3, ldx := ldx, sync := true }
      (fun _ pa => syncCheck false pa) (eaSigned ((s.proc pk).r.getG o.a) o.disp 8) pk s) s

/-! ## Stores -/

/-- The homes on the module hold no unacknowledged store of the process (R90, R304). -/
def Proc.clearHere (p : Proc) : Bool := p.unacked.all (fun u => match u.home with | .remote _ => true | _ => false)
/-- No unacknowledged store to a home that a scope covers (R245). -/
def Proc.clearScope (p : Proc) (core scope : Nat) : Bool := p.unacked.all (fun u => !scopeCovers scope core u.home)
/-- Code of a scope: 1 CORE, 2 PKG, 3 SYS (R235). -/
def scopeLevel : Scope → Nat
  | .core => 1
  | .pkg => 2
  | .sys => 3
  | .auto => 2
/-- LDA at AUTO is SYS (R235). -/
def ldaLevel : Scope → Nat
  | .core => 1
  | .pkg => 2
  | .sys | .auto => 3

/-- FP16 lanes stored as E4M3 or E5M2 through windows 4 and 5, one byte each, in mode rm (R58, R191). -/
def narrowLanes (w : Nat) (rm : Rm) (lanes : List Nat) : List Nat × Flags :=
  let F := if w = 4 then Fmt.e4m3 else Fmt.e5m2
  let r := lanes.map (fun x => roundTo F rm (Fmt.fp16.value x))
  (r.map (·.1), r.foldl (fun a x => a ||| x.2) 0)
/-- The writes of a store of n bytes x at a local address, with the conversions of R58 and their flags. -/
def storeForm (la n x : Nat) : List (Nat × Byte × Byte) × Flags :=
  match placeOf la with
  | .scratch c off =>
    let w := windowOf off
    let o := inWindow off
    if w = 4 ∨ w = 5 then
      let r := narrowLanes w .rne ((List.range (n / 2)).map (fun i => x / 2 ^ (16 * i) % 2 ^ 16))
      let b := (bufAt o).base
      ((r.1.zipIdx).map (fun e => (scratchAddr c (b + (o - b) / 2 + e.2), BitVec.allOnes 8, BitVec.ofNat 8 e.1)), r.2)
    else (storeWrites la n x, 0)
  | _ => (storeWrites la n x, 0)

/-- A seventeenth store waits until the store that was the oldest when it came is acknowledged (R170). -/
def Proc.storesFull (p : Proc) : Bool :=
  decide (16 ≤ p.unacked.length) || (match p.fifth with | some i => p.unacked.any (fun u => decide (u.op = i)) | none => false)
/-- It remembers that store. -/
def Proc.awaitStore (p : Proc) : Proc := if p.fifth.isSome then p else { p with fifth := (p.unacked.head?).map (·.op) }
/-- A store that has passed its checks leaves the core (R169, R170): at most 16 unacknowledged. -/
def storeSend (pk : Nat) (ea : Word) (pa n : Nat) (u : Under) (ws : List (Nat × Byte × Byte)) (fl : Flags) (stl : Bool) (s : State) : State :=
  let p := s.proc pk
  let h := s.homeOf pa
  if s.awayWait pk h then s.awayBlock pk h
  else if p.acquires (coreOf pk) h then s
  else if p.storesFull then s.setProc pk p.awaitStore
  else
    let op := s.nextId
    let s1 := ({ s with nextId := s.nextId + 1 } : State).request pk op (.store pa n ws false stl) ea pa u 0
    s1.modProc pk (fun p => { (p.pass.sent op h false pa) with r := p.r.orFlags fl })

/-- A plain store whose guard is true (R169). -/
def storeBody (ea : Word) (z x : Nat) (pk : Nat) (s : State) : State :=
  if ea.toNat % z ≠ 0 then s.raise pk ⟨.misalign, ea, 0, 0⟩
  else s.translated pk .wr 1 ea.toNat (fun pa u s =>
    match storeCheck false pa z with
    | some c => s.raise pk ⟨c, ea, 0, 0⟩
    | none => let f := storeForm (paLocal pa) z x; storeSend pk ea pa z u f.1 f.2 false s)
/-- The plain stores. -/
def plainStore (w : Nat) (o : ST) (z : Nat) (s : State) : Host.Outcome State Fault Refusal :=
  issue (infoST o w) (fun pk s =>
    let r := (s.proc pk).r
    storeBody (eaSigned (r.getG o.a) o.disp z) z ((r.getG o.s).toNat % 2 ^ (8 * z)) pk s) s

/-! ## Plain loads (R168) -/

/-- LDB (R168). Loads a sign-extended byte. -/
def execLdb (o : LD) (s : State) : Host.Outcome State Fault Refusal :=
  plainLoad (packLD 0x13 o) o 1 true s

/-- LDH (R168). Loads a sign-extended half-word. -/
def execLdh (o : LD) (s : State) : Host.Outcome State Fault Refusal :=
  plainLoad (packLD 0x14 o) o 2 true s

/-- LDW (R168). Loads a sign-extended word. -/
def execLdw (o : LD) (s : State) : Host.Outcome State Fault Refusal :=
  plainLoad (packLD 0x15 o) o 4 true s

/-- LDD (R168). Loads a dword. -/
def execLdd (o : LD) (s : State) : Host.Outcome State Fault Refusal :=
  plainLoad (packLD 0x16 o) o 8 false s

/-- LDBU (R168). Loads a zero-extended byte. -/
def execLdbu (o : LD) (s : State) : Host.Outcome State Fault Refusal :=
  plainLoad (packLD 0x17 o) o 1 false s

/-- LDHU (R168). Loads a zero-extended half-word. -/
def execLdhu (o : LD) (s : State) : Host.Outcome State Fault Refusal :=
  plainLoad (packLD 0x18 o) o 2 false s

/-- LDWU (R168). Loads a zero-extended word. -/
def execLdwu (o : LD) (s : State) : Host.Outcome State Fault Refusal :=
  plainLoad (packLD 0x19 o) o 4 false s

/-! ## Plain stores (R169) -/

/-- STB (R169). Sends a byte store to its home. -/
def execStb (o : ST) (s : State) : Host.Outcome State Fault Refusal :=
  plainStore (packST 0x1A o) o 1 s

/-- STH (R169). Sends a half-word store to its home. -/
def execSth (o : ST) (s : State) : Host.Outcome State Fault Refusal :=
  plainStore (packST 0x1B o) o 2 s

/-- STW (R169). Sends a word store to its home. -/
def execStw (o : ST) (s : State) : Host.Outcome State Fault Refusal :=
  plainStore (packST 0x1C o) o 4 s

/-- STD (R169). Sends a dword store to its home. -/
def execStd (o : ST) (s : State) : Host.Outcome State Fault Refusal :=
  plainStore (packST 0x1D o) o 8 s

/-! ## Synchronising loads and stores (R88 to R90) -/

/-- LDX (R89). Synchronising load that waits for FULL, reads and empties the tile. -/
def execLdx (o : LD) (s : State) : Host.Outcome State Fault Refusal :=
  syncLoad (packLD 0x1E o) o true s

/-- LDP (R89). Synchronising load that waits for FULL or LENT and leaves the tag. -/
def execLdp (o : LD) (s : State) : Host.Outcome State Fault Refusal :=
  syncLoad (packLD 0x1F o) o false s

/-- STX (R89). Synchronising store that waits for EMPTY, writes 8 bytes and makes the tile FULL. -/
def execStx (o : ST) (s : State) : Host.Outcome State Fault Refusal :=
  issue (infoST o (packST 0x20 o)) (fun pk s =>
    let r := (s.proc pk).r
    let ea := eaSigned (r.getG o.a) o.disp 8
    if ea.toNat % 8 ≠ 0 then s.raise pk ⟨.misalign, ea, 0, 0⟩
    else s.translated pk .wr 3 ea.toNat (fun pa u s =>
      match syncCheck true pa with
      | some c => s.raise pk ⟨c, ea, 0, 0⟩
      | none =>
        let p := s.proc pk
        let h := s.homeOf pa
        if s.awayWait pk h then s.awayBlock pk h
        else if p.acquires (coreOf pk) h || !p.clearHere then s
        else
          let op := s.nextId
          let s1 := ({ s with nextId := s.nextId + 1 } : State).request pk op
            (.store pa 8 (storeWrites (paLocal pa) 8 (r.getG o.s).toNat) true false) ea pa u (s.limitFor pk pa)
          s1.modProc pk (fun p => p.open_ op 0 false .sync .none ea 0 [] (some h)))) s

/-! ## The TAG group (R94 to R96) -/

/-- R94: the tiles of a range, its checks in their order; the first tile's core and number, or the cause. -/
def tagRange (f n pa : Nat) : Except Cause (Nat × Nat) :=
  if offWindow0 pa then .error .misalign
  else match placeOf (paLocal pa) with
    | .scratch c off =>
      let o := inWindow off
      let b := bufAt o
      match tileAt o with
      | none => .error .prot
      | some t =>
        if b.firstTile + b.size / b.tile < t + n then .error .prot
        else if b = .acc ∧ f ≠ 2 ∧ f ≠ 3 ∧ f ≠ 4 then .error .prot
        else if f = 5 ∧ 64 < n then .error .prot
        else .ok (c, t)
    | _ => .error .prot

/-- The requests of a TAG instruction on a range, in tile order (R94). TQRY asks another module once for the whole range. -/
def State.tagReqs (s : State) (f n : Nat) (ea : Word) (pa : Nat) (u : Under) (c t op pk : Nat) : List Req :=
  let p := s.proc pk
  let limit := if f = 3 ∨ f = 4 then s.limitFor pk pa else 0
  let one (rop : ROp) : Req := ⟨0, .core (coreOf pk), s.originWord pk, op, s.homeOf pa, rop, ea, u, false, false, none, p.pc, limit, false, false⟩
  if f = 2 ∧ s.isHere pa = false then [one (.tag 2 c t n)] else (List.range n).map (fun i => one (.tag f c (t + i) 1))
/-- A TAG instruction on a range of at least one tile: the request of its first tile leaves, and each later one leaves when the one before it
is answered (R94, R95). -/
def tagSend (f n l : Nat) (ea : Word) (pa : Nat) (u : Under) (c t : Nat) (dest : Dest) (writes : List RegRef) (pk : Nat) (s : State) : State :=
  let p := s.proc pk
  let h := s.homeOf pa
  let me := coreOf pk
  if s.awayWait pk h then s.awayBlock pk h
  else if p.acquires me h || s.busyTo (.core me) (s.originWord pk) h then s
  else
    let op := s.nextId
    match s.tagReqs f n ea pa u c t op pk with
    | [] => s
    | r :: rest =>
      -- the process first, so that a request that waits at once finds its operation
      (({ s with nextId := op + 1 } : State).modProc pk (fun p => p.open_ op l false .sync dest ea 0 writes (some h) rest)).sendPart pk r

/-- TEMPTY, TFULL, TWAITF, TWAITE, WATCH and UNWATCH. -/
def tagWord (w : Nat) (o : TG) (f : Nat) (s : State) : Host.Outcome State Fault Refusal :=
  issue (infoTG o w) (fun pk s =>
    let p := s.proc pk
    let n := (p.r.getG o.b).toNat
    let ea := p.r.getG o.a
    if n = 0 then s.setProc pk p.pass
    else s.translated pk (if f = 0 ∨ f = 1 ∨ f = 5 then .wr else .rd) 3 ea.toNat (fun pa u s =>
      match tagRange f n pa with
      | .error c => s.raise pk ⟨c, ea, 0, 0⟩
      | .ok (c, t) => tagSend f n 0 ea pa u c t .none [] pk s)) s

/-- TEMPTY (R95). Applies the TEMPTY row to each tile of a range. -/
def execTempty (o : TG) (s : State) : Host.Outcome State Fault Refusal :=
  tagWord (packTG 0x21 0 o) o 0 s

/-- TFULL (R95). Applies the TFULL row to each tile of a range. -/
def execTfull (o : TG) (s : State) : Host.Outcome State Fault Refusal :=
  tagWord (packTG 0x21 1 o) o 1 s

/-- TWAITF (R95). Waits until every tile of a range is FULL or LENT. -/
def execTwaitf (o : TG) (s : State) : Host.Outcome State Fault Refusal :=
  tagWord (packTG 0x21 3 o) o 3 s

/-- TWAITE (R95). Waits until every tile of a range is EMPTY. -/
def execTwaite (o : TG) (s : State) : Host.Outcome State Fault Refusal :=
  tagWord (packTG 0x21 4 o) o 4 s

/-- WATCH (R95). Registers the process as watch holder of each tile. -/
def execWatch (o : TG) (s : State) : Host.Outcome State Fault Refusal :=
  tagWord (packTG 0x21 5 o) o 5 s

/-- UNWATCH (R95). Removes the process's watches on a range. -/
def execUnwatch (o : TG) (s : State) : Host.Outcome State Fault Refusal :=
  tagWord (packTG 0x21 6 o) o 6 s

/-- TQRY (R95). Snapshots up to 16 tile states and watch bits into gd. -/
def execTqry (o : RRR) (s : State) : Host.Outcome State Fault Refusal :=
  issue { infoRRR o (packRRR 0x21 2 o) with ext := true } (fun pk s =>
    let p := s.proc pk
    let n := (p.r.getG o.b).toNat
    let ea := p.r.getG o.a
    if n = 0 then s.modProc pk (fun p => p.retire [(0, o.d.toNat)] (p.r.setG o.d 0) (p.pc + 4) false)
    else s.translated pk .rd 3 ea.toNat (fun pa u s =>
      match tagRange 2 n pa with
      | .error c => s.raise pk ⟨c, ea, 0, 0⟩
      | .ok (c, t) => tagSend 2 (min n 16) 0 ea pa u c t (.g o.d 8 false) [(0, o.d.toNat)] pk s)) s

/-- WAITW (R95). Waits for the watch event and clears it. -/
def execWaitw (o : Guard) (s : State) : Host.Outcome State Fault Refusal :=
  issue { word := packG0 0x21 7 o, gu := o, ext := true } (fun pk s =>
    let p := s.proc pk
    if p.wev then s.setProc pk { p.pass with wev := false }
    else
      let mine := (s.core (coreOf pk)).watches.find? (fun e => decide (e.2 = s.originWord pk))
      s.block pk 1 (match mine with | some e => s.tileEdge (coreOf pk, e.1) | none => edgeTile 0)) s

/-! ## Acquire and release (R244, R245) -/

/-- LDA (R244). Acquire load holding later accesses in scope until it completes. -/
def execLda (o : LA) (s : State) : Host.Outcome State Fault Refusal :=
  issue (infoLA o (packLA 0x22 o)) (fun pk s =>
    loadBody { size := 8, l := o.l.toNat, dest := .g o.d 8 false, writes := [(0, o.d.toNat)], cls := 6, acquire := ldaLevel o.scope }
      (fun priv pa => ldaCheck priv pa) (eaUnsigned ((s.proc pk).r.getG o.a) o.disp 8) pk s) s

/-- STL (R245). Release store sent after earlier accesses in scope complete. -/
def execStl (o : SL) (s : State) : Host.Outcome State Fault Refusal :=
  issue (infoSL o (packSL 0x23 o)) (fun pk s =>
    let r := (s.proc pk).r
    let ea := eaUnsigned (r.getG o.a) o.disp 8
    if ea.toNat % 8 ≠ 0 then s.raise pk ⟨.misalign, ea, 0, 0⟩
    else s.translated pk .wr 6 ea.toNat (fun pa u s =>
      match stlCheck pa with
      | some c => s.raise pk ⟨c, ea, 0, 0⟩
      | none =>
        if !(s.proc pk).clearScope (coreOf pk) (scopeLevel o.scope) then s
        else storeSend pk ea pa 8 u (storeWrites (paLocal pa) 8 (r.getG o.s).toNat) 0 (decide (o.scope = .auto)) s)) s

/-! ## Atomics (R237 to R243) -/

/-- An AMO (R238, R239). A returning one completes before the next word issues; a no-return reduction leaves as a store does. -/
def amoWord (w : Nat) (o : RRR) (f : Nat) (s : State) : Host.Outcome State Fault Refusal :=
  let base := infoRRR o w
  let w1 : Issue := if f = 9 then { base with gs := base.gs ++ [o.b.toNat + 1], reads := base.reads ++ [(0, o.b.toNat + 1)] } else base
  issue { w1 with ext := true } (fun pk s =>
    let r := (s.proc pk).r
    let ea := r.getG o.a
    if ea.toNat % 8 ≠ 0 then s.raise pk ⟨.misalign, ea, 0, 0⟩
    else s.translated pk .rw 4 ea.toNat (fun pa u s =>
      match amoCheck f pa with
      | some c => s.raise pk ⟨c, ea, 0, 0⟩
      | none =>
        let p := s.proc pk
        let h := s.homeOf pa
        let noReturn := decide (o.d = 0 ∧ f < 8)
        let me := coreOf pk
        let m := paModule pa
        if s.awayWait pk h then s.awayBlock pk h
        else if p.acquires me h then s
        else if noReturn && p.storesFull then s.setProc pk p.awaitStore
        else if !s.isHere pa && decide (64 ≤ ((s.core me).amoOut.filter (fun x => decide (x.1 = m))).length) then s
        else
          let op := s.nextId
          let s0 : State := { s with nextId := s.nextId + 1 }
          let s1 := s0.request pk op (.amo pa f (r.getG o.b) (r.nextG o.b) (!noReturn)) ea pa u 0
          let s2 := if s.isHere pa then s1
            else s1.modCore me (fun k => { k with
              amoSeq := k.amoSeq.set m ((k.amoSeq.get 0 m + 1) % 2 ^ 16)
              amoOut := k.amoOut ++ [(m, op, k.amoSeq.get 0 m)] })
          s2.modProc pk (fun p => if noReturn then p.pass.sent op h true pa else p.open_ op 0 false .amo (.g o.d 8 false) ea 0 [(0, o.d.toNat)] (some h)))) s

/-- AMOADD (R238). Atomic add at the home. -/
def execAmoadd (o : RRR) (s : State) : Host.Outcome State Fault Refusal :=
  amoWord (packRRR 0x24 0 o) o 0 s

/-- AMOSMIN (R238). Atomic signed minimum at the home. -/
def execAmosmin (o : RRR) (s : State) : Host.Outcome State Fault Refusal :=
  amoWord (packRRR 0x24 1 o) o 1 s

/-- AMOSMAX (R238). Atomic signed maximum at the home. -/
def execAmosmax (o : RRR) (s : State) : Host.Outcome State Fault Refusal :=
  amoWord (packRRR 0x24 2 o) o 2 s

/-- AMOUMIN (R238). Atomic unsigned minimum at the home. -/
def execAmoumin (o : RRR) (s : State) : Host.Outcome State Fault Refusal :=
  amoWord (packRRR 0x24 3 o) o 3 s

/-- AMOUMAX (R238). Atomic unsigned maximum at the home. -/
def execAmoumax (o : RRR) (s : State) : Host.Outcome State Fault Refusal :=
  amoWord (packRRR 0x24 4 o) o 4 s

/-- AMOAND (R238). Atomic AND at the home. -/
def execAmoand (o : RRR) (s : State) : Host.Outcome State Fault Refusal :=
  amoWord (packRRR 0x24 5 o) o 5 s

/-- AMOOR (R238). Atomic OR at the home. -/
def execAmoor (o : RRR) (s : State) : Host.Outcome State Fault Refusal :=
  amoWord (packRRR 0x24 6 o) o 6 s

/-- AMOXOR (R238). Atomic XOR at the home. -/
def execAmoxor (o : RRR) (s : State) : Host.Outcome State Fault Refusal :=
  amoWord (packRRR 0x24 7 o) o 7 s

/-- AMOSWAP (R238). Atomic swap at the home. -/
def execAmoswap (o : RRR) (s : State) : Host.Outcome State Fault Refusal :=
  amoWord (packRRR 0x24 8 o) o 8 s

/-- AMOCAS (R238). Atomic compare-and-swap against g(b+1). -/
def execAmocas (o : RRR) (s : State) : Host.Outcome State Fault Refusal :=
  amoWord (packRRR 0x24 9 o) o 9 s

/-! ## Fences (R247, R249) -/

/-- FENCE (R247). Waits until earlier accesses of the before-mask classes in scope are complete: BLOCKED meanwhile. -/
def execFence (o : FN) (s : State) : Host.Outcome State Fault Refusal :=
  issue (infoFN o (packFN 0x29 o)) (fun pk s =>
    let scope := scopeLevel o.scope
    let open_ := (List.range 6).filter (fun b => o.before.getLsbD b && s.incomplete pk scope b)
    if open_.isEmpty then s.setProc pk (s.proc pk).pass
    else
      let bits := open_.foldl (fun n b => n + 2 ^ b) 0
      s.block pk 8 (s.fenceEdge pk scope bits) (bits + 2 ^ 6 * scope)) s

/-- A process that is BLOCKED in a FENCE looks again once a class that it waits for has nothing incomplete. -/
def State.wakeFences (s : State) : State :=
  (s.procs.map (·.1)).foldl (fun s pk =>
    let p := s.proc pk
    if p.state = .blocked ∧ p.why = 8 ∧ (List.range 6).any (fun b => decide (p.on / 2 ^ b % 2 = 1) && !s.incomplete pk (p.on / 2 ^ 6) b) = true then s.wake pk else s) s

/-- IFENCE (R249). Waits for acknowledgements and discards held instruction words. -/
def execIfence (o : Guard) (s : State) : Host.Outcome State Fault Refusal :=
  issue { word := packG0 0x3E 11 o, gu := o, ext := true } (fun pk s =>
    if !(s.proc pk).unacked.isEmpty then s
    else (s.modCore (coreOf pk) (fun c => { c with ibuf := [] })).modProc pk Proc.pass) s

/-! ## Vector loads and stores (R190 to R192) -/

/-- The bytes of vd that a VLD at an address writes (R191). -/
def vldBytes (pa : Nat) (q : Mask) : BitVec 128 :=
  match placeOf (paLocal pa) with
  | .scratch _ off =>
    let w := windowOf off
    if w = 0 ∨ w = 7 then q else BitVec.ofNat 128 ((List.range 128).foldr (fun i a => (if q.getLsbD (i / 2) then 1 else 0) + 2 * a) 0)
  | _ => q
/-- The writes of a VST and the flags of its conversions (R58, R191). -/
def vstForm (la : Nat) (x : VReg) (q : Mask) (rm : Rm) : List (Nat × Byte × Byte) × Flags :=
  let plain := (storeWrites la 128 x.toNat)
  match placeOf la with
  | .scratch c off =>
    let w := windowOf off
    let o := inWindow off
    let b := (bufAt o).base
    let lanes := toLanes 16 x
    if w = 0 then (plain.zipIdx.filterMap (fun e => if q.getLsbD e.2 then some e.1 else none), 0)
    else if w = 7 then (plain.zipIdx.filterMap (fun e => if q.getLsbD (e.2 / 8) then some e.1 else none), 0)
    else if w = 4 ∨ w = 5 then
      let on := (lanes.zipIdx).filter (fun e => q.getLsbD e.2)
      let r := narrowLanes w rm (on.map (·.1))
      ((r.1.zip (on.map (·.2))).map (fun e => (scratchAddr c (b + (o - b) / 2 + e.2), BitVec.allOnes 8, BitVec.ofNat 8 e.1)), r.2)
    else
      let k : Blk := if w = 1 then .e2m1 else if w = 2 then .e3m2 else if w = 3 then .e2m3 else .int4
      let vals := (lanes.zipIdx).map (fun e => if q.getLsbD e.2 then Fmt.fp16.value e.1 else .fin false 0 0 false)
      let u := (winUnit w).1
      let one := k.encode .fp16 rm (vals.take 32)
      let two := k.encode .fp16 rm (vals.drop 32)
      let start := scratchAddr c (b + (o - b) / 64 * u)
      ((leBytes u one.1 ++ leBytes u two.1).zipIdx.map (fun e => (start + e.2, BitVec.allOnes 8, e.1)), one.2 ||| two.2)
  | _ => (plain.zipIdx.filterMap (fun e => if q.getLsbD e.2 then some e.1 else none), 0)

/-- VLD (R192). Loads 128 window bytes in one access at the home. -/
def execVld (o : VL) (s : State) : Host.Outcome State Fault Refusal :=
  let ea := eaSigned ((s.proc s.turn).r.getG o.a) o.disp 128
  issue { infoVL o (packVL 0x38 o) with ext := s.toMmio s.turn ea } (fun pk s =>
    let q := (s.proc pk).r.getQ o.q
    let bytes := match s.xlate (s.ctxOf pk) .rd ea.toNat with | .ok pa _ => vldBytes pa q | _ => q
    loadBody { size := 128, l := o.l.toNat, dest := .v o.vd bytes, writes := [(1, o.vd.toNat)], cls := 5, acquire := 0, mayTravel := false, dirties := true }
      (fun priv pa => loadCheck priv pa 128) ea pk s) s

/-- VST (R192). Stores 128 window bytes, encoding through windows 1–6, in one access. -/
def execVst (o : VS) (s : State) : Host.Outcome State Fault Refusal :=
  issue (infoVS o (packVS 0x39 o)) (fun pk s =>
    let r := (s.proc pk).r
    let ea := eaSigned (r.getG o.a) o.disp 128
    if ea.toNat % 128 ≠ 0 then s.raise pk ⟨.misalign, ea, 0, 0⟩
    else s.translated pk .wr 5 ea.toNat (fun pa u s =>
      match storeCheck true pa 128 with
      | some c => s.raise pk ⟨c, ea, 0, 0⟩
      | none =>
        let f := vstForm (paLocal pa) (r.getV o.vs) (r.getQ o.q) o.rm
        storeSend pk ea pa 128 u f.1 f.2 false s)) s

end Sys2Proof.Machine
end

