-- ==== Sys2Proof/Machine/Renew.lean ====
section
/-! DEFINITION. Requests that wait on a tag and that a shoot-down has deprived of their translation: they are translated again before they are
performed, as a piece of a copy is and the operand of a channel operation (spec/04_memory.md R67, spec/19_faults.md R309; DEDUCED, log 104). -/
namespace Sys2Proof.Machine

/-- How an instruction translates the address of its request, and the access class of R306; acq marks a load-acquire. -/
def Req.asks (r : Req) (acq : Bool) : Access × Nat :=
  match r.rop with
  | .load _ n ldx sync => (.rd, if ldx || sync then 3 else if n = 128 then 5 else if acq then 6 else 0)
  | .amo .. => (.rw, 4)
  | .tag f _ _ _ => (if f = 0 ∨ f = 1 ∨ f = 5 then .wr else .rd, 3)
  | _ => (.wr, 3)
/-- What the request does once the address of its instruction lies at new where it lay at old, or the CAUSE of the checks there. -/
def Req.renewed (r : Req) (acq priv : Bool) (old new : Nat) : Except Cause ROp :=
  let la (a : Nat) : Nat := a + paLocal new - paLocal old
  let mv (pa : Nat) : Nat := paModule new * 2 ^ 45 + la (paLocal pa)
  let checked (c : Option Cause) (x : ROp) : Except Cause ROp := match c with | some c => .error c | none => .ok x
  match r.rop with
  | .load pa n ldx sync =>
    checked (if ldx || sync then syncCheck false (mv pa) else if acq then ldaCheck priv (mv pa) else loadCheck priv (mv pa) n) (.load (mv pa) n ldx sync)
  | .store pa n ws stx stl => checked (syncCheck true (mv pa)) (.store (mv pa) n (ws.map (fun w => (la w.1, w.2))) stx stl)
  | .amo pa f v e ret => checked (amoCheck f (mv pa)) (.amo (mv pa) f v e ret)
  | .tag f c t n => match tagRange f 1 (mv (tileAddr c t)) with
    | .ok x => .ok (.tag f x.1 x.2 n)
    | .error c => .error c
  | x => .ok x

/-- A held request that has lost its translation is translated again: it goes on waiting where it is, or goes to its new home, or its instruction
traps; while its walk is still to come it waits. -/
def State.renew (s : State) (r : Req) : State :=
  let pk := s.keyOf r.who
  let p := s.proc pk
  let out : State := { s with held := s.held.filter (fun h => h.id != r.id) }
  match p.outs.find? (fun o => decide (o.id = r.op)) with
  | none => out
  | some o =>
    let acq := decide (o.kind = .load ∧ o.acquire ≠ 0)
    let x : Ctx := { s.ctxOf pk with by_ := none, walked := none }
    match s.xlateNow x (r.asks acq).1 r.va.toNat with
    | .miss => s.queueWalk x r.va.toNat
    | .fail c l => (out.dropWalk x r.va.toNat).failed pk r.op (xlateTrap c l (r.asks acq).2 r.va.toNat)
    | .ok new u =>
      let old := r.under.page + (r.va.toNat - r.under.va)
      match r.renewed acq p.priv old new with
      | .error c => out.failed pk r.op ⟨c, r.va, 0, 0⟩
      | .ok rop =>
        let r1 := { r with rop := rop, under := u, stale := false, home := s.homeOf new }
        if s.isHere new = true ∧ r1.home = r.home then ({ s with held := s.held.map (fun (h : Req) => if h.id = r.id then r1 else h) } : State).settle
        else
          let m := paModule new
          let s1 := out.modProc pk (fun p => { p with outs := p.outs.map (fun (y : OutOp) => if y.id = r.op then { y with home := some r1.home } else y) })
          let s2 := s1.sendPart pk { r1 with noticed := false, asked := false, arrived := none, released := false }
          -- at another module an AMO takes a number of its core there (R243)
          match rop with
          | .amo .. => if s.isHere new then s2 else s2.modCore (coreOf pk) (fun k => { k with
              amoSeq := k.amoSeq.set m ((k.amoSeq.get 0 m + 1) % 2 ^ 16)
              amoOut := k.amoOut ++ [(m, r.op, k.amoSeq.get 0 m)] })
          | _ => s2
/-- After every move: the held requests of this module's processes that have lost their translation. -/
def State.renewHeld (s : State) : State :=
  (s.held.filter (fun r => r.stale && decide (s.moduleOf r.who = s.modid))).foldl State.renew s

end Sys2Proof.Machine
end

