-- ==== Sys2Proof/Machine/System.lean ====
section
/-! DEFINITION. Control registers and the system instructions (spec/03_encoding.md R36, R37, spec/19_faults.md R298 to R313), with the
writes of core and die registers that the rows of spec/opcode_table.json name. -/
namespace Sys2Proof.Machine

/-! ## Reading control registers (R304) -/

/-- RQ0 to RQ3 (R270). -/
def rqWord (q : List Nat) : Word :=
  BitVec.ofNat 64 (q.length % 256 * 2 ^ 16 + (q.getLast?.getD 0) * 2 ^ 8 + q.headD 0)
/-- INBOX (R281). -/
def State.inboxWord (s : State) (c : Nat) : Word :=
  BitVec.ofNat 64 ((s.core c).inbox.foldl (fun a e => a + 2 ^ e.1 + (if s.inputsHold c e.2 then 2 ^ (8 + e.1) else 0)) 0)
/-- Core registers. -/
def State.readCore (s : State) (c n : Nat) : Word :=
  let k := s.core c
  match n with
  | 0x040 => BitVec.ofNat 64 (k.taskCount * 2 ^ 11 + k.taskFirst)
  | 0x041 => k.spillMap
  | 0x042 => rqWord (k.queues.getD 0 [])
  | 0x043 => rqWord (k.queues.getD 1 [])
  | 0x044 => rqWord (k.queues.getD 2 [])
  | 0x045 => rqWord (k.queues.getD 3 [])
  | 0x046 => s.inboxWord c
  | 0x047 => BitVec.ofNat 64 k.hold.toNat
  | 0x048 => BitVec.ofNat 64 (k.gsEn.toNat * 2 ^ 11 + k.gsFirst)
  | _ => 0
/-- The region-table entry that RGNIDX names. -/
def State.region (s : State) (i : Nat) : Region := s.regions.get ⟨0, 0, 0⟩ i
/-- Die registers. -/
def State.readDie (s : State) (d n : Nat) : Word :=
  let v := s.die d
  match n with
  | 0x100 => BitVec.ofNat 64 (v.evDrop * 2 ^ 32 + v.queue.length % 256 * 2 ^ 16 + v.evAsid * 2 + v.evEn.toNat)
  | 0x110 => BitVec.ofNat 64 v.dlWait
  | 0x111 => BitVec.ofNat 64 v.tadmit
  | 0x120 => BitVec.ofNat 64 (v.migWindow * 2 ^ 16 + v.migThresh * 2 ^ 8 + v.migEn.toNat)
  | 0x121 => BitVec.ofNat 64 v.migBase0
  | 0x122 => BitVec.ofNat 64 (v.migHead0 * 2 ^ 16 + v.migTail0)
  | 0x123 => BitVec.ofNat 64 v.migBase1
  | 0x124 => BitVec.ofNat 64 (v.migHead1 * 2 ^ 16 + v.migTail1)
  | 0x125 => BitVec.ofNat 64 v.relBase
  | 0x126 => BitVec.ofNat 64 (v.relHead * 2 ^ 16 + v.relTail)
  | 0x130 => BitVec.ofNat 64 (s.phase * 2 ^ 18 + s.incarn.toNat * 2 ^ 10 + s.modid)
  | 0x131 => BitVec.ofNat 64 s.stale
  | 0x132 => s.partLo
  | 0x133 => s.partHi.setWidth 64
  | 0x140 => BitVec.ofNat 64 s.rgnIdx
  | 0x141 => (s.region s.rgnIdx).base
  | 0x142 => (s.region s.rgnIdx).size
  | 0x143 => (s.region s.rgnIdx).ctl
  | 0x150 => v.pgnote
  | 0x151 => v.haltReg ||| (if v.haltCores.isEmpty then 0 else 0x10000#64)
  | _ =>
    if 0x101 ≤ n ∧ n < 0x110 then v.evvec.get 0 (n - 0x100)
    else if 0x180 ≤ n ∧ n < 0x1C0 then v.asroot.get 0 (n - 0x180)
    else if 0x1C0 ≤ n ∧ n < 0x200 then (s.askey.get 0 (n - 0x1C0)).setWidth 64
    else if 0x200 ≤ n ∧ n < 0x240 then v.asrate.get 0 (n - 0x200)
    else 0
/-- A control register as CTLR reads it (R18, R37, R268, R304). -/
def State.readCtl (s : State) (pk n : Nat) : Word :=
  let p := s.proc pk
  let c := p.r.ctl
  match n with
  | 0x000 => p.r.flags.setWidth 64
  | 0x001 => BitVec.ofNat 64 (s.originWord pk % 256)
  | 0x002 => BitVec.ofNat 64 p.prio
  | 0x003 => BitVec.ofNat 64 s.dtime
  | 0x004 => c.trapv
  | 0x005 => c.trappc
  | 0x006 => c.trapcause
  | 0x007 => c.trapinfo
  | 0x008 => BitVec.ofNat 64 (0xF0000000000000 + 64 * p.save)
  | 0x009 => c.ckptv
  | 0x00A => BitVec.ofNat 64 (s.core (coreOf pk)).partition
  | 0x00B => c.timeout
  | 0x00C => c.synclim
  | 0x00D => c.dbias
  | 0x00E => c.dmult
  | 0x00F => c.dtable
  | 0x010 => c.dabs
  | 0x011 => c.dfmt
  | _ => if n < 0x100 then s.readCore (coreOf pk) n else s.readDie (dieOfCore (coreOf pk)) n

/-! ## Halting cores (R310) -/

/-- Cores that a HALTCTL command names. -/
def haltNames (d : Nat) (v : Word) : List Nat :=
  if v.getLsbD 11 then (List.range 384).map (fun i => d * 384 + i) else [d * 384 + fld v.toNat 0 9]
/-- The command names a core that does not exist: the write is ignored. -/
def haltIgnored (v : Word) : Bool := !v.getLsbD 11 && decide (383 < fld v.toNat 0 9)
/-- The halt command reaches its cores: they stop issuing, and a run ahead of a fault ends. -/
def State.halt (s : State) (d : Nat) (cs : List Nat) : State :=
  (cs.foldl (fun s c => ((s.core c).slots.map (fun pid => c * 256 + pid)).foldl State.endAhead
    (s.modCore c (fun k => if k.halted then k else { k with halting := true }))) s).modDie d
    (fun v => { v with haltCores := (v.haltCores ++ cs.filter (fun c => !(s.core c).halted)).dedup })
/-- The resume command: issue continues. -/
def State.resumeCores (s : State) (d : Nat) (cs : List Nat) : State :=
  (cs.foldl (fun s c => s.modCore c (fun k => { k with halted := false, halting := false })) s).modDie d
    (fun v => { v with haltCores := v.haltCores.filter (fun c => !cs.contains c) })
/-- A write of HALTCTL. -/
def State.haltctl (s : State) (d : Nat) (v : Word) : State :=
  if haltIgnored v then s
  else
    let s1 := s.modDie d (fun x => { x with haltReg := v &&& 0xDFF#64 })
    if v.getLsbD 10 then s1.resumeCores d (haltNames d v) else s1.halt d (haltNames d v)

/-! ## PGNOTE (R307) -/

/-- Every copy unit translates again each piece parked under an address space (R117, R307 step 2). -/
def State.unpark (s : State) (asid : Nat) : State :=
  { s with cores := s.cores.map (fun (k : Nat × Core) => (k.1, { k.2 with copyq := k.2.copyq.map (fun (c : Copy) =>
      if c.asid = asid then { c with active := c.active.map (fun (z : Piece) =>
        if z.stage = 4 then { z with stage := 0 } else if z.stage = 5 then { z with stage := 2 } else z) } else c) })) }
/-- The process of a notice becomes ready, if it waits for that batch (R307 step 3); a trap that it is to take is delivered when it next issues, from
the batch and not as a new one (R310). A guest that has not heard the number of its batch yet, 256, has one batch alone. -/
def State.readyNoted (s : State) (pk : Nat) (v : Word) : State :=
  let p := s.proc pk
  match p.batch with
  | none => s
  | some b =>
    if p.state ≠ .blocked ∨ p.why ≠ 5 ∨ (b.1 ≠ fld v.toNat 26 8 ∧ b.1 ≠ 256) then s
    else
      let act := fld v.toNat 62 2
      let s2 := s.modProc pk (fun p => if act = 0 then { p with batch := none, walked := none }
        else { p with walked := none, pend := some ⟨if act = 1 then .page else .prot, b.2, 0, 0⟩ })
      (s2.synced pk).wake pk
/-- The module to which a write of PGNOTE is forwarded: the one where its process runs, if not this one. -/
def State.noteTarget (s : State) (v : Word) : Option Nat :=
  let m := s.moduleOf (fld v.toNat 0 26)
  if fld v.toNat 62 2 = 3 ∨ fld v.toNat 34 22 ≠ 0 ∨ m = s.modid ∨ fld v.toNat 0 26 = 0 then none else some m
/-- A write of PGNOTE, by the CTLW that is operation op of a process, 0 for another write. PROC 0 is the word of the first process of module 0
where that process waits for the batch (DEDUCED, log 36). A PROC that runs on another module is forwarded there. -/
def State.pgnote (s : State) (d : Nat) (v : Word) (pk op : Nat) : State :=
  let act := fld v.toNat 62 2
  let asid := fld v.toNat 56 6
  let who := fld v.toNat 0 26
  if act = 3 ∨ fld v.toNat 34 22 ≠ 0 then s
  else
    let s1 := ((s.modDie d (fun x => { x with pgnote := v &&& ~~~0x3FFFFFF#64 })).post d 1 asid who [v]).unpark asid
    match s1.noteTarget v with
    | some m => s1.tell m (d * 2) 0 asid (.pgnote v (if op = 0 then 0 else s1.originWord pk) op)
    | none => if wordModule who ≠ s.modid ∧ s1.keyOf who = wordKey who then s1 else s1.readyNoted (s1.keyOf who) v

/-! ## Writing core and die registers (R71, R250, R255, R259, R279 to R288, R304, R310) -/

/-- The members of the partition in normal service, and the time master, the lowest-numbered of them (R38); a module of its own partition has none
beside itself. -/
def State.members (s : State) : List Nat :=
  (if s.phase = 1 then [s.modid] else []) ++
    (if s.modid = 127 then [] else (s.peers.filter (fun e => e.2.present && !e.2.lost && e.2.service)).map (·.1))
def State.timeMaster (s : State) : Option Nat := s.members.find? (fun m => s.members.all (fun n => decide (m ≤ n)))
/-- The module's DTIME is within 20 ns of the time master's: it has been aligned with it, or there is none (R38). -/
def State.inTime (s : State) (modid : Nat) : Bool := (s.aligned || decide (modid = 127) || ({ s with modid := modid } : State).timeMaster.isNone) && decide (s.timeHold ≤ 20)
/-- A write of PHASE and MODID (R250): the module leaves start-up only in full service (R332; DEDUCED, log 27) and when its DTIME is within 20 ns of the
time master's, and makes up the rest by its rate (R38). -/
def State.writePhase (s : State) (phase modid : Nat) : State :=
  if s.phase ≠ 0 then { s with phase := phase }
  else if phase = 0 ∨ s.fullService = false ∨ s.inTime modid = false then { s with modid := modid }
  else { s with phase := phase, modid := modid, drift := -(s.timeHold : Int), timeHold := 0 }
/-- The step from one ring index to another. -/
def ringStep (from_ upto : Nat) : Nat := (upto + 8192 - from_) % 8192
/-- Core registers. -/
def State.writeCore (s : State) (c n : Nat) (v : Word) : State :=
  match n with
  | 0x040 => s.modCore c (fun k => { k with taskCount := fld v.toNat 11 8, taskFirst := fld v.toNat 0 11 })
  | 0x047 =>
    let s1 := s.modCore c (fun k => { k with hold := v.getLsbD 0 })
    -- unprivileged residents leave, those in the middle of a word at their next boundary (R279)
    ((s.core c).slots.filter (fun pid => s1.heldOut (c * 256 + pid))).foldl (fun s pid => s.leave (c * 256 + pid)) s1
  | 0x048 => s.modCore c (fun k => { k with gsEn := v.getLsbD 11, gsFirst := fld v.toNat 0 11 })
  | _ => s
/-- Die registers. -/
def State.writeDie (s : State) (d n : Nat) (v : Word) : State :=
  let x := s.die d
  match n with
  | 0x100 => s.setDie d { x with evEn := v.getLsbD 0, evAsid := fld v.toNat 1 6, evDrop := Nat.land x.evDrop (2 ^ 32 - 1 - fld v.toNat 32 32) }
  | 0x110 => s.setDie d { x with dlWait := fld v.toNat 0 32 }
  | 0x111 => s.setDie d { x with tadmit := fld v.toNat 0 10 }
  | 0x120 => s.setDie d { x with migWindow := fld v.toNat 16 32, migThresh := fld v.toNat 8 8, migEn := v.getLsbD 0 }
  | 0x121 => s.setDie d { x with migBase0 := fld v.toNat 16 36 * 2 ^ 16, migBad0 := false }
  | 0x122 => s.setDie d { x with
      migBad0 := x.migBad0 || decide (ringStep x.migTail0 (x.migHead0 + 8191) < ringStep x.migTail0 (fld v.toNat 0 13)), migTail0 := fld v.toNat 0 13 }
  | 0x123 => s.setDie d { x with migBase1 := fld v.toNat 16 36 * 2 ^ 16, migBad1 := false }
  | 0x124 => s.setDie d { x with
      migBad1 := x.migBad1 || decide (ringStep x.migTail1 (x.migHead1 + 8191) < ringStep x.migTail1 (fld v.toNat 0 13)), migTail1 := fld v.toNat 0 13 }
  | 0x125 => s.setDie d { x with relBase := fld v.toNat 16 36 * 2 ^ 16, relBad := false }
  | 0x126 => s.setDie d { x with
      relBad := x.relBad || decide (ringStep x.relHead x.relTail < ringStep x.relHead (fld v.toNat 16 13)), relHead := fld v.toNat 16 13 }
  | 0x130 => s.writePhase (fld v.toNat 18 2) (fld v.toNat 0 7)
  | 0x131 => { s with stale := fld v.toNat 0 32 }
  | 0x132 => { s with partLo := v }
  | 0x133 => { s with partHi := v.setWidth 8 }
  | 0x140 => { s with rgnIdx := fld v.toNat 0 8 }
  | 0x141 => { s with rgnBase := v &&& 0x1FFFFFFF0000#64 }
  | 0x142 => { s with rgnSize := v &&& 0x1FFFFFFF0000#64 }
  -- the write of RGNCTL commits all three (R255)
  | 0x143 => { s with regions := s.regions.set s.rgnIdx ⟨s.rgnBase, s.rgnSize, v &&& 0xFFFFFFFF0000FFF9#64⟩ }
  | 0x150 => s.pgnote d v 0 0
  | 0x151 => s.haltctl d v
  | _ =>
    if 0x101 ≤ n ∧ n < 0x110 then s.setDie d { x with evvec := x.evvec.set (n - 0x100) v }
    else if 0x180 ≤ n ∧ n < 0x1C0 then s.setDie d { x with asroot := x.asroot.set (n - 0x180) (v &&& 0xFFFFFFFFF0001#64) }
    else if 0x1C0 ≤ n ∧ n < 0x200 then { s with askey := s.askey.set (n - 0x1C0) (v.setWidth 32) }
    else if 0x200 ≤ n ∧ n < 0x240 then s.setDie d { x with asrate := x.asrate.set (n - 0x200) (v &&& 0xFFFFFFFFFFFF#64) }
    else s
/-- A control register from 0x040 on. -/
def State.writeReg (s : State) (d core n : Nat) (v : Word) : State := if n < 0x100 then s.writeCore core n v else s.writeDie d n v

/-- The per-process registers that a CTLW changes: RW fields take the bits, W1C fields clear, the rest stay (R36, R86, R135, R227, R299). -/
def Regs.writeCtl (r : Regs) (n : Nat) (v : Word) : Regs :=
  let c := r.ctl
  match n with
  | 0x000 =>
    let r1 := { r with flags := r.flags &&& ~~~(v.setWidth 7 &&& 0x3F#7) }
    if v.getLsbD 6 then r1.clean else r1
  | 0x004 => { r with ctl := { c with trapv := vaMask v } }
  | 0x005 => { r with ctl := { c with trappc := vaMask v } }
  | 0x006 => { r with ctl := { c with code := v.setWidth 8 } }
  | 0x007 => { r with ctl := { c with trapinfo := v } }
  | 0x009 => { r with ctl := { c with ckptv := vaMask v } }
  | 0x00B => { r with ctl := { c with timeout := v &&& 0xFFFFFFFFFF#64 } }
  | 0x00C => { r with ctl := { c with synclim := v &&& 0xFFFFFFFF#64 } }
  | 0x00D => { r with ctl := { c with dbias := v } }
  | 0x00E => { r with ctl := { c with dmult := v } }
  | 0x00F => { r with ctl := { c with dtable := v } }
  | 0x010 => { r with ctl := { c with dabs := v } }
  | 0x011 => { r with ctl := { c with dfmt := v } }
  | _ => r

/-! ## PRIO (R293) -/

/-- What PRIO checks of its operand. -/
def prioTrap (p : Proc) (v : Word) (word : Nat) : Option Trap :=
  if v.toNat / 4 ≠ 0 then some ⟨.illegal, BitVec.ofNat 64 word, 0, 0⟩
  else if !p.priv && decide (2 ≤ v.toNat % 4) && decide (p.prio < v.toNat % 4) then some ⟨.priv, BitVec.ofNat 64 word, 0, 0⟩
  else none

/-! ## The system instructions (R303, R304, R308, R313) -/

/-- NOP (R303). Does nothing. -/
def execNop (o : Guard) (s : State) : Host.Outcome State Fault Refusal :=
  issuePure { word := packG0 0x3E 0 o, gu := o } (fun r => r) s

/-- TRAP (R303). Raises SOFT with its immediate; TRAPPC is the next word's address (R298). -/
def execTrap (o : TR) (s : State) : Host.Outcome State Fault Refusal :=
  issue (infoTR o (packTR 0x3E 1 o)) (fun pk s => (s.count pk).trap pk ⟨.soft, o.imm.setWidth 64, 0, 0⟩ ((s.proc pk).pc + 4)) s

/-- TRAPRET (R303). Returns from a handler to TRAPPC. -/
def execTrapret (o : Guard) (s : State) : Host.Outcome State Fault Refusal :=
  issue { word := packG0 0x3E 2 o, gu := o } (fun pk s =>
    if (s.proc pk).r.ctl.inh then (s.modProc pk Proc.pass).trapReturn pk
    else s.raise pk ⟨.illegal, BitVec.ofNat 64 (packG0 0x3E 2 o), 0, 0⟩) s

/-- HALT (R303). Issues a halt command for its own core. -/
def execHalt (o : Guard) (s : State) : Host.Outcome State Fault Refusal :=
  issue { word := packG0 0x3E 3 o, gu := o, priv := true, ext := true } (fun pk s =>
    (s.modProc pk Proc.pass).halt (dieOfCore (coreOf pk)) [coreOf pk]) s

/-- CTLR (R304). Reads a control register. -/
def execCtlr (o : CR) (s : State) : Host.Outcome State Fault Refusal :=
  let w := packCR 0x3E 4 o
  let n := o.c.toNat
  issue { infoCRR o w with ext := decide (0x012 ≤ n), illegal := decide (0x012 ≤ n ∧ n < 0x040), priv := decide (0x040 ≤ n) } (fun pk s =>
    s.modProc pk (fun p => p.retire [(0, o.r.toNat)] (p.r.setG o.r (s.readCtl pk n)) (p.pc + 4) false)) s

/-- Registers that a CTLW writes beside the control register: setting VCLEAN discards the vector state (R36). -/
def ctlwRegs (n : Nat) (v : Word) : List RegRef :=
  if n = 0 ∧ v.getLsbD 6 = true then (List.range 32).map (fun i => (1, i)) ++ (List.range 8).map (fun i => (2, i)) else []
/-- CTLW (R304). Writes a control register. -/
def execCtlw (o : CR) (s : State) : Host.Outcome State Fault Refusal :=
  let w := packCR 0x3E 5 o
  let n := o.c.toNat
  issue { infoCRW o w with
      ext := decide (0x012 ≤ n ∨ n = 2), illegal := decide (0x012 ≤ n ∧ n < 0x040), priv := decide (0x040 ≤ n ∨ n = 0x010) } (fun pk s =>
    let p := s.proc pk
    let v := p.r.getG o.r
    if n = 2 then
      match prioTrap p v w with
      | some t => s.raise pk t
      | none => s.setProc pk { p.pass with prio := v.toNat % 4 }
    else if n < 0x040 then s.setProc pk (p.retire (ctlwRegs n v) (p.r.writeCtl n v) (p.pc + 4) false)
    else if !p.clearHere then s
    else if n = 0x150 ∧ (s.noteTarget v).isSome = true then
      -- the write completes when the process elsewhere has been readied (R307)
      let op := s.nextId
      ((({ s with nextId := op + 1 } : State).modProc pk (fun p => p.open_ op 0 true .sync .none v 0 [])).pgnote (dieOfCore (coreOf pk)) v pk op)
    else (s.setProc pk p.pass).writeReg (dieOfCore (coreOf pk)) (coreOf pk) n v) s

/-- TLBINV (R308). Shoots down translations and waits for completion, resident and RUNNING. -/
def execTlbinv (o : A1) (s : State) : Host.Outcome State Fault Refusal :=
  let w := packA1 0x3E 12 o
  issue { infoA1 o w with priv := true } (fun pk s =>
    let p := s.proc pk
    let v := (p.word.getG o.a).toNat
    if fld v 62 2 = 3 ∨ fld v 0 16 ≠ 0 then s.raise pk ⟨.illegal, BitVec.ofNat 64 w, 0, 0⟩
    else if p.prog = 0 then
      let x := s.startShootdown (fld v 62 2) (fld v 56 6) (fld v 16 40 * 2 ^ 16) none
      x.1.setProc pk (p.going (x.2 + 1))
    else match s.shoots.find? (fun d => decide (d.id + 1 = p.prog)) with
      | some d => if d.complete then { s with shoots := s.shoots.filter (fun x => x.id != d.id) }.setProc pk p.pass else s
      | none => s.setProc pk p.pass) s

/-! ## Checkpoint images (R313) -/

/-- The dwords of a checkpoint image. -/
def ckptImage (p : Proc) : List Word :=
  let q := (List.range 7).flatMap (fun i => let m : Nat := ((p.r.q.toList.getD (i + 1) 0).toNat); [BitVec.ofNat 64 m, BitVec.ofNat 64 (m / 2 ^ 64)])
  let clean := p.r.flags &&& fVCLEAN != 0
  let preds := (List.range 7).foldl (fun a i => a + (p.r.p.toList.getD (i + 1) false).toNat * 2 ^ (i + 1)) 1
  let g := (List.range 64).map (fun i => if i = 0 then (0 : Word) else p.r.g.toList.getD i 0)
  let dwords (n : Nat) (x : Nat) : List Word := (List.range n).map (fun i => BitVec.ofNat 64 (x / 2 ^ (64 * i)))
  [BitVec.ofNat 64 (p.need + clean.toNat * 4), p.r.ctl.trappc, BitVec.ofNat 64 preds, BitVec.ofNat 64 (p.r.flags &&& 0x3F#7).toNat] ++ q ++ p.r.ctl.words ++ [0, 0] ++ g ++
    (p.r.sh.toList.flatMap (fun x => dwords 4 x.toNat)) ++ (if clean then [] else p.r.v.toList.flatMap (fun x => dwords 16 x.toNat))
/-- The g, v, q and shape registers of an image; v registers stand in it when VCLEAN is 0. -/
def imageRegs (clean : Bool) : List RegRef :=
  (List.range 64).map (fun i => (0, i)) ++ (List.range 8).map (fun i => (2, i)) ++ (List.range 8).map (fun i => (3, i)) ++
    (if clean then [] else (List.range 32).map (fun i => (1, i)))
/-- The registers that a restore sets. -/
def ckptRegs (p : Proc) (partition : Nat) (w : Nat → Word) : Regs :=
  let clean := (w 0).getLsbD 2
  let wide (n i : Nat) : Nat := (List.range n).foldl (fun a k => a + (w (i + k)).toNat * 2 ^ (64 * k)) 0
  let c := Ctl.ofWords (fun i => w (18 + i))
  { g := Vector.ofFn (fun i => if i.val < gAllot partition then w (32 + i.val) else 0)
    p := Vector.ofFn (fun i => (w 2).getLsbD i.val)
    v := Vector.ofFn (fun i => if clean ∨ vAllot partition ≤ i.val then 0 else BitVec.ofNat 1024 (wide 16 (128 + 16 * i.val)))
    q := Vector.ofFn (fun i => if clean ∨ i.val = 0 then 0 else BitVec.ofNat 128 (wide 2 (4 + 2 * (i.val - 1))))
    sh := Vector.ofFn (fun i => BitVec.ofNat 256 (wide 4 (96 + 4 * i.val)))
    flags := ((w 3).setWidth 7 &&& 0x3F#7) ||| (if clean then fVCLEAN else 0)
    ctl := { c with inh := false, dabs := if p.priv then c.dabs else p.r.ctl.dabs } }
/-- The 64-byte blocks of an image that a check or a translation refuses: the first trap, or a miss to wait for. -/
def State.ckptExtent (s : State) (pk : Nat) (a : Access) (cls : Nat) (check : Nat → Option Cause) (x len : Nat) : Option (Option Trap × Nat) :=
  ((List.range (len / 64)).map (fun i => x + 64 * i)).findSome? (fun va =>
    match s.xlate (s.ctxOf pk) a (va % 2 ^ 64) with
    | .ok pa _ =>
      if offWindow0 pa then some (some ⟨.misalign, BitVec.ofNat 64 va, 0, 0⟩, va)
      else match check pa with
        | some c => some (some ⟨c, BitVec.ofNat 64 va, 0, 0⟩, va)
        | none => none
    | .fail c l => some (some (xlateTrap c l cls va), va)
    | .miss => some (none, va))
/-- What a checked image goes on with: the trap, the wait for a walk, or the body. -/
def State.withExtent (s : State) (pk : Nat) (r : Option (Option Trap × Nat)) (body : State → State) : State :=
  match r with
  | some (some t, _) => s.raise pk t
  | some (none, va) => s.queueWalk (s.ctxOf pk) va
  | none => body s

/-- The blocks of an image as they translate now. -/
def State.ckptSeen (s : State) (pk : Nat) (a : Access) (x len : Nat) : List (Nat × Under) :=
  (List.range (len / 64)).filterMap (fun i => match s.xlate (s.ctxOf pk) a ((x + 64 * i) % 2 ^ 64) with
    | .ok pa u => some (pa, u)
    | _ => none)
/-- Dword i of the image leaves as a plain store; the image, its address and its translation are those of the first. -/
def ckptStore (x : Nat) (img : List Word) (i : Nat) (pk : Nat) (s : State) : State :=
  let p := s.proc pk
  let va := x + 8 * i
  match p.seen.drop (i / 8) with
  | [] => s
  | (block, u) :: _ =>
    let pa := block + i % 8 * 8
    let h := s.homeOf pa
    -- until the first store leaves, nothing is captured
    let q := if i = 0 then { p with seen := [] } else p
    if s.awayWait pk h then (s.setProc pk q).awayBlock pk h
    else if p.acquires (coreOf pk) h || p.storesFull then s.setProc pk q.awaitStore
    else
      let op := s.nextId
      let s1 := ({ s with nextId := s.nextId + 1 } : State).request pk op
        (.store pa 8 (storeWrites (paLocal pa) 8 (img.getD i 0).toNat) false false) (BitVec.ofNat 64 va) pa u 0
      s1.modProc pk (fun p => let q := { (p.sent op h false pa) with fifth := none }; if img.length ≤ i + 1 then q.pass else q.going (i + 1))
/-- CKPT_SAVE (R313). Writes the context as a checkpoint image with plain stores, one dword a step. -/
def execCkptSave (o : A1) (s : State) : Host.Outcome State Fault Refusal :=
  let w := infoA1 o (packA1 0x3E 15 o)
  -- it reads every register of the image (R315)
  issue { w with reads := w.reads ++ imageRegs ((s.proc s.turn).r.flags &&& fVCLEAN != 0) } (fun pk s =>
    let p := s.proc pk
    let x := (p.word.getG o.a).toNat
    let img := ckptImage { p with r := p.word }
    if p.prog ≠ 0 then ckptStore x img p.prog pk s
    else if x % 64 ≠ 0 then s.raise pk ⟨.misalign, BitVec.ofNat 64 x, 0, 0⟩
    else s.withExtent pk (s.ckptExtent pk .wr 1 (fun pa => storeCheck false pa 8) x (8 * img.length)) (fun s =>
      if (!p.unacked.isEmpty || s.incomplete pk 3 1) = true then s
      else ckptStore x img 0 pk (s.modProc pk (fun p => { p with seen := s.ckptSeen pk .wr x (8 * img.length) })))) s

/-- CKPT_RESTORE (R313). Reads the image with plain loads, one dword at a time, and then sets every register of it. -/
def execCkptRestore (o : A1) (s : State) : Host.Outcome State Fault Refusal :=
  let w := packA1 0x3E 79 o
  issue (infoA1 o w) (fun pk s =>
    let p := s.proc pk
    let part := (s.core (coreOf pk)).partition
    let x := (p.word.getG o.a).toNat
    -- each load leaves two dwords in buf, of which the first is the image's
    let got := p.buf.length / 2
    let img (i : Nat) : Word := p.buf.getD (2 * i) 0
    let len := if got = 0 ∨ (img 0).getLsbD 2 = true then 0x400 else 0x1400
    if x % 64 ≠ 0 then s.raise pk ⟨.misalign, BitVec.ofNat 64 x, 0, 0⟩
    else s.withExtent pk (s.ckptExtent pk .rd 0 (fun pa => loadCheck p.priv pa 8) x len) (fun s =>
      if got ≠ 0 ∧ ((img 0).toNat / 8 ≠ 0 ∨ part < (img 0).toNat % 4) then s.raise pk ⟨.illegal, BitVec.ofNat 64 w, 0, 0⟩
      else if len ≤ 8 * got then
        s.setProc pk { (p.retire (imageRegs false) (ckptRegs p part img) (vaMask (img 1)) false) with struck := [] }
      else match s.xlate (s.ctxOf pk) .rd (x + 8 * got) with
        | .ok pa u =>
          let h := s.homeOf pa
          if s.awayWait pk h then s.awayBlock pk h
          else if p.acquires (coreOf pk) h then s
          else
            let op := s.nextId
            let s1 := ({ s with nextId := s.nextId + 1 } : State).request pk op (.load pa 8 false false) (BitVec.ofNat 64 (x + 8 * got)) pa u 0
            s1.modProc pk (fun p => p.openStep op .load .buf (BitVec.ofNat 64 (x + 8 * got)) (some h))
        | _ => s)) s

/-! ## Rows of register writes -/

/-- HALT_COMMAND (R310). A HALTCTL write with RUN = 0 halts the named cores. -/
def execHaltCommand (die : Nat) (value : BitVec 64) (s : State) : Host.Outcome State Fault Refusal :=
  .next (if value.getLsbD 10 then s else s.haltctl die value)

/-- RESUME_COMMAND (R310). A HALTCTL write with RUN = 1 resumes issue on the named cores. -/
def execResumeCommand (die : Nat) (value : BitVec 64) (s : State) : Host.Outcome State Fault Refusal :=
  .next (if value.getLsbD 10 then s.haltctl die value else s)

/-- CORE_HALTED (R311). A core reaches its halted state at an instruction boundary; its sequencer has stopped at a step boundary. -/
def execCoreHalted (core : Nat) (s : State) : Host.Outcome State Fault Refusal :=
  .next (if (s.core core).halting then
    (s.modCore core (fun k => { k with halted := true, halting := false, tileq := k.tileq.map (fun (t : TileOp) => { t with running := false }) })).modDie
      (dieOfCore core) (fun v => { v with haltCores := v.haltCores.filter (fun c => c != core) })
  else s)

/-- PGNOTE_RESUME (R307). A PGNOTE write with ACT 00 posts the notice and readies the process to re-execute. -/
def execPgnoteResume (die : Nat) (value : BitVec 64) (s : State) : Host.Outcome State Fault Refusal :=
  .next (if fld value.toNat 62 2 = 0 then s.pgnote die value 0 0 else s)

/-- PGNOTE_DELIVER_PAGE (R307). A PGNOTE write with ACT 01 readies the process to take PAGE. -/
def execPgnoteDeliverPage (die : Nat) (value : BitVec 64) (s : State) : Host.Outcome State Fault Refusal :=
  .next (if fld value.toNat 62 2 = 1 then s.pgnote die value 0 0 else s)

/-- PGNOTE_DELIVER_PROT (R307). A PGNOTE write with ACT 10 readies the process to take PROT. -/
def execPgnoteDeliverProt (die : Nat) (value : BitVec 64) (s : State) : Host.Outcome State Fault Refusal :=
  .next (if fld value.toNat 62 2 = 2 then s.pgnote die value 0 0 else s)

/-- RGNCTL_COMMIT (R255). A RGNCTL write commits a region entry to every die. -/
def execRgnctlCommit (value : BitVec 64) (s : State) : Host.Outcome State Fault Refusal := .next (s.writeDie 0 0x143 value)

/-- CORECTL_HOLD (R279). A CORECTL write sets HOLD, making unprivileged residents leave. -/
def execCorectlHold (core : Nat) (value : BitVec 64) (s : State) : Host.Outcome State Fault Refusal := .next (s.writeCore core 0x047 value)

/-- Registers whose write has a row of its own. -/
def ownRow (n : Nat) : Bool := decide (n = 0x047 ∨ n = 0x143 ∨ n = 0x150 ∨ n = 0x151)
/-- CONTROL_REGISTER_WRITE (R304). A write to a register with no row of its own updates its fields. -/
def execControlRegisterWrite (die core number : Nat) (value : BitVec 64) (s : State) : Host.Outcome State Fault Refusal :=
  .next (if number < 0x040 ∨ ownRow number then s else s.writeReg die core number value)

end Sys2Proof.Machine
end

