-- ==== Sys2Proof/Machine/Channels.lean ====
section
/-! DEFINITION. Channels, IO endpoints, timers and waymarks (spec/07_channels.md R126 to R150, spec/05_tags.md R98 to R105,
spec/18_pipeline.md R297). Every operation on a handle goes to its channel home as a message and is checked there. -/
namespace Sys2Proof.Machine

/-! ## Handles (R130, R140) -/

/-- The KINDs that a form accepts (R140). -/
def kindOk (form kind : Nat) : Bool :=
  match form with
  | 8 => decide (kind = 0)
  | 6 | 7 => decide (kind ≤ 1)
  | 10 => decide (kind = 3)
  | _ => decide (kind ≤ 2)
/-- The first check of R130. -/
def State.handleNamed (s : State) (form : Nat) (h : Word) : Bool := kindOk form (hKind h) && s.handlePlaced h

/-! ## Endpoints -/

def State.setEp (s : State) (c slot : Nat) (e : Endpoint) : State := s.modCore c (fun k => { k with eps := k.eps.set slot e })
def State.modEp (s : State) (c slot : Nat) (f : Endpoint → Endpoint) : State := s.setEp c slot (f (s.ep c slot))
/-- The send slot of a pair and the slot of the other end. -/
def sendSlot (slot : Nat) : Nat := slot / 2 * 2
def peerSlot (slot : Nat) : Nat := if slot % 2 = 0 then slot + 1 else slot - 1
def Endpoint.owns (e : Endpoint) (who : Nat) : Bool := decide (e.state = 2 ∧ e.owner = who)
/-- A transfer of the pair is in progress (XFER of R133). -/
def State.pairXfer (s : State) (c slot : Nat) : Bool :=
  decide ((s.ep c (sendSlot slot)).pair = .xfer) || s.xfers.any (fun x => decide (x.core = c ∧ x.slot = sendSlot slot))
/-- The handle of the end at a slot. -/
def State.epHandle (s : State) (c slot : Nat) : Word := handleOf 0 s.modid c slot (s.ep c slot).ty (s.ep c slot).gen

/-- A message of a channel home to the module of an operation's process, by the plane that carried the operation (R251). -/
def State.chanTell (s : State) (o : ChanOp) (b : Body) : State :=
  match o.via with
  | .remote m p => s.tell m p o.who o.asid b
  | v => s.tell (s.moduleOf o.who) v.port o.who o.asid b
/-- The answer of a channel operation goes to its process. -/
def State.chanAnswer (s : State) (o : ChanOp) (a : Answer) : State :=
  if !s.ours o then s.chanTell o (.answer o.who o.op a)
  else match a with
    | .vals vs => s.done (s.keyOf o.who) o.op vs
    | .trap t => s.failed (s.keyOf o.who) o.op t
def State.chanTrap (s : State) (o : ChanOp) (c : Cause) : State := s.chanAnswer o (.trap ⟨c, o.handle, 0, 0⟩)
/-- The process is BLOCKED on the owner of the peer end, or on the endpoint (R131, R138); one of another module by a notice. -/
def State.chanBlock (s : State) (o : ChanOp) : State :=
  if !s.ours o then s.chanTell o (.hold o.who o.op (edgeEndpoint o.handle)) else s.block (s.keyOf o.who) 0 (edgeEndpoint o.handle) o.op
/-- FLTCHAN lets a process of address space a bind an endpoint of address space t (R142, R328). -/
def State.mayBind (s : State) (a t : Nat) : Bool := decide (a = t) || (s.fltchan.get 0 a).getLsbD t

/-- The checks of R130 at the channel home, from the second on. Of BIND's own checks an endpoint that is bound already comes first, then the
type, then FLTCHAN: the spec gives no order (DESIGN CHOICE, log 80). -/
def State.chanCheck (s : State) (c : Nat) (o : ChanOp) : Option Cause :=
  let slot := hSlot o.handle
  let e := s.ep c slot
  if hGen o.handle ≠ e.gen ∨ e.state = 0 then some .handle
  else if e.lost then some .handle
  else if o.form = 2 then
    if e.state = 2 then some .handle
    else if hType o.handle ≠ e.ty then some .chanType
    else if !s.mayBind o.asid e.asid then some .prot else none
  else if o.form = 1 ∨ o.form = 3 then
    if !(e.owns o.who || decide (e.maker = o.who) || o.priv) then some .prot
    else if hType o.handle ≠ e.ty then some .chanType else none
  else if !e.owns o.who then some .prot
  else
    let cls := tyClass e.ty
    let suits := match o.form with
      | 4 => decide (slot % 2 = 0 ∧ cls = 0)
      | 5 => decide (slot % 2 = 1 ∧ cls = 0)
      | 6 => decide (slot % 2 = 0 ∧ cls = 1)
      | 7 => decide (slot % 2 = 1 ∧ (cls = 1 ∨ cls = 2))
      | 8 => decide (slot % 2 = 0 ∧ cls = 2)
      | _ => true
    if !suits || hType o.handle != e.ty then some .chanType else none
/-- The peer end is closed, so that an operation of this end can never be matched: a send, or a receive that finds no claimed slot (R134, R144). -/
def State.peerGone (s : State) (c : Nat) (o : ChanOp) : Bool :=
  let slot := hSlot o.handle
  match o.form with
  | 4 | 6 | 8 => decide ((s.ep c (slot + 1)).state = 0)
  | 5 | 7 => decide ((s.ep c (sendSlot slot)).state = 0 ∧ ((s.ep c slot).cap = 0 ∨ (s.ep c slot).count = 0))
  | _ => false

/-! ## Operands (R145, R146) -/

/-- A translation of SENDT or RECVT that a shoot-down has withdrawn is taken again when the operation would be matched (R115, R145); that of an
operation of another module comes from there. -/
def State.anew (s : State) (o : ChanOp) (ty : BitVec 16) : Option ChanOp :=
  if o.stale && decide (o.form ≠ 8) then (if s.ours o then s.chanVa (s.chanCtx o) true o ty else none) else some o
/-- The walk of a translation that is to be taken again here. -/
def State.walkFor (s : State) (o : ChanOp) : State := if s.ours o then s.queueWalk (s.chanCtx o) o.va.toNat else s

/-! ## Transfers (R131, R132) -/

def State.dropXfer (s : State) (id : Nat) : State := { s with xfers := s.xfers.filter (fun x => x.id != id) }
def State.setUnit (s : State) (i : Nat) (u : UnitSlot) : State := { s with units := s.units.set i u }
/-- The core and first tile of a physical address. -/
def tileOfPa (pa : Nat) : Nat × Nat := (touchedTiles (paLocal pa) 1).headD (0, 0)
/-- A request that a channel home makes: performed or held at once at a home of this module. -/
def State.ask (s : State) (c who asid op : Nat) (h : Home) (rop : ROp) : State :=
  let r : Req := ⟨s.nextId, .core c, who, op, h, rop, 0, Under.none, false, false, none, 0, 0, false, false⟩
  let s1 : State := { s with nextId := s.nextId + 1 }
  match h with
  | .remote m => s1.tell m (portOf c) who asid (.req r)
  | _ => s1.arriveReq r
/-- The claims of the destination tiles of a transfer leave the channel home (R81, R131). -/
def State.claimAll (s : State) (x : Xfer) : State :=
  (List.range x.n).foldl (fun s i =>
    let pa := x.dst + i * x.tile
    let t := tileOfPa pa
    let r : Req := ⟨s.nextId, .core x.core, 0, x.id, s.homeOf pa, .claim t.1 t.2 (.transfer s.modid x.core x.id i), 0, Under.none, false, false, none, 0, 0, false, false⟩
    match s.homeOf pa with
    | .remote m => ({ s with nextId := s.nextId + 1 } : State).tell m (portOf x.core) x.payer.1 x.payer.2 (.req r)
    | h => s.send (.core x.core) h (.req r)) s
/-- What a deferred transfer needs next: the record of the waymark that it re-sends, or a lend record; then the reference goes into its ring slot,
an eager tensor to its destination, or the waymark is installed (R99 steps 2 and 3, R103, R104, R132). -/
def State.deferStep (s : State) (x : Xfer) (o : ChanOp) : State :=
  let ty := s.xferType x
  if o.resend && decide (o.lend = 0) && !o.eager then
    s.ask x.core o.who o.asid x.id (if hModule o.va = s.modid then .core (hHome o.va) else .remote (hModule o.va)) (.mark true (hHome o.va) (hSlot o.va) o.va ty x.core x.slot)
  else if o.lend = 0 ∧ o.eager = false then
    s.ask x.core o.who o.asid x.id (s.homeOf o.val.toNat)
      (.lendOpen (paLocal o.val.toNat) (tyCount ty * tyTile ty) (tyCount ty) x.core x.slot (s.epHandle x.core (x.slot + 1)))
  else match x.recv with
    | none =>
      -- the lend's holder is the receive end until the RECVT
      let s1 := if o.resend && !o.eager then s.send (.core x.core) (s.homeOf o.val.toNat) (.relink o.lend (s.epHandle x.core (x.slot + 1))) else s
      (s1.modEp x.core (x.slot + 1) (fun r => { r with refs := r.refs ++ [o] })).claimAll x
    | some r =>
      if o.eager then
        let y := { x with src := o.val.toNat }
        (s.modXfer x.id (fun _ => y)).claimAll y
      else
        let w : Lent := ⟨o.lend, o.val.toNat, x.n, x.tile, ty, o.live⟩
        let t := tileOfPa x.dst
        s.ask x.core r.who x.payer.2 x.id (s.homeOf x.dst) (.markOpen t.1 t.2 w r.va x.core x.slot)
/-- A send is over, whose process may have been told no more than that it completed: a FENCE hears it on the module that issued the send, or to which
the process has moved since (R236). -/
def State.sendOver (s : State) (o : ChanOp) : State :=
  match o.via with
  | .remote _ _ => s.chanTell o (.farEnd o.who o.op 0)
  | _ => s.farOver o.who o.op
/-- A word that a unit takes: a timer is armed, a host queue holds it (R139). -/
def State.unitWord (s : State) (i : Nat) (o : ChanOp) : State :=
  let u := s.unit i
  let s1 := if u.unit = 10 then s.setUnit i { u with deadline := some o.val.toNat } else s.setUnit i { u with outq := u.outq ++ [leBytes 8 o.val.toNat] }
  (s1.chanAnswer o (.vals [])).sendOver o
/-- A transfer starts, once no promotion holds it: by class. -/
def State.beginXfer (s : State) (x : Xfer) : State :=
  let cls := tyClass (s.xferType x)
  match x.send with
  | some o =>
    if x.core = 1536 then
      -- a unit reads the tiles of a SENDT one after the other (R139)
      if o.form = 4 then (s.dropXfer x.id).unitWord x.slot o else s.xferNext x 0
    else if cls = 0 ∧ x.ringSlot = none then
      -- rendezvous of a word: the sender completes at the match
      (s.chanAnswer o (.vals [])).modXfer x.id (fun x => { x with done := x.n })
    else if cls = 2 then s.deferStep x o
    else s.claimAll x
  | none => if x.fromRing ∧ cls ≠ 1 then s.xferNext x 0 else s.claimAll x
/-- Whether the send of a transfer that is accepted now is promoted to SYS: its receive end has no owner, or one on another module than the
sender; of a unit its module counts (R150). -/
def State.promotes (s : State) (x : Xfer) : Bool :=
  match x.send with
  | none => false
  | some o =>
    let r := s.ep x.core (x.slot + 1)
    if x.core = 1536 then !s.ours o else !(decide (r.state = 2)) || decide (s.moduleOf r.owner ≠ s.moduleOf o.who)
/-- A transfer is recorded; a promoted one waits for the sending core's release (R150). -/
def State.openXfer (s : State) (x0 : Xfer) : State :=
  let hold := s.promotes x0
  let x := { x0 with id := s.nextId, promoted := hold }
  let s1 : State := { s with xfers := s.xfers ++ [x], nextId := s.nextId + 1 }
  match hold, x.send with
  | true, some o =>
    if s.ours o then s1.send (.core x.core) (.core (coreOf (s.keyOf o.who))) (.promote (s.keyOf o.who) o.op x.id) else s1.chanTell o (.promote o.who o.op x.id)
  | _, _ => s1.beginXfer x
/-- A blank transfer of a channel end. -/
def xferOf (c slot n tile : Nat) : Xfer := ⟨0, c, slot, none, none, 0, 0, n, tile, 0, 0, none, none, false, [], []⟩
/-- The send of a transfer is over. -/
def State.farDone (s : State) (x : Xfer) : State := match x.send with | some o => s.sendOver o | none => s
/-- A transfer is abandoned: what moves for it stops and its claimed tiles go back (R116, R137). -/
def State.abandonXfer (s : State) (x : Xfer) : State :=
  let mineC (c : Claimant) : Bool := match c with | .transfer m _ i _ => decide (m = s.modid ∧ i = x.id) | _ => false
  let back (s : State) (e : Nat × Tag) : State :=
    let pa := x.dst + e.1 * x.tile
    let t := tileOfPa pa
    match s.homeOf pa with
    | .remote m => s.tell m (portOf x.core) x.payer.1 x.payer.2 (.unclaim t.1 t.2 (.transfer s.modid x.core x.id e.1) e.2)
    | _ => if s.tag t.1 t.2 = .pending then s.setTag t.1 t.2 (if e.2 = .via then .empty else e.2) else s
  let s1 := x.prior.foldl back s
  let mine (b : Body) : Bool := match b with
    | .xferRead i _ => decide (i = x.id)
    | .stream b => mineC b.who
    | .req r => (match r.rop with | .claim _ _ c => mineC c | _ => decide (r.op = x.id))
    | _ => false
  let gone := (s1.net.filter (fun n => mine n.body)).map (·.id)
  let held (r : Req) : Bool := match r.rop with
    | .claim _ _ c => mineC c
    | .engine _ _ (.msg m) => gone.contains m
    | .lendOpen .. | .mark .. | .markOpen .. | .install .. => decide (r.op = x.id)
    | _ => false
  (({ s1 with net := s1.net.filter (fun n => !mine n.body), held := s1.held.filter (fun r => !held r) } : State).dropXfer x.id).settle

/-! ## Waymarks (R98 to R105) -/

/-- A waymark is dropped (R101): tiles still VIA become EMPTY and count as released, the record is freed. -/
def State.dropMark (s : State) (c i : Nat) : State :=
  let m := (s.core c).marks.get Mark.free i
  let s1 := (m.via.foldl (fun s t => s.setTag c t .empty) s).freeMark c i
  (if m.via.isEmpty then s1 else s1.send (.core c) m.lender (.lendRelease m.lend m.via.length false)).settle
/-- Source tiles of a withdrawn SENDD return to FULL, and a record of theirs is freed (R136). -/
def State.giveBack (s : State) (c : Nat) (tiles : List Nat) (lend : Nat) : State :=
  let s1 := (tiles.foldl (fun s t => (s.applyRow .lendReleased c t).1) s).modCore c (fun k => { k with lends := k.lends.filter (fun l => l.id != lend) })
  ({ s1 with lendsHbm := s1.lendsHbm.filter (fun e => e.2.id != lend) } : State).settle
/-- The steps of a lend that a SENDD still waits for are withdrawn, and what it has taken is given back. -/
def State.unlend (s : State) (o : ChanOp) : State :=
  if o.form ≠ 8 ∨ o.resend = true then s
  else
    let steps (r : Req) : Bool := decide (r.op = o.id) && (match r.rop with | .lendOpen .. | .lendTile .. => true | _ => false)
    let s1 : State := { s with held := s.held.filter (fun r => !steps r) }
    match s.homeOf o.val.toNat with
    | .remote m => if o.taken.isEmpty ∧ o.lend = 0 then s1 else s1.tell m 0 o.who o.asid (.unlend (tileOfPa o.val.toNat).1 o.taken o.lend)
    | _ => s1.giveBack (tileOfPa o.val.toNat).1 o.taken o.lend

/-! ## The pair and the ring (R132 to R134, R144) -/

/-- A send that waits at the home. -/
def State.waitSend (s : State) (c slot : Nat) (o : ChanOp) : State :=
  ((s.modEp c slot (fun e => { e with waiting := some o, pair := if e.cap = 0 then .sw else e.pair })).chanBlock o).wakeAlts
/-- A receive that waits at the home. -/
def State.waitRecv (s : State) (c slot : Nat) (o : ChanOp) : State :=
  let s1 := s.modEp c slot (fun r => { r with waiting := some o })
  (if (s.ep c slot).cap = 0 then s1.modEp c (sendSlot slot) (fun e => { e with pair := .rw }) else s1).chanBlock o
/-- A rendezvous match: the transfer takes both operations (R133). A translation withdrawn meanwhile is taken again (R145): while its walk is to
come both wait, and where it fails its operation traps and the other one waits on. -/
def State.matchPair (s : State) (c slot : Nat) (snd rcv : ChanOp) : State :=
  let e := s.ep c slot
  let both (s : State) : State := (s.modEp c slot (fun e => { e with waiting := some snd, pair := .sw })).modEp c (slot + 1) (fun e => { e with waiting := some rcv })
  match s.anew snd e.ty, s.anew rcv e.ty with
  | none, _ => (both s).walkFor snd
  | _, none => (both s).walkFor rcv
  | some o, some r =>
    match o.bad, r.bad with
    | some t, _ => (((both s).modEp c slot (fun e => { e with waiting := none, pair := .rw })).unlend o).chanAnswer o (.trap t)
    | none, some t => ((both s).modEp c (slot + 1) (fun e => { e with waiting := none })).chanAnswer r (.trap t)
    | none, none =>
      let s1 := (s.modEp c slot (fun e => { e with waiting := none, pair := .xfer })).modEp c (slot + 1) (fun e => { e with waiting := none })
      let word := decide (tyClass e.ty = 0)
      s1.openXfer { xferOf c slot (if word then 1 else tyCount e.ty) (tyTile e.ty) with
        send := some o, recv := some r, src := if word || o.form = 8 then 0 else o.val.toNat, dst := if word then 0 else r.val.toNat }
/-- A send claims the slot at the tail of the ring (R132). -/
def State.claimSlot (s : State) (c slot : Nat) (o0 : ChanOp) : State :=
  let e := s.ep c slot
  let r := s.ep c (slot + 1)
  match s.anew o0 e.ty with
  | none => (s.modEp c slot (fun e => { e with waiting := some o0 })).walkFor o0
  | some o =>
    match o.bad with
    | some t => (s.unlend o).chanAnswer o (.trap t)
    | none =>
      let i := (r.head + r.count) % e.cap
      let block := decide (tyClass e.ty = 1)
      let s1 := s.modEp c (slot + 1) (fun r => { r with count := r.count + 1 })
      -- a ring slot consists of 64-byte tiles, whatever the tile size of the channel; a block is moved by them (R132; DEDUCED, log 108)
      (s1.openXfer { xferOf c slot (tySlotTiles e.ty) 64 with
        send := some o, src := if block then o.val.toNat else 0, dst := s.paOf (tileAddr c (e.ring + i * tySlotTiles e.ty)), ringSlot := some i }).wakeAlts
/-- A receive takes the slot at the head of the ring (R132). -/
def State.takeSlot (s : State) (c slot : Nat) (o0 : ChanOp) : State :=
  let e := s.ep c slot
  let r := s.ep c (slot + 1)
  match s.anew o0 e.ty with
  | none => (s.modEp c (slot + 1) (fun r => { r with waiting := some o0 })).walkFor o0
  | some o =>
    match o.bad with
    | some t => s.chanAnswer o (.trap t)
    | none =>
      let word := decide (tyClass e.ty = 0)
      s.openXfer { xferOf c slot (if word then 1 else tyCount e.ty) (if word then 64 else tyTile e.ty) with
        recv := some o, src := s.paOf (tileAddr c (e.ring + r.head * tySlotTiles e.ty)), dst := if word then 0 else o.val.toNat, ringSlot := some r.head }
/-- A send that has passed its checks, and taken its range, is offered to the pair. -/
def State.offerSend (s : State) (c slot : Nat) (o : ChanOp) : State :=
  let e := s.ep c slot
  let r := s.ep c (slot + 1)
  if r.state = 0 then (s.unlend o).chanTrap o .handle
  else if e.cap = 0 then
    if e.pair = .xfer then s.modEp c slot (fun e => { e with held := e.held ++ [o] })
    else match r.waiting with
      | some q => if e.pair = .rw then s.matchPair c slot o q else s.waitSend c slot o
      | none => s.waitSend c slot o
  else if r.count < e.cap ∧ e.waiting = none then s.claimSlot c slot o
  else s.waitSend c slot o
/-- A receive that has passed its checks. -/
def State.offerRecv (s : State) (c slot : Nat) (o : ChanOp) : State :=
  let s0 := sendSlot slot
  let e := s.ep c s0
  if e.cap = 0 then
    match e.waiting with
    | some q => if e.pair = .sw then s.matchPair c s0 q o else s.waitRecv c slot o
    | none => s.waitRecv c slot o
  else if (s.ep c slot).count ≠ 0 then s.takeSlot c s0 o
  else s.waitRecv c slot o
/-- After a change of the ring: a waiting receive takes a claimed slot, the waiting sender a free one. -/
def State.kickRing (s : State) (c slot : Nat) : State :=
  let e := s.ep c slot
  let r := s.ep c (slot + 1)
  let s1 := match r.waiting with
    | some o => if r.count ≠ 0 then (s.modEp c (slot + 1) (fun r => { r with waiting := none })).takeSlot c slot o else s
    | none => s
  match e.waiting with
  | some o => if (s1.ep c (slot + 1)).count < e.cap then (s1.modEp c slot (fun e => { e with waiting := none })).claimSlot c slot o else s1
  | none => s1
/-- A transfer out of its source cannot go on: its sender traps, and the receiver of a rendezvous waits again. Of a delivery into a ring the slot at
the tail is given back; the result is none where another message of the ring stands behind it. A receive from the ring traps itself. -/
def State.failXfer (s : State) (x : Xfer) (t : Trap) : Option State :=
  let trap (s : State) (o : Option ChanOp) : State := match o with | some o => s.chanAnswer o (.trap t) | none => s
  if x.core = 1536 then some (trap (s.abandonXfer x) x.send)
  else match x.send, x.recv with
    | some o, some r =>
      -- a rendezvous, or the tensor of an eager re-send whose slot has been taken
      let s1 := (s.abandonXfer x).chanAnswer o (.trap t)
      if x.ringSlot.isSome then some ((s1.modEp x.core (x.slot + 1) (fun e => { e with waiting := some r })).kickRing x.core x.slot)
      else some ((s1.modEp x.core x.slot (fun e => { e with pair := .rw })).modEp x.core (x.slot + 1) (fun e => { e with waiting := some r }))
    | none, r => some (trap (s.abandonXfer x) r)
    | o, none =>
      let e := s.ep x.core x.slot
      let r := s.ep x.core (x.slot + 1)
      if r.count ≠ 0 ∧ x.ringSlot = some ((r.head + r.count - 1) % max e.cap 1) then
        some (trap ((s.abandonXfer x).modEp x.core (x.slot + 1) (fun r => { r with count := r.count - 1, refs := r.refs.filter (fun q => some q.id != o.map (·.id)) })) o)
      else none

/-! ## CLOSE, BIND, REBIND, PROBE, unbinding (R142 to R144, R149, R297) -/

/-- The operation that waits at an end, and a SENDD that still lends, are withdrawn: their process traps HANDLE. -/
def State.withdrawEnd (s : State) (c slot : Nat) : State :=
  let e := s.ep c slot
  let s1 := s.modEp c slot (fun e => { e with waiting := none, lending := none })
  let one (s : State) (o : Option ChanOp) : State := match o with | some o => (s.unlend o).chanTrap o .handle | none => s
  let s2 := one (one s1 e.waiting) e.lending
  let other := (s.ep c (peerSlot slot)).waiting.isSome
  if e.waiting.isSome && decide (e.cap = 0) then
    s2.modEp c (sendSlot slot) (fun e => { e with pair := if !other then .idle else if slot % 2 = 0 then .rw else .sw })
  else s2
/-- A deferred message in the ring is dropped as by DROPW (R134); the SENDD of an eager one has not completed and traps. -/
def State.dropRef (s : State) (c : Nat) (o : ChanOp) : State :=
  if o.eager then s.chanTrap o .handle
  else if o.live.isEmpty then s.sendOver o
  else (s.sendOver o).send (.core c) (s.homeOf o.val.toNat) (.lendRelease o.lend o.live.length false)
/-- CLOSE of an end (R133, R134, R144). The freed slot keeps the capacity, ring and type of the channel, which the other end still needs. -/
def State.closeEnd (s : State) (c slot : Nat) : State :=
  let e := s.ep c slot
  let s0 := sendSlot slot
  let buffered := decide (0 < e.cap)
  let s1 := s.withdrawEnd c slot
  let s2 := if buffered then
      (if slot % 2 = 0 then (if (s1.ep c (slot + 1)).count = 0 then s1.withdrawEnd c (slot + 1) else s1)
       else
         let s2 := s1.withdrawEnd c s0
         let s3 := e.refs.foldl (fun s o => s.dropRef c o) s2
         (List.range (e.cap * tySlotTiles e.ty)).foldl (fun s i => (s.applyRow .tempty c (e.ring + i)).1) s3)
    else s1.withdrawEnd c (peerSlot slot)
  ((s2.setEp c slot { Endpoint.free with gen := nextGen e.gen, ty := e.ty, cap := e.cap, ring := e.ring }).modEp c s0 (fun e => { e with pair := if buffered then e.pair else .idle })).wakeAlts.settle
/-- PROBE's status (R149). -/
def State.probeWord (s : State) (c slot : Nat) : Word :=
  let e := s.ep c slot
  let p := s.ep c (peerSlot slot)
  let sd := s.ep c (sendSlot slot)
  let rc := s.ep c (sendSlot slot + 1)
  let ready := if e.cap = 0 then (if slot % 2 = 0 then decide (sd.pair = .rw) else decide (sd.pair = .sw))
    else (if slot % 2 = 0 then decide (rc.state ≠ 0 ∧ rc.count < e.cap ∧ e.waiting = none) else decide (rc.count ≠ 0))
  -- a REBIND of either end is held
  let rebind := sd.held.any (fun o => decide (o.form = 3))
  BitVec.ofNat 64 (rc.count * 2 ^ 16 + p.lost.toNat * 16 + (decide (p.state = 0)).toNat * 8 + rebind.toNat * 4 +
    (decide (p.state = 1)).toNat * 2 + ready.toNat)
/-- The process of a word is known here: its origin is this module, or it is a guest of it. -/
def State.knows (s : State) (who : Nat) : Bool := decide (wordModule who = s.modid) || s.procs.any (fun e => e.2.guest && decide (e.2.origin = who))
/-- What REBIND checks of the process that it names (R143 step 1): it lives, and a cross-tenant one has a grant. A process word with a nonzero bit
among [63:26], which must be 0 (R129), names no process: HANDLE (DESIGN CHOICE, log 81). Of a process of another module the model knows neither,
and both answers come from outside. -/
def State.rebindCheck (s : State) (asid who : Nat) : Option Cause :=
  if 2 ^ 26 ≤ who ∨ 383 < fld who 8 9 then some .handle
  else if s.knows who then
    let p := s.proc (s.keyOf who)
    if p.state = .free ∨ p.state = .exited then some .handle else if s.mayBind p.asid asid then none else some .prot
  else if s.absent (wordModule who) = true ∨ Config.freeBool s.fresh = false then some .handle
  else if Config.freeBool (s.fresh + 1) then none else some .prot
/-- Records a new owner (R143 step 4). -/
def State.rebindTo (s : State) (c slot : Nat) (o : ChanOp) : State :=
  ((s.withdrawEnd c slot).modEp c slot (fun e => { e with state := 2, owner := o.val.toNat })).chanAnswer o (.vals [])
/-- An unbinding request of an exiting owner (R297). -/
def State.unbindEnd (s : State) (c slot who : Nat) : State :=
  if (s.ep c slot).owns who then s.modEp c slot (fun e => { e with state := 1, owner := 0 }) else s

/-- An operation is held while its pair is in XFER, and behind those held before it (R133, R143 step 5). -/
def State.mustHold (s : State) (c slot form : Nat) : Bool :=
  let e := s.ep c (sendSlot slot)
  if form = 4 ∨ form = 5 ∨ form = 6 ∨ form = 7 ∨ form = 8 then (decide (e.cap = 0) && s.pairXfer c slot) || !e.held.isEmpty
  else if form = 1 ∨ form = 3 then s.pairXfer c slot || !e.held.isEmpty
  else if form = 2 ∨ form = 20 then !e.held.isEmpty
  else false
/-- A request that may change the owner of this end is held: what comes after it is checked against the new owner (R143 step 5). -/
def State.ownerHeld (s : State) (c slot : Nat) : Bool :=
  (s.ep c (sendSlot slot)).held.any (fun q => decide (hSlot q.handle = slot ∧ (q.form = 2 ∨ q.form = 3 ∨ q.form = 20)))
/-- The first steps of a SENDD that has passed its checks: each source tile is taken, of HBM the bytes with their records, and a waymark's handle
is checked at its record (R98, R99 step 1, R146). -/
def State.takeRange (s : State) (c slot : Nat) (o : ChanOp) : State :=
  let ty := (s.ep c slot).ty
  let len := tyCount ty * tyTile ty
  let pa := o.val.toNat
  let s1 := (s.modEp c slot (fun e => { e with lending := some o })).chanBlock o
  if o.resend then
    s1.ask c o.who o.asid o.id (if hModule o.va = s.modid then .core (hHome o.va) else .remote (hModule o.va)) (.mark false (hHome o.va) (hSlot o.va) o.va ty c slot)
  else if placeOf (paLocal pa) = .hbm then
    s1.ask c o.who o.asid o.id (s.homeOf pa) (.lendOpen (paLocal pa) len (tyCount ty) c slot (s.epHandle c (slot + 1)))
  else (touchedTiles (paLocal pa) len).foldl (fun s t => s.ask c o.who o.asid o.id (s.homeOf pa) (.lendTile t.1 t.2 c slot)) s1
/-- One operation at its channel home (R133, R142 to R146, R149). -/
def State.chanGo (s : State) (c : Nat) (o : ChanOp) : State :=
  let slot := hSlot o.handle
  let s0 := sendSlot slot
  let hold (s : State) : State := s.modEp c s0 (fun e => { e with held := e.held ++ [o] })
  if o.form = 20 then
    -- an unbinding request (R297)
    if s.mustHold c slot 20 then hold s else s.unbindEnd c slot o.who
  else if s.ownerHeld c slot ∧ o.form ≠ 13 then (hold s).chanBlock o
  else match s.chanCheck c o with
    | some t => s.chanTrap o t
    | none =>
      let s1 := s.bump (if o.form = 3 ∧ s.knows o.val.toNat = false then 2 else 0)
      match (if o.form = 3 then s.rebindCheck (s.ep c slot).asid o.val.toNat else none) with
      | some t => s1.chanTrap o t
      | none =>
        if s.mustHold c slot o.form then (hold s1).chanBlock o
        else match o.form with
        | 1 => (s.closeEnd c slot).chanAnswer o (.vals [])
        | 2 => (s.modEp c slot (fun e => { e with state := 2, owner := o.who })).chanAnswer o (.vals [])
        | 3 => s1.rebindTo c slot o
        | 13 => s.chanAnswer o (.vals [(s.probeWord c slot).setWidth 1024])
        | _ =>
          if s.peerGone c o then s.chanTrap o .handle
          else match o.bad with
          | some t => s.chanAnswer o (.trap t)
          | none =>
            if o.form = 5 ∨ o.form = 7 then s.offerRecv c slot o
            else if o.form = 8 ∧ o.lent = false then s.takeRange c slot o
            else s.offerSend c slot o
/-- The pair has left XFER: held arrivals proceed in order (R133). -/
def State.releaseHeld (s : State) (c slot : Nat) : State :=
  let hs := (s.ep c slot).held
  hs.foldl (fun s o => s.chanGo c o) (s.modEp c slot (fun e => { e with held := [] }))
/-- A pair whose operations waited for a walk of a withdrawn translation looks again (R145). -/
def State.kickPair (s : State) (c slot : Nat) : State :=
  let e := s.ep c slot
  match e.waiting, (s.ep c (slot + 1)).waiting with
  | some o, some r => if e.cap = 0 then s.matchPair c slot o r else s.kickRing c slot
  | some _, none | none, some _ => if 0 < e.cap then s.kickRing c slot else s
  | none, none => s

/-! ## IO endpoints and timers (R139) -/

/-- A word as eight bytes, and back. -/
def wordBytes (w : Word) : List Byte := leBytes 8 w.toNat
def bytesWord (bs : List Byte) : Word := BitVec.ofNat 64 (leNat (bs.take 8))
/-- Whether a form suits a unit (R139). -/
def unitSuits (unit form : Nat) : Bool :=
  if unit = 0 then decide (form = 4 ∨ form = 5 ∨ form = 6 ∨ form = 7)
  else if unit ≤ 4 then decide (form = 7)
  else if unit ≤ 8 then decide (form = 6)
  else if unit = 9 then decide (form = 5)
  else decide (form = 4 ∨ form = 5)
def State.unitXfer (s : State) (i : Nat) : Bool := s.xfers.any (fun x => decide (x.core = 1536 ∧ x.slot = i))
/-- The operand of a waiting SENDT or RECVT of a unit is good to use: taken again if a shoot-down has withdrawn it (R145), its trap answered, or its
walk queued; the operation waits in the meantime. -/
def State.unitVa (s : State) (o : ChanOp) (ty : BitVec 16) (gone : State) (go : ChanOp → State) : State :=
  match s.anew o ty with
  | none => s.walkFor o
  | some q => match q.bad with
    | some t => gone.chanAnswer q (.trap t)
    | none => go q
/-- A waiting operation of a unit slot goes on when it can. -/
def State.kickUnit (s : State) (i : Nat) : State :=
  let u := s.unit i
  let s1 := match u.waiting with
    | none => s
    | some o =>
      if u.unit = 10 then
        match u.deadline with
        | some d => if d ≤ s.dtime then (s.setUnit i { u with waiting := none, deadline := none }).chanAnswer o (.vals [BitVec.ofNat 1024 s.dtime]) else s
        | none => s
      else match u.inq with
        | [] => s
        | m :: rest =>
          if o.form = 5 then (s.setUnit i { u with waiting := none, inq := rest }).chanAnswer o (.vals [(bytesWord m).setWidth 1024])
          else
            s.unitVa o u.ty (s.setUnit i { u with waiting := none }) (fun o =>
              (s.setUnit i { u with waiting := none, inq := rest }).openXfer
                { xferOf 1536 i (tyCount u.ty) (tyTile u.ty) with recv := some o, dst := o.val.toNat, data := m })
  let v := s1.unit i
  match v.sender with
  | none => s1
  | some o =>
    if v.unit ≠ 10 ∧ v.cap ≤ v.outq.length then s1
    else if o.form = 4 then (s1.setUnit i { v with sender := none }).openXfer { xferOf 1536 i 1 64 with send := some o }
    else s1.unitVa o v.ty (s1.setUnit i { v with sender := none }) (fun o =>
      (s1.setUnit i { v with sender := none }).openXfer { xferOf 1536 i (tyCount v.ty) (tyTile v.ty) with send := some o, src := o.val.toNat })
/-- PROBE's status of a unit's slot (R149): for a queue into the module its messages, for one out of it the messages that the unit still holds and
room for another. A host queue that holds messages both ways counts those towards the module. A timer is READY when a RECV would return, not when
a SEND would (DESIGN CHOICE, log 82). -/
def State.unitProbe (s : State) (i : Nat) : Word :=
  let u := s.unit i
  let room := decide (u.outq.length < u.cap)
  let ready := if u.unit = 10 then (match u.deadline with | some d => decide (d ≤ s.dtime) | none => false)
    else if u.unit = 0 then !u.inq.isEmpty || room
    else if 5 ≤ u.unit ∧ u.unit ≤ 8 then room else !u.inq.isEmpty
  let count := if u.inq.isEmpty then u.outq.length else u.inq.length
  let rebind := s.net.any (fun m => m.here && (match m.body with | .chanSend _ o => decide (o.form = 3 ∧ hKind o.handle = u.kind ∧ hSlot o.handle = i) | _ => false))
  BitVec.ofNat 64 (count * 2 ^ 16 + rebind.toNat * 4 + ready.toNat)
/-- The checks of an operation at a unit (R130, R142, R143), with the privilege of the Borer record queue (R139). -/
def State.unitCheck (s : State) (o : ChanOp) : Option Trap :=
  let u := s.unit (hSlot o.handle)
  let no (c : Cause) : Option Trap := some ⟨c, o.handle, 0, 0⟩
  if hGen o.handle ≠ u.gen ∨ u.state = 0 ∨ u.kind ≠ hKind o.handle then no .handle
  else if o.form = 2 then
    if u.state = 2 then no .handle
    else if hType o.handle ≠ u.ty then no .chanType
    else if !s.mayBind o.asid u.asid then no .prot else none
  else if o.form = 5 ∧ u.unit = 9 ∧ o.priv = false then some ⟨.priv, o.val, 0, 0⟩
  else if !(decide (u.state = 2 ∧ u.owner = o.who) || ((decide (o.form = 1 ∨ o.form = 3)) && o.priv)) then no .prot
  else if o.form ≠ 1 ∧ o.form ≠ 3 ∧ o.form ≠ 13 ∧ (unitSuits u.unit o.form = false ∨ tyClass u.ty ≠ (if o.form = 6 ∨ o.form = 7 then 1 else 0)) then no .chanType
  else if hType o.handle ≠ u.ty then no .chanType
  else if o.form = 3 then (match s.rebindCheck u.asid o.val.toNat with | some c => no c | none => none)
  else none
/-- One operation at a unit. -/
def State.unitGo (s0 : State) (o : ChanOp) : State :=
  let i := hSlot o.handle
  let u := s0.unit i
  let s := s0.bump (if o.form = 3 ∧ s0.knows o.val.toNat = false then 2 else 0)
  match s0.unitCheck o with
  | some t => s.chanAnswer o (.trap t)
  | none =>
    let out (s : State) (q : Option ChanOp) : State := match q with | some q => s.chanTrap q .handle | none => s
    match o.form with
    | 1 => (out (out (s.setUnit i { UnitSlot.free with gen := nextGen u.gen }) u.waiting) u.sender).chanAnswer o (.vals [])
    | 2 => (s.setUnit i { u with state := 2, owner := o.who }).chanAnswer o (.vals [])
    | 3 => (out (out (s.setUnit i { u with owner := o.val.toNat, state := 2, waiting := none, sender := none }) u.waiting) u.sender).chanAnswer o (.vals [])
    | 13 => s.chanAnswer o (.vals [(s.unitProbe i).setWidth 1024])
    | _ =>
      match o.bad with
      | some t => s.chanAnswer o (.trap t)
      | none =>
        if o.form = 5 ∨ o.form = 7 then ((s.setUnit i { u with waiting := some o }).chanBlock o).kickUnit i
        else ((s.setUnit i { u with sender := some o }).chanBlock o).kickUnit i
/-- An operation on a unit's slot waits where it arrived: a CLOSE or REBIND that has passed its checks, while a transfer is in progress, and what
comes behind one that may change the owner (R133, R143). -/
def State.unitHolds (s : State) (m : Msg) (o : ChanOp) : Bool :=
  let before := s.net.takeWhile (fun x => x.id != m.id)
  let owner (x : Msg) : Bool := x.here && (match x.body with
    | .chanSend _ q => decide (hKind q.handle = hKind o.handle ∧ hSlot q.handle = hSlot o.handle ∧ (q.form = 1 ∨ q.form = 3))
    | _ => false)
  (decide (o.form ≠ 13) && before.any owner) || (decide (o.form = 1 ∨ o.form = 3) && s.unitXfer (hSlot o.handle) && (s.unitCheck o).isNone)
/-- An operation on a unit's slot arrives. -/
def State.unitArrive (s : State) (m : Msg) (o : ChanOp) : State :=
  if s.unitHolds m o then (if m.here then s else (s.stay m.id).chanBlock o) else (s.take m.id).unitGo o
/-- A completion or fault word of Borer for system software, in every Borer record queue that has room; the spec gives the word no layout (R139;
DESIGN CHOICE, log 109). -/
def State.borerWord (s : State) : State :=
  let qs := s.units.filter (fun u => decide (u.2.unit = 9 ∧ u.2.kind = 1 ∧ u.2.state ≠ 0 ∧ u.2.inq.length < u.2.cap))
  (qs.foldl (fun s e => (s.setUnit e.1 { e.2 with inq := e.2.inq ++ [wordBytes (Config.freeReg s.fresh)] }).kickUnit e.1) s).bump 1
/-- After every move: pairs and units whose operations wait for the walk of a withdrawn translation look again (R145). -/
def State.kickStale (s : State) : State :=
  let stale (o : Option ChanOp) : Bool := match o with | some o => o.stale | none => false
  let pairs := s.cores.flatMap (fun (k : Nat × Core) => (k.2.eps.filter (fun e => stale e.2.waiting)).map (fun e => (k.1, sendSlot e.1)))
  let s1 := pairs.dedup.foldl (fun s e => s.kickPair e.1 e.2) s
  ((s.units.filter (fun u => stale u.2.waiting || stale u.2.sender)).map (·.1)).foldl (fun s i => s.kickUnit i) s1

/-! ## Issue of the CHAN group (R140, R150) -/

/-- Fields of a T2 word of the group. -/
def infoCH (o : T2) (w : Nat) : Issue :=
  { word := w, gu := o.gu, gs := [o.a.toNat, o.b.toNat], reads := [(0, o.a.toNat), (0, o.b.toNat)], long := true, ext := true }
/-- An operation of which nothing is known. -/
def blankOp : ChanOp := ⟨0, 0, 0, 0, 0, 0, 0, Under.none, 0, false, none, .launchUnit, 0, none, false, false, [], false, 0, [], false⟩
/-- A word of the CHAN group that names a handle: it leaves for its channel home, where everything else is checked. The operand's translation is
taken on the way (R145); the handle's type stands for the channel's, since a handle of another type is refused before the operand counts. -/
def chanBody (form word l : Nat) (h x : Word) (dest : Dest) (writes : List RegRef) (pk : Nat) (s : State) : State :=
  let p := s.proc pk
  if !s.handleNamed form h then s.raise pk ⟨.handle, h, 0, 0⟩
  else if form = 1 ∧ hKind h ≠ 0 ∧ p.priv = false then s.raise pk ⟨.priv, BitVec.ofNat 64 word, 0, 0⟩
  else if form = 5 ∧ hKind h = 1 ∧ hModule h = s.modid ∧ (s.unit (hSlot h)).unit = 9 ∧ p.priv = false then s.raise pk ⟨.priv, BitVec.ofNat 64 word, 0, 0⟩
  else
    let away := decide (hModule h ≠ s.modid)
    let sends := decide (form = 4 ∨ form = 6 ∨ form = 8)
    let dst : Home := if away then .remote (hModule h) else if hKind h = 0 ∨ hKind h = 3 then .core (hHome h) else .mmio 1
    let op := s.nextId
    let o : ChanOp := { blankOp with
      id := op, who := s.originWord pk, op := op, form := form, handle := h, val := if form = 5 then BitVec.ofNat 64 word else x, va := x, asid := p.asid, priv := p.priv
      limit := p.r.ctl.timeout.toNat % 2 ^ 40, via := .core (coreOf pk) }
    if s.awayWait pk dst then s.awayBlock pk dst
    else if sends && !p.clearHere then s
    else match s.chanVa (s.ctxOf pk) false o (hType h) with
      | none => s.queueWalk (s.ctxOf pk) x.toNat
      | some o =>
        let s1 := { s with nextId := s.nextId + 1 }.route (.core (coreOf pk)) (coreOf pk) pk p.asid (s.askey.get 0 p.asid) dst
          (if form = 5 ∨ form = 7 then .chanRecv (hHome h) o else .chanSend (hHome h) o)
        s1.modProc pk (fun p =>
          let q := p.open_ op l false .chan dest h (if form = 5 ∨ form = 7 then 3 else 0) writes none [] o.under
          if away && sends then { q with far := q.far ++ [(5, op)] } else q)

/-- The lowest pair of free endpoint slots of a core (R128). -/
def State.freePair (s : State) (c : Nat) : Option Nat := (List.range 256).find? (fun i => decide ((s.ep c (2 * i)).state = 0 ∧ (s.ep c (2 * i + 1)).state = 0))
/-- The ring tiles of a core from one on take the TEMPTY row for a process, up to the first that has to wait: how many have taken it. -/
def State.emptyRing (s : State) (pk c tile : Nat) : Nat → State × Nat
  | 0 => (s, 0)
  | n + 1 =>
    if !s.atTurn [(c, tile)] (.proc pk) then (s, 0)
    else match s.applyRow .tempty c tile with
      | (s1, true) => let x := s1.emptyRing pk c (tile + 1) n; (x.1, x.2 + 1)
      | (s1, false) => (s1, 0)
/-- A MKCH goes on (R141): it waits for a pair of slots, then for each ring tile, at which it keeps its place (R80). -/
def State.mkchGo (s : State) (pk : Nat) : State :=
  match (s.proc pk).multi with
  | none => s
  | some m =>
    let p := s.proc pk
    let c := coreOf pk
    let d := (m.args.headD 0).toNat
    let ty : BitVec 16 := BitVec.ofNat 16 d
    let cap := fld d 40 8
    let ring := fld d 48 11
    match s.freePair c with
    | none => s
    | some i =>
      let n := cap * tySlotTiles ty
      match s.emptyRing pk c (ring + m.prog) (n - m.prog) with
      | (s1, k) =>
        let s2 := if k = 0 then s1 else s1.settle
        if m.prog + k < n then
          (s2.modProc pk (fun p => { p with multi := some { m with prog := m.prog + k } })).queueAt (.core c) (.core c) [(c, ring + m.prog + k)] .tempty (.proc pk)
        else
          let me := s.originWord pk
          let mk (slot : Nat) (free : Bool) : Endpoint :=
            { Endpoint.free with
              state := if free then 1 else 2, gen := (s.ep c slot).gen, owner := if free then 0 else me, maker := me, asid := p.asid, ty := ty, cap := cap, ring := ring }
          let s3 := (s2.setEp c (2 * i) (mk (2 * i) (decide (fld d 32 1 = 1)))).setEp c (2 * i + 1) (mk (2 * i + 1) (decide (fld d 33 1 = 1)))
          (s3.unqueue (.proc pk)).complete pk m.op [(s3.epHandle c (2 * i)).setWidth 1024, (s3.epHandle c (2 * i + 1)).setWidth 1024]

/-- MKCH (R141). Creates a channel on the issuing core and returns both handles. -/
def execMkch (o : T2) (s : State) : Host.Outcome State Fault Refusal :=
  let w := packT2 0x3D 0 o
  let base := infoCH o w
  issue { base with gs := base.gs ++ [o.a.toNat + 1], reads := [(0, o.b.toNat)], writes := [(0, o.a.toNat), (0, o.a.toNat + 1)] } (fun pk s =>
    let p := s.proc pk
    let d := (p.r.getG o.b).toNat
    let ty : BitVec 16 := BitVec.ofNat 16 d
    let cap := fld d 40 8
    let ring := fld d 48 11
    let k := tySlotTiles ty
    if fld d 59 5 ≠ 0 ∨ fld d 34 6 ≠ 0 ∨ fld d 16 16 ≠ 0 ∨ 64 < cap ∨ (cap = 0 ∧ ring ≠ 0) ∨ tyGood ty = false then s.raise pk ⟨.illegal, BitVec.ofNat 64 w, 0, 0⟩
    else if 2048 < ring + cap * k then s.raise pk ⟨.prot, p.r.getG o.b, 0, 0⟩
    else match s.guestBar pk 1 (tileAddr (coreOf pk) ring) (cap * k * 64) with
    | some c => (s.barNotice pk 1 (tileAddr (coreOf pk) ring) (cap * k * 64) c).raise pk ⟨c, p.r.getG o.b, 0, 0⟩
    | none =>
      let op := s.nextId
      ({ s with nextId := op + 1 }.modProc pk (fun p =>
        { (p.open_ op o.l.toNat false .chan (.gg o.a (o.a + 1)) (p.r.getG o.b) 0 [(0, o.a.toNat), (0, o.a.toNat + 1)]) with multi := some ⟨op, 0, w, [BitVec.ofNat 64 d], 0, []⟩ })).mkchGo pk) s

/-- CLOSE (R144). Frees an endpoint and increments its generation. -/
def execClose (o : T1) (s : State) : Host.Outcome State Fault Refusal :=
  issue (infoT1 o (packT1 0x3D 1 o)) (fun pk s => chanBody 1 (packT1 0x3D 1 o) o.l.toNat ((s.proc pk).r.getG o.a) 0 .none [] pk s) s

/-- BIND (R142). Makes the process the owner of an unbound endpoint. -/
def execBind (o : T1) (s : State) : Host.Outcome State Fault Refusal :=
  issue (infoT1 o (packT1 0x3D 2 o)) (fun pk s => chanBody 2 (packT1 0x3D 2 o) o.l.toNat ((s.proc pk).r.getG o.a) 0 .none [] pk s) s

/-- A word with a handle in g[a] and an operand in g[b]. -/
def chanWord2 (form : Nat) (o : T2) (s : State) : Host.Outcome State Fault Refusal :=
  let w := packT2 0x3D form o
  issue (infoCH o w) (fun pk s => chanBody form w o.l.toNat ((s.proc pk).r.getG o.a) ((s.proc pk).r.getG o.b) .none [] pk s) s

/-- REBIND (R143). Moves an endpoint to another process. -/
def execRebind (o : T2) (s : State) : Host.Outcome State Fault Refusal := chanWord2 3 o s

/-- SEND (R145). Sends a word on a channel. -/
def execSend (o : T2) (s : State) : Host.Outcome State Fault Refusal := chanWord2 4 o s

/-- RECV (R145). Receives a word from a channel. -/
def execRecv (o : T2) (s : State) : Host.Outcome State Fault Refusal :=
  let w := packT2 0x3D 5 o
  issue { infoCH o w with reads := [(0, o.a.toNat)], writes := [(0, o.b.toNat)] } (fun pk s =>
    chanBody 5 w o.l.toNat ((s.proc pk).r.getG o.a) 0 (.g o.b 8 false) [(0, o.b.toNat)] pk s) s

/-- SENDT (R145). Sends a tile block on a channel. -/
def execSendt (o : T2) (s : State) : Host.Outcome State Fault Refusal := chanWord2 6 o s

/-- RECVT (R145). Receives a tile block or installs a waymark. -/
def execRecvt (o : T2) (s : State) : Host.Outcome State Fault Refusal :=
  let w := packT2 0x3D 7 o
  let base := infoCH o w
  issue { base with gs := base.gs ++ [o.b.toNat + 1], writes := [(0, o.b.toNat + 1)] } (fun pk s =>
    chanBody 7 w o.l.toNat ((s.proc pk).r.getG o.a) ((s.proc pk).r.getG o.b) (.g (o.b + 1) 8 false) [(0, o.b.toNat + 1)] pk s) s

/-- SENDD (R146). Lends a tensor or re-sends a waymark on a deferred channel. -/
def execSendd (o : T2) (s : State) : Host.Outcome State Fault Refusal := chanWord2 8 o s

/-- PULL (R147). Pulls each VIA tile of a range and waits until it is FULL. -/
def execPull (o : T2) (s : State) : Host.Outcome State Fault Refusal :=
  issue (infoT2 o (packT2 0x3D 9 o)) (fun pk s =>
    let p := s.proc pk
    let n := (p.r.getG o.b).toNat
    let ea := p.r.getG o.a
    if n = 0 then s.setProc pk p.pass
    else s.translated pk .rd 7 ea.toNat (fun pa u s =>
      match tagRange 7 n pa with
      | .error c => s.raise pk ⟨c, ea, 0, 0⟩
      | .ok (c, t) => tagSend 7 n o.l.toNat ea pa u c t .none [] pk s)) s

/-- DROPW (R147). Drops a waymark held by the process. -/
def execDropw (o : T1) (s : State) : Host.Outcome State Fault Refusal :=
  issue (infoT1 o (packT1 0x3D 10 o)) (fun pk s => chanBody 10 (packT1 0x3D 10 o) o.l.toNat ((s.proc pk).r.getG o.a) 0 .none [] pk s) s

/-- PROBE (R149). Writes the status of an endpoint without waiting. -/
def execProbe (o : T2) (s : State) : Host.Outcome State Fault Refusal :=
  let w := packT2 0x3D 13 o
  issue { infoCH o w with reads := [(0, o.a.toNat)], writes := [(0, o.b.toNat)] } (fun pk s =>
    chanBody 13 w o.l.toNat ((s.proc pk).r.getG o.a) 0 (.g o.b 8 false) [(0, o.b.toNat)] pk s) s

/-! ## ALT and ALTF (R148) -/

/-- One more dword of a local-view general-store list is read as a plain load (R82): the state after it. While a tile makes it wait, the process
keeps its place there (R80). A guest's read is a load request of its own, which the edge slice checks (R264). -/
def State.readNext (s : State) (pk : Nat) (va : Word) : State :=
  let c := coreOf pk
  let o := va.toNat - 0xF0000000000000
  let ts := tilesUnder c o 8
  if s.busyTo (.core c) (s.originWord pk) (.core c) || (s.proc pk).acquires c (.core c) then s
  else if (s.proc pk).guest then
    let op := s.nextId
    let pa := s.paOf (scratchAddr c o)
    if s.awayWait pk (.core c) then s.awayBlock pk (.core c)
    else (({ s with nextId := op + 1 } : State).request pk op (.load pa 8 false false) va pa Under.none 0).modProc pk (fun p => p.openStep op .load .dword va (some (.core c)))
  else
    let wait (s : State) : State := (s.modProc pk (fun p => { p with base := some p.word, polls := some (va, ts) })).queueAt (.core c) (.core c) ts .load (.proc pk)
    if !s.atTurn ts (.proc pk) then wait s
    else match s.touchAll .load ts with
      | (s1, false) => wait s1
      | (s1, true) =>
        let s2 := s1.unqueue (.proc pk)
        if s2.hurt (scratchAddr c o) 8 then s2.raise pk ⟨.ecc, va, 0, 0⟩
        else s2.modProc pk (fun p => { p with base := some p.word, polls := none, buf := p.buf ++ [BitVec.ofNat 64 (s2.view (scratchAddr c o) 8)] })
/-- n bytes at a local-view general-store address through window 0. -/
def inLocalStore (va n : Nat) : Bool := decide (0xF0000000000000 ≤ va ∧ va + n ≤ 0xF0000000020000)

/-- The tile of an ALT's tile guard, where it translates. -/
def State.guardTile (s : State) (pk : Nat) (v : Word) : Option (Nat × Nat) :=
  match s.xlate (s.ctxOf pk) .rd v.toNat with
  | .ok pa _ => if s.isHere pa then (tagRange 3 1 pa).toOption else none
  | _ => none
/-- Whether the receive end of a handle is ready for a process, or the trap of the checks that a RECV or RECVT would make of it (R130, R148): at its
home here. The privilege of the Borer record queue traps with the word of the instruction, which its core adds. -/
def State.endReady (s : State) (who asid : Nat) (priv : Bool) (v : Word) : Except Trap Bool :=
  if hKind v ≠ 0 then
    let u := s.unit (hSlot v)
    let o : ChanOp := { blankOp with who := who, form := if tyClass u.ty = 1 then 7 else 5, handle := v, asid := asid, priv := priv }
    match s.unitCheck o with
    | some t => .error t
    | none => .ok (if u.unit = 10 then (match u.deadline with | some d => decide (d ≤ s.dtime) | none => false) else !u.inq.isEmpty)
  else
    let c := hHome v
    let slot := hSlot v
    let o : ChanOp := { blankOp with who := who, form := if tyClass (s.ep c slot).ty = 0 then 5 else 7, handle := v, asid := asid, priv := priv }
    match s.chanCheck c o with
    | some t => .error ⟨t, v, 0, 0⟩
    | none =>
      let e := s.ep c (sendSlot slot)
      let r := s.ep c slot
      .ok (if e.cap = 0 then (decide (e.pair = .sw) || decide (e.state = 0)) else (decide (r.count ≠ 0) || decide (e.state = 0)))
/-- Whether a tile is ready for a guard: FULL or LENT; one that is VIA starts a pull (R148). -/
def State.tileSeen (s : State) (c t : Nat) : State × Bool :=
  if s.tag c t = .via then (s.startPull c t, false) else (s, decide (s.tag c t = .full ∨ s.tag c t = .lent))
/-- The instruction word stands in the TRAPINFO of PRIV (R300). -/
def Trap.withWord (t : Trap) (w : Nat) : Trap := if t.cause = .priv then { t with info := BitVec.ofNat 64 w } else t
/-- The module on which the home of a guard lies, where that is another one: of a handle, or of a tile whose translation is known. -/
def State.guardAway (s : State) (pk kind : Nat) (v : Word) : Option Nat :=
  match kind with
  | 1 => if hModule v = s.modid then none else some (hModule v)
  | 2 => (match s.xlate (s.ctxOf pk) .rd v.toNat with
    | .ok pa _ => if s.isHere pa then none else some (paModule pa)
    | _ => none)
  | _ => none
/-- What a guard answers: a trap, a miss to wait for, or the state after the look and whether it is ready; of one on another module, what is known of
it. A halted core takes a deadline when issue resumes (R310). -/
def State.guardReady (s : State) (pk kind : Nat) (v : Word) (known : Option Nat) : Except (Option Trap) (State × Bool) :=
  match kind with
  | 1 =>
    let p := s.proc pk
    if !s.handleNamed 5 v then .error (some ⟨.handle, v, 0, 0⟩)
    else if hModule v ≠ s.modid then .ok (s, decide (known = some 2))
    else match s.endReady (s.originWord pk) p.asid p.priv v with
      | .error t => .error (some t)
      | .ok r => .ok (s, r)
  | 2 =>
    match s.xlate (s.ctxOf pk) .rd v.toNat with
    | .miss => .error none
    | .fail c l => .error (some (xlateTrap c l 3 v.toNat))
    | .ok pa _ =>
      match tagRange 3 1 pa with
      | .error c => .error (some ⟨c, v, 0, 0⟩)
      | .ok (c, t) =>
        if !s.isHere pa then .ok (s, decide (known = some 2))
        else match s.guestBar pk 0 (tileAddr c t) (tileSize t) with
          | some x => .error (some ⟨x, v, 0, 0⟩)
          | none => .ok (s.tileSeen c t)
  | 3 => .ok (s, decide (v.toNat ≤ s.dtime) && !(s.core (coreOf pk)).halted)
  | _ => .ok (s, false)
/-- KIND and operand of guard i of a list. -/
def guardKind (list : List Word) (i : Nat) : Nat := fld (list.getD (2 * i) 0).toNat 0 4
def guardVal (list : List Word) (i : Nat) : Word := list.getD (2 * i + 1) 0
/-- The checks of the entries, one after the other (R148): the first trap, or the address whose walk is still to come. -/
def State.guardChecks (s : State) (pk w : Nat) (list : List Word) : List Nat → Except (Option Trap × Word) Unit
  | [] => .ok ()
  | i :: rest =>
    if 3 < (list.getD (2 * i) 0).toNat then .error (some ⟨.illegal, BitVec.ofNat 64 w, 0, 0⟩, 0)
    else match s.guardReady pk (guardKind list i) (guardVal list i) none with
      | .error t => .error (t.map (fun t => t.withWord w), guardVal list i)
      | .ok _ => s.guardChecks pk w list rest
/-- The guards in search order, with what is known of those on other modules: the first that is ready, or what stops the search. -/
def State.search (pk : Nat) (list : List Word) (far : List (Nat × Nat)) : List Nat → State → Except (Option Trap × Word) (State × Option Nat)
  | [], s => .ok (s, none)
  | i :: rest, s =>
    match s.guardReady pk (guardKind list i) (guardVal list i) ((far.find? (fun f => decide (f.1 = i))).map (·.2)) with
    | .error t => .error (t, guardVal list i)
    | .ok (s1, true) => .ok (s1, some i)
    | .ok (s1, false) => State.search pk list far rest s1

/-! ## Guards of an ALT on other modules (R133, R148; DEDUCED, log 21) -/

/-- What an ALT knows of a guard. -/
def State.setFar (s : State) (pk i k : Nat) : State :=
  s.modProc pk (fun p => { p with multi := p.multi.map (fun (m : Multi) => { m with far := m.far.filter (fun f => f.1 != i) ++ [(i, k)] }) })
/-- The home of a guard is asked to watch it, or to commit it. -/
def State.askGuard (s : State) (pk i : Nat) (m : Multi) (commit : Bool) : State :=
  let p := s.proc pk
  let list := m.args.drop 1
  let k := guardKind list i
  let v := guardVal list i
  match s.guardAway pk k v with
  | none => s
  | some mod_ =>
    let t : Word × Nat × Nat := match k, s.xlate (s.ctxOf pk) .rd v.toNat with
      | 2, .ok pa _ => (v, ((tagRange 3 1 pa).toOption).getD (0, 0))
      | _, _ => (v, 0, 0)
    let g : Guarding := ⟨s.originWord pk, m.op, i, k, t.1, t.2.1, t.2.2, p.asid, p.priv, .core (coreOf pk), false⟩
    (s.sendAway (coreOf pk) (s.originWord pk) mod_ p.asid (s.askey.get 0 p.asid) (.guardAsk g commit)).setFar pk i (if commit then 3 else 0)
/-- Guards on other modules that have not been asked for yet. -/
def State.askGuards (s : State) (pk : Nat) (m : Multi) : State :=
  let list := m.args.drop 1
  let new := (List.range (list.length / 2)).filter (fun i => (s.guardAway pk (guardKind list i) (guardVal list i)).isSome && !m.far.any (fun f => decide (f.1 = i)))
  new.foldl (fun s i => s.askGuard pk i m false) s
/-- The homes of guards that are watched for an ALT hear that it is over. -/
def State.dropGuards (s : State) (pk : Nat) (m : Multi) : State :=
  let list := m.args.drop 1
  let mods := (m.far.filterMap (fun f => s.guardAway pk (guardKind list f.1) (guardVal list f.1))).dedup
  mods.foldl (fun s k => s.tell k (portOf (coreOf pk)) (s.originWord pk) (s.proc pk).asid (.guardDrop (s.originWord pk) m.op)) s
/-- A channel guard in SW is committed: the sender's timeout is cancelled (R133). -/
def State.commitEnd (s : State) (v : Word) : State :=
  if hKind v = 0 ∧ (s.ep (hHome v) (sendSlot (hSlot v))).pair = .sw then
    s.modEp (hHome v) (sendSlot (hSlot v)) (fun e => { e with waiting := e.waiting.map (fun (q : ChanOp) => { q with committed := true }) })
  else s
/-- The ALT or ALTF has chosen guard i. -/
def State.altDone (s : State) (pk : Nat) (m : Multi) (i : Nat) : State :=
  let n := fld (m.args.headD 0).toNat 0 4
  let next := if m.form = 2 then (i + 1) % n else 0
  (s.dropGuards pk m).complete pk m.op [BitVec.ofNat 1024 (n + next * 16 + i * 256)]
/-- An ALT or ALTF searches its guards (R148); its list stands in args after the selector. Guards on other modules are asked for first, and it chooses
none before all of them have answered; one that it would choose is committed at its home. -/
def State.altGo (s0 : State) (pk : Nat) : State :=
  match (s0.proc pk).multi with
  | none => s0
  | some m0 =>
    let s := s0.askGuards pk m0
    let m := (s.proc pk).multi.getD m0
    let x := (m.args.headD 0).toNat
    let list := m.args.drop 1
    let n := fld x 0 4
    let st := fld x 4 3
    if m.far.any (fun f => decide (f.2 = 0 ∨ f.2 = 3)) then s
    else match m.far.find? (fun f => decide (f.2 = 4)) with
      | some f => s.altDone pk m f.1
      | none => match State.search pk list m.far ((List.range n).map (fun j => (st + j) % n)) s with
        | .error (some t, _) => (s.dropGuards pk m).failOp pk m.op (t.withWord m.word)
        | .error (none, v) => s.queueWalk (s.ctxOf pk) v.toNat
        | .ok (s1, none) => s1
        | .ok (s1, some i) =>
          let v := guardVal list i
          if (s1.guardAway pk (guardKind list i) v).isSome then s1.askGuard pk i m true
          else (if guardKind list i = 1 then s1.commitEnd v else s1).altDone pk m i
/-- A home has answered: the ALT looks again when its process has its turn. -/
def State.altHear (s : State) (msg : Msg) (who op i code : Nat) (t : Option Trap) : State :=
  let pk := s.keyOf who
  match (s.proc pk).multi, t with
  | some m, some t => if m.op = op then (s.dropGuards pk m).failed pk op (t.withWord m.word) else s
  | some m, none =>
    if m.op = op then
      let s1 := s.setFar pk i code
      if (s.proc pk).state = .blocked ∧ (s.proc pk).why = 2 ∧ s.resident pk = true then s1.wake pk else s1
    else s.tell msg.src.module msg.src.port who 0 (.guardDrop who op)
  | none, _ => s.tell msg.src.module msg.src.port who 0 (.guardDrop who op)
/-- The home of a guard looks at it: a trap of its checks, or the state after the look and whether it is ready. -/
def State.guardLook (s : State) (g : Guarding) : Except Trap (State × Bool) :=
  if g.kind = 1 then (match s.endReady g.who g.asid g.priv g.val with
    | .error t => .error t
    | .ok r => .ok (s, r))
  else .ok (s.tileSeen g.core g.tile)
/-- The process of a guard is told. -/
def State.guardTell (s : State) (g : Guarding) (code : Nat) (t : Option Trap) : State :=
  match g.via with
  | .remote m p => s.tell m p g.who g.asid (.guardSaid g.who g.op g.idx code t)
  | _ => s
def State.setGuard (s : State) (g : Guarding) : State :=
  { s with guards := s.guards.filter (fun x => !decide (x.who = g.who ∧ x.op = g.op ∧ x.idx = g.idx)) ++ [g] }
def State.dropGuard (s : State) (who op : Nat) : State := { s with guards := s.guards.filter (fun x => !decide (x.who = who ∧ x.op = op)) }
/-- A request for a guard arrives at its home. -/
def State.guardArrive (s : State) (g : Guarding) (commit : Bool) : State :=
  match s.guardLook g, commit with
  | .error t, _ => (s.dropGuard g.who g.op).guardTell g 0 (some t)
  | .ok (s1, true), true => ((if g.kind = 1 then s1.commitEnd g.val else s1).dropGuard g.who g.op).guardTell g 4 none
  | .ok (s1, r), _ => (s1.setGuard { g with told := r }).guardTell g (if r && !commit then 2 else 1) none
/-- After every move: a guard that has become ready, or whose checks fail now, is reported. -/
def State.kickGuards (s : State) : State :=
  (s.guards.filter (fun g => !g.told)).foldl (fun s g =>
    match s.guardLook g with
    | .error t => (s.dropGuard g.who g.op).guardTell g 0 (some t)
    | .ok (s1, true) => (s1.setGuard { g with told := true }).guardTell g 2 none
    | .ok (s1, false) => s1) s
/-- The MKCH, ALT or ALTF of a process goes on, if it has one that waits. -/
def State.multiGo (s : State) (pk : Nat) : State :=
  match (s.proc pk).multi with
  | none => s
  | some m => if m.form = 0 then s.mkchGo pk else s.altGo pk
/-- Its wait-for edge (R141, R287): the slot table, or the ring tile that it waits for; of an ALT, which is BLOCKED on every guard, the end of the first
channel guard, else the tile of the first tile guard (DESIGN CHOICE, log 83), else none. -/
def State.multiEdge (s : State) (pk : Nat) (m : Multi) : Word :=
  let list := m.args.drop 1
  let kinds (k : Nat) : Option Nat := (List.range (list.length / 2)).find? (fun i => decide (guardKind list i = k))
  if m.form = 0 then
    if (s.freePair (coreOf pk)).isNone then edgeTable (s.word pk) else s.tileEdge (coreOf pk, fld (m.args.headD 0).toNat 48 11 + m.prog)
  else match kinds 1, kinds 2 with
    | some i, _ => edgeEndpoint (guardVal list i)
    | none, some i => (match s.xlate (s.ctxOf pk) .rd (guardVal list i).toNat with | .ok pa _ => edgeTile pa | _ => edgeTile 0)
    | none, none => 0
/-- A process that is BLOCKED because its MKCH, ALT or ALTF keeps its next word back has that wait's edge (R141, R148). -/
def State.multiBlock (s : State) (pk : Nat) : State :=
  let p := s.proc pk
  match p.multi with
  | some m => if p.state = .blocked ∧ p.why = 2 ∧ p.on = m.op then s.setProc pk { p with wait := s.multiEdge pk m } else s
  | none => s

/-- ALT and ALTF. The list is read a dword a step and its entries are checked; then the guards are searched until one is ready. -/
def altWord (w : Nat) (fair : Bool) (o : T2) (s : State) : Host.Outcome State Fault Refusal :=
  issue { infoCH o w with writes := [(0, o.b.toNat)] } (fun pk s =>
    let p := s.proc pk
    let x := (p.word.getG o.b).toNat
    let n := fld x 0 4
    let st := fld x 4 3
    let va := p.word.getG o.a
    if n = 0 ∨ 8 < n ∨ n ≤ st ∨ fld x 7 1 ≠ 0 ∨ x / 2 ^ 11 ≠ 0 ∨ (fair = false ∧ st ≠ 0) then s.raise pk ⟨.illegal, BitVec.ofNat 64 w, 0, 0⟩
    else if va.toNat % 16 ≠ 0 then s.raise pk ⟨.misalign, va, 0, 0⟩
    else if !inLocalStore va.toNat (16 * n) then s.raise pk ⟨.prot, va, 0, 0⟩
    else if p.buf.length < 2 * n then s.readNext pk (va + BitVec.ofNat 64 (8 * p.buf.length))
    else match s.guardChecks pk w p.buf (List.range n) with
      | .error (some t, _) => s.raise pk t
      | .error (none, v) => s.queueWalk (s.ctxOf pk) v.toNat
      | .ok _ =>
        let op := s.nextId
        ({ s with nextId := op + 1 }.modProc pk (fun p =>
          { (p.open_ op o.l.toNat false .chan (.g o.b 8 false) va 3 [(0, o.b.toNat)]) with
            multi := some ⟨op, if fair then 2 else 1, w, BitVec.ofNat 64 x :: p.buf, 0, []⟩ })).altGo pk) s

/-- ALT (R148). Waits on up to eight guards and selects the lowest ready one. -/
def execAlt (o : T2) (s : State) : Host.Outcome State Fault Refusal := altWord (packT2 0x3D 11 o) false o s

/-- ALTF (R148). Fair wait that rotates the start guard. -/
def execAltf (o : T2) (s : State) : Host.Outcome State Fault Refusal := altWord (packT2 0x3D 12 o) true o s

/-! ## Steps of channel homes and units -/

/-- A step of a SENDD is done (R99 step 1, R146): when the whole range is taken, or the waymark checked, the send is offered. -/
def State.takeStep (s : State) (c slot idx : Nat) (o : ChanOp) (a : Answer) : State :=
  let ty := (s.ep c slot).ty
  let ready (s : State) (o : ChanOp) : State := (s.modEp c slot (fun e => { e with lending := none })).offerSend c slot { o with lent := true }
  match a with
  | .trap t =>
    -- the address of a tile that could not be taken, in the address space of the sender
    let info := if 2 ^ 24 ≤ idx then o.va + BitVec.ofNat 64 (tileAddr (idx % 2 ^ 24 / 4096) (idx % 4096) - paLocal o.val.toNat) else t.info
    ((s.modEp c slot (fun e => { e with lending := none })).unlend o).chanAnswer o (.trap { t with info := info })
  | .vals vs =>
    if o.resend then ready s o
    else if idx < 2 ^ 24 then ready s { o with lend := (vs.headD 0).toNat, live := List.range (tyCount ty) }
    else
      let o1 := { o with taken := o.taken ++ [idx % 4096] }
      if (touchedTiles (paLocal o.val.toNat) (tyCount ty * tyTile ty)).length ≤ o1.taken.length then ready s o1
      else s.modEp c slot (fun e => { e with lending := some o1 })
/-- A step of a deferred transfer is done (R99 steps 2 and 3, R103, R104). -/
def State.deferDone (s : State) (x : Xfer) (idx : Nat) (a : Answer) : State :=
  match x.send, a with
  | some _, .trap t => (match s.failXfer x t with | some s1 => s1.releaseHeld x.core x.slot | none => s)
  | some o, .vals vs =>
    let v (i : Nat) : Nat := (vs.getD i 0).toNat
    let go (o : ChanOp) : State := let y := { x with send := some o }; (s.modXfer x.id (fun _ => y)).deferStep y o
    if o.lend = 0 ∧ o.eager = false then
      if !o.resend then go { o with lend := v 0, live := List.range (tyCount (s.xferType x)) }
      else if idx = 2 then go { o with eager := true, val := BitVec.ofNat 64 (v 0) }
      else go { o with lend := v 0, val := BitVec.ofNat 64 (v 1), live := (List.range x.n).filter (fun j => decide (v 2 / 2 ^ j % 2 = 1)) }
    else
      -- the waymark is installed: the SENDD of a rendezvous completes with it (R146)
      let s1 := s.modXfer x.id (fun y => { y with mark := some (BitVec.ofNat 64 (v 0)), done := y.n })
      if x.ringSlot.isNone then s1.chanAnswer o (.vals []) else s1
  | none, _ => s
/-- The answer of a home to a channel home. What comes too late for its operation is given back. -/
def State.chanStep (s : State) (from_ : Src) (c slot op idx : Nat) (a : Answer) : State :=
  match (s.ep c slot).lending, s.xfer op with
  | some o, none => if o.id = op then s.takeStep c slot idx o a else s
  | some o, some x => if o.id = op then s.takeStep c slot idx o a else s.deferDone x idx a
  | none, some x => s.deferDone x idx a
  | none, none =>
    let tiles := if 2 ^ 24 ≤ idx then [idx % 4096] else []
    let lend := match a with | .vals (v :: _) => if idx = 0 then v.toNat else 0 | _ => 0
    if tiles.isEmpty ∧ lend = 0 then s
    else match from_ with
      | .remote m p => s.tell m p 0 0 (.unlend (idx % 2 ^ 24 / 4096) tiles lend)
      | _ => s.giveBack (idx % 2 ^ 24 / 4096) tiles lend

/-- An operation as it stands when it reaches its home: numbered there, with the DTIME of its arrival (R135). -/
def Msg.op (m : Msg) (o : ChanOp) (now : Nat) : ChanOp := { o with id := m.id, via := m.src, arrived := some now }
/-! ## What is called back by a shoot-down on another module (R145) -/

/-- An operation of a process, of a number, at an end of a pair or a unit. -/
def ChanOp.isOp (o : ChanOp) (who op : Nat) : Bool := decide (o.who = who ∧ o.op = op)
/-- Replaces the operations that wait at the homes of this module. -/
def State.mapWaiting (s : State) (f : ChanOp → ChanOp) : State :=
  { s with
    cores := s.cores.map (fun (k : Nat × Core) => (k.1, { k.2 with eps := k.2.eps.map (fun (e : Nat × Endpoint) => (e.1, { e.2 with
      waiting := e.2.waiting.map f, held := e.2.held.map f })) }))
    units := s.units.map (fun (u : Nat × UnitSlot) => (u.1, { u.2 with waiting := u.2.waiting.map f, sender := u.2.sender.map f })) }
/-- The operations that wait at the homes of this module. -/
def State.waitingOps (s : State) : List ChanOp :=
  s.cores.flatMap (fun (k : Nat × Core) => k.2.eps.flatMap (fun e => e.2.waiting.toList ++ e.2.held)) ++ s.units.flatMap (fun u => u.2.waiting.toList ++ u.2.sender.toList)
/-- An operation is called back: while it is on its way, or is being transferred, the call waits; where it waits here it loses its translation and its
module is told to take it again; a SENDD has taken its range, and what is over needs none. -/
def State.recallChan (s : State) (m : Msg) (who op : Nat) : State :=
  let moving := s.net.any (fun x => match x.body with | .chanSend _ o | .chanRecv _ o => o.isOp who op | _ => false) ||
    s.xfers.any (fun x => (x.send.toList ++ x.recv.toList).any (fun o => o.isOp who op))
  let say (s : State) (o : Option ChanOp) : State := (s.take m.id).tell m.src.module m.src.port who 0 (.recalled (.chan who op) o)
  if moving then s.stay m.id
  else match s.waitingOps.find? (fun o => o.isOp who op && decide (o.form ≠ 8)) with
    | some o => say (s.mapWaiting (fun x => if x.isOp who op then { x with stale := true } else x)) (some o)
    | none => say s none
/-- Its new translation is here, or its failure. -/
def State.freshen (s : State) (q : ChanOp) : State :=
  let f (x : ChanOp) : ChanOp := if x.isOp q.who q.op then { x with val := q.val, under := q.under, bad := q.bad, stale := false } else x
  let s1 := s.mapWaiting f
  if hKind q.handle = 0 then s1.kickPair (hHome q.handle) (sendSlot (hSlot q.handle)) else s1.kickUnit (hSlot q.handle)

/-- CHANNEL_SEND_ARRIVE (R133). A send reaches its channel home and waits or matches; so do the operations on handles that neither send
nor receive, the answers of other homes to it, and the calls of shoot-downs on other modules. -/
def execChannelSendArrive (id : Nat) (s : State) : Host.Outcome State Fault Refusal :=
  .next <| match s.inTurn id with
  | some m =>
    (match m.body with
    | .chanSend c o0 =>
      let o := m.op o0 s.dtime
      -- a held promotion of the source keeps it back (R235)
      if s.sourceHeld m.src m.dst then s
      else if hKind o.handle = 3 then
        -- DROPW (R101): it waits for pulls in flight
        match s.markCheck c o.handle o.who none with
        | some t => (s.take id).chanAnswer o (.trap t)
        | none =>
          if !((s.core c).marks.get Mark.free (hSlot o.handle)).pulling.isEmpty then s.stay id
          else ((s.take id).dropMark c (hSlot o.handle)).chanAnswer o (.vals [])
      else if hKind o.handle = 0 then (s.take id).chanGo c o
      else s.unitArrive m o
    | .chanStep c slot op idx a => (s.take id).chanStep m.src c slot op idx a
    | .recall (.chan who op) => s.recallChan m who op
    | .chanVal o => (s.take id).freshen o
    | _ => s)
  | none => s

/-- CHANNEL_RECEIVE_ARRIVE (R133). A receive reaches its channel home and waits or matches; so do the guards of an ALT on another module, and what a
home says of them (R148). -/
def execChannelReceiveArrive (id : Nat) (s : State) : Host.Outcome State Fault Refusal :=
  .next <| match s.inTurn id with
  | some m =>
    (match m.body with
    | .chanRecv c o0 =>
      let o := m.op o0 s.dtime
      if s.sourceHeld m.src m.dst then s
      else if hKind o.handle = 0 then (s.take id).chanGo c o else s.unitArrive m o
    | .guardAsk g commit => (s.take id).guardArrive { g with via := m.src } commit
    | .guardSaid who op i code t => (s.take id).altHear m who op i code t
    | .guardDrop who op => (s.take id).dropGuard who op
    | _ => s)
  | none => s

/-- The pair or ring after a receive has taken its slot (R132). -/
def State.popRing (s : State) (c slot : Nat) : State :=
  let cap := (s.ep c slot).cap
  (s.modEp c (slot + 1) (fun r => { r with head := (r.head + 1) % max cap 1, count := r.count - 1, refs := r.refs.drop 1 })).kickRing c slot

/-- A streamer has read all that a transfer moves; a word of a rendezvous, and a waymark, have nothing to read (R131). -/
def State.readOut (s : State) (x : Xfer) : Bool :=
  let eager := match x.send with | some o => o.eager | none => false
  decide (x.n ≤ x.read) || !(decide (tyClass (s.xferType x) = 1) || eager)
/-- TRANSFER_FINISH (R133). The receiver completes, the pair returns to IDLE and held arrivals proceed. -/
def execTransferFinish (core slot : Nat) (s : State) : Host.Outcome State Fault Refusal :=
  .next <| match s.xfers.find? (fun x => decide (x.core = core ∧ x.slot = slot ∧ x.n ≤ x.done) && x.recv.isSome && s.readOut x) with
  | none => s
  | some x =>
    match x.recv with
    | none => s
    | some r =>
      let val : Word := if tyClass (s.xferType x) = 0 then (match x.send with | some o => o.val | none => bytesWord x.data) else x.mark.getD 0
      let s1 := ((s.dropXfer x.id).farDone x).chanAnswer r (.vals [val.setWidth 1024])
      if core = 1536 then s1.kickUnit slot
      else
        let s2 := if x.ringSlot.isNone then s1.modEp core slot (fun e => { e with pair := .idle }) else s1
        (s2.releaseHeld core slot).wakeAlts

/-- A channel operation of a process whose limit has passed while it waits unmatched at a home (R135, R136). A halted core takes the expiry when
issue resumes (R310). -/
def State.late (s : State) (pk : Nat) (o : ChanOp) : Bool :=
  decide (s.keyOf o.who = pk ∧ o.limit ≠ 0) && !(s.ours o && (s.core (coreOf pk)).halted) && !o.committed &&
    (match o.arrived with | some a => decide (a + o.limit ≤ s.dtime) | none => false)
def State.lateIn (s : State) (pk : Nat) (o : Option ChanOp) : Bool := match o with | some o => s.late pk o | none => false
/-- An operation that waits at an end of a pair, or still takes its range, or is held there, expires (R136). -/
def State.expireEp (s : State) (pk c slot : Nat) : State :=
  let e := s.ep c slot
  let end_ (s : State) (o : ChanOp) : State := (s.unlend o).chanTrap o .chanTimeout
  match (if s.lateIn pk e.waiting then e.waiting else none), (if s.lateIn pk e.lending then e.lending else none) with
  | some o, _ =>
    let s1 := s.modEp c slot (fun e => { e with waiting := none })
    let other := (s.ep c (peerSlot slot)).waiting.isSome
    end_ (if e.cap = 0 then s1.modEp c (sendSlot slot) (fun e => { e with pair := if !other then .idle else if slot % 2 = 0 then .rw else .sw }) else s1) o
  | none, some o => end_ (s.modEp c slot (fun e => { e with lending := none })) o
  | none, none => match e.held.find? (fun o => s.late pk o && decide (4 ≤ o.form ∧ o.form ≤ 8)) with
    | some o => end_ (s.modEp c slot (fun e => { e with held := e.held.filter (fun q => q.id != o.id) })) o
    | none => s
/-- The wait of an eager re-send on a tile of its tensor, which counts within its limit (R104): a read that waits here makes it trap, one at
another module is withdrawn there. -/
def State.expireEager (s : State) (x : Xfer) (o : ChanOp) : State :=
  let mine (c : Claimant) : Bool := match c with | .transfer m k i _ => decide (m = s.modid ∧ k = x.core ∧ i = x.id) | _ => false
  match s.homeOf x.src with
  | .remote m => s.tell m (portOf x.core) o.who o.asid (.unread (.transfer s.modid x.core x.id x.read))
  | _ =>
    if s.net.any (fun m => (match m.body with | .stream b => mine b.who | _ => false) && s.queuedEngine m.id) then
      (match s.failXfer x ⟨.chanTimeout, o.handle, 0, 0⟩ with | some s1 => s1.releaseHeld x.core x.slot | none => s)
    else s
/-- CHANNEL_TIMEOUT_EXPIRE (R136). A waiting channel operation's TIMEOUT expires and it traps CHAN-TIMEOUT. -/
def execChannelTimeoutExpire (core pid : Nat) (s : State) : Host.Outcome State Fault Refusal :=
  let pk := core * 256 + pid
  let hit (e : Endpoint) : Bool := s.lateIn pk e.waiting || s.lateIn pk e.lending || e.held.any (fun o => s.late pk o && decide (4 ≤ o.form ∧ o.form ≤ 8))
  .next <| match s.cores.findSome? (fun (k : Nat × Core) => (k.2.eps.find? (fun e => hit e.2)).map (fun e => (k.1, e.1))),
      s.units.find? (fun u => s.lateIn pk u.2.waiting || s.lateIn pk u.2.sender),
      s.xfers.find? (fun x => decide (x.read < x.n) && (match x.send with | some o => o.eager && s.late pk o | none => false)) with
  | some (c, slot), _, _ => s.expireEp pk c slot
  | none, some (i, u), _ =>
    (match u.waiting, u.sender with
    | some o, some q => if s.late pk o then (s.setUnit i { u with waiting := none }).chanTrap o .chanTimeout else (s.setUnit i { u with sender := none }).chanTrap q .chanTimeout
    | some o, none => (s.setUnit i { u with waiting := none }).chanTrap o .chanTimeout
    | none, some q => (s.setUnit i { u with sender := none }).chanTrap q .chanTimeout
    | none, none => s)
  | none, none, some x => (match x.send with | some o => s.expireEager x o | none => s)
  | none, none, none => s

/-- TIMER_DEADLINE_EXPIRE (R139). A device timer's deadline passes and a waiting RECV returns DTIME. -/
def execTimerDeadlineExpire (slot : Nat) (s : State) : Host.Outcome State Fault Refusal :=
  .next (if (s.unit slot).unit = 10 then (s.kickUnit slot).wakeAlts else s)

/-- ALT_DEADLINE_EXPIRE (R148). A deadline guard becomes ready when DTIME reaches its value. -/
def execAltDeadlineExpire (core pid : Nat) (s : State) : Host.Outcome State Fault Refusal :=
  let pk := core * 256 + pid
  let p := s.proc pk
  let due : Bool := match p.multi with
    | some m => let list := m.args.drop 1
      (List.range (list.length / 2)).any (fun i => decide (guardKind list i = 3 ∧ (guardVal list i).toNat ≤ s.dtime)) && decide (m.form ≠ 0)
    | none => false
  .next (if p.state = .blocked ∧ p.why = 2 ∧ due = true ∧ (s.core core).halted = false then s.wake pk else s)

/-- The ends that a process owns here: core and slot, 1536 for a unit. -/
def State.ownedEnds (s : State) (who : Nat) : List (Nat × Nat) :=
  s.cores.flatMap (fun (k : Nat × Core) => (k.2.eps.filter (fun e => e.2.owns who)).map (fun e => (k.1, e.1))) ++
    (s.units.filter (fun u => decide (u.2.state = 2 ∧ u.2.owner = who))).map (fun u => (1536, u.1))
/-- The waymarks that a process holds here: core, record and the tiles of pulls in flight. -/
def State.heldMarks (s : State) (who : Nat) : List (Nat × Nat × List Nat) :=
  s.cores.flatMap (fun (k : Nat × Core) => (k.2.marks.filter (fun m => decide (m.2.state ≠ 0 ∧ m.2.holder = who))).map (fun m => (k.1, m.1, m.2.pulling.map (·.1))))
/-- They are dropped, as by DROPW (R105). -/
def State.dropMarks (s : State) (who : Nat) : State := (s.heldMarks who).foldl (fun s m => s.dropMark m.1 m.2.1) s
/-- The watches that a process holds here are removed (R91). -/
def State.dropWatches (s : State) (who : Nat) : State :=
  { s with cores := s.cores.map (fun (k : Nat × Core) => (k.1, { k.2 with watches := k.2.watches.filter (fun w => w.2 != who) })) }
/-- One end that its exiting owner still owns becomes unbound (R297). -/
def State.unbindOne (s : State) (who : Nat) (e : Nat × Nat) : State :=
  if e.1 < 1536 then s.unbindEnd e.1 e.2 who
  else let u := s.unit e.2
    if u.state = 2 ∧ u.owner = who then s.setUnit e.2 { u with state := 1, owner := 0 } else s
/-- One end of an exiting owner: its request is performed in order with those of the same end, or is held behind them (R297). -/
def State.unbindNext (s : State) (id who : Nat) (e : Nat × Nat) : State :=
  if e.1 < 1536 then
    if (s.ep e.1 (sendSlot e.2)).held.any (fun o => decide (o.form = 20 ∧ o.who = who ∧ hSlot o.handle = e.2)) then s
    else s.chanGo e.1 { blankOp with id := id, who := who, form := 20, handle := BitVec.ofNat 64 (e.2 * 2 ^ 32) }
  else s.unbindOne who e
/-- UNBIND_REQUEST (R297). An exiting owner's unbinding request unbinds an end it still owns. One of another module, which does not know the ends that
it owns here, stands for one request for each of them: each end is unbound in its own order, the waymarks here are dropped as their pulls end (R105),
and the answer goes when none is left (DEDUCED, log 110). -/
def execUnbindRequest (id : Nat) (s : State) : Host.Outcome State Fault Refusal :=
  .next <| match s.inTurn id with
  | some m =>
    (match m.body, m.src with
      | .unbind c slot who _, _ => (s.take id).unbindNext id who (c, slot)
      | .unbindAll who op, .remote n p =>
        let free := (s.heldMarks who).filter (fun m => m.2.2.isEmpty)
        let s1 := (s.ownedEnds who).foldl (fun s e => s.unbindNext id who e) (free.foldl (fun s m => s.dropMark m.1 m.2.1) s)
        if (s1.ownedEnds who).isEmpty && (s1.heldMarks who).isEmpty then (s1.take id).tell n p who 0 (.answer who op (.vals [])) else s1.stay id
      | _, _ => s)
  | none => s

/-- HOST_QUEUE_MESSAGE (R139). Host-core software puts a message into, or takes one from, a host-queue IO endpoint. -/
def execHostQueueMessage (slot : Nat) (message : Option (List (BitVec 8))) (s : State) : Host.Outcome State Fault Refusal :=
  let u := s.unit slot
  .next <|
    if u.state = 0 ∨ u.unit ≠ 0 ∨ u.kind ≠ 1 then s
    else match message with
      | some m => if u.inq.length < u.cap then ((s.setUnit slot { u with inq := u.inq ++ [m] }).kickUnit slot).wakeAlts else s
      | none => (s.setUnit slot { u with outq := u.outq.drop 1 }).kickUnit slot

/-- ETHERNET_FRAME_RECEIVE (R139, R329). A received frame lands in the next receive-ring slot, its length in bytes 0 to 7, or is dropped and
counted. -/
def execEthernetFrameReceive (port : Nat) (frame : List (BitVec 8)) (s : State) : Host.Outcome State Fault Refusal :=
  .next <| match s.units.find? (fun u => decide (u.2.kind = 1 ∧ u.2.state ≠ 0 ∧ u.2.unit = port + 1 ∧ port < 4)) with
  | none => { s with ethDropped := s.ethDropped + 1 }
  | some (i, u) =>
    let room := tyCount u.ty * tyTile u.ty
    if room < frame.length + 8 ∨ u.cap ≤ u.inq.length then { s with ethDropped := s.ethDropped + 1 }
    else ((s.setUnit i { u with inq := u.inq ++ [leBytes 8 frame.length ++ frame] }).kickUnit i).wakeAlts

/-- ETHERNET_FRAME_TRANSMIT (R139). A port finishes sending a frame from its transmit-ring slot, freeing that slot for a later SENDT. -/
def execEthernetFrameTransmit (port : Nat) (s : State) : Host.Outcome State Fault Refusal :=
  .next <| match s.units.find? (fun u => decide (u.2.kind = 1 ∧ u.2.state ≠ 0 ∧ u.2.unit = port + 5 ∧ port < 4)) with
  | none => s
  | some (i, u) => (s.setUnit i { u with outq := u.outq.drop 1 }).kickUnit i

/-- A request to IOEPNEW (R329): the unit slot it makes and its handle, or 0. -/
def State.ioepnew (s : State) (v : Word) : State × Word :=
  let x := v.toNat
  let kind := fld x 60 4
  let unit := fld x 56 4
  let cap := fld x 42 8
  let ty : BitVec 16 := (v >>> 16).setWidth 16
  let cls := tyClass ty
  let typeOk := tyGood ty && (if unit = 0 then decide (cls ≤ 1) else if unit ≤ 8 then decide (cls = 1) else decide (cls = 0))
  let capOk := if unit = 0 then decide (1 ≤ cap ∧ cap ≤ 64) else decide (cap = 0)
  let good := typeOk && capOk && decide (fld x 32 10 = 0 ∧ fld x 0 16 = 0) && ((decide (kind = 1 ∧ unit ≤ 9)) || decide (kind = 2 ∧ unit = 10))
  match (if good then (List.range 512).find? (fun i => decide ((s.unit i).state = 0)) else none) with
  | none => (s, 0)
  | some i =>
    let u := s.unit i
    (s.setUnit i { UnitSlot.free with unit := unit, kind := kind, gen := u.gen, state := 1, asid := fld x 50 6, ty := ty, cap := if unit = 0 then cap else 64 },
      handleOf kind s.modid 0 i ty u.gen)
/-- The step of an AMOSWAP at IOEPNEW, when its request is of a KIND. -/
def State.ioepStep (s : State) (kind id : Nat) : State :=
  match s.inTurn id with
  | some m =>
    match m.body with
    | .req r =>
      match r.rop with
      | .amo pa 8 v _ _ =>
        if !isIoepnew (paLocal pa) || !decide ((if fld v.toNat 60 4 = 2 then 2 else 1) = kind) then s
        else let x := (s.take id).ioepnew v; x.1.reply r (.vals [x.2.setWidth 1024])
      | _ => s
    | _ => s
  | none => s

/-- IOEPNEW_ENDPOINT (R329). An AMOSWAP to IOEPNEW with KIND 1 creates an IO endpoint; a request of no known KIND returns 0. -/
def execIoepnewEndpoint (id : Nat) (s : State) : Host.Outcome State Fault Refusal := .next (s.ioepStep 1 id)

/-- IOEPNEW_TIMER (R329). An AMOSWAP to IOEPNEW with KIND 2 creates a timer. -/
def execIoepnewTimer (id : Nat) (s : State) : Host.Outcome State Fault Refusal := .next (s.ioepStep 2 id)

end Sys2Proof.Machine
end

