-- ==== Sys2Proof/Machine/Tile.lean ====
section
/-! DEFINITION. Shape records, accumulator tiles and the macro-operations of the tile unit (spec/06_copies.md R108 to R110, spec/12_tile.md R205
to R231). An entry of the tile queue captures at issue what it reads; the sequencer's two rows start it and make its steps. -/
namespace Sys2Proof.Machine

/-! ## Shape records (R108, R109, R205, R206) -/

def shKind (r : BitVec 256) : Nat := fld r.toNat 0 4
/-- Piece size P of a copy or slab record. -/
def shPiece (r : BitVec 256) : Nat := if fld r.toNat 6 2 = 0 then 64 else if fld r.toNat 6 2 = 1 then 1024 else 10240
def shRows (r : BitVec 256) : Nat := fld r.toNat 48 16 + 1
def shRowBytes (r : BitVec 256) : Nat := fld r.toNat 24 24
def shSstride (r : BitVec 256) : Nat := fld r.toNat 64 32
def shDstride (r : BitVec 256) : Nat := fld r.toNat 96 32
def shBlock (r : BitVec 256) : Nat := fld r.toNat 176 16
def shHeight (r : BitVec 256) : Nat := fld r.toNat 141 5 + 1
def shWidth (r : BitVec 256) : Nat := fld r.toNat 137 4 + 1
def shY0 (r : BitVec 256) : Nat := fld r.toNat 132 5
def shX0 (r : BitVec 256) : Nat := fld r.toNat 128 4
/-- R109: a copy or slab record that SHAPE refuses. -/
def copyRecordBad (r : BitVec 256) : Bool :=
  let p := shPiece r
  decide (fld r.toNat 8 16 ≠ 0 ∨ fld r.toNat 4 2 ≠ 0 ∨ fld r.toNat 6 2 = 3 ∨ shRowBytes r = 0 ∨ shRowBytes r % p ≠ 0 ∨ shSstride r % p ≠ 0 ∨ shDstride r % p ≠ 0 ∨
    (1 < shRows r ∧ shDstride r < shRowBytes r) ∨ (fld r.toNat 6 2 = 2 ∧ (shRows r ≠ 1 ∨ shRowBytes r ≠ 10240)) ∨ fld r.toNat 192 64 ≠ 0 ∨
    (shKind r = 1 ∧ fld r.toNat 128 64 ≠ 0) ∨
    (shKind r = 2 ∧ (fld r.toNat 146 30 ≠ 0 ∨ fld r.toNat 6 2 = 2 ∨ shBlock r = 0 ∨ 16 < shX0 r + shWidth r ∨ 24 < shY0 r + shHeight r)))

def opK (r : BitVec 256) : Nat := (fld r.toNat 40 8 + 1) * 32
def opRm (r : BitVec 256) : Rm := (Rm.ofCode (fld r.toNat 32 3)).getD .rne
def opSrc (r : BitVec 256) : Nat := fld r.toNat 28 4
def opP (r : BitVec 256) : Nat := fld r.toNat 20 4 + 1
def opEnc (r : BitVec 256) : Enc := if fld r.toNat 18 2 = 0 then .twos else if fld r.toNat 18 2 = 1 then .unsigned else .signMag
def opRole (r : BitVec 256) : Nat := fld r.toNat 8 2
def opStride (r : BitVec 256) : Nat := fld r.toNat 64 32
/-- The block format of a source format. -/
def srcBlk (src : Nat) : Option Blk :=
  match src with
  | 9 => some .e2m1
  | 10 => some .e3m2
  | 11 => some .e2m3
  | 12 => some .int4
  | _ => none
/-- The unit U of a source format and the row bytes of a row of n elements (R205). -/
def srcUnit (src : Nat) : Nat := if src = 0 then 4 else if src ≤ 2 then 2 else 1
def rowBytes (src n : Nat) : Nat :=
  match srcBlk src with
  | some k => n / 32 * k.size
  | none => if src = 0 then 4 * n else if src ≤ 2 then 2 * n else if src ≤ 6 then n else n / 2
/-- R206: an operand record that SHAPE refuses. -/
def operandBad (r : BitVec 256) : Bool :=
  let src := opSrc r
  let p := opP r
  let n := if opRole r = 0 then opK r else 32
  decide (fld r.toNat 48 16 ≠ 0 ∨ fld r.toNat 35 5 ≠ 0 ∨ fld r.toNat 24 4 ≠ 0 ∨ fld r.toNat 10 8 ≠ 0 ∨ fld r.toNat 4 4 ≠ 0 ∨ fld r.toNat 96 32 ≠ 0 ∨ fld r.toNat 128 128 ≠ 0 ∨
    12 < src ∨ fld r.toNat 18 2 = 3 ∨ 1 < opRole r ∨ 31 < fld r.toNat 40 8 ∨ 4 < fld r.toNat 32 3 ∨ (opEnc r ≠ .unsigned ∧ p < 2) ∨
    (src = 5 ∧ ¬(opEnc r = .twos ∧ p = 8)) ∨ (src = 6 ∧ ¬(opEnc r = .unsigned ∧ p = 8)) ∨ (src = 7 ∧ ¬(opEnc r = .twos ∧ p = 4)) ∨
    (src = 8 ∧ ¬(opEnc r = .unsigned ∧ p = 4)) ∨ opStride r < rowBytes src n ∨ opStride r % srcUnit src ≠ 0)
/-- Whether SHAPE refuses a record (R109, R206). -/
def shapeBad (r : BitVec 256) : Bool :=
  match shKind r with
  | 0 => false
  | 1 | 2 => copyRecordBad r
  | 3 => operandBad r
  | _ => true
/-- Bytes of a packed operand before and after padding (R209). -/
def packedZ (r : BitVec 256) : Nat := opK r / 32 * (opP r + 1) * 128
def padTo (n t : Nat) : Nat := (n + t - 1) / t * t
/-- K-blocks of a record. -/
def kBlocks (r : BitVec 256) : Nat := opK r / 32

/-! ## Operand values (R207 to R209) -/

/-- An element as it is stored: its value, and for blocks its code, special byte and scale byte. -/
structure Raw where
  val : Val
  code : Nat := 0
  special : Nat := 0
  scale : Nat := 0

/-- Element idx of a row that starts at a window-0 offset (R208). -/
def State.rawElem (s : State) (core row src idx : Nat) : Raw :=
  let rd (o n : Nat) : Nat := s.mem.readN (scratchAddr core (row + o)) n
  match srcBlk src with
  | some k =>
    let n := rd (idx / 32 * k.size) k.size
    ⟨(k.values n).getD (idx % 32) (.nan false), k.elem n (idx % 32), n / 2 ^ (8 * (k.elemBytes + 1)) % 256, n / 2 ^ (8 * k.elemBytes) % 256⟩
  | none =>
    let nib := rd (idx / 2) 1 / 16 ^ (idx % 2) % 16
    ⟨match src with
      | 0 => Fmt.fp32.value (rd (4 * idx) 4)
      | 1 => Fmt.fp16.value (rd (2 * idx) 2)
      | 2 => Fmt.bf16.value (rd (2 * idx) 2)
      | 3 => Fmt.e4m3.value (rd idx 1)
      | 4 => Fmt.e5m2.value (rd idx 1)
      | 5 => .ofInt (signedLane 8 (rd idx 1))
      | 6 => .ofInt (rd idx 1)
      | 7 => .ofInt (signedLane 4 nib)
      | _ => .ofInt nib, 0, 0, 0⟩
/-- The integer of an integer source. -/
def Val.toInt : Val → Int
  | .fin n m _ _ => if n then -(m : Int) else m
  | _ => 0
/-- The run takes its values by R185. -/
def byE2m1 (r : BitVec 256) (xs : List Raw) : Bool :=
  decide (opSrc r = 9 ∧ opEnc r = .signMag ∧ opP r = 5) && xs.all (fun x => decide (x.scale = (xs.headD ⟨.nan false, 0, 0, 0⟩).scale))
/-- A run in block-fixed form: mantissas, exponent of the step, flags (R207). -/
def fixRun (r : BitVec 256) (xs : List Raw) : List Int × Int × Flags :=
  if 5 ≤ opSrc r ∧ opSrc r ≤ 8 then (xs.map (fun x => x.val.toInt), 0, 0)
  else if byE2m1 r xs then e2m1Fixed (opRm r) (xs.headD ⟨.nan false, 0, 0, 0⟩).scale (xs.map (fun x => (x.code, x.special)))
  else blockFixed (opP r) (opEnc r) (opRm r) (xs.map (·.val))
/-- A row i, elements of k-block b, of an A operand at a window-0 offset. -/
def State.runA (s : State) (core base : Nat) (r : BitVec 256) (b i : Nat) : List Int × Int × Flags :=
  fixRun r ((List.range 32).map (fun k => s.rawElem core (base + i * opStride r) (opSrc r) (32 * b + k)))
/-- Column j, rows of k-block b, of a PACK source. -/
def State.rawB (s : State) (core base : Nat) (r : BitVec 256) (b j : Nat) : List Raw :=
  (List.range 32).map (fun k => s.rawElem core (base + (32 * b + k) * opStride r) (opSrc r) j)
/-- The mantissa code of an element, with a sign plane for a special value that rounds to -0 (R185, R209). A negative element whose mantissa rounds to 0
by R184 takes the code of 0 with sign bit 0, of the two that R209 gives the value 0 (DESIGN CHOICE, log 112). -/
def mantCode (P : Nat) (enc : Enc) (m : Int) (negZero : Bool) : Nat :=
  match enc with
  | .signMag => (if m < 0 ∨ (m = 0 ∧ negZero = true) then 2 ^ (P - 1) else 0) + m.natAbs
  | _ => (m % (2 ^ P : Nat)).toNat
/-- The mantissa that a code stands for (R209). -/
def mantOf (P : Nat) (enc : Enc) (c : Nat) : Int :=
  match enc with
  | .twos => if c < 2 ^ (P - 1) then (c : Int) else (c : Int) - (2 ^ P : Nat)
  | .unsigned => c
  | .signMag => if c < 2 ^ (P - 1) then (c : Int) else -((c - 2 ^ (P - 1) : Nat) : Int)
/-- The group that PACK makes of k-block b, and the flags (R209). Of a packed E2M1 element whose magnitude is 0 because its block is a NaN block, or its
special byte an E4M3 NaN, the sign plane is 0: R185 gives the magnitude alone (DESIGN CHOICE, log 113). -/
def State.packGroup (s : State) (core base : Nat) (r : BitVec 256) (b : Nat) : List Byte × Flags :=
  let P := opP r
  let cols := (List.range 32).map (fun j =>
    let xs := s.rawB core base r b j
    let f := fixRun r xs
    let codes := (f.1.zip xs).map (fun e =>
      mantCode P (opEnc r) e.1 (byE2m1 r xs && decide (e.2.code = 8 ∧ 128 ≤ e.2.special ∧ e.2.special ≠ 255 ∧ e.2.scale ≠ 255)))
    (codes, f.2.1, f.2.2))
  let planes := (List.range P).flatMap (fun p => (List.range 128).map (fun y =>
    BitVec.ofNat 8 ((List.range 8).foldl (fun a i =>
      a + ((cols.getD (y / 4) ([], 0, 0)).1.getD (8 * (y % 4) + i) 0) / 2 ^ p % 2 * 2 ^ i) 0)))
  let steps := cols.flatMap (fun c => leBytes 2 (c.2.1 % 65536).toNat)
  (planes ++ steps ++ List.replicate 64 0, cols.foldl (fun a c => a ||| c.2.2) 0)
/-- Column j of a packed group: its 32 mantissas and the exponent of its step. -/
def State.packedCol (s : State) (core group : Nat) (r : BitVec 256) (j : Nat) : List Int × Int :=
  let P := opP r
  let rows := (List.range P).map (fun p => s.mem.readN (scratchAddr core (group + 128 * p + 4 * j)) 4)
  ((List.range 32).map (fun k => mantOf P (opEnc r) ((rows.zipIdx).foldl (fun a e => a + e.1 / 2 ^ k % 2 * 2 ^ e.2) 0)),
    signedLane 16 (s.mem.readN (scratchAddr core (group + 128 * P + 2 * j)) 2))

/-! ## Accumulator tiles (R211, R212) -/

def Acc.cell (a : Acc) (k : Nat) : BitVec 88 := a.cells.get 0 k
/-- The stored 80-bit integer c of a cell. -/
def Acc.stored (a : Acc) (k : Nat) : Int := ((a.cell k).setWidth 80).toInt
/-- A tile with cells given by index; OVF is 1 when some 88-bit value lies outside the 80-bit range. -/
def Acc.withCells (a : Acc) (f : Nat → BitVec 88) : Acc :=
  let cs := (List.range 1024).map (fun k => (k, f k))
  { a with cells := cs.filter (fun e => e.2 != 0), ovf := cs.any (fun e => decide (e.2.toInt < -(2 ^ 79) ∨ 2 ^ 79 ≤ e.2.toInt)) }
/-- Adds a multiple of the anchor's power to every cell; after an uncorrectable error the cells hold unspecified values (R230). -/
def Acc.addCells (a : Acc) (fresh : Nat) (f : Nat → Int) : Acc :=
  a.withCells (fun k => if a.ecce then Config.freeCell (fresh + k) else a.cell k + BitVec.ofInt 88 (f k))
/-- The status word (R212). -/
def Acc.status (a : Acc) : Word :=
  BitVec.ofNat 64 (a.mmstep * 2 ^ 32 + (a.anchor % 256).toNat * 2 ^ 24 + a.ecce.toNat * 2 ^ 7 + a.mm.toNat * 2 ^ 6 + a.ovf.toNat * 2 ^ 5 + a.tag.code)
def State.acc (s : State) (c n : Nat) : Acc := (s.core c).acc.get Acc.reset n
def State.modAcc (s : State) (c n : Nat) (f : Acc → Acc) : State := s.modCore c (fun k => { k with acc := k.acc.set n (f (k.acc.get Acc.reset n)) })
/-- Window offsets of a tile and of its bytes. -/
def accOff (n : Nat) : Nat := 0xA0000 + n * 0x2800
/-- Where the entries of the table banks are struck (R315): they have no address that an access reaches. -/
def tableOff (bank i : Nat) : Nat := 0xE0000 + 4 * (bank * 256 + i)
/-- The local-view address of a window-0 offset (R61). -/
def localVa (o : Nat) : Word := BitVec.ofNat 64 (0xF0000000000000 + o)
/-- The lowest struck byte of a range of a core. -/
def State.hurtAt (s : State) (core o n : Nat) : Option Nat := (List.range n).map (o + ·) |>.find? (fun i => s.struck.contains (scratchAddr core i))

/-! ## Records of engines (R118) -/

/-- A record of KIND 8 about an engine's access. -/
def State.engineFault (s : State) (die asid who cause reason form row member : Nat) (pc addr dest aux : Word) : State :=
  s.post die 8 asid who [BitVec.ofNat 64 who, BitVec.ofNat 64 (cause * 2 ^ 56 + reason * 2 ^ 48 + form * 2 ^ 40 + row % 2 ^ 16 * 2 ^ 24 + member * 2 ^ 16), pc, addr, dest, aux, 0]

/-! ## The tile queue (R214, R215) -/

/-- Window-0 offset of a checked local-view address. -/
def vaOff (va : Word) : Nat := inWindow (va.toNat - 0xF0000000000000)
/-- The operand checks of R217, in their order. -/
def localCheck (va : Word) (align len : Nat) (bufs : List Buf) : Option Trap :=
  let x := va.toNat
  let no (c : Cause) : Option Trap := some ⟨c, va, 0, 0⟩
  if x < 0xF0000000000000 ∨ 0xF0000001000000 ≤ x then no .prot
  else if windowOf (x - 0xF0000000000000) ≠ 0 then no .misalign
  else if x % align ≠ 0 then no .misalign
  else
    let o := vaOff va
    let b := bufAt o
    if bufs.contains b ∧ o + len ≤ b.base + b.size then none else no .prot
/-- Tile size of the buffer of a local-view address. -/
def vaTile (va : Word) : Nat := (bufAt (vaOff va)).tile

/-- A blank entry. -/
def TileOp.blank : TileOp :=
  { id := 0, pk := 0, op := 0, pc := 0, sub := 0, acc := 0, a := 0, b := 0, shA := 0, shB := 0, red := false, dfmt := 0, dbias := 0, dmult := 0,
    dtable := 0, dabs := 0, priv := false, step := 0, taken := false, prior := [], running := false, entering := false, flags := 0, out := [], amax := 0, waits := 0 }
/-- Output cell and block sizes (R229): bytes of a cell, or of a block with its format. -/
def outCell (o : Nat) : Nat := if o = 0 ∨ o = 8 then 4 else if o = 1 ∨ o = 2 ∨ o = 7 then 2 else 1
def outZ (o : Nat) : Nat :=
  match srcBlk o with
  | some k => 32 * k.size
  | none => 1024 * outCell o
/-- Destination: window offset and padded length, of DRAIN, PACK and UNPACK. -/
def TileOp.dst (t : TileOp) : Nat × Nat :=
  let o := vaOff t.b
  match t.sub with
  | 2 => (o, padTo (outZ (fld t.dfmt.toNat 0 4)) (vaTile t.b))
  | 6 => (o, padTo (packedZ t.shA) 1024)
  | 7 => (o, padTo (opK t.shA * 128) (vaTile t.b))
  | _ => (o, 0)
/-- Tile numbers of the destination. -/
def TileOp.dstTiles (t : TileOp) : List Nat := (tilesUnder 0 t.dst.1 t.dst.2).map (·.2)
/-- The operation takes an accumulator tile and adds into it, or drains it. -/
def TileOp.takes (t : TileOp) : Bool := decide (t.sub = 2 ∨ t.sub = 4 ∨ t.sub = 5 ∨ t.sub = 15)
/-- The operation writes destination tiles from its start. -/
def TileOp.packs (t : TileOp) : Bool := decide (t.sub = 6 ∨ t.sub = 7)
/-- Window-0 ranges that the next step reads. -/
def TileOp.reads (t : TileOp) : List (Nat × Nat) :=
  let a := vaOff t.a
  let rowsA (r : BitVec 256) : List (Nat × Nat) := (List.range 32).map (fun i => (a + i * opStride r + rowBytes (opSrc r) (32 * t.step), rowBytes (opSrc r) 32))
  let group (base : Nat) (r : BitVec 256) : Nat × Nat := (base + t.step * (opP r + 1) * 128, (opP r + 1) * 128)
  match t.sub with
  | 15 => rowsA t.shA ++ [group (vaOff t.b) t.shB]
  | 5 => rowsA t.shA
  | 4 => [group a t.shA]
  | 3 => [(a, 1024)]
  | 6 => (List.range 32).map (fun k => (a + (32 * t.step + k) * opStride t.shA, rowBytes (opSrc t.shA) 32))
  | 7 => [group a t.shA]
  | 2 =>
    if t.step = 0 then (if t.a.getLsbD 3 then [(vaOff t.dbias, 256)] else []) ++ (if t.a.getLsbD 7 then [(vaOff t.dmult, 256)] else [])
    else []
  | _ => []
/-- What bars a guest's macro-operation from a range that its steps read, or from its destination (R264): the class of the access, the range and the
cause. -/
def State.topBar (s : State) (pk : Nat) (t : TileOp) : Option (Nat × Nat × Nat × Cause) :=
  let steps := if t.sub = 2 ∨ t.sub = 3 then 1 else kBlocks t.shA
  let rs := (List.range steps).flatMap (fun i => ({ t with step := i } : TileOp).reads.map (fun e => (0, e.1, e.2))) ++ [(1, t.dst.1, t.dst.2)]
  rs.findSome? (fun e => (s.guestBar pk e.1 (scratchAddr (coreOf pk) e.2.1) e.2.2).map (fun c => (e.1, e.2.1, e.2.2, c)))
/-- The entry is queued, and its operation is outstanding until its completion point. While the queue is full the entry waits for a place, and the
process with it (R214): no later word issues, and the wait counts as the outstanding operation that it is. Of a guest, the local ranges that it reads and writes are checked as
one access each (R264; log 106). -/
def State.enqueueTop (s : State) (pk l : Nat) (t : TileOp) (dest : Dest) (writes : List RegRef) (va : Word) : State :=
  let c := s.core (coreOf pk)
  let p := s.proc pk
  let op := s.nextId
  match s.topBar pk t with
  | some (cls, o, n, x) => (s.barNotice pk cls (scratchAddr (coreOf pk) o) n x).raise pk ⟨x, localVa o, 0, 0⟩
  | none =>
  let e := { t with id := op, pk := pk, op := op, pc := p.pc, priv := p.priv }
  let c1 := if 8 ≤ c.tileq.length ∨ c.tileWait ≠ [] then { c with tileWait := c.tileWait ++ [{ e with entering := true }] } else { c with tileq := c.tileq ++ [e] }
  ({ s with nextId := s.nextId + 1 }.setCore (coreOf pk) c1).modProc pk (fun p => p.open_ op l (decide (t.sub ≠ 2)) .tileOp dest va 0 writes)

/-- The next step's source tiles by the tile-operation input row (R82), in their turn (R80): the state after pulls, and the tile that holds the step up. -/
def State.topReads (s : State) (core : Nat) (t : TileOp) : State × Option Nat :=
  let ts := (t.reads.flatMap (fun e => tilesUnder core e.1 e.2)).dedup
  let bad := ts.find? (fun e => decide (s.tag e.1 e.2 ≠ .full ∧ s.tag e.1 e.2 ≠ .lent) || !s.atTurn [e] (.top core t.id))
  ((s.touchAll .sync ts).1, bad.map (·.2))
/-- A destination tile cannot be claimed now: its row says wait, or it is another's turn (R80). -/
def State.claimWaits (s : State) (core id t : Nat) : Bool :=
  decide (TagEvent.arrivalClaims.row (s.tag core t) = .wait) || !s.atTurn [(core, t)] (.top core id)
/-- Claims further destination tiles by the Arrival-claims row: the states they were taken from, and the tile that waits. -/
def State.topClaims (core id : Nat) : List Nat → State → List Tag → State × List Tag × Option Nat
  | [], s, got => (s, got, none)
  | t :: rest, s, got =>
    if s.claimWaits core id t then (s, got, some t)
    else State.topClaims core id rest (s.applyRow .arrivalClaims core t).1 (got ++ [s.tag core t])
/-- Claimed tiles go back to their prior state; one taken from VIA is EMPTY (R116, R230). -/
def State.unclaim (s : State) (core : Nat) (ts : List Nat) (prior : List Tag) : State :=
  ((ts.zip prior).foldl (fun s e => s.setTag core e.1 (if e.2 = .via then .empty else e.2)) s).settle
/-- Replaces an entry. -/
def State.setTop (s : State) (core : Nat) (t : TileOp) : State :=
  s.modCore core (fun k => { k with tileq := k.tileq.map (fun x => if x.id = t.id then t else x) })
/-- The row by which an entry waits at a tile (R82, R213). -/
def TileOp.rowAt (t : TileOp) (tile : Nat) : TagEvent :=
  if 2560 ≤ tile then (if t.sub = 1 then .load else .sync)
  else if (t.packs && !t.taken) || decide (t.sub = 2 ∧ t.step = 8) then .arrivalClaims else .sync
/-- The entry stops on a tile (R215), and takes its place in arrival order there (R80). -/
def State.stopTop (s : State) (core : Nat) (t : TileOp) (tile : Nat) : State :=
  (s.setTop core { t with running := false, waits := s.tileEdge (core, tile) }).queueAt (.core core) (.core core) [(core, tile)] (t.rowAt tile) (.top core t.id)
/-- The entry leaves the queue. -/
def State.dropTop (s : State) (core : Nat) (t : TileOp) : State :=
  ((s.modCore core (fun k => Core.fillTileq { k with tileq := k.tileq.filter (fun x => x.id != t.id) })).placed core (s.core core)).unqueue (.top core t.id)
/-- Flags reach FLAGS of the issuing process, and the snapshots that the operation belongs to (R46, R207). -/
def State.topFlags (s : State) (pk op : Nat) (f : Flags) : State :=
  s.modProc pk (fun p => { p with r := p.r.orFlags f, outs := p.outs.map (fun o => if o.older.any (fun e => decide (e.1 = op)) then { o with snap := o.snap.orFlags f } else o) })
/-- The operation is complete (R217). -/
def State.finishTop (s : State) (core : Nat) (t : TileOp) (vs : List (BitVec 1024)) (f : Flags) : State :=
  (((s.dropTop core t).topFlags t.pk t.op f).done t.pk t.op vs).settle
/-- DRAIN traps at its completion (R228): the tile keeps its value. -/
def State.failTop (s : State) (core : Nat) (t : TileOp) (x : Trap) : State :=
  ((((s.dropTop core t).setTag core (2560 + t.acc) .full).unclaim core t.dstTiles t.prior).failed t.pk t.op x).settle
/-- Writes bytes at a window-0 offset of a core. -/
def State.putBytes (s : State) (core o : Nat) (bs : List Byte) : State :=
  ({ s with mem := s.mem.writeBytes (scratchAddr core o) bs } : State).heal (scratchAddr core o) bs.length
/-- The first struck byte that the next step reads. -/
def State.topHurt (s : State) (core : Nat) (t : TileOp) : Option Nat := t.reads.findSome? (fun e => s.hurtAt core e.1 e.2)
/-- The record of R230. -/
def State.topRecord (s : State) (core : Nat) (t : TileOp) (addr : Nat) (dest : Word) : State :=
  s.engineFault (dieOfCore core) (s.proc t.pk).asid (s.originWord t.pk) 0x10 0 (0x40 + t.sub) 0 0 t.pc (localVa addr) dest 0

/-! ## Steps that add into an accumulator tile (R220 to R223) -/

/-- What a step adds to cell 32i + j, and the flags of its conversions. -/
def State.topTerms (s : State) (core : Nat) (t : TileOp) (an : Int) : (Nat → Int) × Flags :=
  let mult : Int := (BitVec.ofNat 32 (t.b.toNat / 2 ^ 32)).toInt
  let a := vaOff t.a
  let rows := (List.range 32).map (s.runA core a t.shA t.step)
  let cols (base : Nat) (r : BitVec 256) : List (List Int × Int) := (List.range 32).map (s.packedCol core (base + t.step * (opP r + 1) * 128) r)
  match t.sub with
  | 15 =>
    let cs := cols (vaOff t.b) t.shB
    (fun k =>
      let x := rows.getD (k / 32) ([], 0, 0)
      let y := cs.getD (k % 32) ([], 0)
      (x.1.zip y.1).foldl (fun sum e => sum + truncAt (e.1 * e.2) (x.2.1 + y.2) an) 0, rows.foldl (fun f x => f ||| x.2.2) 0)
  | 4 =>
    let cs := cols a t.shA
    (fun k => let y := cs.getD (k % 32) ([], 0); y.1.foldl (fun sum m => sum + truncAt (mult * m) y.2 an) 0, 0)
  | _ =>
    (fun k => let x := rows.getD (k / 32) ([], 0, 0); x.1.foldl (fun sum m => sum + truncAt (mult * m) x.2.1 an) 0, rows.foldl (fun f x => f ||| x.2.2) 0)
/-- Die 0 in reduced service runs every MMA twice (R221, R332). -/
def State.redundant (s : State) (core : Nat) (t : TileOp) : Bool := t.red || (decide (dieOfCore core = 0) && !s.fullService)
/-- One k-block of MMA, ROWSUM or COLSUM. -/
def State.addStep (s : State) (core : Nat) (t : TileOp) : State :=
  let a := s.acc core t.acc
  let hurt := match s.topHurt core t with | some o => some o | none => s.hurtAt core (accOff t.acc) 0x2800
  let x := s.topTerms core t a.anchor
  let differs := decide (t.sub = 15) && s.redundant core t && (s.core core).rowFault
  let a1 := { a with ecce := a.ecce || hurt.isSome, mm := a.mm || differs, mmstep := if differs && !a.mm then a.steps else a.mmstep, steps := if t.sub = 15 then a.steps + 1 else a.steps }
  let s1 := (s.modAcc core t.acc (fun _ => a1.addCells s.fresh x.1)).bump 1024
  let s2 := if differs then s1.modCore core (fun k => { k with rowFault := false }) else s1
  let s3 := match hurt with
    | some o => (s2.heal (scratchAddr core (accOff t.acc)) 0x2800).topRecord core t o (localVa (accOff t.acc))
    | none => s2
  let t1 := { t with step := t.step + 1, flags := t.flags ||| x.2 }
  if kBlocks t.shA ≤ t1.step then (s3.setTag core (2560 + t.acc) .full).finishTop core t1 [] t1.flags else s3.setTop core t1

/-! ## DRAIN (R226 to R229) -/

/-- An exact dyadic number: m * 2^e. -/
abbrev Dyadic2 := Int × Int
def dyAdd (x y : Dyadic2) : Dyadic2 :=
  let e := min x.2 y.2
  (x.1 * 2 ^ (x.2 - e).toNat + y.1 * 2 ^ (y.2 - e).toNat, e)
def dyMul (x y : Dyadic2) : Dyadic2 := (x.1 * y.1, x.2 + y.2)
def dyNeg (x : Dyadic2) : Dyadic2 := (-x.1, x.2)
def dyFloor (x : Dyadic2) : Int := truncAt x.1 x.2 0
def dyVal (x : Dyadic2) : Val := .scaled x.1 x.2
def valDy : Val → Dyadic2
  | .fin n m e _ => (if n then -(m : Int) else m, e)
  | _ => (0, 0)
/-- Entry i of a table bank. -/
def State.tableEntry (s : State) (core bank i : Nat) : Dyadic2 := valDy (Fmt.fp32.value ((s.core core).tables.get 0 (bank * 256 + i)).toNat)
/-- Indices that the table stage reads for a value u. -/
def tableIndices (u : Dyadic2) : List Nat :=
  if u.1 ≤ 0 then [0] else if 255 ≤ dyFloor u then [255] else [(dyFloor u).toNat, (dyFloor u).toNat + 1]
/-- The stages before the table stage: the value and SAT. -/
def drainHead (cmd : Word) (an : Int) (c : Int) (bias mult : Int) (shift : Nat) : Dyadic2 × Flags :=
  let q0 := if cmd.getLsbD 3 then c + bias else c
  let w := if cmd.getLsbD 5 then 64 else 32
  let lo : Int := -(2 ^ (w - 1) : Nat)
  let hi : Int := (2 ^ (w - 1) : Nat) - 1
  let (q1, f) : Int × Flags := if cmd.getLsbD 4 ∧ (q0 < lo ∨ hi < q0) then
      (if cmd.getLsbD 6 then ((q0 - lo) % (2 ^ w : Nat) + lo, 0) else (if q0 < lo then lo else hi, fSAT))
    else (q0, 0)
  (if cmd.getLsbD 7 then (q1 * mult, an - shift) else (q1, an), f)
/-- u of the table stage. -/
def drainU (dt : Word) (v : Dyadic2) : Dyadic2 := dyAdd (v.1, v.2 + (BitVec.ofNat 8 (fld dt.toNat 8 8)).toInt) (fld dt.toNat 16 8, 0)
/-- The table stage. -/
def State.drainTable (s : State) (core : Nat) (dt : Word) (v : Dyadic2) : Dyadic2 :=
  let bank := fld dt.toNat 24 2
  let u := drainU dt v
  match tableIndices u with
  | [i] => s.tableEntry core bank i
  | i :: _ => dyAdd (s.tableEntry core bank i)
      (dyMul (dyAdd u (-(i : Int), 0)) (dyAdd (s.tableEntry core bank (i + 1)) (dyNeg (s.tableEntry core bank i))))
  | [] => v
/-- A cell in an element format (R229): its code and flags. -/
def drainCell (out : Nat) (rm : Rm) (v : Val) : Nat × Flags :=
  let int (lo hi : Int) (w : Nat) : Nat × Flags := let r := roundInt lo hi rm v; (laneOfInt w r.1, r.2)
  match out with
  | 0 => roundTo .fp32 rm v
  | 1 => roundTo .fp16 rm v
  | 2 => roundTo .bf16 rm v
  | 3 => roundTo .e4m3 rm v
  | 4 => roundTo .e5m2 rm v
  | 5 => int (-128) 127 8
  | 6 => int 0 255 8
  | 7 => int (-32768) 32767 16
  | _ => int (-2147483648) 2147483647 32
/-- The output bytes of the 32 by 32 values and the flags (R229). -/
def drainOut (out : Nat) (tr : Bool) (rm : Rm) (v : Nat → Dyadic2) : List Byte × Flags :=
  let at_ (k : Nat) : Dyadic2 := if tr then v (k % 32 * 32 + k / 32) else v k
  match srcBlk out with
  | none =>
    let r := (List.range 1024).map (fun k => drainCell out rm (dyVal (at_ k)))
    (r.flatMap (fun e => leBytes (outCell out) e.1), r.foldl (fun f e => f ||| e.2) 0)
  | some b =>
    let r := (List.range 32).map (fun i =>
      let xs := (List.range 32).map (fun j => roundTo .fp32 .rto (dyVal (at_ (32 * i + j))))
      let e := b.encode .fp32 rm (xs.map (fun x => Fmt.fp32.value x.1))
      (leBytes b.size e.1, xs.foldl (fun f x => f ||| x.2) e.2))
    (r.flatMap (·.1), r.foldl (fun f e => f ||| e.2) 0)
/-- The larger magnitude. -/
def dyMax (a : Dyadic2) (v : Dyadic2) : Dyadic2 := let m : Dyadic2 := (v.1.natAbs, v.2); if (dyAdd m (dyNeg a)).1 < 0 then a else m
/-- The compute steps of a DRAIN: a completion trap, or the entry with what it writes. -/
def State.drainCompute (s : State) (core : Nat) (t : TileOp) : Except Trap TileOp :=
  let a := s.acc core t.acc
  let cmd := t.a
  let dw (va : Word) (j : Nat) : Nat := s.mem.readN (scratchAddr core (vaOff va + 8 * j)) 8
  let bias (j : Nat) : Int := (BitVec.ofNat 64 (dw t.dbias j)).toInt
  let ent (j : Nat) : Nat := dw t.dmult j
  let bank := fld t.dtable.toNat 24 2
  let heads := (List.range 1024).map (fun k =>
    drainHead cmd a.anchor (a.stored k) (bias (k % 32)) ((BitVec.ofNat 32 (ent (k % 32))).toInt) (fld (ent (k % 32)) 32 8))
  let used := if cmd.getLsbD 8 then (heads.flatMap (fun h => tableIndices (drainU t.dtable h.1))).dedup else []
  let dwordHurt (on : Bool) (va : Word) : Option Word :=
    if on then ((List.range 32).find? (fun j => s.hurt (scratchAddr core (vaOff va + 8 * j)) 8)).map (fun j => va + BitVec.ofNat 64 (8 * j)) else none
  let ecc (w : Word) : Except Trap TileOp := .error ⟨.ecc, w, 0, 0⟩
  if a.mm then .error ⟨.tileMismatch, BitVec.ofNat 64 (a.mmstep * 2 ^ 32 + t.acc), 0, 0⟩
  else if a.ecce then ecc (localVa (accOff t.acc))
  else match s.hurtAt core (accOff t.acc) 0x2800 with
    | some o => ecc (localVa (accOff t.acc + (o - accOff t.acc) / 10 * 10))
    | none =>
      match dwordHurt (cmd.getLsbD 3) t.dbias, dwordHurt (cmd.getLsbD 7) t.dmult, used.find? (fun i => s.hurt (scratchAddr core (tableOff bank i)) 4) with
      | some w, _, _ => ecc w
      | none, some w, _ => ecc w
      | none, none, some i => ecc (BitVec.ofNat 64 (2 ^ 62 + bank * 2 ^ 8 + i))
      | none, none, none =>
        if cmd.getLsbD 7 && (List.range 32).any (fun j => decide (ent j / 2 ^ 40 ≠ 0)) then .error ⟨.illegal, 0, 0, 0⟩
        else
          let vs := heads.map (fun h => if cmd.getLsbD 8 then s.drainTable core t.dtable h.1 else h.1)
          let rm := (Rm.ofCode (fld cmd.toNat 10 3)).getD .rne
          let o := drainOut (fld t.dfmt.toNat 0 4) (t.dfmt.getLsbD 4) rm (fun k => vs.getD k (0, 0))
          let big := vs.foldl dyMax (0, 0)
          .ok { t with
            out := o.1 ++ List.replicate (t.dst.2 - o.1.length) 0
            flags := heads.foldl (fun f h => f ||| h.2) o.2 ||| flagIf fOF a.ovf
            amax := BitVec.ofNat 64 (roundTo .fp32 .rup (dyVal big)).1 }
/-- The DRAIN merges its absmax (R228). -/
def TileOp.merges (t : TileOp) : Bool := t.a.getLsbD 9 && t.priv
/-- Whose translation the merge takes. -/
def State.mergeCtx (s : State) (t : TileOp) : Ctx := { s.ctxOf t.pk with priv := t.priv, by_ := none, walked := none }
/-- The record of a fault on a merge (R118, R228), on the die of its core, about the process that issued the DRAIN. -/
def State.mergeFault (s : State) (core who asid code : Nat) (pc va dest : Word) : State :=
  s.engineFault (dieOfCore core) asid who code 0 0x42 0 0 pc va dest 0
/-- The absmax merge leaves for its home (R228); a fault on it posts a record. One for another module is kept for FENCE until its end is known
(R236). -/
def State.sendAbsmax (s : State) (core : Nat) (t : TileOp) : State :=
  let bad (x : Cause) (s : State) : State := (s.dropWalk (s.mergeCtx t) t.dabs.toNat).mergeFault core (s.originWord t.pk) (s.proc t.pk).asid x.code.toNat t.pc t.dabs t.b
  if !t.merges then s
  else match s.xlateNow (s.mergeCtx t) .rw t.dabs.toNat with
    | .ok pa u =>
      if t.dabs.toNat % 8 ≠ 0 then bad .misalign s
      else match amoCheck 2 pa with
        | some x => bad x s
        | none =>
          let asid := (s.proc t.pk).asid
          let away := !s.isHere pa
          let s1 := if away then s.modProc t.pk (fun p => { p with far := p.far ++ [(3, t.op)] }) else s
          s1.route (.core core) core t.pk asid (s.askey.get 0 asid) (s.homeOf pa)
            (.absmax pa t.amax (s.originWord t.pk) t.op core t.dabs t.pc t.b u)
    | .fail x _ => bad x s
    | .miss => s
/-- One step of a DRAIN: 0 to 7 compute, 8 claims the destination, then a destination tile each. A claim that waits stops the entry at this step, and
the sequencer may start another, as R215 says of a tile that a step reads; so does that of a PACK or UNPACK, which claims before its first step
(DESIGN CHOICE, log 111: no rule says what a waiting claim does to the sequencer). -/
def State.drainStep (s : State) (core : Nat) (t : TileOp) : State :=
  if t.step = 0 then
    match s.drainCompute core t with
    | .error x => s.failTop core t (if x.cause = .illegal then { x with info := t.shB.setWidth 64 } else x)
    | .ok t1 => s.setTop core { t1 with step := 1 }
  else if t.step < 8 then s.setTop core { t with step := t.step + 1 }
  else if t.step = 8 then
    match State.topClaims core t.id (t.dstTiles.drop t.prior.length) s t.prior with
    | (s1, got, none) => s1.setTop core { t with prior := got, step := 9 }
    | (s1, got, some x) => s1.stopTop core { t with prior := got } x
  else if t.merges && decide (t.dstTiles.length + 8 ≤ t.step) && decide (s.xlateNow (s.mergeCtx t) .rw t.dabs.toNat = .miss) then
    -- the merge waits for its walk
    s.queueWalk (s.mergeCtx t) t.dabs.toNat
  else
    let i := t.step - 9
    let T := vaTile t.b
    let s1 := (s.putBytes core (t.dst.1 + i * T) ((t.out.drop (i * T)).take T)).setTag core (t.dstTiles.getD i 0) .full
    if t.dstTiles.length ≤ i + 1 then
      ((s1.setTag core (2560 + t.acc) .empty).sendAbsmax core t).finishTop core t [] t.flags
    else (s1.setTop core { t with step := t.step + 1 }).settle

/-! ## PACK, UNPACK, TABLE, ACZ, AREAD (R219, R222, R224, R225) -/

/-- The FP32 values of one k-block of a packed operand (R222). -/
def State.unpackBlock (s : State) (core : Nat) (t : TileOp) : List Byte × Flags :=
  let group := vaOff t.a + t.step * (opP t.shA + 1) * 128
  let cols := (List.range 32).map (s.packedCol core group t.shA)
  let r := (List.range 1024).map (fun k => let c := cols.getD (k % 32) ([], 0); roundTo .fp32 .rne (.scaled (c.1.getD (k / 32) 0) c.2))
  (r.flatMap (fun e => leBytes 4 e.1), r.foldl (fun f e => f ||| e.2) 0)
/-- One step of PACK or UNPACK. -/
def State.packStep (s : State) (core : Nat) (t : TileOp) : State :=
  match s.topHurt core t with
  | some o => ((s.topRecord core t o (localVa t.dst.1)).unclaim core t.dstTiles t.prior).finishTop core t [] 0
  | none =>
    let x := if t.sub = 6 then s.packGroup core (vaOff t.a) t.shA t.step else s.unpackBlock core t
    let t1 := { t with out := t.out ++ x.1, flags := t.flags ||| x.2, step := t.step + 1 }
    if kBlocks t.shA ≤ t1.step then
      let s1 := s.putBytes core t.dst.1 (t1.out ++ List.replicate (t.dst.2 - t1.out.length) 0)
      (t.dstTiles.foldl (fun s x => s.setTag core x .full) s1).finishTop core t1 [] t1.flags
    else s.setTop core t1
/-- A table entry as TABLE stores it, and its flags. -/
def tableStore (x : Nat) : Nat × Flags :=
  match Fmt.fp32.value x with
  | .nan _ => (0, fNV)
  | .inf n => (Fmt.fp32.code n Fmt.fp32.maxMag, fOF)
  | _ => (x, 0)
/-- TABLE in one step. -/
def State.tableStep (s : State) (core : Nat) (t : TileOp) : State :=
  let bank := fld t.b.toNat 0 2
  match s.topHurt core t with
  | some o => (s.topRecord core t o t.b).finishTop core t [] 0
  | none =>
    let es := (List.range 256).map (fun i => tableStore (s.mem.readN (scratchAddr core (vaOff t.a + 4 * i)) 4))
    let s1 := s.modCore core (fun k => { k with tables := es.zipIdx.foldl (fun (b : Table (BitVec 32)) e => b.set (bank * 256 + e.2) (BitVec.ofNat 32 e.1.1)) k.tables })
    (s1.heal (scratchAddr core (tableOff bank 0)) 1024).finishTop core t [] (es.foldl (fun f e => f ||| e.2) 0)
/-- ACZ in one step. -/
def State.aczStep (s : State) (core : Nat) (t : TileOp) : State :=
  let s1 := s.modAcc core t.acc (fun a => { Acc.reset with tag := a.tag, anchor := (BitVec.ofNat 8 (fld t.a.toNat 8 8)).toInt })
  ((s1.heal (scratchAddr core (accOff t.acc)) 0x2800).setTag core (2560 + t.acc) .full).finishTop core t [] 0
/-- AREAD in one step; a struck cell gives an unspecified value (R230). -/
def State.areadStep (s : State) (core : Nat) (t : TileOp) : State :=
  let a := s.acc core t.acc
  let k := fld t.a.toNat 8 5 * 32 + fld t.a.toNat 3 5
  let part := fld t.a.toNat 13 2
  let c : BitVec 80 := (a.cell k).setWidth 80
  let hurt := decide (part ≠ 2) && s.hurt (scratchAddr core (accOff t.acc + 10 * k)) 10
  let v : Word := if part = 2 then a.status else if hurt then Config.freeReg s.fresh else if part = 0 then c.setWidth 64 else (c.extractLsb' 64 16).signExtend 64
  (if hurt then s.bump 1 else s).finishTop core t [v.setWidth 1024] 0

/-! ## Starting and stepping (R213 to R215) -/

/-- The entry's accumulator tile lets it start. -/
def State.accReady (s : State) (core : Nat) (t : TileOp) : Bool :=
  let g := s.tag core (2560 + t.acc)
  let turn := s.atTurn [(core, 2560 + t.acc)] (.top core t.id)
  if t.sub = 1 then decide (g ≠ .pending) && turn
  else if t.takes then t.taken || (decide (g = .full) && turn)
  else if t.sub = 8 then decide (fld t.a.toNat 13 2 = 2) || (decide (g = .full) && turn)
  else true
/-- A stopped DRAIN that has written no destination tile computes again (R215). -/
def TileOp.again (t : TileOp) : TileOp := if t.sub = 2 ∧ t.step ≤ 9 then { t with step := 0 } else t
/-- Whether an entry may start or go on: the state after pulls, and the tile that holds it up. -/
def State.topReady (s : State) (core : Nat) (t0 : TileOp) : State × Option Nat :=
  let t := t0.again
  if !s.accReady core t then (s, some (2560 + t.acc))
  else if t.takes && !t.taken then (s, none)
  else if t.packs && !t.taken then
    match t.dstTiles.drop t.prior.length with
    | [] => (s, none)
    | d :: _ => if s.claimWaits core t.id d then (s, some d) else (s, none)
  else match s.topReads core t with
    | (s1, some b) => (s1, some b)
    | (s1, none) =>
      if t0.sub = 2 ∧ t0.step = 8 then
        (match t.dstTiles.drop t.prior.length with
          | [] => (s1, none)
          | d :: _ => if s1.claimWaits core t.id d then (s1, some d) else (s1, none))
      else (s1, none)
/-- After every move: a process that is BLOCKED off the slots for a macro-operation becomes ready once the oldest of those that it took along could go
on, or would start a pull (R215). -/
def State.wakeTops (s : State) : State :=
  (s.procs.map (·.1)).foldl (fun s pk =>
    let p := s.proc pk
    let c := coreOf pk
    match p.savedOps with
    | [] => s
    | t :: _ =>
      if p.state = .blocked ∧ s.resident pk = false ∧ p.savedOps.any (fun t => decide (t.op = p.on)) = true ∧ (s.topReady c t).2.all (fun b => decide (s.tag c b = .via)) = true then s.wake pk else s) s
/-- The oldest eligible entry: no older entry of its process, and its tiles let it go on. -/
def State.pickTop (core : Nat) : List TileOp → List Nat → State → State × Option TileOp
  | [], _, s => (s, none)
  | t :: rest, seen, s =>
    if seen.contains t.pk then State.pickTop core rest seen s
    else match s.topReady core t with
      | (s1, none) => (s1, some t)
      | (s1, some b) => State.pickTop core rest (t.pk :: seen) (s1.stopTop core t b)

/-- MACRO_OP_START (R214). The sequencer starts the oldest eligible tile-queue entry; it takes its accumulator tile. -/
def execMacroOpStart (core : Nat) (s : State) : Host.Outcome State Fault Refusal :=
  .next <|
    let k := s.core core
    if k.tileq.any (·.running) || k.halted then s
    else match State.pickTop core k.tileq [] s with
      | (s1, none) => s1
      | (s1, some t0) =>
        let t := { t0.again with running := true, waits := 0, taken := t0.taken || t0.takes }
        let s2 := (s1.setTop core t).unqueue (.top core t.id)
        let s3 := if t0.takes && !t0.taken then s2.setTag core (2560 + t.acc) .pending else s2
        s3.wakeOn t.op

/-- MACRO_STEP_COMPLETE (R215). A macro-operation step ends and the operation continues, stops or completes. -/
def execMacroStepComplete (core : Nat) (s : State) : Host.Outcome State Fault Refusal :=
  .next <| match (s.core core).tileq.find? (·.running) with
  | none => s
  | some t =>
    if !s.accReady core t then s.stopTop core t (2560 + t.acc)
    else if t.packs && !t.taken then
      match State.topClaims core t.id (t.dstTiles.drop t.prior.length) s t.prior with
      | (s1, got, none) => s1.setTop core { t with prior := got, taken := true }
      | (s1, got, some x) => s1.stopTop core { t with prior := got } x
    else match s.topReads core t with
      | (s1, some b) => s1.stopTop core t b
      | (s1, none) =>
        match t.sub with
        | 1 => s1.aczStep core t
        | 2 => s1.drainStep core t
        | 3 => s1.tableStep core t
        | 6 | 7 => s1.packStep core t
        | 8 => s1.areadStep core t
        | _ => s1.addStep core t

/-! ## The TOP group and MMA (R217 to R228) -/

/-- The shape register that an operand names, once it is no struck one (R315). -/
def shapeOf (p : Proc) (n : BitVec 3) : Except Trap (BitVec 256) :=
  if p.struck.contains (3, n.toNat) then .error ⟨.ecc, regInfo (3, n.toNat), 0, 0⟩ else .ok (p.r.getSh n)
/-- SHAPE-ALIGN of a form other than SHAPE. -/
def badShape (n : BitVec 3) : Trap := ⟨.shapeAlign, n.setWidth 64, 0, 0⟩
/-- A packed operand's check (R217, R220). -/
def packedCheck (va : Word) (r : BitVec 256) : Option Trap := localCheck va 1024 (packedZ r) [.wt]
/-- An operand in row layout (R208, R220, R222). -/
def rowsCheck (va : Word) (r : BitVec 256) (rows n : Nat) : Option Trap :=
  localCheck va (srcUnit (opSrc r)) ((rows - 1) * opStride r + rowBytes (opSrc r) n) [.gs, .act]
/-- The first trap of two checks. -/
def thenCheck (a b : Option Trap) : Option Trap := match a with | some t => some t | none => b

/-- MMA (R220). Queues accN += A · B on the matrix array. The record of A is checked before that of B, and where their K differs TRAPINFO names the
register of B (DESIGN CHOICE, log 84: the spec gives one cause for all of these checks and no order). -/
def execMma (o : MM) (s : State) : Host.Outcome State Fault Refusal :=
  let w := packMM 0x3A o
  let nA : BitVec 3 := BitVec.ofNat 3 (2 * o.pair.toNat)
  let nB : BitVec 3 := nA + 1
  let base := infoMM o w
  issue { base with reads := base.reads ++ [(3, nA.toNat), (3, nB.toNat)] } (fun pk s =>
    let p := s.proc pk
    let a := p.r.getG o.a
    let b := p.r.getG o.b
    let shA := p.r.getSh nA
    let shB := p.r.getSh nB
    if shKind shA ≠ 3 ∨ opRole shA ≠ 0 then s.raise pk (badShape nA)
    else if shKind shB ≠ 3 ∨ opRole shB ≠ 1 ∨ opK shA ≠ opK shB then s.raise pk (badShape nB)
    else match thenCheck (rowsCheck a shA 32 (opK shA)) (packedCheck b shB) with
      | some t => s.raise pk t
      | none => s.enqueueTop pk o.l.toNat { TileOp.blank with sub := 15, acc := o.acc.toNat, a := a, b := b, shA := shA, shB := shB, red := o.r } .none [] a) s

/-- SHAPE (R218). Loads and checks a 32-byte shape record into a shape register. -/
def execShape (o : SH) (s : State) : Host.Outcome State Fault Refusal :=
  issue (infoSH o (packSH 0x3B 0 o)) (fun pk s =>
    let p := s.proc pk
    let va := p.r.getG o.a
    match localCheck va 32 32 [.gs] with
    | some t => s.raise pk t
    | none =>
      let c := coreOf pk
      if s.busyTo (.core c) (s.originWord pk) (.core c) || p.acquires c (.core c) || !s.atTurn (tilesUnder c (vaOff va) 32) (.proc pk) then s
      else match s.guestBar pk 0 (scratchAddr c (vaOff va)) 32 with
      | some x => (s.barNotice pk 0 (scratchAddr c (vaOff va)) 32 x).raise pk ⟨x, va, 0, 0⟩
      | none =>
      match s.touchAll .load (tilesUnder c (vaOff va) 32) with
        | (s1, false) => s1
        | (s1, true) =>
          let r : BitVec 256 := BitVec.ofNat 256 (s1.mem.readN (scratchAddr c (vaOff va)) 32)
          if s1.hurt (scratchAddr c (vaOff va)) 32 then s1.raise pk ⟨.ecc, va, 0, 0⟩
          else if shapeBad r then s1.raise pk ⟨.shapeAlign, va, 0, 0⟩
          else s1.modProc pk (fun p => p.retire [(3, o.n.toNat)] (p.r.setSh o.n r) (p.pc + 4) false)) s

/-- ACZ (R219). Queues zeroing of an accumulator tile at an anchor. -/
def execAcz (o : T1) (s : State) : Host.Outcome State Fault Refusal :=
  let w := packT1 0x3B 1 o
  issue (infoT1 o w) (fun pk s =>
    let x := (s.proc pk).r.getG o.a
    let an : Int := (BitVec.ofNat 8 (fld x.toNat 8 8)).toInt
    if fld x.toNat 3 5 ≠ 0 ∨ x.toNat / 2 ^ 16 ≠ 0 ∨ an < -112 ∨ 32 < an then s.raise pk ⟨.illegal, BitVec.ofNat 64 w, 0, 0⟩
    else s.enqueueTop pk o.l.toNat { TileOp.blank with sub := 1, acc := fld x.toNat 0 3, a := x } .none [] 0) s

/-- DRAIN (R228). Queues the staged conversion of an accumulator tile to a destination. A destination in a buffer that the entry does not name is tested
for a multiple of 64 before it traps PROT, as is that of UNPACK (DESIGN CHOICE, log 114: 'its tile size' may be meant of that buffer's). -/
def execDrain (o : T2) (s : State) : Host.Outcome State Fault Refusal :=
  let w := packT2 0x3B 2 o
  issue (infoT2 o w) (fun pk s =>
    let p := s.proc pk
    let cmd := p.r.getG o.a
    let dst := p.r.getG o.b
    let c := p.r.ctl
    let out := fld c.dfmt.toNat 0 4
    let T := if bufAt (vaOff dst) = .act then 1024 else 64
    if cmd.toNat / 2 ^ 13 ≠ 0 ∨ 4 < fld cmd.toNat 10 3 ∨ c.dfmt.toNat / 32 ≠ 0 ∨ 12 < out ∨ c.dtable.toNat / 2 ^ 26 ≠ 0 ∨ fld c.dtable.toNat 0 8 ≠ 0 then
      s.raise pk ⟨.illegal, BitVec.ofNat 64 w, 0, 0⟩
    else match thenCheck (localCheck dst T (padTo (outZ out) T) [.gs, .act])
        (thenCheck (if cmd.getLsbD 3 then localCheck c.dbias 8 256 [.gs] else none) (if cmd.getLsbD 7 then localCheck c.dmult 8 256 [.gs] else none)) with
      | some t => s.raise pk t
      | none => s.enqueueTop pk o.l.toNat { TileOp.blank with
          -- the word itself, for a completion trap, stands in shB
          sub := 2, acc := fld cmd.toNat 0 3, a := cmd, b := dst, dfmt := c.dfmt, dbias := c.dbias, dmult := c.dmult, dtable := c.dtable, dabs := c.dabs
          shB := BitVec.ofNat 256 w } .none [] dst) s

/-- TABLE (R224). Queues replacement of a table bank from general store. -/
def execTable (o : T2) (s : State) : Host.Outcome State Fault Refusal :=
  let w := packT2 0x3B 3 o
  issue (infoT2 o w) (fun pk s =>
    let p := s.proc pk
    let a := p.r.getG o.a
    let b := p.r.getG o.b
    if b.toNat / 4 ≠ 0 then s.raise pk ⟨.illegal, BitVec.ofNat 64 w, 0, 0⟩
    else match localCheck a 64 1024 [.gs] with
      | some t => s.raise pk t
      | none => s.enqueueTop pk o.l.toNat { TileOp.blank with sub := 3, a := a, b := b } .none [] a) s

/-- ROWSUM and COLSUM: the selector, the record it names, the operand. -/
def sumBody (w sub role l : Nat) (ga gb : BitVec 6) (pk : Nat) (s : State) : State :=
  let p := s.proc pk
  let a := p.r.getG ga
  let b := p.r.getG gb
  let n : BitVec 3 := BitVec.ofNat 3 (b.toNat / 8)
  if fld b.toNat 6 26 ≠ 0 then s.raise pk ⟨.illegal, BitVec.ofNat 64 w, 0, 0⟩
  else match shapeOf p n with
    | .error t => s.raise pk t
    | .ok r =>
      if shKind r ≠ 3 ∨ opRole r ≠ role then s.raise pk (badShape n)
      else match (if role = 1 then packedCheck a r else rowsCheck a r 32 (opK r)) with
        | some t => s.raise pk t
        | none => s.enqueueTop pk l { TileOp.blank with sub := sub, acc := fld b.toNat 0 3, a := a, b := b, shA := r } .none [] a

/-- ROWSUM (R223). Queues addition of scaled packed-B column sums into a tile. -/
def execRowsum (o : T2) (s : State) : Host.Outcome State Fault Refusal :=
  issue (infoT2 o (packT2 0x3B 4 o)) (fun pk s => sumBody (packT2 0x3B 4 o) 4 1 o.l.toNat o.a o.b pk s) s

/-- COLSUM (R223). Queues addition of scaled A row sums into a tile. -/
def execColsum (o : T2) (s : State) : Host.Outcome State Fault Refusal :=
  issue (infoT2 o (packT2 0x3B 5 o)) (fun pk s => sumBody (packT2 0x3B 5 o) 5 0 o.l.toNat o.a o.b pk s) s

/-- PACK and UNPACK name g(b+1), the shape word, implicitly (R34). -/
def infoPk (o : T2) (w : Nat) : Issue :=
  { infoT2 o w with gs := [o.a.toNat, o.b.toNat, o.b.toNat + 1], reads := [(0, o.a.toNat), (0, o.b.toNat), (0, o.b.toNat + 1)] }
/-- PACK and UNPACK. -/
def packBody (w sub l : Nat) (ga gb : BitVec 6) (pk : Nat) (s : State) : State :=
  let p := s.proc pk
  let a := p.r.getG ga
  let b := p.r.getG gb
  let x := p.r.nextG gb
  let n : BitVec 3 := BitVec.ofNat 3 x.toNat
  let T := if bufAt (vaOff b) = .act then 1024 else 64
  if x.toNat / 8 ≠ 0 then s.raise pk ⟨.illegal, BitVec.ofNat 64 w, 0, 0⟩
  else match shapeOf p n with
    | .error t => s.raise pk t
    | .ok r =>
      if shKind r ≠ 3 ∨ opRole r ≠ 1 then s.raise pk (badShape n)
      else match (if sub = 6 then thenCheck (rowsCheck a r (opK r) 32) (localCheck b 1024 (padTo (packedZ r) 1024) [.wt])
          else thenCheck (packedCheck a r) (localCheck b T (padTo (opK r * 128) T) [.gs, .act])) with
        | some t => s.raise pk t
        | none => s.enqueueTop pk l { TileOp.blank with sub := sub, a := a, b := b, shA := r } .none [] a

/-- PACK (R222). Queues conversion of a B source into packed planes. -/
def execPack (o : T2) (s : State) : Host.Outcome State Fault Refusal :=
  issue (infoPk o (packT2 0x3B 6 o)) (fun pk s => packBody (packT2 0x3B 6 o) 6 o.l.toNat o.a o.b pk s) s

/-- UNPACK (R222). Queues conversion of packed B into FP32. -/
def execUnpack (o : T2) (s : State) : Host.Outcome State Fault Refusal :=
  issue (infoPk o (packT2 0x3B 7 o)) (fun pk s => packBody (packT2 0x3B 7 o) 7 o.l.toNat o.a o.b pk s) s

/-- AREAD (R225). Queues a read of an accumulator cell part or status word. -/
def execAread (o : T2) (s : State) : Host.Outcome State Fault Refusal :=
  let w := packT2 0x3B 8 o
  issue { infoT2 o w with reads := [(0, o.a.toNat)], writes := [(0, o.b.toNat)] } (fun pk s =>
    let x := (s.proc pk).r.getG o.a
    if x.toNat / 2 ^ 15 ≠ 0 ∨ fld x.toNat 13 2 = 3 then s.raise pk ⟨.illegal, BitVec.ofNat 64 w, 0, 0⟩
    else s.enqueueTop pk o.l.toNat { TileOp.blank with sub := 8, acc := fld x.toNat 0 3, a := x } (.g o.b 8 false) [(0, o.b.toNat)] x) s

end Sys2Proof.Machine
end

