-- ==== Sys2Proof/Machine/Copies.lean ====
section
/-! DEFINITION. The COPY group, groups, the copy unit and Borer (spec/06_copies.md R107 to R125, spec/04_memory.md R72 to R76). What a streamer
reads and what arrives are the rows of Arrivals.lean. -/
namespace Sys2Proof.Machine

/-! ## Pieces (R113) -/

/-- Piece size of a copy. -/
def Copy.size (c : Copy) : Nat := shPiece c.shape
/-- Pieces of one row. -/
def perRow (r : BitVec 256) : Nat := shRowBytes r / shPiece r
/-- Pieces in all. -/
def pieceCount (form : Nat) (r : BitVec 256) (members : Nat) : Nat :=
  match form with
  | 2 => 1
  | 3 => members * shRows r * perRow r
  | 4 => members
  | _ => shRows r * perRow r
/-- Row, member, source and destination of piece i. -/
def pieceOf (form : Nat) (r : BitVec 256) (members : List Word) (src dst : Word) (i : Nat) : Nat × Nat × Word × Word :=
  let per := perRow r
  let row := i / per
  let col := BitVec.ofNat 64 (i % per * shPiece r)
  let from_ (k : Nat) : Word := src + BitVec.ofNat 64 (k * shSstride r) + col
  match form with
  | 1 =>
    let n := shWidth r * shHeight r
    let blk := row / shBlock r
    let c := blk % n
    let x := shX0 r + c % shWidth r
    let y := shY0 r + c / shWidth r
    let lr := blk / n * shBlock r + row % shBlock r
    (row, 0, from_ row, dst + BitVec.ofNat 64 ((y * 16 + x) * 0x1000000 + lr * shDstride r) + col)
  | 2 => (0, 0, src, dst)
  | 3 =>
    let m := row / shRows r
    let k := row % shRows r
    (k, m, from_ k, members.getD m 0 + dst + BitVec.ofNat 64 (k * shDstride r) + col)
  | 4 => (0, i, members.getD i 0 + src, dst)
  | _ => (row, 0, from_ row, dst + BitVec.ofNat 64 (row * shDstride r) + col)
/-- Piece i of a copy, new. -/
def Copy.piece (c : Copy) (i : Nat) : Piece :=
  let x := pieceOf c.form c.shape c.members c.src c.dst i
  { idx := i, row := x.1, member := x.2.1, src := x.2.2.1, dst := x.2.2.2, stage := 0, dpa := 0, spa := 0, dtr := Under.none, str := Under.none, prior := .empty, reported := false }

/-! ## The COPY group at issue (R110, R112, R119) -/

def ctlKey (w : Word) : BitVec 32 := (w >>> 32).setWidth 32
def ctlGroup (w : Word) : Nat := fld w.toNat 24 8
def ctlCen (w : Word) : Bool := w.getLsbD 23
def ctlTile (w : Word) : Nat := fld w.toNat 0 11
/-- A virtual address that is not translated; one that is no local-view address is none that an access may name (R61). -/
def untranslated (va : Word) : Bool := decide (va.toNat / 2 ^ 52 = 15)
/-- A local-view address (R61). -/
def isLocal (va : Word) : Bool := untranslated va && decide (va.toNat < 0xF0000001000000)
/-- A local-view address through a window other than 0. -/
def localWindow (va : Word) : Bool := isLocal va && decide (windowOf (va.toNat - 0xF0000000000000) ≠ 0)
/-- The buffer of a local-view address through window 0. -/
def localBuf (va : Word) : Buf :=
  if va.toNat < 0xF0000001000000 ∧ windowOf (va.toNat - 0xF0000000000000) = 0 then bufAt (vaOff va) else .none
/-- A local-view run of P bytes stays inside the buffer of the operand, one that copies may use (R56, R112). -/
def localRun (operand va : Word) (p : Nat) : Bool :=
  let b := localBuf operand
  (decide (b = .gs ∨ b = .act ∨ b = .wt)) && decide (localBuf va = b) && decide (vaOff va + p ≤ b.base + b.size)
/-- The record column of R112. -/
def recordFits (form : Nat) (r : BitVec 256) : Bool :=
  match form with
  | 1 => decide (shKind r = 2)
  | 2 | 4 => decide (shKind r = 1 ∧ fld r.toNat 6 2 = 2)
  | _ => decide (shKind r = 1 ∧ fld r.toNat 6 2 ≤ 1)
/-- The start of an accumulator tile. -/
def accStart (va : Word) : Bool := decide (localBuf va = .acc ∧ (vaOff va - 0xA0000) % 0x2800 = 0)
/-- Alignment, window and buffer checks of the operands, in the order of R112. The destination operands of MCAST and the source operands of
REDG are the members' bases with the offset added (R113; DEDUCED, log 31). -/
def operandChecks (form : Nat) (r : BitVec 256) (members : List Word) (a b : Word) (total : Nat) : Option Trap :=
  let P := shPiece r
  let no (c : Cause) (va : Word) : Option Trap := some ⟨c, va, 0, 0⟩
  let aligned : List Word := if form = 2 then [] else if form = 6 then [b] else [a, b]
  let sources : List Word := if form = 4 then members.map (· + a) else if form = 6 then [] else [a]
  let locals : List Word := sources ++ (if form = 3 then members.map (· + b) else [b])
  match aligned.find? (fun va => decide (va.toNat % P ≠ 0)) with
  | some va => no .copyAlign va
  | none =>
    match locals.find? localWindow with
    | some va => no .copyAlign va
    | none =>
      match (if form = 2 ∨ form = 4 then locals.find? (fun va => isLocal va && !accStart va) else none) with
      | some va => no .copyAlign va
      | none =>
        if form = 2 ∨ form = 4 then (match locals.find? (fun va => untranslated va && !isLocal va) with | some va => no .prot va | none => none)
        else
          let bad := (List.range total).findSome? (fun i =>
            let x := pieceOf form r members a b i
            let dstBase : Word := if form = 3 then members.getD x.2.1 0 + b else b
            if form ≠ 6 ∧ untranslated a = true ∧ localRun a x.2.2.1 P = false then some x.2.2.1
            else if untranslated dstBase ∧ localRun dstBase x.2.2.2 P = false then some x.2.2.2 else none)
          match bad with
          | some va => no .prot va
          | none => none
/-- The group that MCAST and REDG name, and its check: a guest's address space is its origin module's (R264). -/
def State.groupAt (s : State) (pk id : Nat) : Group := (s.die (dieOfCore (coreOf pk))).groups.get Group.free id
def State.groupOpen (s : State) (pk id : Nat) : Bool :=
  let g := s.groupAt pk id
  decide (g.state = 1 ∧ g.asid = (s.proc pk).asid ∧ g.origin = (s.ctxOf pk).origin)
/-- The copy is handed to the copy unit: the operation is outstanding until the unit accepts it (R107). -/
def State.handCopy (s : State) (pk l form : Nat) (a b ctl : Word) (r : BitVec 256) (members : List Word) : State :=
  let p := s.proc pk
  let id := s.nextId
  let c : Copy := ⟨id, pk, id, p.pc, p.asid, form, a, b, r, ctl, members, p.priv, s.originWord pk, (s.ctxOf pk).origin, p.guestRoot, 0, pieceCount form r members.length, [], false⟩
  (({ s with nextId := s.nextId + 1 } : State).modCore (coreOf pk) (fun k => { k with copyWait := k.copyWait ++ [c] })).modProc pk
    (fun p => p.open_ id l true .copy .none a 0 [])
/-- COPY, COPYS, COPYA, MCAST and REDG. -/
def copyBody (form : Nat) (o : TC) (pk : Nat) (s : State) : State :=
  let p := s.proc pk
  let w := packTC 0x3C form o
  let a := p.r.getG o.a
  let b := p.r.getG o.b
  let ctl := p.r.nextG o.b
  let g := ctlGroup ctl
  let r := p.r.getSh o.sh
  let group := decide (form = 3 ∨ form = 4)
  let members := if group then (s.groupAt pk g).bases else []
  if fld ctl.toNat 11 12 ≠ 0 ∨ (group = false ∧ g ≠ 0) then s.raise pk ⟨.illegal, BitVec.ofNat 64 w, 0, 0⟩
  else if group && !s.groupOpen pk g then s.raise pk ⟨.groupInvalid, BitVec.ofNat 64 g, 0, 0⟩
  else if !recordFits form r then s.raise pk (badShape o.sh)
  else match operandChecks form r members a b (pieceCount form r members.length) with
    | some t => s.raise pk t
    | none => s.handCopy pk o.l.toNat form a b ctl r members

/-- COPY (R112). Checks and hands a shaped copy to the copy unit. -/
def execCopy (o : TC) (s : State) : Host.Outcome State Fault Refusal := issue (infoTC o (packTC 0x3C 0 o)) (copyBody 0 o) s

/-- COPYS (R113). Hands a slab copy spread over a core rectangle to the copy unit. -/
def execCopys (o : TC) (s : State) : Host.Outcome State Fault Refusal := issue (infoTC o (packTC 0x3C 1 o)) (copyBody 1 o) s

/-- COPYA (R120). Hands an accumulator-tile sum piece to the copy unit. -/
def execCopya (o : TC) (s : State) : Host.Outcome State Fault Refusal := issue (infoTC o (packTC 0x3C 2 o)) (copyBody 2 o) s

/-- MCAST (R113). Hands a copy to every member of an open group. -/
def execMcast (o : TC) (s : State) : Host.Outcome State Fault Refusal := issue (infoTC o (packTC 0x3C 3 o)) (copyBody 3 o) s

/-- REDG (R113). Hands a reduction of member accumulator tiles into a root tile. -/
def execRedg (o : TC) (s : State) : Host.Outcome State Fault Refusal := issue (infoTC o (packTC 0x3C 4 o)) (copyBody 4 o) s

/-- Sectors of an image by FMT (R73). -/
def flashSectors (fmt : Nat) : Nat := if fmt = 0 then 32 else if fmt = 1 then 9 else 13
/-- The control-word lines of R112 and the checks 1, 3 and 4 of R119. -/
def flashChecks (s : State) (w : Nat) (ctl word frame : Word) (push : Bool) : Option Trap :=
  let ill : Option Trap := some ⟨.illegal, BitVec.ofNat 64 w, 0, 0⟩
  if fld ctl.toNat 11 12 ≠ 0 ∨ ctlCen ctl = false ∨ ctlGroup ctl ≠ 0 ∨ ctlKey ctl ≠ 0 then ill
  else if word.toNat / 2 ^ 37 ≠ 0 ∨ fld word.toNat 34 2 = 3 ∨ (push = false ∧ word.getLsbD 36 = true) then ill
  else if frame.toNat % 65536 ≠ 0 then some ⟨.copyAlign, frame, 0, 0⟩
  else if s.isHere frame.toNat = false ∨ 2 ^ 52 ≤ frame.toNat ∨ placeOf (paLocal frame.toNat) ≠ .hbm then some ⟨.prot, frame, 0, 0⟩
  else none
/-- A request goes to Borer, on its separate path: it is accepted at once (R107). -/
def State.handFlash (s : State) (pk form : Nat) (word frame push ctl : Word) (r : BitVec 256) : State :=
  let p := s.proc pk
  let f : Flash := ⟨s.nextId, coreOf pk, pk, p.pc, form, word, paLocal frame.toNat, push, r, ctlTile ctl, p.asid, s.originWord pk, (s.ctxOf pk).origin, p.guestRoot, 0, []⟩
  ({ s with borer := s.borer ++ [f], nextId := s.nextId + 1 } : State).setProc pk p.pass

/-- FLUSHOUT (R119). Hands an HBM frame to Borer for encoding into flash. -/
def execFlushout (o : T2) (s : State) : Host.Outcome State Fault Refusal :=
  let w := packT2 0x3C 40 o
  issue { infoPk o w with priv := true } (fun pk s =>
    let r := (s.proc pk).r
    match flashChecks s w (r.nextG o.b) (r.getG o.b) (r.getG o.a) false with
    | some t => s.raise pk t
    | none => s.handFlash pk 5 (r.getG o.b) (r.getG o.a) 0 (r.nextG o.b) 0) s

/-- FETCHIN (R119). Hands a flash image to Borer for decoding into a frame, with optional push. -/
def execFetchin (o : TC) (s : State) : Host.Outcome State Fault Refusal :=
  let w := packTC 0x3C 6 o
  let base := infoTC o w
  issue { base with priv := true, reads := [(0, o.a.toNat), (0, o.b.toNat), (0, o.b.toNat + 1)] } (fun pk s =>
    let p := s.proc pk
    let word := p.r.getG o.a
    let ctl := p.r.nextG o.b
    let frame := p.r.getG o.b
    let push := word.getLsbD 36
    let dst := p.r.nextG o.a
    match flashChecks s w ctl word 0 true with
    | some ⟨.illegal, i, x, y⟩ => s.raise pk ⟨.illegal, i, x, y⟩
    | _ =>
      if push = true ∧ gAllot (s.core (coreOf pk)).partition ≤ o.a.toNat + 1 then s.raise pk ⟨.regallot, BitVec.ofNat 64 w, 0, 0⟩
      else match flashChecks s w ctl word frame true with
        | some t => s.raise pk t
        | none =>
          if !push then s.handFlash pk 6 word frame 0 ctl 0
          else if p.struck.contains (0, o.a.toNat + 1) then s.raise pk ⟨.ecc, regInfo (0, o.a.toNat + 1), 0, 0⟩
          else match shapeOf p o.sh with
            | .error t => s.raise pk t
            | .ok r =>
              if !recordFits 6 r then s.raise pk (badShape o.sh)
              else match operandChecks 6 r [] 0 dst (pieceCount 6 r 0) with
                | some t => s.raise pk t
                | none =>
                  -- source runs past the frame (R113)
                  if 65536 < (shRows r - 1) * shSstride r + shRowBytes r then s.raise pk ⟨.copyAlign, dst, 0, 0⟩
                  else s.handFlash pk 6 word frame dst ctl r) s

/-! ## Groups (R121 to R123) -/

/-- GOPEN (R122). Opens a group from a member table, a dword of it a step. Of a table that starts in the general store and runs past its end, the first
entry beyond it traps PROT at its own address (DESIGN CHOICE, log 115: the pseudocode checks t alone). -/
def execGopen (o : RR) (s : State) : Host.Outcome State Fault Refusal :=
  let w := packRR 0x3E 16 o
  issue { word := w, gu := o.gu, gs := [o.d.toNat, o.a.toNat], reads := [(0, o.d.toNat), (0, o.a.toNat)], ext := true } (fun pk s =>
    let p := s.proc pk
    let id := (p.word.getG o.d).toNat % 256
    let va := p.word.getG o.a
    let n := (p.buf.getD 0 0).toNat
    let d := dieOfCore (coreOf pk)
    if (s.groupAt pk id).state ≠ 0 then s.raise pk ⟨.groupBusy, BitVec.ofNat 64 id, 0, 0⟩
    else if va.toNat % 8 ≠ 0 then s.raise pk ⟨.misalign, va, 0, 0⟩
    else if !inLocalStore va.toNat 8 then s.raise pk ⟨.prot, va, 0, 0⟩
    else if p.buf.isEmpty then s.readNext pk va
    else if n = 0 ∨ 64 < n then s.raise pk ⟨.illegal, BitVec.ofNat 64 w, 0, 0⟩
    else if p.buf.length < n + 1 then
      let at_ := va + BitVec.ofNat 64 (8 * p.buf.length)
      if 1 < p.buf.length ∧ (p.buf.getLastD 0).toNat % 1024 ≠ 0 then s.raise pk ⟨.copyAlign, p.buf.getLastD 0, 0, 0⟩
      else if !inLocalStore at_.toNat 8 then s.raise pk ⟨.prot, at_, 0, 0⟩
      else s.readNext pk at_
    else if (p.buf.getLastD 0).toNat % 1024 ≠ 0 then s.raise pk ⟨.copyAlign, p.buf.getLastD 0, 0, 0⟩
    else (s.setProc pk p.pass).modDie d (fun v => { v with groups := v.groups.set id ⟨1, p.asid, (s.ctxOf pk).origin, p.buf.drop 1⟩ })) s

/-- GFREE (R123). Moves a group to DRAINING and waits for its pieces; the drain's completion completes it. -/
def execGfree (o : D1) (s : State) : Host.Outcome State Fault Refusal :=
  issue { word := packD1 0x3E 17 o, gu := o.gu, gs := [o.d.toNat], reads := [(0, o.d.toNat)], ext := true } (fun pk s =>
    let p := s.proc pk
    let id := (p.word.getG o.d).toNat % 256
    let d := dieOfCore (coreOf pk)
    if p.prog = 1 then s.block pk 4 (edgeGroup d id)
    else if !s.groupOpen pk id then s.raise pk ⟨.groupInvalid, BitVec.ofNat 64 id, 0, 0⟩
    else ((s.modDie d (fun v => { v with groups := v.groups.set id { (s.groupAt pk id) with state := 2 } })).setProc pk (p.going 1)).block pk 4 (edgeGroup d id)) s

/-- A GFREE that QUIESCE takes out of its wait has had no effect: its group is open again (R312). -/
def State.ungroup (s : State) (pk : Nat) : State :=
  let p := s.proc pk
  if p.state = .blocked ∧ p.why = 4 then
    s.modDie (fld p.wait.toNat 8 2) (fun v => { v with groups := v.groups.set (fld p.wait.toNat 0 8) { (v.groups.get Group.free (fld p.wait.toNat 0 8)) with state := 1 } })
  else s

/-- A copy of a group whose pieces are not all performed or abandoned. -/
def Copy.ofGroup (c : Copy) (id : Nat) : Bool := decide ((c.form = 3 ∨ c.form = 4) ∧ ctlGroup c.ctl = id) && (decide (c.next < c.total) || !c.active.isEmpty)
/-- GROUP_DRAIN_COMPLETE (R123). A DRAINING group becomes FREE once its pieces are done; an MCAST or REDG that has passed its checks and waits for
a free slot of its copy unit, and so is not accepted yet, holds the drain too (DESIGN CHOICE, log 85). -/
def execGroupDrainComplete (die group : Nat) (s : State) : Host.Outcome State Fault Refusal :=
  let g := (s.die die).groups.get Group.free group
  let busy := s.cores.any (fun (k : Nat × Core) => decide (dieOfCore k.1 = die) && (k.2.copyq ++ k.2.copyWait).any (fun c => c.ofGroup group))
  .next (if g.state ≠ 2 ∨ busy = true then s
    else
      let s1 := s.modDie die (fun v => { v with groups := v.groups.set group Group.free })
      match s1.procs.find? (fun (e : Nat × Proc) => decide (e.2.state = .blocked ∧ e.2.why = 4 ∧ e.2.wait = edgeGroup die group)) with
      | some (pk, _) => (s1.modProc pk (·.pass)).wake pk
      | none => s1)

/-! ## The copy unit (R107, R114 to R117) -/

def State.copyOf (s : State) (core id : Nat) : Option Copy := (s.core core).copyq.find? (fun c => decide (c.id = id))
def State.modCopy (s : State) (core id : Nat) (f : Copy → Copy) : State :=
  s.modCore core (fun k => { k with copyq := k.copyq.map (fun c => if c.id = id then f c else c) })
def State.dropCopy (s : State) (core id : Nat) : State := s.modCore core (fun k => { k with copyq := k.copyq.filter (fun c => c.id != id) })
def State.modPiece (s : State) (core id idx : Nat) (f : Piece → Piece) : State :=
  s.modCopy core id (fun c => { c with active := c.active.map (fun z => if z.idx = idx then f z else z) })
/-- All pieces are performed or abandoned. -/
def Copy.finished (c : Copy) : Bool := decide (c.total ≤ c.next) && c.active.isEmpty
/-- A piece has been performed; a copy without a completion tile to set leaves its slot with its last piece. Where its issuer is on another module, that
one hears that the last piece is over (R236). -/
def State.pieceDone (s : State) (core id idx : Nat) : State :=
  let s1 := s.modCopy core id (fun c => { c with active := c.active.filter (fun z => z.idx != idx) })
  match s1.copyOf core id with
  | some c =>
    let s2 := if c.finished && decide (c.form < 5) && !(s.copyOf core id).all (·.finished) then s1.farOver c.who id else s1
    if c.finished && decide (c.form < 5) && (!ctlCen c.ctl || c.abandoned) then s2.dropCopy core id else s2
  | none => s1
/-- The piece's place in a copy fault record (R118). DEST of a push of a FETCHIN is the destination VA of the piece, and not the frame of the request
(DESIGN CHOICE, log 86). -/
def State.copyRecord (s : State) (core : Nat) (c : Copy) (z : Piece) (cause : Nat) (addr : Word) : State :=
  let aux : Word := if c.form = 6 then BitVec.ofNat 64 c.op else 0
  s.engineFault (dieOfCore core) c.asid c.who cause 0 c.form z.row z.member c.pc addr z.dst aux
/-- A claimed destination tile of a piece. -/
def Piece.claimedTile (z : Piece) (form : Nat) : Option (Nat × Nat) :=
  if z.stage < 2 ∨ z.stage = 4 ∨ z.stage = 6 ∨ form = 2 ∨ form = 4 then none else (touchedTiles (paLocal z.dpa) 1).head?
/-- A request of a copy to a home, for its issuer as that was when it issued it. -/
def State.copySend (s : State) (core : Nat) (c : Copy) (dst : Home) (b : Body) : State :=
  s.routeFor (.copyUnit core) core c.who (decide (c.origin ≠ s.modid)) c.asid (ctlKey c.ctl) dst b
/-- A piece is given up: its tile goes back, at another module by a message, and the copy never sets its completion tile (R116). -/
def State.giveUpPiece (s : State) (core : Nat) (c : Copy) (z : Piece) : State :=
  let s1 := s.modCopy core c.id (fun c => { c with abandoned := true })
  let s2 := match z.claimedTile c.form with
    | some t =>
      if s.isHere z.dpa then (s1.setTag t.1 t.2 (if z.prior = Tag.via then .empty else z.prior)).settle
      else s1.tell (paModule z.dpa) (portOf core) c.who c.asid (.unclaim t.1 t.2 (.piece s.modid core c.id z.idx) z.prior)
    | none => s1
  s2.pieceDone core c.id z.idx
/-- A piece is abandoned (R116): a record is posted too. -/
def State.abandonPiece (s : State) (core : Nat) (c : Copy) (z : Piece) (cause : Nat) (addr : Word) : State :=
  (s.copyRecord core c z cause addr).giveUpPiece core c z
/-- A piece parks (R116, R117); one that faults again when its notice resumes it posts no further record (R307). -/
def State.parkPiece (s : State) (core : Nat) (c : Copy) (z : Piece) (stage : Nat) (addr : Word) : State :=
  let s1 := if z.reported then s else s.copyRecord core c z 0x07 addr
  s1.modPiece core c.id z.idx (fun z => { z with stage := stage, reported := true })
/-- What another module says of a piece, or this module of its own: performed with code 1, otherwise abandoned with the CAUSE. -/
def State.pieceResult (s : State) (src : Src) (who asid : Nat) (c : Claimant) (code : Nat) (atSource : Bool) : State :=
  match c with
  | .piece m k cid idx =>
    if m ≠ s.modid then s.tell m src.port who asid (.pieceEnd k cid idx code atSource .empty)
    else if code = 1 then s.pieceDone k cid idx
    else match s.copyOf k cid with
      | none => s
      | some x => match x.active.find? (fun z => decide (z.idx = idx)) with
        | none => s
        | some z => s.abandonPiece k x z code (if atSource then z.src else z.dst)
  | _ => s
/-- Whose access a piece is: its issuer's, as that was when it issued the copy (R107, R114). -/
def State.copyCtx (s : State) (core : Nat) (c : Copy) : Ctx :=
  let p := s.proc c.pk
  ⟨core, c.asid, c.priv, c.origin, if p.asid = c.asid ∧ p.state ≠ .free ∧ s.originWord c.pk = c.who then p.extents else [], c.root, none, none⟩
/-- What a failed translation of an engine's access posts. -/
def engineCause (x : Cause) : Nat := if x = .ecc then 0x10 else 0x08
/-- Whether a destination or a source at a physical address suits a piece (R114). -/
def pieceFits (form P : Nat) (dest : Bool) (pa : Nat) : Bool :=
  let acc := decide (form = 2 ∨ form = 4)
  match placeOf (paLocal pa) with
  | .scratch _ off =>
    let o := inWindow off
    let b := bufAt o
    if windowOf off ≠ 0 then false
    else if acc then decide (b = .acc ∧ (o - b.base) % 0x2800 = 0)
    else decide (b = .gs ∨ b = .act ∨ b = .wt) && (!dest || decide (b.tile = P ∧ o % P = 0)) && decide (o + P ≤ b.base + b.size)
  | .hbm | .host => !acc
  | .mmio => !acc && mmioNamed (paLocal pa) && mmioNamed (paLocal pa + P - 8)
  | .hole => false
/-- The destination of a piece: translated and claimed (R114 steps 1 and 2). A destination without tags on another module, or of a guest, is checked
there by a claim of its own (R256, R264). -/
def State.dispatchDst (s : State) (core : Nat) (c : Copy) (z : Piece) : State :=
  let x := s.copyCtx core c
  let P := c.size
  match s.xlate x .wr z.dst.toNat with
  | .miss => s.queueWalk x z.dst.toNat
  | .fail e _ => let s1 := s.dropWalk x z.dst.toNat
    if e = .page then s1.parkPiece core c z 4 z.dst else s1.abandonPiece core c z (engineCause e) z.dst
  | .ok pa u =>
    if !pieceFits c.form P true pa then s.abandonPiece core c z 0x08 z.dst
    else
      let acc := decide (c.form = 2 ∨ c.form = 4)
      let who : Claimant := .piece s.modid core c.id z.idx
      let rop : Option ROp := match placeOf (paLocal pa), acc with
        | .scratch k off, false => some (.claim k ((tileAt (inWindow off)).getD 0) who)
        | _, _ => if s.isHere pa ∧ c.origin = s.modid then none else some (.claimMem pa (if acc then 0x2800 else P) who)
      let place (stage : Nat) : State := s.modPiece core c.id z.idx (fun z => { z with stage := stage, dpa := pa, dtr := u, reported := false })
      match rop with
      | none => place 2
      | some op =>
        let r : Req := ⟨s.nextId, .copyUnit core, c.who, c.id, s.homeOf pa, op, z.dst, u, false, false, none, c.pc, 0, false, false⟩
        ({ (place 1) with nextId := s.nextId + 1 } : State).copySend core c (s.homeOf pa) (.req r)
/-- The source of a piece: translated, and the piece sent to its streamer (R114 step 3). The pushes of a FETCHIN read the frame itself, after its page
has been written: a store to a frame that is still mapped shows in them (DESIGN CHOICE, log 116: the spec does not say which bytes a pushed tile
carries then). -/
def State.dispatchSrc (s : State) (core : Nat) (c : Copy) (z : Piece) : State :=
  let sum := decide (c.form = 2 ∨ c.form = 4)
  let send (pa : Nat) (u : Under) (s : State) : State :=
    (s.modPiece core c.id z.idx (fun z => { z with stage := 3, spa := pa, str := u, reported := false })).copySend core c (s.homeOf pa)
      (.stream ⟨.piece s.modid core c.id z.idx, pa, if sum then 0x2800 else c.size, z.dpa, sum, false, u⟩)
  -- the push of a FETCHIN reads the frame itself
  if c.form = 6 then send z.src.toNat Under.none s
  else
    let x := s.copyCtx core c
    match s.xlate x .rd z.src.toNat with
    | .miss => s.queueWalk x z.src.toNat
    | .fail e _ => let s1 := s.dropWalk x z.src.toNat
      if e = .page then s1.parkPiece core c z 5 z.src else s1.abandonPiece core c z (engineCause e) z.src
    | .ok pa u => if !pieceFits c.form c.size false pa then s.abandonPiece core c z 0x08 z.src else send pa u s
/-- The next thing that the copy unit has to do for a list of copies: a piece of a copy to go on with, or a new piece of a copy. Pieces leave in row
order and issue order (R107): the oldest that has not been sent, and is not parked, goes first, and while its claim waits the later ones get no
further than their own claims. -/
def nextWork (cs : List Copy) : Option (Copy × Option Piece) :=
  let open_ := cs.flatMap (fun c => (c.active.filter (fun z => decide (z.stage ≤ 2))).map (fun z => (c, z)))
  let fresh : Option (Copy × Option Piece) := (cs.find? (fun c => decide (c.next < c.total))).map (fun c => (c, none))
  match open_ with
  | [] => fresh
  | (c, z) :: rest =>
    if z.stage ≠ 1 then some (c, some z)
    else match rest.find? (fun e => decide (e.2.stage = 0)) with
      | some e => some (e.1, some e.2)
      | none => fresh
/-- Parked pieces of a core. -/
def Core.parked (k : Core) : Nat := k.copyq.foldl (fun n c => n + (c.active.filter (fun z => decide (z.stage = 4 ∨ z.stage = 5))).length) 0

/-- COPY_ACCEPT (R107). The copy unit accepts a copy into a free slot, and the instruction completes. -/
def execCopyAccept (core : Nat) (s : State) : Host.Outcome State Fault Refusal :=
  let k := s.core core
  .next <| match k.copyWait with
  | [] => s
  | c :: rest =>
    if 16 ≤ (k.copyq.filter (fun c => decide (c.form < 5))).length then s
    else (s.setCore core { k with copyq := k.copyq ++ [c], copyWait := rest }).done c.pk c.op []

/-- PIECE_DISPATCH (R114). The copy unit translates, claims and sends a piece to its source streamer: one of these for one piece. Borer's pushes are
on their own path and are not held by a full fault queue (R107, R117). -/
def execPieceDispatch (core : Nat) (s : State) : Host.Outcome State Fault Refusal :=
  let k := s.core core
  let pick := match nextWork (k.copyq.filter (fun c => decide (c.form = 6))) with
    | some w => some w
    | none => if 32 ≤ k.parked then none else nextWork (k.copyq.filter (fun c => decide (c.form ≠ 6)))
  .next <| match pick with
  | none => s
  | some (c, some z) => if z.stage = 2 then s.dispatchSrc core c z else s.dispatchDst core c z
  | some (c, none) =>
    let z := c.piece c.next
    (s.modCopy core c.id (fun c => { c with next := c.next + 1, active := c.active ++ [z] })).dispatchDst core c z

/-- An engine sets its completion tile FULL by the TFULL row, in its turn at the tile (R80, R111): the state, and whether it did. -/
def State.tfull (s : State) (src : Src) (core t : Nat) (w : Waiter) : State × Bool :=
  let queue (s : State) : State := s.queueAt src (.core core) [(core, t)] .tfull w
  if !s.atTurn [(core, t)] w then (queue s, false)
  else match s.applyRow .tfull core t with
    | (s1, false) => (queue s1, false)
    | (s1, true) => ((if s.tag core t = .empty then s1 else s1.raiseWatch core t).unqueue w, true)
/-- COMPLETION_TILE_SET (R111). The copy unit applies TFULL to the completion tile once every piece is performed. -/
def execCompletionTileSet (core copyId : Nat) (s : State) : Host.Outcome State Fault Refusal :=
  .next <| match s.copyOf core copyId with
  | none => s
  | some c =>
    if !(c.finished && decide (c.form < 5) && ctlCen c.ctl && !c.abandoned) then s
    else match s.tfull (.copyUnit core) core (ctlTile c.ctl) (.copy core copyId) with
      | (s1, false) => s1
      | (s1, true) => (s1.dropCopy core copyId).settle

/-- The copy unit that a piece's message works for. -/
def Body.piece : Body → Option (Nat × Nat)
  | .push _ _ _ (.piece m k _ _) | .pushMem _ _ (.piece m k _ _) | .accum _ _ _ (.piece m k _ _) => some (m, k)
  | .stream b => (match b.who with | .piece m k _ _ => some (m, k) | _ => none)
  | _ => none
/-- An earlier piece of the same core, from the same source home to the same destination home, is still on its way (R125): of messages at a
streamer, one that it has not read, of pushes one that is not performed. -/
def State.pieceBefore (s : State) (m : Msg) : Bool :=
  let goal (b : Body) : Option Home := match b with | .stream b => some (s.homeOf b.dst) | _ => none
  m.body.piece.isSome && (s.net.takeWhile (fun x => x.id != m.id)).any (fun x =>
    decide (x.body.piece = m.body.piece ∧ x.src = m.src ∧ x.dst = m.dst ∧ goal x.body = goal m.body))
/-- COPYA_ACCUMULATE (R120). A COPYA or REDG piece adds truncated source cells into a FULL destination tile; one that finds it not FULL takes its place
in arrival order (R80). -/
def execCopyaAccumulate (id : Nat) (s : State) : Host.Outcome State Fault Refusal :=
  .next <| match s.inTurn id with
  | some m =>
    (match m.body with
    | .accum core n src who =>
      let a := s.acc core n
      if s.pieceBefore m then s
      else if a.tag ≠ .full ∨ s.atTurn [(core, 2560 + n)] (.msg id) = false then s.queueEngine m [(core, 2560 + n)] .sync
      else
        let hurt := s.hurt (scratchAddr core (accOff n)) 0x2800
        let a0 := { a with ecce := a.ecce || hurt }
        let a1 := a0.addCells s.fresh (fun k => truncAt (src.stored k) src.anchor a.anchor)
        ((((s.take id).unqueue (.msg id) |>.modAcc core n (fun _ => a1)).bump 1024).settle).pieceResult m.src 0 0 who 1 false
    | _ => s)
  | none => s

/-! ## Borer (R72 to R76) -/

/-- The first reason for which Borer refuses a request, 0 for none (R72, R76). It refuses a frame in a stack that is not in service too (R332). -/
def State.borerReason (s : State) (f : Flash) : Nat :=
  if s.lendsHbm.any (fun e => decide (e.2.src < f.frame + 65536 ∧ f.frame < e.2.src + e.2.len)) then 1
  else if s.inRegion f.frame 65536 then 2
  else if s.migs.any (fun m => decide (m.page = f.frame ∨ m.frame = f.frame)) then 3
  else if 2 ^ 34 < fld f.word.toNat 0 34 + flashSectors (fld f.word.toNat 34 2) then 4
  else 0
/-- Two requests touch a sector in common. -/
def Flash.overlaps (f g : Flash) : Bool :=
  let a := fld f.word.toNat 0 34
  let b := fld g.word.toNat 0 34
  decide (a < b + flashSectors (fld g.word.toNat 34 2) ∧ b < a + flashSectors (fld f.word.toNat 34 2))
/-- Blocks of a KVC format. -/
def kvcBlk (fmt : Nat) : Blk := if fmt = 1 then .e2m1 else .e3m2
/-- The image of a page (R73). -/
def flashImage (fmt : Nat) (page : List Byte) : List Byte :=
  if fmt = 0 then page
  else
    let k := kvcBlk fmt
    let blocks := (List.range 1024).flatMap (fun b =>
      let bs := (page.drop (64 * b)).take 64
      leBytes k.size (k.encode .fp16 .rne ((List.range 32).map (fun i => Fmt.fp16.value (leNat ((bs.drop (2 * i)).take 2))))).1)
    blocks ++ List.replicate (flashSectors fmt * 2048 - blocks.length) 0
/-- The page of an image (R73). -/
def flashPage (fmt : Nat) (image : List Byte) : List Byte :=
  if fmt = 0 then image
  else
    let k := kvcBlk fmt
    (List.range 1024).flatMap (fun b => (k.values (leNat ((image.drop (k.size * b)).take k.size))).flatMap (fun v => leBytes 2 (toFp16 v)))
/-- A request that Borer refuses leaves with a record (R76, R315). -/
def State.refuseFlash (s : State) (f : Flash) (cause reason : Nat) : State :=
  let pa : Word := BitVec.ofNat 64 (s.paOf f.frame)
  ((({ s with borer := s.borer.filter (fun x => x.id != f.id) } : State).engineFault (dieOfCore f.core) f.asid f.who cause reason f.form 0 0 f.pc pa pa f.word).borerWord).farOver f.who f.id

/-- BORER_REQUEST (R73). Borer takes a FLUSHOUT or FETCHIN, refusing busy frames or bad ranges. A FLUSHOUT's page is read and encoded; a
FETCHIN waits for earlier requests to its sectors, then its page is decoded into the frame and its pushes are handed over. -/
def execBorerRequest (id : Nat) (s : State) : Host.Outcome State Fault Refusal :=
  .next <| match s.borer.find? (fun f => decide (f.id = id ∧ f.stage = 0)) with
  | none => s
  | some f =>
    let fmt := fld f.word.toNat 34 2
    let earlier := s.borer.takeWhile (fun g => g.id != id)
    let put (g : Flash) (s : State) : State := { s with borer := s.borer.map (fun x => if x.id = id then g else x) }
    if earlier.any (fun g => decide (g.stage = 0) && f.overlaps g) then s
    else if s.borerReason f ≠ 0 then s.refuseFlash f 0x08 (s.borerReason f)
    else if !s.reachable (s.paOf f.frame) then s.refuseFlash f 0x08 0
    else if f.form = 5 then
      if s.hurt f.frame 65536 then s.refuseFlash f 0x10 0
      else put { f with stage := 1, image := flashImage fmt (s.mem.bytes f.frame 65536) } s
    else if earlier.any (fun g => decide (g.form = 5) && f.overlaps g) then s
    else if (fun (lo n : Nat) => s.flashHurt.any (fun a => decide (lo ≤ a ∧ a < lo + n))) (fld f.word.toNat 0 34 * 2048) (flashSectors fmt * 2048) then s.refuseFlash f 0x10 0
    else
      let image := s.flash.bytes (fld f.word.toNat 0 34 * 2048) (flashSectors fmt * 2048)
      let s1 := ({ s with mem := s.mem.writeBytes f.frame (flashPage fmt image) } : State).heal f.frame 65536
      let s2 := put { f with stage := 2 } s1
      if f.word.getLsbD 36 then
        let c : Copy := ⟨f.id, f.pk, f.word.toNat, f.pc, f.asid, 6, BitVec.ofNat 64 (s.paOf f.frame), f.push, f.shape, 0, [], true, f.who, f.origin, f.root, 0, pieceCount 6 f.shape 0, [], false⟩
        s2.modCore f.core (fun k => { k with copyq := k.copyq ++ [c] })
      else s2

/-- A Borer request leaves: system software and its issuer hear of it (R139, R236). -/
def State.flashOver (s : State) (f : Flash) : State :=
  (({ (s.dropCopy f.core f.id) with borer := s.borer.filter (fun x => x.id != f.id) } : State).borerWord).farOver f.who f.id
/-- The completion tile of a Borer request takes the TFULL row; the request is over. -/
def State.flashTile (s : State) (f : Flash) : State :=
  match s.tfull .borer f.core f.ctile (.flash f.id) with
  | (s1, false) => s1
  | (s1, true) => (s1.flashOver f).settle

/-- FETCHIN_COMPLETE (R74). A FETCHIN's page writes and pushes are done and its completion tile becomes FULL. -/
def execFetchinComplete (id : Nat) (s : State) : Host.Outcome State Fault Refusal :=
  .next <| match s.borer.find? (fun f => decide (f.id = id ∧ f.form = 6 ∧ f.stage = 2)) with
  | none => s
  | some f =>
    match s.copyOf f.core f.id with
    | none => s.flashTile f
    | some c =>
      if !c.finished then s
      else if c.abandoned then s.flashOver f
      else s.flashTile f

/-- FLUSHOUT_COMPLETE (R72). A FLUSHOUT becomes durable and its completion tile becomes FULL. -/
def execFlushoutComplete (id : Nat) (s : State) : Host.Outcome State Fault Refusal :=
  .next <| match s.borer.find? (fun f => decide (f.id = id ∧ f.form = 5 ∧ f.stage = 1)) with
  | none => s
  | some f =>
    if (s.borer.takeWhile (fun g => g.id != id)).any (fun g => f.overlaps g) then s
    else
      let lo := fld f.word.toNat 0 34 * 2048
      ({ s with
        flash := s.flash.writeBytes lo f.image
        flashHurt := s.flashHurt.filter (fun a => !decide (lo ≤ a ∧ a < lo + f.image.length)) } : State).flashTile f

end Sys2Proof.Machine
end

