-- ==== Sys2Proof/Machine/Process.lean ====
section
/-! DEFINITION. The process instructions and the steps that create and end processes (spec/17_scheduling.md R266 to R268, R277, R278, R289 to
R296, spec/18_pipeline.md R297). -/
namespace Sys2Proof.Machine

/-! ## Creation (R268, R270) -/

/-- Registers of a created process: g1 upwards from a list (R35, R281, R290). -/
def startRegs (args : List Word) : Regs :=
  { Regs.start with g := Vector.ofFn (fun i => if i.val = 0 then 0 else args.getD (i.val - 1) 0) }
/-- A process is created READY at the tail of its queue (R268, R270), entered by a transfer of control (R42): its state lies in the process store and the save area (R266). -/
def State.create (s : State) (core pid : Nat) (p : Proc) : State :=
  let q := { p with state := .ready, since := s.dtime, transferred := true }
  ((s.setProc (core * 256 + pid) q).modCore core (fun k => k.enqueue p.prio pid)).synced (core * 256 + pid)
/-- The word of a core, with pid 0 (R129). -/
def State.coreWord (s : State) (c : Nat) : Nat := s.word (c * 256)

/-! ## SPAWN (R290) -/

/-- What SPAWN checks of its record: the trap, or the target core. -/
def State.spawnCheck (s : State) (pk w : Nat) (va : Word) (r : Record) : Except Trap Nat :=
  let p := s.proc pk
  let d1 := (r.getD 1 0).toNat
  let c := if fld d1 26 1 = 1 then coreOf pk else fld d1 17 2 * 384 + fld d1 8 9
  if recBad r ∨ recNr r ≠ 0 ∨ recAsid r ≠ 0 ∨ d1 / 2 ^ 39 ≠ 0 ∨ d1 % 2 ^ 8 ≠ 0 then .error ⟨.illegal, BitVec.ofNat 64 w, 0, 0⟩
  else if (2 ≤ recPrio r ∨ fld d1 38 1 = 1) ∧ p.priv = false then .error ⟨.priv, BitVec.ofNat 64 w, 0, 0⟩
  else if (fld d1 26 1 = 0 ∧ (fld d1 19 7 ≠ s.modid ∨ 383 < fld d1 8 9)) ∨ (s.core c).partition < recNeed r ∨ 0x20000 < 64 * fld d1 27 11 + saveSize (recNeed r) then
    .error ⟨.prot, va, 0, 0⟩
  else .ok c

/-- SPAWN (R290). Creates a child process from a 64-byte record: it reads the record a dword a step, waits for the spawner's stores on the
module, and asks the target core. -/
def execSpawn (o : RR) (s : State) : Host.Outcome State Fault Refusal :=
  let w := packRR 0x3E 6 o
  issue { word := w, gu := o.gu, gs := [o.d.toNat, o.a.toNat], reads := [(0, o.a.toNat)], writes := [(0, o.d.toNat)], ext := true } (fun pk s =>
    let p := s.proc pk
    let va := p.word.getG o.a
    if va.toNat % 64 ≠ 0 then s.raise pk ⟨.misalign, va, 0, 0⟩
    else if !inLocalStore va.toNat 64 then s.raise pk ⟨.prot, va, 0, 0⟩
    else if p.buf.length < 8 then s.readNext pk (va + BitVec.ofNat 64 (8 * p.buf.length))
    else match s.spawnCheck pk w va p.buf with
      | .error t => s.raise pk t
      | .ok c =>
        if !p.clearHere then s
        else
          let op := s.nextId
          let asid := if fld (p.buf.getD 1 0).toNat 38 1 = 1 then (s.die (dieOfCore c)).evAsid else p.asid
          (({ s with nextId := op + 1 } : State).send (.core (coreOf pk)) (.core c) (.spawn c p.buf pk op asid (decide (recPrio p.buf = 3)))).modProc pk
            (fun p => p.open_ op 0 true .sync (.g o.d 8 false) va 0 [(0, o.d.toNat)])) s

/-- SPAWN_CHILD_CREATE (R290). The target core creates a spawned child when a pid is free. -/
def execSpawnChildCreate (id : Nat) (s : State) : Host.Outcome State Fault Refusal :=
  .next <| match s.inTurn id with
  | some ⟨_, _, _, .spawn c r pk op asid priv, _, _⟩ =>
    if (s.core c).partition < recNeed r then
      -- a REPART since the check has made the partition smaller (R277)
      (s.take id).failed pk op ⟨.prot, (((s.proc pk).outs.find? (fun o => decide (o.id = op))).map (·.va)).getD 0, 0, 0⟩
    else match (s.core c).freePids with
    | [] => (s.stay id).block pk 3 (edgeTable (s.coreWord c)) op
    | pid :: rest =>
      let child : Proc := { Proc.reset with
        r := startRegs ((List.range 6).map (fun i => r.getD (2 + i) 0) ++ [BitVec.ofNat 64 (s.originWord pk)])
        pc := BitVec.ofNat 64 (recEntry r), prio := recPrio r, priv := priv, need := recNeed r, asid := asid, save := fld (r.getD 1 0).toNat 27 11 }
      let s1 := ((s.take id).modCore c (fun k => { k with freePids := rest })).create c pid child
      s1.done pk op [BitVec.ofNat 1024 (s1.word (c * 256 + pid))]
  | _ => s

/-! ## EXIT (R291, R297, R105) -/

/-- The process has lends outstanding: the handle of the holder of the first (R105). -/
def State.lendTo (s : State) (who : Nat) : Option Word :=
  let mine (l : Lend) : Bool := decide (l.lender = who ∧ 0 < l.outstanding)
  match s.cores.findSome? (fun (k : Nat × Core) => k.2.lends.find? mine) with
  | some l => some l.holder
  | none => (s.lendsHbm.find? (fun e => mine e.2)).map (·.2.holder)
/-- The process behind the handle of a lend's holder: of a waymark its holder, of the receive end that stands for it until the RECVT the owner. -/
def State.holderOf (s : State) (h : Word) : Option Nat :=
  if hModule h ≠ s.modid then none
  else if hKind h = 3 then some ((s.core (hHome h)).marks.get Mark.free (hSlot h)).holder
  else let e := s.ep (hHome h) (hSlot h)
    if e.state = 2 then some e.owner else none
/-- The edge of an EXIT to the holder of a lend (R105, R287). A record holds the holder's handle alone, and of one on another module the process comes
from outside (log 87); a receive end that nobody owns is named itself, by its pair. -/
def State.holderEdge (s : State) (h : Word) : Word :=
  if hModule h ≠ s.modid then edgeProc ((Config.freeReg (2 ^ 64 + h.toNat)).toNat % 2 ^ 26)
  else match s.holderOf h with
    | some w => edgeProc w
    | none => edgeEndpoint (h - BitVec.ofNat 64 (2 ^ 32))
/-- After every move: an EXIT that waits for lends names the holder of the first that is left, as it is now (R105, R287). -/
def State.watchExits (s : State) : State :=
  (s.procs.filter (fun e => decide (e.2.state = .blocked ∧ e.2.why = 6))).foldl (fun s e =>
    match s.lendTo (s.originWord e.1) with
    | some h => if (s.proc e.1).wait = s.holderEdge h then s else s.block e.1 6 (s.holderEdge h)
    | none => s) s
/-- An unbinding request of the process has not been answered. -/
def State.unbinding (s : State) (who : Nat) : Bool :=
  s.net.any (fun m => match m.body with | .unbind _ _ w _ => decide (w = who) | _ => false) ||
    s.cores.any (fun (k : Nat × Core) => k.2.eps.any (fun e => e.2.held.any (fun o => decide (o.form = 20 ∧ o.who = who))))
/-- The modules that the partition has. -/
def State.livePeers (s : State) : List Nat := (s.peers.filter (fun e => e.2.present && !e.2.lost && decide (e.1 ≠ s.modid))).map (·.1)
/-- The unbinding requests of an exiting process (R297), one for each end here, and to every other module one that stands for those of the ends that
the process owns there (log 110); its watches there go too (R91). -/
def State.sendUnbinds (s : State) (pk : Nat) : State :=
  let who := s.originWord pk
  let c := coreOf pk
  let asid := (s.proc pk).asid
  let key := s.askey.get 0 asid
  let s1 := (s.ownedEnds who).foldl (fun s e => s.send (.core c) (if e.1 < 1536 then .core e.1 else .mmio 1) (.unbind e.1 e.2 who pk)) s
  s1.livePeers.foldl (fun s m =>
    let op := s.nextId
    ((({ s with nextId := op + 1 } : State).sendAway c who m asid key (.unwatch who)).sendAway c who m asid key (.unbindAll who op)).modProc pk
      (fun p => p.sent op (.remote m) false 0)) s1
/-- One turn of an exiting process: it waits for its stores and macro-operations, then drops its waymarks, its watches and its endpoints,
then waits for lends. It is BLOCKED on a tile that a macro-operation has stopped on, on a frozen stream by which its requests to another module have to
leave (R258), and on the holder of a lend (R105, R287). -/
def State.exitStep (s : State) (pk : Nat) : State :=
  let p := s.proc pk
  let who := s.originWord pk
  if p.ending = 2 then
    match s.lendTo who with
    | some h => s.block pk 6 (s.holderEdge h)
    | none => s
  else
    let c := s.core (coreOf pk)
    let mine := (c.tileq ++ c.tileWait).filter (fun t => decide (t.pk = pk))
    match mine.find? (fun t => t.waits != 0) with
    | some t => (s.setProc pk { p with ending := 1 }).block pk 0 t.waits t.op
    | none =>
      if !p.unacked.isEmpty || !p.outs.isEmpty || !p.savedOps.isEmpty || !mine.isEmpty || (s.heldMarks who).any (fun m => !m.2.2.isEmpty) then
        s.setProc pk { p with ending := 1 }
      else match s.livePeers.find? (fun m => s.awayWait pk (.remote m)) with
      | some m => (s.setProc pk { p with ending := 1 }).awayBlock pk (.remote m)
      | none => (((((s.dropMarks who).dropWatches who).sendUnbinds pk).modProc pk (fun p => { p with ending := 2 })).settle)

/-- EXIT (R291). Ends the process once acknowledgements and unbindings are answered. -/
def execExit (o : Guard) (s : State) : Host.Outcome State Fault Refusal :=
  issue { word := packG0 0x3E 7 o, gu := o, ext := true } (fun pk s => s.exitStep pk) s

/-- What the core where a process was created gives back when it ends: its pid, its descriptor and, of a task, its slot of the pool; the Launch Unit
hears of the end of a task (R282, R291, R326). -/
def State.freeOrigin (s : State) (k : Nat) : State :=
  let p := s.proc k
  let c := coreOf k
  let s1 := (s.modCore c (fun x => { x with
    freePids := x.freePids ++ [pidOf k]
    pool := if p.task then x.pool.filter (fun i => i != p.poolSlot) else x.pool })).setProc k { Proc.reset with desc := 0 :: p.desc.drop 1 }
  if p.task ∧ p.taskId ≠ 0 then s1.send (.core c) (.mmio 0) (.exited p.taskId) else s1
/-- The slot, the park entry and the descriptor of a process are freed, and what its origin holds for it, which is told where it is another module
(R263, R291 steps 4 and 5). -/
def State.freeProc (s : State) (pk : Nat) : State :=
  let p := s.proc pk
  let c := coreOf pk
  let pid := pidOf pk
  let s1 := s.modCore c (fun k => { (k.dequeue pid) with
    slots := k.slots.filter (fun x => x != pid)
    parkMap := k.parkMap.filter (fun e => e.1 != pid) })
  let s2 := if !p.guest then s1.freeOrigin pk
    else
      let s2 := s1.setProc pk { Proc.reset with desc := 0 :: p.desc.drop 1 }
      if wordModule p.origin ≠ s.modid then s2.tell (wordModule p.origin) (portOf c) p.origin p.asid (.relocated p.origin none)
      else s2.freeOrigin (wordKey p.origin)
  s2.relink c
/-- EXIT_COMPLETE (R291). An EXIT whose acknowledgements and unbindings are answered frees the process; one with lends outstanding stays
BLOCKED until the last is released (R105). -/
def execExitComplete (core pid : Nat) (s : State) : Host.Outcome State Fault Refusal :=
  let pk := core * 256 + pid
  let p := s.proc pk
  let who := s.originWord pk
  .next (if p.ending ≠ 2 ∨ p.unacked.isEmpty = false ∨ s.unbinding who = true ∨ (s.lendTo who).isSome = true then s else s.freeProc pk)

/-! ## YIELD, PRIO, SLEEP, WHOAMI, PGET, PSET (R292 to R296) -/

/-- Some process of priority n or above that is not resident is ready. -/
def State.readyAbove (s : State) (core n : Nat) : Bool :=
  (List.range 4).any (fun i => decide (n ≤ i) && ((s.core core).queues.getD i []).any (fun pid => s.mayEnter (core * 256 + pid)))

/-- YIELD (R292). Yields the slot to a ready process of equal or higher priority. -/
def execYield (o : Guard) (s : State) : Host.Outcome State Fault Refusal :=
  issue { word := packG0 0x3E 8 o, gu := o, ext := true } (fun pk s =>
    let p := s.proc pk
    let s1 := s.setProc pk p.pass
    if s.readyAbove (coreOf pk) p.prio then s1.leave pk else s1) s

/-- PRIO (R293). Returns the old priority and sets a new one. -/
def execPrio (o : RR) (s : State) : Host.Outcome State Fault Refusal :=
  let w := packRR 0x3E 9 o
  issue { infoRR o w with ext := true } (fun pk s =>
    let p := s.proc pk
    let v := p.r.getG o.a
    match prioTrap p v w with
    | some t => s.raise pk t
    | none => s.setProc pk { (p.retire [(0, o.d.toNat)] (p.r.setG o.d (BitVec.ofNat 64 p.prio)) (p.pc + 4) false) with prio := v.toNat % 4 }) s

/-- SLEEP (R294). Sleeps until DTIME reaches g[a]. -/
def execSleep (o : A1) (s : State) : Host.Outcome State Fault Refusal :=
  issue (infoA1 o (packA1 0x3E 10 o)) (fun pk s =>
    let p := s.proc pk
    let v := p.r.getG o.a
    if v.toNat ≤ s.dtime then s.setProc pk p.pass
    else s.setProc pk { p.pass with state := .sleeping, wait := v, since := s.dtime }) s

/-- SLEEP_EXPIRE (R294). A SLEEPING process's deadline passes and it becomes ready. A halted core takes the expiry when issue resumes (R310). -/
def execSleepExpire (core pid : Nat) (s : State) : Host.Outcome State Fault Refusal :=
  let pk := core * 256 + pid
  let p := s.proc pk
  .next (if p.state = .sleeping ∧ p.wait.toNat ≤ s.dtime ∧ (s.core core).halted = false then s.wake pk else s)

/-- WHOAMI's values (R295). -/
def State.whoami (s : State) (pk : Nat) (sel : BitVec 2) : Word :=
  let p := s.proc pk
  match sel.toNat with
  | 0 => BitVec.ofNat 64 (s.originWord pk)
  | 1 => BitVec.ofNat 64 (s.word pk)
  | _ => BitVec.ofNat 64 (p.prio + p.need * 2 ^ 2 + (s.core (coreOf pk)).partition * 2 ^ 4 + p.asid * 2 ^ 6 + p.priv.toNat * 2 ^ 12 + p.guest.toNat * 2 ^ 13 + p.task.toNat * 2 ^ 14)
/-- WHOAMI (R295). Returns a process word or status fields by selector. -/
def execWhoami (o : WH) (s : State) : Host.Outcome State Fault Refusal :=
  let w := packWH 0x3E 18 o
  issue (infoWH o w) (fun pk s =>
    if o.sel = 3 then s.raise pk ⟨.illegal, BitVec.ofNat 64 w, 0, 0⟩
    else s.modProc pk (fun p => p.retire [(0, o.d.toNat)] (p.r.setG o.d (s.whoami pk o.sel)) (p.pc + 4) false)) s

/-- The predicates packed (R296). -/
def Regs.packPreds (r : Regs) : Word := BitVec.ofNat 64 (1 + (List.range 7).foldl (fun a i => a + (r.getP (BitVec.ofNat 3 (i + 1))).toNat * 2 ^ (i + 1)) 0)
/-- PGET (R296). Packs the predicates into gd. -/
def execPget (o : D1) (s : State) : Host.Outcome State Fault Refusal :=
  issuePure { infoD1 o (packD1 0x3E 19 o) with ext := false } (fun r => r.setG o.d r.packPreds) s

/-- PSET (R296). Sets p1–p7 from g[a]. -/
def execPset (o : A1) (s : State) : Host.Outcome State Fault Refusal :=
  issuePure { infoA1 o (packA1 0x3E 20 o) with ext := false }
    (fun r => (List.range 7).foldl (fun x i => x.setP (BitVec.ofNat 3 (i + 1)) ((r.getG o.a).getLsbD (i + 1))) r) s

/-! ## REPART (R278) -/

/-- Registers beyond the smaller of two allotments read zero. -/
def Regs.cut (r : Regs) (old new : Nat) : Regs :=
  { r with
    g := Vector.ofFn (fun i => if i.val < min (gAllot old) (gAllot new) then r.g.get i else 0)
    v := Vector.ofFn (fun i => if i.val < min (vAllot old) (vAllot new) then r.v.get i else 0) }
/-- What REPART checks after its operand. -/
def State.repartBusy (s : State) (pk new : Nat) : Bool :=
  let c := coreOf pk
  let k := s.core c
  k.slots.any (fun x => x != pidOf pk) || (k.tileq ++ k.tileWait).any (fun t => t.pk != pk) ||
    s.procs.any (fun e => decide (coreOf e.1 = c) && e.2.guest) ||
    (decide (new < k.partition) && s.procs.any (fun e => decide (coreOf e.1 = c ∧ e.2.state ≠ .free ∧ e.2.state ≠ .exited ∧ new < e.2.need)))
/-- REPART (R278). Moves the core one step to another register partition. -/
def execRepart (o : A1) (s : State) : Host.Outcome State Fault Refusal :=
  let w := packA1 0x3E 13 o
  issue { infoA1 o w with priv := true } (fun pk s =>
    let p := s.proc pk
    let c := coreOf pk
    let k := s.core c
    let v := (p.r.getG o.a).toNat
    if v / 4 ≠ 0 ∨ v = 3 ∨ ¬(v = k.partition + 1 ∨ v + 1 = k.partition) then s.raise pk ⟨.illegal, BitVec.ofNat 64 w, 0, 0⟩
    else if s.repartBusy pk v then s.raise pk ⟨.repartBusy, 0, 0, 0⟩
    else
      let s1 := k.parkMap.foldl (fun s e => (s.modProc (c * 256 + e.1) (fun q => { q with state := .ready })).synced (c * 256 + e.1)) s
      (s1.modCore c (fun x => { x with parkMap := [], partition := v })).setProc pk (p.retire [] (p.r.cut k.partition v) (p.pc + 4) false)) s

end Sys2Proof.Machine
end

