-- ==== Sys2Proof/Machine/Causeway.lean ====
section
/-! DEFINITION. Leaving the module: Causeway (spec/15_causeway.md R250 to R265, R340), the reply cache of spec/14_atomics_fences.md R243, the
quiesce of a partition (spec/19_faults.md R312, spec/05_tags.md R106, spec/07_channels.md R137) and STREAMRES (R314). -/
namespace Sys2Proof.Machine

/-! ## Records without a stated layout -/

/-- A record whose header alone the spec lays out: its other dwords are free values. -/
def State.postFree (s : State) (d kind asid who : Nat) : State :=
  (s.post d kind asid who ((List.range 7).map (fun i => Config.freeReg (s.fresh + i)))).bump 7

/-! ## Peers (R260, R261) -/

def State.peer (s : State) (m : Nat) : Peer := s.peers.get Peer.unknown m
def State.setPeer (s : State) (m : Nat) (p : Peer) : State := { s with peers := s.peers.set m p }
/-- A peer is lost: the die that detects it posts the peer-lost record (R260). -/
def State.losePeer (s : State) (d m : Nat) : State :=
  let p := s.peer m
  if !p.present || p.lost then s else (s.setPeer m { p with lost := true }).postFree d 7 0 0
/-- A message from this module. -/
def Msg.isFrom (x : Msg) (m : Nat) : Bool := match x.src with | .remote k _ => decide (k = m) | _ => false
/-- Nothing that a module sent, or was to be sent, in an earlier life is kept: streams, requests ahead of a gap or parked, cached replies, and the
numbers of AMOs (R243, R253, R261). -/
def State.forget (s : State) (m : Nat) : State :=
  { s with
    replies := s.replies.filter (fun e => e.srcModule != m)
    streamsIn := (s.streamsIn.filter (fun x => wordModule x.who != m)).map (fun (x : StreamIn) =>
      if x.frozen.any (·.isFrom m) then { x with early := [], frozen := none, noticed := false } else { x with early := x.early.filter (fun y => !y.isFrom m) })
    streamsOut := s.streamsOut.filter (fun x => x.target != m)
    cores := s.cores.map (fun (k : Nat × Core) => (k.1, { k.2 with amoSeq := k.2.amoSeq.drop m, amoOut := k.2.amoOut.filter (fun x => x.1 != m) })) }
/-- The fabric manager admits a peer with its incarnation (R261). -/
def State.admitPeer (s : State) (m incarn : Nat) : State := (s.forget m).setPeer m ⟨true, false, incarn, s.dtime, (s.peer m).guestFree, (s.peer m).service⟩
/-- The incarnation check of R261: the packet is taken, or dropped. In normal service a wrong number makes its sender lost (R260). -/
def State.incarnOk (s : State) (m incarn : Nat) : Bool := decide (m = s.modid) || ((s.peer m).present && decide ((s.peer m).incarn = incarn))
def State.dropStale (s : State) (d m : Nat) : State := if s.phase = 1 then s.losePeer d m else { s with stale := min (s.stale + 1) (2 ^ 32 - 1) }

/-! ## Packets leave (R251 to R254, R258, R259) -/

/-- The process that a notice to another module is sent for, where it is known here: of a pull the holder of its waymark. Other notices are charged
to address space 0 (log 89). -/
def State.senderOf (s : State) : Body → Option Nat
  | .pullRead _ _ _ _ h => if hModule h = s.modid then some ((s.core (hHome h)).marks.get Mark.free (hSlot h)).holder else none
  | _ => none
/-- Messages on the net for another module go to the ports. -/
def State.toPorts (s : State) : State :=
  let away (m : Msg) : Bool := match m.dst with | .remote _ => true | _ => false
  let one (s : State) (m : Msg) : State := match m.dst with
    | .remote k => (match s.senderOf m.body with
      | some w => s.tell k m.src.port w (if s.moduleOf w = s.modid then (s.proc (s.keyOf w)).asid else 0) m.body
      | none => s.tell k m.src.port 0 0 m.body)
    | _ => s
  (s.net.filter away).foldl one { s with net := s.net.filter (fun m => !away m) }
/-- Whether a packet may leave now: no request of a process into a frozen stream, nor, in recovery, of an unprivileged process (R258, R312). -/
def State.mayLeave (s : State) (p : Packet) : Bool :=
  !p.request || p.header.seq.isNone ||
    (!(s.streamTo p.header.who p.target).frozen && (decide (s.phase ≠ 3) || (s.proc (s.keyOf p.header.who)).priv))
/-- RATE and BURST of an address space (R259). -/
def rateOf (x : Word) : Nat × Nat := (fld x.toNat 0 24, fld x.toNat 24 24)
/-- n more flits of a packet are in the replay buffer. -/
def addReplay (r : List (Nat × Nat)) (id n : Nat) : List (Nat × Nat) :=
  if n = 0 then r
  else if r.any (fun e => decide (e.1 = id)) then r.map (fun e => if e.1 = id then (id, e.2 + n) else e) else r ++ [(id, n)]
/-- The packets in order: each sends the flits that its laser, its credits and its tokens let go. A packet that has not left keeps back the
later ones of its peer, port and class. -/
def State.pumpList : List Packet → List (Nat × Nat × Bool) → State → State
  | [], _, s => s
  | p :: rest, stuck, s =>
    let lane := (p.target, p.port, p.request)
    match s.links.find? (fun l => decide (l.port = p.port ∧ l.peer = p.target) && l.tuned && !l.retraining) with
    | none => State.pumpList rest stuck s
    | some l =>
      if stuck.contains lane || !s.mayLeave p then State.pumpList rest (lane :: stuck) s
      else
        let d := p.port / 2
        let rate := rateOf ((s.die d).asrate.get 0 p.asid)
        let limited := p.request && decide (rate.1 ≠ 0)
        let have_ := (s.die d).tokens.get 0 p.asid
        let credit := if p.request then l.reqCredit else l.repCredit
        let n := min (p.flits - p.left) (if limited then min credit have_ else credit)
        let l1 := { l with
          reqCredit := if p.request then l.reqCredit - n else l.reqCredit
          repCredit := if p.request then l.repCredit else l.repCredit - n
          replay := addReplay l.replay p.id n
          used := if n = 0 then l.used else s.nextId }
        let q := { p with left := p.left + n }
        let gone := decide (q.flits ≤ q.left)
        let s1 : State := { s with
          links := s.links.map (fun (x : Link) => if x.port = l.port ∧ x.peer = l.peer then l1 else x)
          outbox := if gone then s.outbox.filter (fun x => x.id != p.id) else s.outbox.map (fun (x : Packet) => if x.id = p.id then q else x)
          sent := if gone then s.sent ++ [q] else s.sent
          nextId := s.nextId + 1 }
        let s2 := if limited then s1.modDie d (fun v => { v with tokens := v.tokens.set p.asid (have_ - n) }) else s1
        State.pumpList rest (if gone then stuck else lane :: stuck) s2
/-- After every move: what may leave the module leaves. Without a module id nothing does (R250). -/
def State.pump (s : State) : State :=
  let s1 := s.toPorts
  if s1.modid = 127 ∨ s1.outbox = [] then s1 else State.pumpList s1.outbox [] s1
/-- The operation whose answer tells that a request need not be sent again. -/
def Body.opNo : Body → Option Nat
  | .req r => (match r.rop with | .claim .. | .claimMem .. => none | _ => some r.op)
  | .travel t => some t.op
  | .chanSend _ o | .chanRecv _ o => some o.op
  | .unbindAll _ op => some op
  | .absmax _ _ _ op _ _ _ _ _ => some op
  | _ => none
/-- The answer of a request is here: its packet need not be sent again, and the number of an AMO is free (R243). -/
def State.unsend (s : State) (op : Nat) : State :=
  let gone (p : Packet) : Bool := match p.body with
    | .unwatch w => s.sent.any (fun q => match q.body with | .unbindAll v o => decide (v = w ∧ o = op) | _ => false)
    | b => b.opNo == some op
  { s with
    sent := s.sent.filter (fun p => !gone p)
    cores := s.cores.map (fun (k : Nat × Core) => (k.1, { k.2 with amoOut := k.2.amoOut.filter (fun x => x.2.1 != op) })) }
/-- What another module says of a piece is here: its claim, and with its end its read too, need not be sent again; what has ended is called back no
more. -/
def State.unsendPiece (s : State) (c : Claimant) (ended : Bool) : State :=
  let mine (b : Body) : Bool := match b with
    | .req r => (match r.rop with | .claim _ _ x | .claimMem _ _ x => decide (x = c) | _ => false)
    | .stream b => ended && decide (b.who = c)
    | _ => false
  { s with
    sent := s.sent.filter (fun p => !mine p.body)
    recalls := s.recalls.filter (fun w => !(ended && (match w, c with | .piece k i n, .piece _ k1 i1 n1 => decide (k = k1 ∧ i = i1 ∧ n = n1) | _, _ => false))) }

/-! ## The check at the target (R255 to R257, R340) -/

/-- The check of a request by its header. -/
def State.headerCheck (s : State) (h : Header) : Verdict := s.regionCheck h.cls h.pa h.len h.key
/-- The merge of a DRAIN was not performed: its module posts the record (R228). -/
def State.mergeRefused (s : State) (src : Src) (who op core asid : Nat) (va pc dest : Word) (code : Nat) : State :=
  match src with
  | .remote m p => s.tell m p who 0 (.farEnd who op code)
  | _ => (s.mergeFault core who asid code pc va dest).farOver who op
/-- The source is told that its request is refused (R257), as R116 says for a piece. -/
def State.refuse (s : State) (m : Msg) (c : Cause) : State :=
  match m.body with
  | .req r => (match r.rop with
    | .store _ _ _ false _ | .amo _ _ _ _ false => s.refuseStore r c 5
    | .claim _ _ who | .claimMem _ _ who => s.pieceResult m.src r.who 0 who c.code.toNat false
    | _ => s.reply r (.trap ⟨c, r.va, 0, 0⟩))
  | .stream b => s.pieceResult m.src 0 0 b.who c.code.toNat true
  | .absmax _ _ who op core va pc dest u => s.mergeRefused m.src who op core u.asid va pc dest c.code.toNat
  | .travel t => (match m.src with
    | .remote k p => s.tell k p t.who 0 (.answer t.who t.op (.trap ⟨c, 0, 0, 0⟩))
    | _ => s)
  | _ => s
/-- Where a request of another module goes from the edge slice. -/
def State.entry (s : State) (m : Msg) : Home :=
  match m.body with
  | .req r => r.home
  | .chanSend _ o | .chanRecv _ o | .chanVal o => if hKind o.handle = 0 ∨ hKind o.handle = 3 then .core (hHome o.handle) else .mmio 1
  | .guardAsk g _ => if g.kind = 2 then .core g.core else if hKind g.val = 0 then .core (hHome g.val) else .mmio 1
  | .stream b => s.homeOf b.src
  | .absmax pa .. => s.homeOf pa
  | .travel t => .core (guestCoreOf (paLocal t.pa))
  | .unbindAll .. | .recall .. | .guardDrop .. => .mmio 1
  | _ => m.dst
/-- An AMO of another module is entered in the reply cache, in progress (R243). -/
def State.cacheAmo (s : State) (m : Msg) (h : Header) : State :=
  match m.body with
  | .req r => (match r.rop with
    | .amo .. =>
      if h.m = s.modid ∨ s.replies.any (fun e => decide (e.srcModule = h.m ∧ e.srcCore = h.srcCore ∧ e.seq = h.amo)) then s
      else { s with replies := s.replies ++ [(⟨h.m, h.srcCore, h.amo, r.op, none⟩ : Reply)] }
    | _ => s)
  | _ => s
/-- A piece of another module's copy is called back (R115): where it waits at a streamer here and has not been read it is withdrawn, and its module
told; what has been read ends as it does. -/
def State.recallPiece (s : State) (m : Msg) (h : Header) (core cid idx : Nat) : State :=
  let mine (x : Msg) : Bool := match x.body with | .stream b => decide (b.who = .piece h.m core cid idx) | _ => false
  match s.net.find? mine with
  | some x => (((s.take x.id).unqueue (.msg x.id)).settle).tell h.m m.src.port h.who 0 (.recalled (.piece core cid idx) none)
  | none => s
/-- The request goes on to its home, a travel packet to its guest core, which checks it (R256, R263); the watches of an exiting process go at
once (R91), and so does a piece that is called back. -/
def State.passOn (s : State) (m : Msg) (h : Header) : State :=
  let s1 := s.cacheAmo m h
  match m.body with
  | .unwatch who => s1.dropWatches who
  | .recall (.piece core cid idx) => s1.recallPiece m h core cid idx
  | .travel _ => { s1 with net := s1.net ++ [{ m with dst := s.entry m, check := some h }] }
  | _ => { s1 with net := s1.net ++ [{ m with dst := s.entry m, check := none }] }

/-! ## Ordering streams at the target (R253, R258) -/

def State.streamIn (s : State) (who : Nat) : StreamIn := (s.streamsIn.find? (fun x => decide (x.who = who))).getD ⟨who, 0, [], none, false⟩
def State.setStreamIn (s : State) (x : StreamIn) : State := { s with streamsIn := s.streamsIn.filter (fun y => y.who != x.who) ++ [x] }
/-- A notice to the source of a stream. -/
def State.tellSource (s : State) (m : Msg) (h : Header) (b : Body) : State :=
  if h.m = s.modid then s.send (.launchUnit) (.core h.srcCore) b else s.tell h.m m.src.port h.who 0 b
/-- A fault parks the request and freezes its stream; what came ahead of a gap is discarded with it. An AMO stays in the reply cache, in progress
(R243); of a piece whose claim is parked its copy unit is told (R117). -/
def State.park (s : State) (m : Msg) (h : Header) : State :=
  let x := s.streamIn h.who
  let s1 := (s.cacheAmo m h).setStreamIn { x with frozen := some { m with check := some h }, early := [], noticed := decide (h.m = s.modid) }
  let s2 := match m.body with
    | .req r => (match r.rop with
      | .claim _ _ (.piece _ k cid idx) | .claimMem _ _ (.piece _ k cid idx) => s1.tellSource m h (.pieceEnd k cid idx 2 false .empty)
      | _ => s1)
    | _ => s1
  if h.m = s.modid then s2.tellSource m h (.frozenNotice h.who s.modid) else s2
/-- The outcome of a check (R257). -/
def State.decide_ (s : State) (m : Msg) (h : Header) (v : Verdict) : State :=
  match v with
  | .pass => s.passOn m h
  | .violation => (s.notice h .remoteKey).refuse m .remoteKey
  | .fault c => (s.notice h c).park m h
/-- A request that no region is consulted for (R256 step 1): one that is exempt, one whose source process has this module as its origin, or a travel
packet, which the guest core checks. A local access of a guest is never exempt (R264). -/
def State.exempt (s : State) (m : Msg) (h : Header) : Bool :=
  decide (h.m ≠ s.modid) && (decide (h.cls = 6 ∨ wordModule h.who = s.modid) || (match m.body with | .travel _ => true | _ => false))
/-- A request whose turn it is at the edge slice. -/
def State.examine (s : State) (m : Msg) (h : Header) : State := s.decide_ m h (if s.exempt m h then .pass else s.headerCheck h)
/-- The next request of its stream. -/
def State.accept (s : State) (m : Msg) (h : Header) : State :=
  let x := s.streamIn h.who
  (s.setStreamIn { x with expect := (x.expect + 1) % 2 ^ 16 }).examine m h
/-- The number that a request has in its stream. -/
def Msg.seqNo (m : Msg) : Option Nat := m.check.bind (·.seq)
/-- Requests that were held ahead of a gap follow. One whose sender has been lost since is dropped (R261). -/
def State.drain : Nat → Nat → State → State
  | 0, _, s => s
  | n + 1, who, s =>
    let x := s.streamIn who
    if x.frozen.isSome then s
    else match x.early.find? (fun m => m.seqNo == some x.expect) with
      | some m =>
        let s1 := s.setStreamIn { x with early := x.early.filter (fun g => g.id != m.id) }
        (match m.check with
        | some h => if s.incarnOk h.m h.incarn then State.drain n who (s1.accept m h) else State.drain n who (s1.dropStale (m.src.port / 2) h.m)
        | none => State.drain n who s1)
      | none => s
/-- A sequence number is behind another. -/
def seqBefore (a b : Nat) : Bool := decide (0 < (b + 2 ^ 16 - a) % 2 ^ 16 ∧ (b + 2 ^ 16 - a) % 2 ^ 16 ≤ 2 ^ 15)
/-- Cumulative acknowledgement frees reply-cache entries (R243). -/
def State.ackReplies (s : State) (h : Header) : State :=
  { s with replies := s.replies.filter (fun e => !(decide (e.srcModule = h.m ∧ e.srcCore = h.srcCore) && e.value.isSome && (seqBefore e.seq h.ackTo || decide (e.seq = h.ackTo)))) }
/-- The reply cache holds 64 entries of the core (R243). -/
def State.cacheFull (s : State) (h : Header) : Bool := decide (64 ≤ (s.replies.filter (fun e => decide (e.srcModule = h.m ∧ e.srcCore = h.srcCore))).length)
/-- The request is an AMO that would take an entry of the reply cache. -/
def Msg.isAmo (m : Msg) : Bool := match m.body with | .req r => (match r.rop with | .amo .. => true | _ => false) | _ => false
/-- A duplicate of a request already passed on: an AMO's saved reply is sent again, anything else is discarded (R243, R253). -/
def State.duplicate (s : State) (m : Msg) (h : Header) : State :=
  match m.body, s.replies.find? (fun e => decide (e.srcModule = h.m ∧ e.srcCore = h.srcCore ∧ e.seq = h.amo)) with
  | .req r, some ⟨_, _, _, _, some v⟩ => if m.isAmo then s.reply r v else s
  | _, _ => s
/-- A request of another module at the edge slice, by its number in its stream. -/
def State.receive (s : State) (m : Msg) (h : Header) (seq : Nat) : State :=
  let x := s.streamIn h.who
  if seqBefore seq x.expect then s.duplicate m h
  else if x.frozen.isSome then
    if x.noticed then s else (s.setStreamIn { x with noticed := true }).tellSource m h (.frozenNotice h.who s.modid)
  else if seq = x.expect then State.drain (x.early.length + 1) h.who (s.accept m h)
  else if x.early.any (fun g => g.seqNo == some seq) then s
  else s.setStreamIn { x with early := x.early ++ [m] }

/-- CAUSEWAY_REQUEST_RECEIVE (R256). A remote request is checked at the edge slice for region, key and class, after the checks of its
incarnation and of its place in its stream; so is a local access of a guest, which goes on where it stands. An AMO waits for room in the reply
cache (R243). -/
def execCausewayRequestReceive (id : Nat) (s : State) : Host.Outcome State Fault Refusal :=
  .next <| match s.unchecked id with
  | none => s
  | some m =>
    match m.check with
    | none => s
    | some h =>
      if (match m.body with | .travel _ => true | _ => false) && !m.dst.isMmio then s
      else if h.m = s.modid then
        if (s.streamIn h.who).frozen.isSome || !s.isFirst m then s
        else match s.headerCheck h with
          | .pass => { s with net := s.net.map (fun x => if x.id = id then { x with check := none } else x) }
          | v => (s.take id).decide_ m h v
      else if !s.incarnOk h.m h.incarn then (s.take id).dropStale (m.src.port / 2) h.m
      else match h.seq with
        | none => (s.take id).examine m h
        | some n =>
          let s1 := s.ackReplies h
          if m.isAmo && s1.cacheFull h && !seqBefore n (s.streamIn h.who).expect then s1.stay id else (s1.take id).receive m h n

/-- STREAMRES (R314). Replays or refuses the parked request of a frozen stream. -/
def execStreamres (o : RR) (s : State) : Host.Outcome State Fault Refusal :=
  let w := packRR 0x3E 21 o
  issue { infoRR o w with priv := true, ext := true } (fun pk s =>
    let p := s.proc pk
    let v := (p.r.getG o.a).toNat
    let who := fld v 0 26
    let x := s.streamIn who
    let ret (n : Nat) (s : State) : State := s.modProc pk (fun p => p.retire [(0, o.d.toNat)] (p.r.setG o.d (BitVec.ofNat 64 n)) (p.pc + 4) false)
    if v / 2 ^ 27 ≠ 0 then s.raise pk ⟨.illegal, BitVec.ofNat 64 w, 0, 0⟩
    else match x.frozen with
      | none => ret 0 s
      | some m =>
        let h := m.check.getD ⟨s.modid, 0, 0, who, none, 0, 6, 0, 0, 0, 0⟩
        let go (s : State) : State := ret 1 ((s.setStreamIn { x with frozen := none, noticed := false }).tellSource m h (.resume who s.modid x.expect))
        if fld v 26 1 = 1 then go (s.refuse m .prot)
        else match s.headerCheck h with
          | .pass => go (s.passOn m h)
          | .violation => go ((s.notice h .remoteKey).refuse m .remoteKey)
          | .fault c => ret 2 (s.notice h c)) s

/-! ## Ordering streams at the source (R258) -/

/-- A notice for the source of a stream follows a process that has moved to another module. -/
def State.follow (s : State) (who : Nat) (b : Body) : State := if s.moduleOf who = s.modid then s else s.tell (s.moduleOf who) 0 who 0 b
/-- FROZEN_NOTICE (R258). A frozen notice stops the source core sending the stream. -/
def execFrozenNotice (id : Nat) (s : State) : Host.Outcome State Fault Refusal :=
  .next <| match s.inTurn id with
  | some m => (match m.body with
    | .frozenNotice who target => ((s.take id).setStreamOut { s.streamTo who target with frozen := true }).follow who m.body
    | _ => s)
  | none => s

/-- RESUME_MESSAGE (R258). A resume message makes the source resend discarded and held requests. -/
def execResumeMessage (id : Nat) (s : State) : Host.Outcome State Fault Refusal :=
  .next <| match s.inTurn id with
  | some m => (match m.body with
    | .resume who target next =>
      let again (p : Packet) : Bool := p.request && decide (p.header.who = who ∧ p.target = target) &&
        (match p.header.seq with | some n => !seqBefore n next | none => false)
      let s1 : State := { ((s.take id).setStreamOut { s.streamTo who target with frozen := false }) with
        sent := s.sent.filter (fun p => !again p)
        outbox := (s.sent.filter again).map (fun (p : Packet) => { p with left := 0 }) ++ s.outbox }
      ((s1.procs.map (·.1)).foldl (fun s pk => if (s.proc pk).state = .blocked ∧ (s.proc pk).why = 7 ∧ s.originWord pk = who then s.wake pk else s) s1).follow who m.body
    | _ => s)
  | none => s

/-! ## Links and lasers (R251, R252, R260) -/

/-- A link of which nothing is known. -/
def Link.blank (port peer : Nat) : Link := ⟨port, peer, false, 0, 0, 0, false, [], 0, 0, 0⟩
/-- A packet that has left is kept while its stream may have to resend it, and while a replay buffer holds flits of it. -/
def State.keepSent (s : State) : State :=
  { s with sent := s.sent.filter (fun p => (p.request && p.header.seq.isSome) || s.links.any (fun l => l.replay.any (fun e => decide (e.1 = p.id)))) }
/-- Flits of a packet that are not known to have come well are sent again from the replay buffer (R252): their credits and tokens are there again. -/
def State.replayFlits (s : State) (l : Link) (e : Nat × Nat) : State :=
  match (s.outbox ++ s.sent).find? (fun p => decide (p.id = e.1)) with
  | none => s
  | some p =>
    let q := { p with left := p.left - e.2 }
    let s1 : State := { s with
      outbox := if s.outbox.any (fun x => decide (x.id = p.id)) then s.outbox.map (fun (x : Packet) => if x.id = p.id then q else x) else q :: s.outbox
      sent := s.sent.filter (fun x => x.id != p.id)
      links := s.links.map (fun (x : Link) => if x.port = l.port ∧ x.peer = l.peer then
        { x with reqCredit := if p.request then x.reqCredit + e.2 else x.reqCredit, repCredit := if p.request then x.repCredit else x.repCredit + e.2 } else x) }
    if p.request ∧ (rateOf ((s.die (p.port / 2)).asrate.get 0 p.asid)).1 ≠ 0 then
      s1.modDie (p.port / 2) (fun v => { v with tokens := v.tokens.set p.asid (v.tokens.get 0 p.asid + e.2) })
    else s1
/-- What the replay buffer of a link holds is sent again. -/
def State.replayAll (s : State) (l : Link) : State :=
  let s1 := l.replay.reverse.foldl (fun s e => s.replayFlits l e) s
  { s1 with links := s1.links.map (fun (x : Link) => if x.port = l.port ∧ x.peer = l.peer then { x with replay := [] } else x) }
/-- FLIT_RECEIVE (R252). A flit from a peer is checked by CRC. One that fails is resent, and what this side has sent and does not know to have come well
is sent again from its replay buffer (DEDUCED, log 57); when 16 resends in a row have failed too, the link is retrained first. A good flit carries
credits of the two classes (R254), and tells that the flits sent before it came well. -/
def execFlitReceive (port peer : Nat) (crcGood : Bool) (reqCredits repCredits : Nat) (s : State) : Host.Outcome State Fault Refusal :=
  let here (l : Link) : Bool := decide (l.port = port ∧ l.peer = peer)
  let l := (s.links.find? here).getD (Link.blank port peer)
  let l1 : Link :=
    if l.retraining then l
    else if crcGood then { l with fails := 0, received := l.received + 1, replay := [], reqCredit := l.reqCredit + reqCredits, repCredit := l.repCredit + repCredits }
    else { l with fails := l.fails + 1, retraining := decide (16 ≤ l.fails) }
  let s1 : State := { s with links := s.links.filter (fun x => !here x) ++ [l1] }
  .next (if !crcGood && !l1.retraining then s1.replayAll l1
    else if crcGood && !l.retraining then
      (if (s.peer peer).present then s1.setPeer peer { s.peer peer with lastFlit := s.dtime } else s1).keepSent
    else s1)

/-- LINK_RETRAIN_COMPLETE (R252). A retraining link succeeds, resends what its replay buffer holds and posts a link-retrained notice, or fails and
loses its peer. -/
def execLinkRetrainComplete (port peer : Nat) (success : Bool) (s : State) : Host.Outcome State Fault Refusal :=
  let here (l : Link) : Bool := decide (l.port = port ∧ l.peer = peer) && l.retraining
  .next (match s.links.find? here with
    | none => s
    | some l =>
      if success then
        let s1 := s.replayAll l
        ({ s1 with links := s1.links.map (fun (x : Link) => if here x then { x with retraining := false, fails := 0 } else x) } : State).postFree (port / 2) 3 0 0
      else s.losePeer (port / 2) peer)

/-- LINK_SILENCE_TIMEOUT (R260). No flit from a peer for 50 µs makes the peer lost. -/
def execLinkSilenceTimeout (peer : Nat) (s : State) : Host.Outcome State Fault Refusal :=
  .next (if (s.peer peer).lastFlit + 50000 ≤ s.dtime then s.losePeer 0 peer else s)

/-- FIREFLY_PEER_DOWN_REPORT (R260). Firefly on either module reports a peer down, making it lost and starting the quiesce. -/
def execFireflyPeerDownReport (peer : Nat) (s : State) : Host.Outcome State Fault Refusal := .next (s.losePeer 0 peer)

/-- A packet of the outbox waits for a laser of this port to be tuned to this peer. -/
def State.wantsLaser (s : State) (port peer : Nat) : Bool :=
  s.outbox.any (fun p => decide (p.port = port ∧ p.target = peer)) && !s.links.any (fun l => decide (l.port = port ∧ l.peer = peer) && l.tuned)
/-- A laser of the port is tuned to the wavelength of a peer. -/
def State.tune (s : State) (port peer : Nat) : State :=
  let old := (s.links.find? (fun l => decide (l.port = port ∧ l.peer = peer))).getD (Link.blank port peer)
  { s with
    links := s.links.filter (fun l => !decide (l.port = port ∧ l.peer = peer)) ++ [{ old with tuned := true, wave := s.waveTo peer, used := s.nextId }]
    nextId := s.nextId + 1 }
/-- LASER_RETUNE (R251). The least recently used laser retunes to a new peer, once it has sent the last flit of the packet that it sends. -/
def execLaserRetune (port peer : Nat) (s : State) : Host.Outcome State Fault Refusal :=
  .next (if !s.wantsLaser port peer then s
    else
      let mine := s.links.filter (fun l => decide (l.port = port) && l.tuned)
      if mine.length < 8 then s.tune port peer
      else match mine.find? (fun l => mine.all (fun x => decide (l.used ≤ x.used))) with
        | none => s
        | some v =>
          if s.outbox.any (fun p => decide (p.port = port ∧ p.target = v.peer ∧ p.left ≠ 0)) then s
          else ({ s with links := s.links.map (fun (l : Link) => if l.port = port ∧ l.peer = v.peer then { l with tuned := false } else l) } : State).tune port peer)

/-- TOKEN_BUCKET_REFILL (R259). Tokens are added to an address space's bucket each microsecond up to BURST, letting a request-class flit that
waits for a token proceed. -/
def execTokenBucketRefill (die asid : Nat) (s : State) : Host.Outcome State Fault Refusal :=
  let d := s.die die
  let r := rateOf (d.asrate.get 0 asid)
  let last := d.refilled.get 0 asid
  .next (if r.1 = 0 ∨ s.dtime < last + 1000 then s
    else s.setDie die { d with tokens := d.tokens.set asid (min r.2 (d.tokens.get 0 asid + r.1)), refilled := d.refilled.set asid (last + 1000) })

/-- DTIME_ALIGN (R38). An idle-flit timestamp aligns a joining module's DTIME with the time master's: it steps forward, or holds. Afterwards
it adjusts the rate alone; the time master itself does not. -/
def execDtimeAlign (stamp : Nat) (s : State) : Host.Outcome State Fault Refusal :=
  .next (if s.modid = 127 ∨ s.timeMaster = some s.modid then s
    else if s.phase ≠ 0 then { s with drift := (stamp : Int) - s.dtime }
    else if s.dtime < stamp then { s with dtime := stamp, timeHold := 0, aligned := true } else { s with timeHold := s.dtime - stamp, aligned := true })

/-! ## Travelling processes (R262 to R264) -/

/-- A free guest slot of a core, with its save area (R283): the one of the lowest pid (DESIGN CHOICE, log 105). -/
def State.guestSlot (s : State) (c : Nat) : Option Nat :=
  let k := s.core c
  if !k.gsEn then none
  else (List.range 8).find? (fun i => decide ((s.proc (c * 256 + 248 + i)).state = .free ∧ k.gsFirst + (i + 1) * saveTiles k.partition ≤ 2048))
/-- The guest is READY on the core (R263). What it has not heard of yet comes with it: its stores, transfers and merges, and its streams go on
(R170, R253). -/
def State.admitGuest (s : State) (c i : Nat) (t : Travel) : State :=
  let k := s.core c
  let s1 := s.create c (248 + i) { Proc.reset with
    r := t.r, pc := t.pc, prio := t.prio, need := t.need, asid := t.asid, guest := true, origin := t.who, guestRoot := t.root, wev := t.wev, task := t.task
    unacked := t.unacked.map (fun u => { u with home := s.homeOf u.pa }), far := t.far
    save := k.gsFirst + i * saveTiles k.partition }
  t.streams.foldl (fun s x => s.setStreamOut ⟨t.who, x.1, x.2.1, x.2.2⟩) s1
/-- TRAVEL_ADMIT (R263). A guest core admits a travel packet and readies the process. A failed admission is decided as if the load had been a
remote read; for want of a slot the packet waits. -/
def execTravelAdmit (id : Nat) (s : State) : Host.Outcome State Fault Refusal :=
  .next <| match s.unchecked id with
  | none => s
  | some m =>
    match m.body, m.dst, m.check with
    | .travel t, .core c, some h =>
      if !s.incarnOk h.m h.incarn then (s.take id).dropStale (m.src.port / 2) h.m
      else (match (if wordModule t.who = s.modid then Verdict.pass else s.headerCheck h) with
        | .pass => (match s.guestSlot c with
          | none => s.stay id
          | some i =>
            if (s.core c).partition < t.need then s.stay id
            else
              let s1 := (s.take id).admitGuest c i t
              -- a process that comes back to its origin module is away no more
              let s2 := if wordModule t.who = s.modid then s1.modProc (wordKey t.who) (fun p => { p with away := none }) else s1
              s2.tellSource m h (.travelAck t.who))
        | v => (s.take id).decide_ m h v)
    | _, _, _ => s

/-- The context of a process is given up, its pid kept. -/
def State.vacate (s : State) (pk : Nat) : State :=
  s.modCore (coreOf pk) (fun k => { (k.dequeue (pidOf pk)) with
    slots := k.slots.filter (fun x => x != pidOf pk), parkMap := k.parkMap.filter (fun e => e.1 != pidOf pk) })
/-- Mail of a process, by its key: what a message says to it, with the process named by its word. -/
def Body.mailOf (pk who : Nat) : Body → Option Body
  | .answer k op a => if k = pk then some (.answer who op a) else none
  | .ack k op => if k = pk then some (.ack who op) else none
  | .hold k op e => if k = pk then some (.hold who op e) else none
  | .promote k op o => if k = pk then some (.promote who op o) else none
  | .farEnd k op c => if k = pk then some (.farEnd who op c) else none
  | .watchEvent w => if w = who then some (.watchEvent w) else none
  | _ => none
/-- The packet of an operation that has left for another module. -/
def State.sentAs (s : State) (op : Nat) : Option Packet := (s.sent ++ s.outbox).find? (fun p => p.body.opNo == some op)
/-- A store or reduction that another module has not performed leaves its record on the die of the core that sent it (R170, R239, R257). -/
def State.storeLost (s : State) (who op : Nat) (c : Cause) : State :=
  match s.sentAs op with
  | some p => (match p.body with
    | .req r => s.postOther (dieOfCore p.header.srcCore) p.asid who c.code (if c = .ecc then 4 else 5) r.pc r.va
    | _ => s)
  | none => s
/-- The merge of a DRAIN that another module has not performed leaves its record here (R228). -/
def State.mergeLost (s : State) (op code : Nat) : State :=
  match s.sentAs op with
  | some p => (match p.body with
    | .absmax _ _ who _ c va pc dest _ => s.mergeFault c who p.asid code pc va dest
    | _ => s)
  | none => s
/-- The packet of an operation is a store or a reduction, which no register waits for. -/
def State.sentStore (s : State) (op : Nat) : Bool :=
  match (s.sentAs op).map Packet.body with
  | some (Body.req r) => (match r.rop with | .store _ _ _ false _ | .amo _ _ _ _ false => true | _ => false)
  | _ => false
/-- Mail follows its process to another module: what the core that sent the operation has to record is recorded here (R170, R228, R263). -/
def State.mailTo (s : State) (m port who : Nat) (b : Body) : State :=
  match b with
  | .answer _ op (.trap t) =>
    if s.sentStore op && decide (t.cls ≠ 8) then ((s.storeLost who op t.cause).unsend op).tell m port who 0 ((Body.ack who op).carried s.modid)
    else (s.unsend op).tell m port who 0 (b.carried s.modid)
  | .answer _ op _ | .ack _ op => (s.unsend op).tell m port who 0 (b.carried s.modid)
  | .farEnd _ op code =>
    ((if code = 0 then s else s.mergeLost op code).unsend op).tell m port who 0 ((Body.farEnd who op 0).carried s.modid)
  | _ => s.tell m port who 0 (b.carried s.modid)
/-- Mail that is on its way to a process follows it to another module (R263). -/
def State.forwardMail (s : State) (pk who m : Nat) : State :=
  let mail (x : Msg) : Option Body := match x.dst with | .remote _ => none | _ => x.body.mailOf pk who
  (s.net.filterMap mail).foldl (fun s b => s.mailTo m (portOf (coreOf pk)) who b) { s with net := s.net.filter (fun x => (mail x).isNone) }
/-- TRAVEL_ACKNOWLEDGE (R263). The origin core retires the process's state on the admission acknowledgement; a guest that moves on leaves its
slot, and its origin is told. -/
def execTravelAcknowledge (id : Nat) (s : State) : Host.Outcome State Fault Refusal :=
  .next <| match s.inTurn id with
  | some ⟨_, .remote m _, _, .travelAck who, _, _⟩ =>
    let pk := s.keyOf who
    let p := s.proc pk
    let s1 := (p.outs.foldl (fun s o => s.unsend o.id) (s.take id)).vacate pk
    let s2 : State := { (s1.forwardMail pk who m) with streamsOut := s1.streamsOut.filter (fun x => x.who != who) }
    let late (s : State) : State := if p.wev then s.tell m (portOf (coreOf pk)) who 0 (.watchEvent who) else s
    if p.guest then
      let s3 := s2.setProc pk { Proc.reset with desc := 0 :: p.desc.drop 1 }
      late (if wordModule who = s.modid then s3.modProc (wordKey who) (fun q => { q with away := some m })
        else s3.tell (wordModule who) (portOf (coreOf pk)) who 0 (.relocated who (some m)))
    else late (s2.setProc pk { p with outs := [], unacked := [], far := [], state := .blocked, why := 9, wait := 0, on := 0, struck := [], away := some m })
  | _ => s
/-- News of a process that is away: where it runs now, or that it has ended, which gives back what its origin holds for it (R282, R291). -/
def State.relocate (s : State) (who : Nat) (m : Option Nat) : State :=
  let k := wordKey who
  match m with
  | some m => if m = s.modid then s else s.modProc k (fun p => { p with away := some m })
  | none => s.freeOrigin k

/-! ## Quiesce (R106, R137, R260, R312) -/

/-- A claimant of a module. -/
def Claimant.isOf (c : Claimant) (m : Nat) : Bool := match c with | .piece k _ _ _ | .transfer k _ _ _ => decide (k = m) | .pull _ => false
/-- A message that works for a lost module, or moves its bytes. -/
def Body.involves (m : Nat) : Body → Bool
  | .push _ _ _ c | .pushMem _ _ c | .accum _ _ _ c => c.isOf m
  | .stream b => b.who.isOf m || decide (paModule b.src = m) || decide (b.dst ≠ 0 ∧ paModule b.dst = m)
  | .req r => (match r.rop with | .claim _ _ c | .claimMem _ _ c => c.isOf m | _ => false)
  | .relink _ h => decide (hModule h = m)
  | _ => false
/-- A transfer whose source or destination, or whose sender or receiver, was on the module (R137). -/
def State.lostXfer (s : State) (m : Nat) (x : Xfer) : Bool :=
  let at_ (o : Option ChanOp) : Bool := match o with | some o => decide (s.moduleOf o.who = m) | none => false
  decide (x.src ≠ 0 ∧ paModule x.src = m) || decide (x.dst ≠ 0 ∧ paModule x.dst = m) || at_ x.send || at_ x.recv
/-- Operations that are withdrawn with a module: requests on their way to it, and channel operations of this module's processes that wait for it or
are being transferred with it. -/
def State.withdrawnBy (s : State) (m : Nat) : List Nat :=
  let waits (k : Core) (e : Nat × Endpoint) : List Nat :=
    let peer := k.eps.get Endpoint.free (peerSlot e.1)
    if peer.state = 2 ∧ s.moduleOf peer.owner = m then ((e.2.waiting.toList ++ e.2.lending.toList ++ e.2.held).filter s.ours).map (·.op) else []
  (s.outbox ++ s.sent).filterMap (fun p => if p.target = m then p.body.opNo else none) ++
    s.cores.flatMap (fun (k : Nat × Core) => k.2.eps.flatMap (waits k.2)) ++
    s.procs.flatMap (fun (e : Nat × Proc) => (e.2.outs.filter (fun o => decide (o.home = some (.remote m) ∨ (o.kind = .chan ∧ hModule o.va = m)))).map (·.id) ++
      (e.2.unacked.filter (fun u => decide (u.home = .remote m))).map (·.op)) ++
    (s.xfers.filter (s.lostXfer m)).flatMap (fun x => ((x.send.toList ++ x.recv.toList).filter s.ours).map (·.op))
/-- A transfer is withdrawn with both its operations. -/
def State.withdrawXfer (s : State) (x : Xfer) : State :=
  let s1 := s.abandonXfer x
  if 1536 ≤ x.core then s1
  else match x.ringSlot with
    | none => (match x.send with | some o => s1.unlend o | none => s1).modEp x.core x.slot (fun e => { e with pair := .idle })
    | some i =>
      let r := s1.ep x.core (x.slot + 1)
      -- the last claimed slot of the ring is free again
      if x.recv.isNone ∧ r.count ≠ 0 ∧ i = (r.head + r.count - 1) % max (s1.ep x.core x.slot).cap 1 then
        s1.modEp x.core (x.slot + 1) (fun r => { r with count := r.count - 1, refs := r.refs.filter (fun q => some q.id != x.send.map (·.id)) })
      else s1
/-- Pieces of copies that involve the lost module are abandoned (R117, R260). R116 names no record for them; the peer-lost record stands. -/
def State.losePieces (s : State) (m : Nat) : State :=
  let bad := s.cores.flatMap (fun (k : Nat × Core) => k.2.copyq.flatMap (fun c => (c.active.filter (fun z =>
    (decide (1 ≤ z.stage ∧ z.stage ≠ 4 ∧ paModule z.dpa = m)) || (decide (z.stage = 3 ∧ paModule z.spa = m)))).map (fun z => (k.1, c, z))))
  -- no piece of a guest's copy can be translated any more
  let orphans := s.cores.flatMap (fun (k : Nat × Core) => (k.2.copyq.filter (fun c => decide (c.origin = m))).flatMap (fun c => c.active.map (fun z => (k.1, c, z))))
  let s0 := (bad ++ orphans).dedup.foldl (fun s e => s.giveUpPiece e.1 e.2.1 e.2.2) s
  let s1 : State := { s0 with cores := s0.cores.map (fun (k : Nat × Core) => (k.1, { k.2 with
    copyq := k.2.copyq.filter (fun c => c.origin != m), copyWait := k.2.copyWait.filter (fun c => c.origin != m) })) }
  -- tiles that arrivals of the module have claimed here
  let mine := s1.claims.filter (fun x => x.1.isOf m)
  let s2 := mine.foldl (fun s x => if s.tag x.2.1 x.2.2.1 = .pending then s.setTag x.2.1 x.2.2.1 (if x.2.2.2 = .via then .empty else x.2.2.2) else s) s1
  let gone := (s2.net.filter (fun x => x.isFrom m || x.body.involves m)).map (·.id)
  ({ s2 with
    claims := s2.claims.filter (fun x => !x.1.isOf m)
    net := s2.net.filter (fun x => !gone.contains x.id)
    held := s2.held.filter (fun r => !((Msg.mk 0 r.src r.home (.req r) none false).isFrom m) && !(Body.req r).involves m &&
      (match r.rop with | .engine _ _ (.msg n) => !gone.contains n | _ => true)) } : State).settle
/-- Endpoints, transfers and waymarks of the lost module (R106, R137). -/
def State.loseChannels (s : State) (m : Nat) : State :=
  let s1 := (s.xfers.filter (s.lostXfer m)).foldl (fun s x => s.withdrawXfer x) s
  let ends := s1.cores.flatMap (fun (k : Nat × Core) => (k.2.eps.filter (fun e => e.2.state ≠ 0 ∧ e.2.lost = false)).filterMap (fun e =>
    let peer := k.2.eps.get Endpoint.free (peerSlot e.1)
    if peer.state = 2 ∧ s.moduleOf peer.owner = m then some (k.1, e.1) else none))
  let out (s : State) (o : Option ChanOp) : State := match o with | some o => s.unlend o | none => s
  let s2 := ends.foldl (fun s e =>
    let x := s.ep e.1 e.2
    (out (out (s.setEp e.1 e.2 { x with lost := true, waiting := none, lending := none, held := [] }) x.waiting) x.lending).modEp e.1 (sendSlot e.2) (fun y => { y with pair := if y.cap = 0 then .idle else y.pair })) s1
  -- waymarks whose lender is lost: their tiles that are VIA, or being pulled, become EMPTY and the record is freed
  let marks := s2.cores.flatMap (fun (k : Nat × Core) => (k.2.marks.filter (fun e => decide (e.2.state ≠ 0 ∧ e.2.lender = .remote m))).map (fun e => (k.1, e.1, e.2)))
  let s3 := marks.foldl (fun s e => ((e.2.2.via ++ e.2.2.pulling.map (·.1)).foldl (fun s t => s.setTag e.1 t .empty) s).freeMark e.1 e.2.1) s2
  -- lends whose holder is lost: their LENT tiles become FULL and the record is freed
  let lends := s3.cores.flatMap (fun (k : Nat × Core) => (k.2.lends.filter (fun l => decide (hModule l.holder = m))).map (fun l => (k.1, l)))
  let s4 := lends.foldl (fun s e =>
    let s1 := (touchedTiles e.2.src e.2.len).foldl (fun s t => (s.applyRow .lendReleased t.1 t.2).1) s
    s1.modCore e.1 (fun k => { k with lends := k.lends.filter (fun l => l.id != e.2.id) })) s3
  let dead := (s4.lendsHbm.filter (fun e => decide (hModule e.2.holder = m))).map (fun e => e.2.id)
  ({ s4 with lendsHbm := s4.lendsHbm.filter (fun e => !dead.contains e.2.id) } : State).settle
/-- TRAPINFO of QUIESCE (R300). -/
def State.quiesceInfo (s : State) : Word :=
  let lost := (s.peers.filter (fun e => e.2.lost)).map (·.1)
  BitVec.ofNat 64 (lost.headD 0 + (if 1 < lost.length then 128 else 0))
/-- Channel operations that wait at the homes of this module are withdrawn, with what they have lent (R312). -/
def State.withdrawOps (s : State) (mine : ChanOp → Bool) : State :=
  let lends := s.cores.flatMap (fun (k : Nat × Core) => k.2.eps.flatMap (fun e => (e.2.waiting.toList ++ e.2.lending.toList).filter mine))
  let s1 : State := { s with
    units := s.units.map (fun (u : Nat × UnitSlot) => (u.1, { u.2 with waiting := u.2.waiting.filter (fun o => !mine o), sender := u.2.sender.filter (fun o => !mine o) }))
    cores := s.cores.map (fun (k : Nat × Core) => (k.1, { k.2 with eps := k.2.eps.map (fun (e : Nat × Endpoint) =>
      let hit := e.2.waiting.any mine
      (e.1, { e.2 with waiting := e.2.waiting.filter (fun o => !mine o), lending := e.2.lending.filter (fun o => !mine o), held := e.2.held.filter (fun o => !mine o), pair := if hit ∧ e.2.cap = 0 then .idle else e.2.pair })) })) }
  -- the state of a rendezvous pair stands at its send end
  let s2 : State := { s1 with cores := s1.cores.map (fun (k : Nat × Core) => (k.1, { k.2 with eps := k.2.eps.map (fun (e : Nat × Endpoint) =>
    if e.2.pair = .rw ∧ (k.2.eps.get Endpoint.free (e.1 + 1)).waiting = none then (e.1, { e.2 with pair := .idle }) else e) })) }
  lends.foldl (fun s o => s.unlend o) s2
/-- The waiting operation of a process is withdrawn at its home (R312). -/
def State.withdrawOp (s : State) (who op : Nat) : State :=
  let mine (o : ChanOp) : Bool := decide (o.op = op ∧ o.who = who)
  let bad (b : Body) : Bool := match b with
    | .req r => r.isInstr && decide (r.op = op ∧ r.who = who)
    | .chanSend _ o | .chanRecv _ o => mine o
    | .spawn _ _ _ x _ _ => decide (x = op)
    | _ => false
  ({ s with
    held := s.held.filter (fun r => !(r.isInstr && decide (r.op = op ∧ r.who = who)))
    net := s.net.filter (fun n => !bad n.body)
    outbox := s.outbox.filter (fun p => !bad p.body || decide (p.left ≠ 0)) } : State).withdrawOps mine
/-- One process takes QUIESCE, one inside EXIT too: what it waits for is withdrawn, and the trap pends at that instruction (R312). -/
def State.quiesceProc (s0 : State) (lostOps : List Nat) (pk : Nat) : State :=
  let s := s0.ungroup pk
  let p := s.proc pk
  let t : Trap := ⟨.quiesce, s.quiesceInfo, 0, 0⟩
  if p.state = .free ∨ p.state = .exited ∨ p.away.isSome = true then s
  else
    let stuck := p.outs.find? (fun o => lostOps.contains o.id || (decide (p.state = .blocked ∧ o.kind ≠ .tileOp ∧ (o.id = p.on ∨ o.kind = .chan ∨ o.kind = .sync))))
    let s1 := s.setProc pk { p with
      unacked := p.unacked.filter (fun u => !lostOps.contains u.op), far := p.far.filter (fun f => !lostOps.contains f.2), batch := none, ending := 0 }
    let s2 := match stuck with
      | some o => ((p.outs.filter (fun (x : OutOp) => decide (o.id ≤ x.id))).foldl (fun (s : State) (x : OutOp) => s.withdrawOp (s.originWord pk) x.id) s1).rollback pk o t
      | none =>
        -- SLEEP has passed its word
        s1.modProc pk (fun (p : Proc) => { p.settled with pend := some t, pc := if p.state = PState.sleeping then p.pc - 4 else p.pc })
    (s2.synced pk).wake pk
/-- A process whose context lay on the lost module becomes EXITED, and a peer-lost record names it (R260); what it holds here goes as by EXIT. -/
def State.exitAway (s : State) (m pk : Nat) : State :=
  let p := s.proc pk
  let who := s.word pk
  if p.away ≠ some m then s
  else
    let s1 := ((s.ownedEnds who).foldl (fun s e => s.unbindOne who e) ((s.dropMarks who).dropWatches who))
    (s1.setProc pk { p with state := .exited, ending := 2, unacked := [], far := [], away := none }).postFree (dieOfCore (coreOf pk)) 7 p.asid who
/-- Macro-operations of a process that is discarded leave the tile queue: an accumulator tile that they have taken is FULL again, and claimed tiles go back
to their prior states. -/
def State.dropTops (s : State) (pk : Nat) : State :=
  let core := coreOf pk
  let k := s.core core
  let ops := (k.tileq ++ k.tileWait).filter (fun t => decide (t.pk = pk)) ++ (s.proc pk).savedOps
  let s1 := (s.setCore core ({ k with tileq := k.tileq.filter (fun t => t.pk != pk), tileWait := k.tileWait.filter (fun t => t.pk != pk) } : Core).fillTileq).placed core k
  (ops.foldl (fun s t => ((if t.taken && t.takes then s.setTag core (2560 + t.acc) .full else s).unclaim core t.dstTiles t.prior).unqueue (.top core t.id)) s1)
/-- What a process has asked for and has not got is withdrawn: its requests that are held or on their way, its operations at channel homes, its walks. -/
def State.dropAsks (s : State) (pk who : Nat) : State :=
  ({ s with
    held := s.held.filter (fun r => !(r.isInstr && decide (r.who = who)) && !r.isPlace (.proc pk))
    net := s.net.filter (fun m => m.body.whose != some who)
    outbox := s.outbox.filter (fun p => p.body.whose != some who || decide (p.left ≠ 0))
    walks := s.walks.filter (fun w => w.by_ != some pk) } : State).withdrawOps (fun o => decide (o.who = who))
/-- A guest whose origin was the lost module is discarded, with what it holds here and what it has asked for (R260). -/
def State.dropGuest (s : State) (m pk : Nat) : State :=
  let p := s.proc pk
  if p.guest ∧ wordModule p.origin = m then
    ((((((s.dropMarks p.origin).dropWatches p.origin).dropTops pk).dropAsks pk p.origin).vacate pk).setProc pk Proc.reset).settle
  else s
/-- Step 2 of R260: this module is in recovery and has cleaned up after the lost one. -/
def State.cleanUp (s : State) (m : Nat) : State :=
  let keys := s.procs.map (·.1)
  let s1 := keys.foldl (fun s pk => s.dropGuest m pk) ({ s with phase := 3 } : State)
  let s2 := (s1.losePieces m).loseChannels m
  keys.foldl (fun s pk => s.exitAway m pk) s2
/-- A transfer is held up at a tile of this module, which no survivor has to move on. -/
def State.xferStuck (s : State) (x : Xfer) : Bool :=
  let mine (c : Claimant) : Bool := match c with | .transfer m _ i _ => decide (m = s.modid ∧ i = x.id) | _ => false
  s.held.any (fun r => match r.rop with
    | .claim _ _ c => mine c
    | .engine _ _ (.msg n) => s.net.any (fun y => decide (y.id = n) && (match y.body with | .stream b => mine b.who | _ => false))
    | .lendOpen .. | .mark .. | .markOpen .. | .install .. => decide (r.op = x.id)
    | _ => false)
/-- Pulls between survivors are in flight, or transfers go on (R106, R137). -/
def State.survivorsMove (s : State) : Bool :=
  s.cores.any (fun (k : Nat × Core) => k.2.marks.any (fun e => decide (e.2.state ≠ 0) && !e.2.pulling.isEmpty)) || s.xfers.any (fun x => !s.xferStuck x)
/-- PARTITION_QUIESCE (R260). Survivors enter recovery and clean up; once pulls and transfers between them are complete, every context takes QUIESCE.
A transfer that a tile of this module holds up is withdrawn with the operations that wait for it; so are the operations of other modules'
processes that wait here (log 91). -/
def execPartitionQuiesce (peer : Nat) (s : State) : Host.Outcome State Fault Refusal :=
  .next (if !(s.peer peer).present || !(s.peer peer).lost then s
    else
      let ops := s.withdrawnBy peer
      let s1 := ({ s with lostOps := (s.lostOps ++ ops).dedup } : State).cleanUp peer
      if s1.survivorsMove then s1
      else
        let s2 := s1.xfers.foldl (fun s x => s.withdrawXfer x) ({ s1 with
          lostOps := (s1.lostOps ++ s1.xfers.flatMap (fun x => ((x.send.toList ++ x.recv.toList).filter s1.ours).map (·.op))).dedup } : State)
        let s3 := (({ s2 with held := s2.held.filter (fun r => !(r.noticed && (match r.src with | .remote _ _ => true | _ => false))) } : State).withdrawOps
          (fun o => !s2.ours o)).settle
        let s4 := (s3.procs.map (·.1)).foldl (fun s pk => s.quiesceProc s3.lostOps pk) s3
        (({ s4 with
          outbox := s4.outbox.filter (fun p => p.target != peer), sent := s4.sent.filter (fun p => p.target != peer), lostOps := [], quiesced := true } : State).forget peer).setPeer
          peer { s.peer peer with present := false })

end Sys2Proof.Machine
end

