-- ==== Sys2Proof/Machine/Launch.lean ====
section
/-! DEFINITION. The Launch Unit (spec/21_launch_management.md R317 to R328) and QARM (R319). -/
namespace Sys2Proof.Machine

/-! ## Memory as the Launch Unit reaches it (R318, R321): local addresses in host memory or HBM -/

/-- An address that queues and packets may name. -/
def State.luAddr (s : State) (la : Nat) : Bool :=
  match placeOf la with
  | .host => true
  | .hbm => s.fullService || decide (stackOf la < 2)
  | _ => false
/-- Bytes that are there to be read: none where the range leaves host memory and HBM or meets an uncorrectable error. -/
def State.luBytes (s : State) (la n : Nat) : Option (List Byte) :=
  if s.luAddr la && s.luAddr (la + n - 1) && !s.hurt la n then some (s.mem.bytes la n) else none
def State.luDword (s : State) (la : Nat) : Option Word := (s.luBytes la 8).map (fun bs => BitVec.ofNat 64 (leNat bs))
/-- A dword that the Launch Unit writes. -/
def State.luWrite (s : State) (la : Nat) (v : Word) : State := ({ s with mem := s.mem.writeN la 8 v.toNat } : State).heal la 8

def State.queue (s : State) (q : Nat) : Queue := s.queues.get Queue.reset q
def State.setQueue (s : State) (q : Nat) (v : Queue) : State := { s with queues := s.queues.set q v }

/-! ## Arming (R318, R319) -/

/-- Bits of dwords 0 and 1 of a queue control block that must be 0. -/
def qcbReserved (d0 d1 : Word) : Bool :=
  decide (fld d0.toNat 52 12 ≠ 0 ∨ fld d0.toNat 5 7 ≠ 0 ∨ fld d1.toNat 40 24 ≠ 0 ∨ fld d1.toNat 28 4 ≠ 0 ∨ fld d1.toNat 16 8 ≠ 0 ∨ fld d1.toNat 0 2 ≠ 0)
/-- A packet of the queue is in progress. -/
def Queue.inProgress (q : Queue) : Bool := decide (q.waiting ≠ 0) || !q.frames.isEmpty || q.loop.isSome
/-- Arms or disarms a queue from dwords 0 and 1: the state after it and the result. -/
def State.arm (s : State) (q qcb : Nat) (d0 d1 : Word) : State × Nat :=
  let logsize := fld d0.toNat 0 5
  let base := fld d0.toNat 12 40 * 2 ^ 12
  let tenant := fld d1.toNat 8 6
  let owner := fld d1.toNat 2 6
  if logsize = 0 then (s.setQueue q Queue.reset, 0)
  else if qcbReserved d0 d1 ∨ logsize < 12 ∨ 20 < logsize ∨ (placeOf base ≠ .host ∧ placeOf base ≠ .hbm) ∨ fld d1.toNat 24 4 = 0 then (s.setQueue q Queue.reset, 2)
  else if owner ≠ tenant ∧ (s.fltenq.get 0 owner).getLsbD tenant = false then (s.setQueue q Queue.reset, 3)
  else
    ((((s.setQueue q { Queue.reset with
      armed := true, qcb := qcb, base := base, logsize := logsize, vec := fld d1.toNat 32 8, dies := fld d1.toNat 24 4, prioCap := fld d1.toNat 14 2
      tenant := tenant, owner := owner }).luWrite (qcb + 24) 0).luWrite (qcb + 32) 0), 1)

/-- QARM (R319). Arms a command queue from its queue control block: dwords 0 and 1 are read as one access at their home. -/
def execQarm (o : RR) (s : State) : Host.Outcome State Fault Refusal :=
  let w := packRR 0x3E 14 o
  issue { word := w, gu := o.gu, priv := true, gs := [o.d.toNat, o.a.toNat], reads := [(0, o.d.toNat), (0, o.a.toNat)], writes := [(0, o.d.toNat)], ext := true } (fun pk s =>
    let p := s.proc pk
    let ea := p.word.getG o.a
    let q := (p.word.getG o.d).toNat % 256
    -- a packet that has come in meanwhile is waited for as well
    if 2 ≤ p.buf.length then
      if (s.queue q).inProgress then s
      else
        let x := s.arm q (paLocal ((p.seen.map (·.1)).headD 0)) (p.buf.getD 0 0) (p.buf.getD 1 0)
        x.1.modProc pk (fun p => p.retire [(0, o.d.toNat)] (p.r.setG o.d (BitVec.ofNat 64 x.2)) (p.pc + 4) false)
    else if ea.toNat % 64 ≠ 0 then s.raise pk ⟨.misalign, ea, 0, 0⟩
    else s.translated pk .rd 0 ea.toNat (fun pa u s =>
      if s.isHere pa = false ∨ (placeOf (paLocal pa) ≠ .host ∧ placeOf (paLocal pa) ≠ .hbm) then s.raise pk ⟨.prot, ea, 0, 0⟩
      else if !p.unacked.isEmpty || p.acquires (coreOf pk) (s.homeOf pa) || (s.queue q).inProgress then s
      else
        let op := s.nextId
        let s1 := ({ s with nextId := op + 1 } : State).request pk op (.load pa 16 false false) ea pa u 0
        s1.modProc pk (fun p => { (p.openStep op .load .buf ea (some (s.homeOf pa))) with seen := [(pa, u)] }))) s

/-! ## Packets (R320 to R323) -/

/-- Where the next packet lies, and how many bytes of packets there are. -/
def Queue.cursor (q : Queue) : Nat × Nat :=
  match q.frames with
  | (a, e) :: _ => (a, e - a)
  | [] => (q.base + q.rptr, (q.wptr + 2 ^ q.logsize - q.rptr) % 2 ^ q.logsize)
/-- Address of byte i from the cursor: the ring wraps (R320). -/
def Queue.byteAddr (q : Queue) (i : Nat) : Nat :=
  match q.frames with
  | (a, _) :: _ => a + i
  | [] => q.base + (q.rptr + i) % 2 ^ q.logsize
/-- n bytes from byte i of the cursor, some of them read ahead (R323). -/
def State.packetBytes (s : State) (q : Queue) (i n : Nat) : Option (List Byte) :=
  (List.range n).mapM (fun k =>
    let a := q.byteAddr (i + k)
    match q.ahead.find? (fun e => decide (e.1 = a)) with
    | some e => some e.2
    | none => if s.luAddr a && !s.hurt a 1 then some (s.mem.read a) else none)
/-- Dword j of the packet at the cursor. -/
def State.packetDword (s : State) (q : Queue) (j : Nat) : Option Word := (s.packetBytes q (8 * j) 8).map (fun bs => BitVec.ofNat 64 (leNat bs))
def pkOp (h : Word) : Nat := fld h.toNat 56 8
def pkLen (h : Word) : Nat := fld h.toNat 48 8
/-- The header is in order (R321): code 1 an unknown opcode, 2 reserved bits or values; 0 where it is good. -/
def headerCode (h : Word) : Nat :=
  let x := fld h.toNat 0 48
  let ok (b : Bool) : Nat := if b then 0 else 2
  match pkOp h with
  | 0 => ok (decide (1 ≤ pkLen h ∧ x = 0))
  | 1 => ok (decide ((pkLen h = 9 ∨ pkLen h = 11) ∧ x < 2 ^ 12))
  | 2 => ok (decide (pkLen h = 4 ∧ x < 4))
  | 3 => ok (decide (pkLen h = 3 ∧ x < 4))
  | 4 => ok (decide (pkLen h = 3 ∧ x = 0))
  | 5 => ok (decide (pkLen h = 1 ∧ x < 2 ^ 24 ∧ fld x 8 16 ≠ 0 ∧ fld x 0 8 ≠ 0))
  | 6 => ok (decide (pkLen h = 1 ∧ x = 0))
  | _ => 1
/-- Dword 4 of a queue control block. -/
def Queue.status (q : Queue) : Word := BitVec.ofNat 64 (q.halted.toNat * 2 ^ 63 + q.code * 2 ^ 48 + q.refused)
/-- The queue halts (R322). -/
def State.haltQueue (s : State) (q code : Nat) : State :=
  let v := s.queue q
  let v1 := { v with halted := true, code := code, faultpa := v.cursor.1, frames := [], loop := none, waiting := 0, ahead := [] }
  { (((s.setQueue q v1).luWrite (v.qcb + 32) v1.status).luWrite (v.qcb + 40) (BitVec.ofNat 64 v1.faultpa)) with raised := s.raised ++ [v.vec] }
/-- What the queue has to do next: nothing; halt with a code; or the packet with this header. -/
inductive LuTodo | none | halt (code : Nat) | packet (h : Word)
  deriving DecidableEq, Repr
def State.luTodo (s : State) (q : Nat) : LuTodo :=
  let v := s.queue q
  if !v.armed || v.halted || decide (v.waiting ≠ 0) || decide (v.cursor.2 = 0) then .none
  else match s.packetDword v 0 with
    | .none => .halt 3
    | some h =>
      if headerCode h ≠ 0 then .halt (headerCode h)
      else if v.cursor.2 < 8 * pkLen h then .halt 2
      else if (s.packetBytes v 0 (8 * pkLen h)).isNone then .halt 3 else .packet h
/-- The queue whose turn it is: armed queues are served in rotation, one packet a turn (R320). -/
def State.luNext (s : State) : Option Nat :=
  (((List.range 256).map (fun i => (s.luTurn + i) % 256)).filter (fun q => s.queues.any (fun e => decide (e.1 = q)))).find? (fun q => decide (s.luTodo q ≠ .none))

/-! ## After a packet (R318, R324) -/

/-- A packet of the current frame is done: the pass of a LOOP around it, and the end of an INDIRECT, which is itself a packet of the frame
around it. The result is false where a body runs past its INDIRECT. -/
def Queue.account : Nat → Queue → Queue × Bool
  | 0, q => (q, true)
  | n + 1, q =>
    let looped : Queue := match q.loop with
      | some (d, start, len, left, passes) =>
        if d ≠ q.frames.length then q
        else if 1 < left then { q with loop := some (d, start, len, left - 1, passes) }
        else if passes ≤ 1 then { q with loop := none }
        else
          let back : Queue := match q.frames with
            | (_, e) :: rest => { q with frames := (start, e) :: rest }
            | [] => { q with rptr := start }
          { back with loop := some (d, start, len, len, passes - 1) }
      | none => q
    match looped.frames with
    | (a, e) :: rest =>
      if a < e then (looped, true)
      else if looped.loop.any (fun l => decide (l.1 = looped.frames.length)) then (looped, false)
      else Queue.account n { looped with frames := rest }
    | [] => (looped, true)
/-- Moves the cursor past n bytes. -/
def Queue.advance (q : Queue) (n : Nat) : Queue :=
  let gone := (List.range n).map q.byteAddr
  let q1 := { q with ahead := q.ahead.filter (fun e => !gone.contains e.1) }
  match q1.frames with
  | (a, e) :: rest => { q1 with frames := (a + n, e) :: rest }
  | [] => { q1 with rptr := (q1.rptr + n) % 2 ^ q1.logsize }
/-- RPTR is written after each packet's effect, an INDIRECT's with its last packet (R318). -/
def State.luStore (s : State) (q : Nat) (v : Queue) : State :=
  let s1 := s.setQueue q v
  if v.frames.isEmpty then s1.luWrite (v.qcb + 24) (BitVec.ofNat 64 v.rptr) else s1
/-- The packet in progress has taken effect. -/
def State.finishPacket (s : State) (q len : Nat) : State :=
  let v := { (s.queue q).advance (8 * len) with waiting := 0, share := none }
  match v.account 6 with
  | (v1, true) => s.luStore q v1
  | (_, false) => s.haltQueue q 2
/-- The packet in progress has been read: later writes to it are not seen (R323). -/
def State.fetchPacket (s : State) (q len : Nat) : State :=
  let v := s.queue q
  match s.packetBytes v 0 len with
  | none => s
  | some all =>
    let got := ((List.range len).map v.byteAddr).zip all
    s.setQueue q { v with ahead := v.ahead ++ got.filter (fun e => !v.ahead.any (fun x => decide (x.1 = e.1))) }
/-- The row of an opcode: it acts when its queue has its turn and such a packet, and halts the queue for a bad one. The turn passes on (R320). -/
def packetRow (op q : Nat) (body : Word → State → State) (s : State) : Host.Outcome State Fault Refusal :=
  .next (if s.luNext ≠ some q then s
    else match s.luTodo q with
      | .none => s
      | .halt c => { (s.haltQueue q c) with luTurn := q + 1 }
      | .packet h => if pkOp h = op then { (body h (s.fetchPacket q (8 * pkLen h))) with luTurn := q + 1 } else s)
/-- Dword j of the packet in progress, which has been fetched. -/
def State.body (s : State) (q j : Nat) : Nat := ((s.packetDword (s.queue q) j).getD 0).toNat
/-- An address of a packet: a multiple of 8 in host memory or HBM. -/
def State.luGood (s : State) (la : Nat) : Bool := decide (la % 8 = 0) && s.luAddr la

/-- Where the bytes that may be read end: at a limit, or behind the first FETCHFENCE from packet byte i on (R323). -/
def State.fenceLimit (s : State) (v : Queue) (limit : Nat) : Nat → Nat → Nat
  | 0, i => min limit i
  | n + 1, i =>
    if limit ≤ i then limit
    else match s.packetBytes v i 8 with
      | none => i
      | some bs =>
        let h : Word := BitVec.ofNat 64 (leNat bs)
        if pkOp h = 6 then min limit (i + 8) else s.fenceLimit v limit n (i + 8 * max 1 (pkLen h))
/-- The Launch Unit reads up to n bytes of packets from the cursor on: of those beyond the packet in progress at most 256, and none beyond a FETCHFENCE
(R323). -/
def State.readAhead (s : State) (q n : Nat) : State :=
  let v := s.queue q
  let first := 8 * ((s.packetDword v 0).map pkLen).getD 0
  let lim := min n (s.fenceLimit v (min v.cursor.2 (first + 256)) 64 0)
  match s.packetBytes v 0 lim with
  | none => s
  | some all =>
    let fresh := ((List.range lim).map v.byteAddr).zip all
    s.setQueue q { v with ahead := v.ahead ++ fresh.filter (fun e => !v.ahead.any (fun x => decide (x.1 = e.1))) }

/-! ## The rows (R320 to R327) -/

/-- (Mem(addr, 8) AND mask) COND value (R324). -/
def waitHolds (cond : Nat) (x mask value : Word) : Bool :=
  let y := x &&& mask
  match cond with
  | 0 => decide (y = value)
  | 1 => decide (y ≠ value)
  | 2 => decide (value.toNat ≤ y.toNat)
  | _ => decide (y.toNat < value.toNat)
/-- One read of a WAIT's word. -/
def State.pollWait (s : State) (q : Nat) : State :=
  match s.luDword (s.body q 1) with
  | none => s.haltQueue q 3
  | some x =>
    if waitHolds (s.body q 0 % 4) x (BitVec.ofNat 64 (s.body q 3)) (BitVec.ofNat 64 (s.body q 2)) then s.finishPacket q 4
    else s.setQueue q { (s.queue q) with waiting := 1, lastPoll := s.dtime }

/-- A doorbell: WPTR is read (R320). -/
def State.doorbell (s : State) (queue : Nat) : State :=
  let v := s.queue queue
  if !v.armed || v.halted then s
    else match s.luDword (v.qcb + 16) with
      | none => s.haltQueue queue 3
      | some x =>
        let wptr := fld x.toNat 0 32
        if fld x.toNat 32 32 ≠ 0 then s.haltQueue queue 2
        else if wptr % 8 ≠ 0 ∨ 2 ^ v.logsize ≤ wptr then s.haltQueue queue 7
        else
          let s1 := s.setQueue queue { v with wptr := wptr }
          if v.waiting = 1 then s1.pollWait queue else s1
/-- DOORBELL (R320). A LUDOORBELL write makes the Launch Unit read WPTR and process packets; a WAIT reads its word again (R324). -/
def execDoorbell (queue : Nat) (s : State) : Host.Outcome State Fault Refusal := .next (s.doorbell queue)

/-- A LUARM write for a queue that has no packet in progress. -/
def State.luarmWrite (s : State) (value : Word) : State :=
  let q := fld value.toNat 56 8
  let qcb := fld value.toNat 0 56
  if qcb % 64 ≠ 0 then { s with luarm := 2 }
  else match s.luDword qcb, s.luDword (qcb + 8) with
    | some d0, some d1 => let x := s.arm q qcb d0 d1; { x.1 with luarm := BitVec.ofNat 64 x.2 }
    | _, _ => { (s.setQueue q Queue.reset) with luarm := 2 }
/-- LUARM (R319). A LUARM write arms a queue as QARM does: the operand is the local address of the queue control block, with the queue number
in [63:56]. While the queue has a packet in progress the write waits. -/
def execLuarm (value : BitVec 64) (s : State) : Host.Outcome State Fault Refusal :=
  .next (if (s.queue (fld value.toNat 56 8)).inProgress then s else s.luarmWrite value)

/-- The HALTCTL commands of a LUPREEMPT write. -/
def State.lupreempt (s : State) (value : Word) : State :=
  let dies := if value.getLsbD 14 then [0, 1, 2, 3] else [fld value.toNat 12 2]
  dies.foldl (fun s d => s.haltctl d (value &&& 0xDFF#64)) s
/-- LUPREEMPT (R317). A LUPREEMPT write issues a HALTCTL command to each named die. -/
def execLupreempt (value : BitVec 64) (s : State) : Host.Outcome State Fault Refusal := .next (s.lupreempt value)

/-- NOP_PACKET (R321). A NOP packet is skipped. -/
def execNopPacket (queue : Nat) (s : State) : Host.Outcome State Fault Refusal := packetRow 0 queue (fun h s => s.finishPacket queue (pkLen h)) s

/-- The task record of a LAUNCH: the Launch Unit replaces its ASID with TENANT (R325). -/
def State.launchRecord (s : State) (q : Nat) : Record :=
  let v := s.queue q
  (List.range 8).map (fun i =>
    let d := s.body q (1 + i)
    BitVec.ofNat 64 (if i = 0 then d - fld d 50 6 * 2 ^ 50 + v.tenant * 2 ^ 50 else d))
/-- Free inbox slots of core c for the Launch Unit: slot 7 of core d/00/00 is reserved for event records (R284, R325). -/
def Core.inboxFree (k : Core) (c : Nat) : List Nat :=
  (List.range (if c % 384 = 0 then 7 else 8)).filter (fun i => k.inbox.all (fun e => e.1 != i))
/-- Shares of the priority-2 tasks admitted on a core and not yet exited (R286). -/
def State.shares (s : State) (c : Nat) : List (Nat × Nat) :=
  (s.flights.filter (fun f => decide (f.core = c))).filterMap (·.prio2) ++ (s.queues.filter (fun e => decide (e.2.waiting = 3 ∧ e.2.target = c))).filterMap (·.2.share)
/-- R286: the sum of B / D with this task stays at or below CAP / 1,000, and a CAP of 0 admits none. -/
def State.admits (s : State) (c b d : Nat) : Bool :=
  let all := (b, d) :: s.shares c
  decide ((s.die (dieOfCore c)).tadmit ≠ 0) && all.all (fun x => decide (x.2 ≠ 0)) && decide (all.foldl (fun (a : ℚ) x => a + (x.1 : ℚ) / x.2) 0 * 1000 ≤ (s.die (dieOfCore c)).tadmit)
/-- What a LAUNCH's check gives: halt with a code, wait, refuse, or go on with a target core. -/
inductive LuPick | halt (code : Nat) | wait | refuse | target (c : Nat)
  deriving DecidableEq, Repr
/-- The checks of R325 and R327. -/
def State.pickTarget (s : State) (q : Nat) : LuPick :=
  let v := s.queue q
  let h := s.body q 0
  let r := s.launchRecord q
  let die := fld h 9 2
  let core := fld h 0 9
  let ok (c : Nat) : Bool := decide (recPrio r ≠ 2) || s.admits c (s.body q 9) (s.body q 10)
  if v.prioCap < recPrio r then .halt 5
  else if recBad r || decide ((recPrio r = 2) ≠ (fld h 48 8 = 11)) then .halt 2
  else if v.dies / 2 ^ die % 2 = 0 then .halt 6
  else if fld h 11 1 = 0 then
    if 383 < core then .halt 2
    else if (s.core (die * 384 + core)).partition < recNeed r then .halt 6
    else if !(s.die die).inService then .wait
    else if ok (die * 384 + core) then .target (die * 384 + core) else .refuse
  else
    let fit := ((List.range 384).map (fun i => die * 384 + i)).filter (fun c => decide (recNeed r ≤ (s.core c).partition))
    let cands := fit.filter ok
    if fit.isEmpty then .halt 6
    else if !(s.die die).inService then .wait
    else match cands.find? (fun c => cands.all (fun x => decide (((s.core x).inboxFree x).length ≤ ((s.core c).inboxFree c).length))) with
      | some c => .target c
      | none => .refuse

/-- The checks of the LAUNCH in progress are made and its target core chosen; while its die is not in service it waits. -/
def State.launchPick (s : State) (queue len : Nat) : State :=
  let v := s.queue queue
  match s.pickTarget queue with
  | .halt c => s.haltQueue queue c
  | .wait => s.setQueue queue { v with waiting := 4 }
  | .refuse =>
    let v1 := { v with refused := (v.refused + 1) % 2 ^ 32 }
    ((s.setQueue queue v1).luWrite (v.qcb + 32) v1.status).finishPacket queue len
  | .target c => s.setQueue queue { v with waiting := 3, target := c, share := if len = 11 then some (s.body queue 9, s.body queue 10) else none }
/-- LAUNCH (R325). A LAUNCH packet is checked and its target core chosen; a priority-2 LAUNCH that admission refuses is skipped (R327). It takes a number
in the order in which the rotation reaches it (R326). -/
def execLaunch (queue : Nat) (s : State) : Host.Outcome State Fault Refusal :=
  packetRow 1 queue (fun h s => ({ (s.setQueue queue { (s.queue queue) with stamp := s.nextId }) with nextId := s.nextId + 1 } : State).launchPick queue (pkLen h)) s

/-- Byte ranges of a record with whether they are written (R326). -/
def recBytes (r : Record) : List (Nat × Nat × Bool) := (recRanges r).map (fun x => (x.2.1, x.2.2, decide (2 ≤ x.1)))
/-- A conflict with a task in flight (R326). -/
def Flight.clashes (f : Flight) (asid : Nat) (xs : List (Nat × Nat × Bool)) : Bool :=
  decide (f.asid = asid) && f.ranges.any (fun a => xs.any (fun b => (a.2.2 || b.2.2) && decide (a.1 < b.1 + b.2.1 ∧ b.1 < a.1 + a.2.1)))
/-- The physically contiguous runs of a declared range, in steps of a page, as far as its pages are mapped (R68). -/
def State.extentsOf (s : State) (x : Ctx) (r : Nat × Nat × Nat) : List Extent :=
  let load := decide (r.1 = 1 ∨ r.1 = 3)
  let store := decide (2 ≤ r.1)
  let first := r.2.1 / 65536
  let last := (r.2.1 + r.2.2 - 1) / 65536
  (List.range (last + 1 - first)).foldl (fun (es : List Extent) i =>
    let lo := max r.2.1 ((first + i) * 65536)
    let hi := min (r.2.1 + r.2.2) ((first + i + 1) * 65536)
    let can (a : Access) : Option (Nat × Under) := match s.xlateNow x a lo with | .ok pa u => some (pa, u) | _ => none
    let l := load && (can .rd).isSome
    let w := store && (can .wr).isSome
    match (if l then can .rd else if w then can .wr else none) with
    | none => es
    | some (pa, u) =>
      match es.getLast? with
      | some e =>
        if e.va + e.len = lo ∧ e.pa + e.len = pa ∧ e.load = l ∧ e.store = w then
          es.dropLast ++ [{ e with len := e.len + (hi - lo), pages := if e.pages.contains u then e.pages else e.pages ++ [u] }]
        else es ++ [⟨lo, hi - lo, pa, l, w, [u]⟩]
      | none => [⟨lo, hi - lo, pa, l, w, [u]⟩]) []

/-- A LAUNCH of another queue that the rotation has reached earlier, and that waits, conflicts: it goes in flight first (R326). -/
def State.launchBefore (s : State) (queue : Nat) : Bool :=
  let v := s.queue queue
  s.queues.any (fun e => decide (e.1 ≠ queue ∧ (e.2.waiting = 3 ∨ e.2.waiting = 4) ∧ e.2.stamp < v.stamp) &&
    (⟨0, 0, 0, e.2.tenant, recBytes (s.launchRecord e.1), none⟩ : Flight).clashes v.tenant (recBytes (s.launchRecord queue)))
/-- LAUNCH_RECORD_WRITE (R325). Once free of conflicts and with an inbox slot, the record is pre-translated and written; the task is in flight
from here on (R326). A LAUNCH that has waited for its die looks again. -/
def execLaunchRecordWrite (queue : Nat) (s : State) : Host.Outcome State Fault Refusal :=
  let v := s.queue queue
  let r := s.launchRecord queue
  let c := v.target
  .next (if v.waiting = 4 then s.launchPick queue (fld (s.body queue 0) 48 8)
    else if v.waiting ≠ 3 then s
    else match (s.core c).inboxFree c with
      | [] => s
      | i :: _ =>
        if 4096 ≤ s.flights.length ∨ s.flights.any (fun f => f.clashes v.tenant (recBytes r)) = true ∨ s.launchBefore queue = true ∨ (s.die (dieOfCore c)).inService = false then s
        else
          let x : Ctx := ⟨c, v.tenant, decide (recPrio r = 3), s.modid, [], 0, none, none⟩
          let es := ((recRanges r).flatMap (fun y => s.extentsOf x y)).take 8
          let id := s.nextId
          let s1 : State := { s with
            nextId := id + 1
            flights := s.flights ++ [⟨id, queue, c, v.tenant, recBytes r, v.share⟩] }
          let s2 := s1.modCore c (fun k => { k with inbox := k.inbox.set i ⟨r, false, id, id, es⟩ })
          s2.finishPacket queue (if v.share.isSome then 11 else 9))

/-- WAIT (R324). A WAIT packet holds its queue until its predicate on memory holds. -/
def execWait (queue : Nat) (s : State) : Host.Outcome State Fault Refusal :=
  packetRow 2 queue (fun _ s => if s.luGood (s.body queue 1) then s.pollWait queue else s.haltQueue queue 2) s

/-- WAIT_POLL (R324). The Launch Unit rereads a WAIT word at least once per microsecond. -/
def execWaitPoll (queue : Nat) (s : State) : Host.Outcome State Fault Refusal :=
  .next (if (s.queue queue).waiting = 1 then s.pollWait queue else s)

/-- RELEASE (R324). A RELEASE packet waits for earlier tasks to exit. -/
def execRelease (queue : Nat) (s : State) : Host.Outcome State Fault Refusal :=
  packetRow 3 queue (fun _ s =>
    if s.luGood (s.body queue 1) then s.setQueue queue { (s.queue queue) with waiting := 2 } else s.haltQueue queue 2) s

/-- RELEASE_PERFORM (R324). No task that was launched from the queue is in flight any more, before it was armed again included. The RELEASE store is performed as an STL at its scope. Its address carries no tags, so AUTO is PKG (R235); it waits
while its bytes are lent or migrate (R70, R99). -/
def execReleasePerform (queue : Nat) (s : State) : Host.Outcome State Fault Refusal :=
  let v := s.queue queue
  let la := s.body queue 1
  .next (if v.waiting ≠ 2 ∨ s.flights.any (fun f => decide (f.queue = queue)) = true ∨ s.migrating la = true ∨ s.hbmLent la 8 = true then s
    else (s.luWrite la (BitVec.ofNat 64 (s.body queue 2))).finishPacket queue 3)

/-- INDIRECT (R324). An INDIRECT packet processes packets at another address. -/
def execIndirect (queue : Nat) (s : State) : Host.Outcome State Fault Refusal :=
  packetRow 4 queue (fun _ s =>
    let v := s.queue queue
    let la := s.body queue 1
    let n := s.body queue 2
    if s.luGood la = false ∨ n % 8 ≠ 0 then s.haltQueue queue 2
    else if 4 ≤ v.frames.length then s.haltQueue queue 4
    else
      let v1 := v.advance 24
      let v2 := { v1 with frames := (la, la + n) :: v1.frames }
      if n ≠ 0 then s.setQueue queue v2
      else match v1.account 6 with
        | (v3, true) => s.luStore queue v3
        | (_, false) => s.haltQueue queue 2) s

/-- LOOP (R324). A LOOP packet repeats the next N packets C times. -/
def execLoop (queue : Nat) (s : State) : Host.Outcome State Fault Refusal :=
  packetRow 5 queue (fun h s =>
    let v := s.queue queue
    let n := fld h.toNat 0 8
    if v.loop.isSome then s.haltQueue queue 4
    else
      let v1 := v.advance 8
      let start := match v1.frames with | (a, _) :: _ => a | [] => v1.rptr
      if v1.frames.any (fun f => decide (f.2 ≤ f.1)) then s.haltQueue queue 2
      else s.luStore queue { v1 with loop := some (v1.frames.length, start, n, n, fld h.toNat 8 16) }) s

/-- FETCHFENCE (R323). A FETCHFENCE discards prefetched packet bytes beyond itself. -/
def execFetchfence (queue : Nat) (s : State) : Host.Outcome State Fault Refusal :=
  packetRow 6 queue (fun _ s => (s.setQueue queue { (s.queue queue) with ahead := [] }).finishPacket queue 1) s

/-- TASK_EXIT_REPORT (R326). A core reports a task's EXIT, removing it from the in-flight table. -/
def execTaskExitReport (id : Nat) (s : State) : Host.Outcome State Fault Refusal :=
  .next <| match s.inTurn id with
  | some ⟨_, _, _, .exited task, _, _⟩ => { (s.take id) with flights := s.flights.filter (fun f => f.id != task) }
  | _ => s

end Sys2Proof.Machine
end

