-- ==== Sys2Proof/Machine/Sha3.lean ====
section
/-! DEFINITION. SHA3-256 (FIPS 202), with which Firefly measures its images (spec/01_device.md R15, spec/21_launch_management.md R330, R335), and the
extendable functions that ML-DSA takes from the same standard. The spec names the standard and does not repeat it: PRESUMED from FIPS 202 (log 92). -/
namespace Sys2Proof.Machine

/-- Lane (x, y) of a Keccak state: lane x + 5y of 25. -/
def kLane (a : List (BitVec 64)) (x y : Nat) : BitVec 64 := a.getD (x % 5 + 5 * (y % 5)) 0
/-- A state from its lanes. -/
def kState (f : Nat → Nat → BitVec 64) : List (BitVec 64) := (List.range 25).map (fun i => f (i % 5) (i / 5))
/-- Offsets of the step rho, lane by lane. -/
def kOffsets : List Nat :=
  [0, 1, 62, 28, 27] ++ [36, 44, 6, 55, 20] ++ [3, 10, 43, 25, 39] ++ [41, 45, 15, 21, 8] ++ [18, 2, 61, 56, 14]
/-- Bits of the linear feedback register of the step iota, one after the other: its state of eight bits, seven for each round. -/
def kRcBits : Nat → Nat → List Bool
  | 0, _ => []
  | n + 1, r =>
    let r1 := 2 * r
    (r % 2 = 1) :: kRcBits n (if r1 / 256 = 1 then Nat.xor (r1 % 256) 0x71 else r1)
/-- The constant of round i: bits 2^j - 1. -/
def kRound (i : Nat) : BitVec 64 :=
  (((kRcBits 168 1).drop (7 * i)).take 7).zipIdx.foldl (fun a e => if e.1 then a ||| (1#64 <<< (2 ^ e.2 - 1)) else a) 0
/-- One round: theta, rho, pi, chi, iota. -/
def kStep (a : List (BitVec 64)) (i : Nat) : List (BitVec 64) :=
  let col := (List.range 5).map (fun x => (List.range 5).foldl (fun t y => t ^^^ kLane a x y) 0)
  let th := kState (fun x y => kLane a x y ^^^ col.getD ((x + 4) % 5) 0 ^^^ (col.getD ((x + 1) % 5) 0).rotateLeft 1)
  let rho := kState (fun x y => (kLane th x y).rotateLeft (kOffsets.getD (x + 5 * y) 0))
  let pi_ := kState (fun x y => kLane rho (x + 3 * y) x)
  let chi := kState (fun x y => kLane pi_ x y ^^^ (~~~ (kLane pi_ (x + 1) y) &&& kLane pi_ (x + 2) y))
  kState (fun x y => if x = 0 ∧ y = 0 then kLane chi x y ^^^ kRound i else kLane chi x y)
/-- The permutation: 24 rounds. -/
def keccak (a : List (BitVec 64)) : List (BitVec 64) := (List.range 24).foldl kStep a
/-- One block is absorbed. -/
def kAbsorb (a : List (BitVec 64)) (block : List Byte) : List (BitVec 64) :=
  keccak (kState (fun x y => kLane a x y ^^^ BitVec.ofNat 64 (leNat ((block.drop (8 * (x + 5 * y))).take 8))))
/-- The blocks in turn, each of rate bytes. -/
def kSponge (rate : Nat) : Nat → List Byte → List (BitVec 64) → List (BitVec 64)
  | 0, _, a => a
  | n + 1, m, a => kSponge rate n (m.drop rate) (kAbsorb a (m.take rate))
/-- The message padded to whole blocks: a suffix, with the first 1 of the padding, zeros, the last 1. -/
def kPad (rate : Nat) (suffix : Byte) (m : List Byte) : List Byte :=
  let n := rate - m.length % rate
  if n = 1 then m ++ [suffix ||| 0x80#8] else m ++ [suffix] ++ List.replicate (n - 2) 0 ++ [0x80]
/-- A message is absorbed. -/
def kHash (rate : Nat) (suffix : Byte) (m : List Byte) : List (BitVec 64) :=
  let p := kPad rate suffix m
  kSponge rate (p.length / rate) p (List.replicate 25 0)
/-- The SHA3-256 digest, its first byte lowest. -/
def sha3 (m : List Byte) : BitVec 256 :=
  let a := kHash 136 0x06 m
  BitVec.ofNat 256 ((List.range 4).foldl (fun t i => t + (kLane a i 0).toNat * 2 ^ (64 * i)) 0)
/-- Blocks of output of an extendable function, the first from a state, each of rate bytes. -/
def kSqueeze (rate : Nat) : Nat → List (BitVec 64) → List Byte
  | 0, _ => []
  | n + 1, a => (((List.range 25).flatMap (fun i => leBytes 8 (kLane a i (i / 5)).toNat)).take rate) ++ kSqueeze rate n (keccak a)
/-- SHAKE128 and SHAKE256: n blocks of output. -/
def shake128 (n : Nat) (m : List Byte) : List Byte := kSqueeze 168 n (kHash 168 0x1F m)
def shake256 (n : Nat) (m : List Byte) : List Byte := kSqueeze 136 n (kHash 136 0x1F m)

end Sys2Proof.Machine
end

