-- ==== Sys2Proof/Machine/MlDsa.lean ====
section
/-! DEFINITION. Verification of an ML-DSA-44 signature (FIPS 204), by which Firefly accepts its images (spec/01_device.md R15,
spec/21_launch_management.md R330). The spec names the standard and does not repeat it: PRESUMED from FIPS 204 (log 92). The transform is written as the
evaluation that it is, at the odd powers of the root of unity in bit-reversed order. -/
namespace Sys2Proof.Machine

/-- A polynomial: 256 coefficients, the constant one first. -/
abbrev Poly := List Int

/-- The modulus q. -/
def dsaQ : Nat := 8380417
/-- 2 gamma2, with gamma2 = (q - 1) / 88. -/
def dsaStep : Int := 190464
/-- Coefficients from fields of n bits. -/
def unpackPoly (n : Nat) (bs : List Byte) : List Nat := let x := leNat bs; (List.range 256).map (fun i => x / 2 ^ (n * i) % 2 ^ n)
/-- Coefficients as fields of n bits. -/
def packPoly (n : Nat) (w : List Nat) : List Byte := leBytes (32 * n) (w.zipIdx.foldl (fun a e => a + e.1 % 2 ^ n * 2 ^ (n * e.2)) 0)

/-- A power modulo q, by squaring; the exponent has at most n bits. -/
def powQ : Nat → Nat → Nat → Nat
  | 0, _, _ => 1
  | n + 1, b, e => (if e % 2 = 1 then b else 1) * powQ n (b * b % dsaQ) (e / 2) % dsaQ
/-- Bit reversal of 8 bits. -/
def rev8 (i : Nat) : Nat := (List.range 8).foldl (fun a k => a + i / 2 ^ k % 2 * 2 ^ (7 - k)) 0
/-- The point i of the transform: 1753 to the power 2 rev(i) + 1. -/
def dsaPoint (i : Nat) : Nat := powQ 9 1753 (2 * rev8 i + 1)
/-- The value of a polynomial at a point, modulo q. -/
def evalQ (w : Poly) (x : Nat) : Int := w.foldr (fun c a => (c + x * a) % dsaQ) 0
/-- The transform. -/
def ntt (w : Poly) : Poly := (List.range 256).map (fun i => evalQ w (dsaPoint i))
/-- The inverse transform: coefficient j is the mean of the values times the powers -j of the points. -/
def nttInv (w : Poly) : Poly :=
  let pts := (List.range 256).map (fun i => powQ 23 (dsaPoint i) (dsaQ - 2))
  (List.range 256).map (fun j => ((8347681 : Int) * ((w.zip pts).foldl (fun a e => (a + e.1 * (powQ 8 e.2 j : Int)) % dsaQ) (0 : Int))) % dsaQ)
def polyMul (a b : Poly) : Poly := (a.zip b).map (fun e => e.1 * e.2 % dsaQ)
def polyAdd (a b : Poly) : Poly := (a.zip b).map (fun e => (e.1 + e.2) % dsaQ)
def polySub (a b : Poly) : Poly := (a.zip b).map (fun e => (e.1 - e.2) % dsaQ)

/-- Bytes in threes, each a coefficient of 23 bits, as far as it is below q. -/
def rejCoeffs : List Byte → Poly
  | a :: b :: c :: rest => let z := a.toNat + b.toNat * 2 ^ 8 + c.toNat % 128 * 2 ^ 16; if z < dsaQ then (z : Int) :: rejCoeffs rest else rejCoeffs rest
  | _ => []
/-- Entry (r, s) of the matrix, already transformed. Seven blocks give 392 candidates for the 256 coefficients. -/
def expandA (rho : List Byte) (r s : Nat) : Poly := (rejCoeffs (shake128 7 (rho ++ [BitVec.ofNat 8 s, BitVec.ofNat 8 r]))).take 256
/-- A step of the sampling of a polynomial with 39 coefficients that are 1 or -1: the place of the next one, and the polynomial. -/
def ballStep (signs : Nat) (x : Nat × Poly) (b : Byte) : Nat × Poly :=
  if 256 ≤ x.1 ∨ x.1 < b.toNat then x
  else (x.1 + 1, (x.2.set x.1 (x.2.getD b.toNat 0)).set b.toNat (if signs / 2 ^ (x.1 - 217) % 2 = 1 then -1 else 1))
/-- Such a polynomial from a seed. -/
def sampleInBall (seed : List Byte) : Poly :=
  let bs := shake256 4 seed
  ((bs.drop 8).foldl (ballStep (leNat (bs.take 8))) (217, List.replicate 256 0)).2

/-- High and low parts of a coefficient. -/
def decomposeQ (r : Int) : Int × Int :=
  let p := r % dsaQ
  let m := p % dsaStep
  let r0 := if dsaStep / 2 < m then m - dsaStep else m
  if p - r0 = dsaQ - 1 then (0, r0 - 1) else ((p - r0) / dsaStep, r0)
/-- The high part, mended by a hint. -/
def useHint (h : Bool) (r : Int) : Nat :=
  let x := decomposeQ r
  (if h then (if 0 < x.2 then (x.1 + 1) % 44 else (x.1 - 1) % 44) else x.1).toNat
/-- The places of the hints of the four polynomials, where the encoding is in order: each ends where the next begins, and rises. -/
def hintPlaces (y : List Byte) : Option (List (List Nat)) :=
  let ends := (y.drop 80).map (·.toNat)
  let parts := ((0 :: ends).zip ends).map (fun e => ((y.take e.2).drop e.1).map (·.toNat))
  let rises (l : List Nat) : Bool := (l.zip (l.drop 1)).all (fun e => decide (e.1 < e.2))
  if ((0 :: ends).zip ends).all (fun e => decide (e.1 ≤ e.2 ∧ e.2 ≤ 80)) && parts.all rises && ((y.take 80).drop (ends.getLastD 0)).all (fun b => decide (b = 0))
  then some parts else none

/-- The signature is good for the message under the public key, with an empty context. -/
def mlDsaVerify (pk msg sig : List Byte) : Bool :=
  let rho := pk.take 32
  let t1 := (List.range 4).map (fun i => (unpackPoly 10 ((pk.drop (32 + 320 * i)).take 320)).map (fun c => (c : Int) * 2 ^ 13))
  let seed := sig.take 32
  let z : List Poly := (List.range 4).map (fun i => (unpackPoly 18 ((sig.drop (32 + 576 * i)).take 576)).map (fun c => 131072 - (c : Int)))
  match hintPlaces ((sig.drop 2336).take 84) with
  | none => false
  | some hs =>
    let mu := (shake256 1 ((shake256 1 pk).take 64 ++ [0, 0] ++ msg)).take 64
    let zh := z.map ntt
    let ch := ntt (sampleInBall seed)
    let w1 := (List.range 4).flatMap (fun r =>
      let az := (List.range 4).foldl (fun a s => polyAdd a (polyMul (expandA rho r s) (zh.getD s []))) (List.replicate 256 0)
      let w := nttInv (polySub az (polyMul ch (ntt (t1.getD r []))))
      packPoly 6 (w.zipIdx.map (fun e => useHint ((hs.getD r []).contains e.2) e.1)))
    decide (pk.length = 1312 ∧ sig.length = 2420) && z.all (fun p => p.all (fun c => decide (c.natAbs < 130994))) && decide ((shake256 1 (mu ++ w1)).take 32 = seed)

end Sys2Proof.Machine
end

