-- ==== Sys2Proof/Machine/Spdm.lean ====
section
/-! DEFINITION. The SPDM responder (spec/21_launch_management.md R335). The spec names DMTF SPDM 1.3 and does not repeat it: the codes, the layout of the
messages, what a signature covers and the errors are PRESUMED from DSP0274 1.3 (log 117). -/
namespace Sys2Proof.Machine

/-- The characters of a text, as bytes. -/
def ascii (t : String) : List Byte := t.toList.map (fun c => BitVec.ofNat 8 c.toNat)
/-- Field of n bytes at an offset of a message, its first byte lowest. -/
def msgFld (q : List Byte) (off n : Nat) : Nat := leNat ((q.drop off).take n)
/-- An answer of version 1.3: its code and its two parameters. -/
def spdmHead (code p1 p2 : Nat) : List Byte := [0x13, BitVec.ofNat 8 code, BitVec.ofNat 8 p1, BitVec.ofNat 8 p2]
/-- The error answer. -/
def spdmError (code data : Nat) : List Byte := spdmHead 0x7F code data
def digestBytes (d : BitVec 256) : List Byte := leBytes 32 d.toNat

/-- The measurement log: one digest for each boot stage that has passed, then that of the configuration record (R335). -/
def State.measureLog (s : State) : List (BitVec 256) := s.measures ++ [sha3 (Config.configRecord s.storedIncarn.toNat)]
/-- A measurement block: index, DMTF measurement, and the digest as mutable firmware or, the last one, as its configuration. -/
def measureBlock (s : State) (i : Nat) : List Byte :=
  [BitVec.ofNat 8 (i + 1), 1, 35, 0, if i < s.measures.length then 1 else 3, 32, 0] ++ digestBytes (s.measureLog.getD i 0)
/-- The bytes of a random number. -/
def nonceBytes (s : State) : List Byte := (List.range 32).map (fun i => Config.freeByte (s.fresh + i))
/-- The signature of a transcript under one of the two contexts. -/
def spdmSign (s : State) (context : String) (transcript : List Byte) : List Byte :=
  let c := ascii context
  let p := ascii "dmtf-spdm-v1.3.*"
  leBytes 2420 (Config.identitySign s.fresh (p ++ p ++ p ++ p ++ List.replicate (36 - c.length) 0 ++ c ++ digestBytes (sha3 transcript))).toNat

/-- What the responder remembers after an exchange that is part of the negotiation, and after one that CHALLENGE covers. -/
def Spdm.inVca (x : Spdm) (stage : Nat) (q r : List Byte) : Spdm := ⟨stage, x.vca ++ q ++ r, [], []⟩
def Spdm.inAuth (x : Spdm) (q r : List Byte) : Spdm := { x with auth := x.auth ++ q ++ r, meas := [] }

/-- GET_VERSION: the version 1.3. A new negotiation begins. -/
def spdmVersion (q : List Byte) : List Byte × Spdm :=
  let r : List Byte := [0x10, 0x04, 0, 0, 0, 1, 0, 0x13]
  (r, ⟨1, q.take 4 ++ r, [], []⟩)
/-- GET_CAPABILITIES: certificates, challenge, signed measurements, and messages of up to 3,840 bytes (R334). -/
def spdmCapabilities (s : State) (q : List Byte) : List Byte × Spdm :=
  if q.length < 20 ∨ msgFld q 12 4 < 42 ∨ msgFld q 16 4 < msgFld q 12 4 then (spdmError 1 0, s.spdm)
  else
    let r := spdmHead 0x61 0 0 ++ [0, Config.ctExponent, 0, 0] ++ leBytes 4 0x16 ++ leBytes 4 3840 ++ leBytes 4 3840
    (r, s.spdm.inVca 2 (q.take 20) r)
/-- NEGOTIATE_ALGORITHMS: SHA3-256, and ML-DSA-44 as an extended algorithm, as far as the requester offers them. -/
def spdmAlgorithms (s : State) (q : List Byte) : List Byte × Spdm :=
  let len := msgFld q 4 2
  let na := msgFld q 28 1
  if q.length < 32 ∨ len < 32 + 4 * na + 4 * msgFld q 29 1 ∨ q.length < len then (spdmError 1 0, s.spdm)
  else
    let hash := decide (msgFld q 12 4 / 8 % 2 = 1)
    let asym := (List.range na).any (fun i => decide ((q.drop (32 + 4 * i)).take 4 = Config.extAsym.take 4))
    let spec := msgFld q 6 1 % 2
    let r := spdmHead 0x63 0 0 ++ leBytes 2 (36 + 4 * asym.toNat) ++ leBytes 1 spec ++ leBytes 1 (msgFld q 7 1 / 2 % 2 * 2) ++
      leBytes 4 (0x10 * spec) ++ leBytes 4 0 ++ leBytes 4 (8 * hash.toNat) ++ List.replicate 12 0 ++ leBytes 1 asym.toNat ++ [0, 0, 0] ++
      (if asym then Config.extAsym.take 4 else [])
    (r, s.spdm.inVca (if hash && asym then 3 else 2) (q.take len) r)
/-- GET_DIGESTS: the digest of the one chain. -/
def spdmDigests (s : State) (q : List Byte) : List Byte × Spdm :=
  let r := spdmHead 0x01 1 1 ++ digestBytes (sha3 Config.certChain)
  (r, s.spdm.inAuth (q.take 4) r)
/-- GET_CERTIFICATE: a portion of the chain of slot 0, or its size. -/
def spdmCertificate (s : State) (q : List Byte) : List Byte × Spdm :=
  let all := Config.certChain
  let off := msgFld q 4 2
  let sizeOnly := decide (msgFld q 3 1 % 2 = 1)
  if q.length < 8 ∨ msgFld q 2 1 % 16 ≠ 0 ∨ (sizeOnly = false ∧ all.length ≤ off) then (spdmError 1 0, s.spdm)
  else
    let n := if sizeOnly then 0 else min (msgFld q 6 2) (min 3832 (all.length - off))
    let rest := if sizeOnly then all.length else all.length - off - n
    let r := spdmHead 0x02 0 0 ++ leBytes 2 n ++ leBytes 2 rest ++ (all.drop off).take n
    (r, s.spdm.inAuth (q.take 8) r)
/-- CHALLENGE: signed over the negotiation, the certificates read and this exchange; with the digest of the firmware's or of all measurements where
it is asked for. -/
def spdmChallenge (s : State) (q : List Byte) : List Byte × Spdm :=
  let kind := msgFld q 3 1
  if q.length < 44 ∨ msgFld q 2 1 ≠ 0 ∨ (kind ≠ 0 ∧ kind ≠ 1 ∧ kind ≠ 255) then (spdmError 1 0, s.spdm)
  else
    let n := if kind = 1 then s.measures.length else s.measureLog.length
    let summary := if kind = 0 then [] else digestBytes (sha3 ((List.range n).flatMap (measureBlock s)))
    let body := spdmHead 0x03 0 1 ++ digestBytes (sha3 Config.certChain) ++ nonceBytes s ++ summary ++ [0, 0] ++ (q.drop 36).take 8
    (body ++ spdmSign s "responder-challenge_auth signing" (s.spdm.vca ++ s.spdm.auth ++ q.take 44 ++ body), { s.spdm with auth := [], meas := [] })
/-- GET_MEASUREMENTS: the number of blocks, one of them or all; signed, where it is asked for, over the negotiation and every such exchange since the
last signature. -/
def spdmMeasurements (s : State) (q : List Byte) : List Byte × Spdm :=
  let signed := decide (msgFld q 2 1 % 2 = 1)
  let op := msgFld q 3 1
  let total := s.measureLog.length
  let len := if signed then 45 else 12
  if q.length < len ∨ (total < op ∧ op ≠ 255) ∨ (signed = true ∧ msgFld q 36 1 % 16 ≠ 0) then (spdmError 1 0, s.spdm)
  else
    let idx := if op = 0 then [] else if op = 255 then List.range total else [op - 1]
    let rec_ := idx.flatMap (measureBlock s)
    let r := spdmHead 0x60 (if op = 0 then total else 0) 0 ++ leBytes 1 idx.length ++ leBytes 3 rec_.length ++ rec_ ++ nonceBytes s ++ [0, 0] ++
      (q.drop (len - 8)).take 8
    let seen := s.spdm.meas ++ q.take len ++ r
    if signed then (r ++ spdmSign s "responder-measurements signing" (s.spdm.vca ++ seen), { s.spdm with meas := [] })
    else (r, { s.spdm with meas := seen })

/-- The answer to a request message, and what is remembered of it. A request of another version, one that the negotiation does not allow yet, and one
that the responder does not support, every request of a secured session among them, is answered by an error. -/
def spdmRespond (s : State) (q : List Byte) : List Byte × Spdm :=
  let code := msgFld q 1 1
  if q.length < 4 then (spdmError 1 0, s.spdm)
  else if code = 0x84 then (if msgFld q 0 1 = 0x10 then spdmVersion q else (spdmError 0x41 0, s.spdm))
  else if ¬ (code = 0xE1 ∨ code = 0xE3 ∨ code = 0x81 ∨ code = 0x82 ∨ code = 0x83 ∨ code = 0xE0) then (spdmError 7 code, s.spdm)
  else if msgFld q 0 1 ≠ 0x13 then (spdmError 0x41 0, s.spdm)
  else if code = 0xE1 then (if s.spdm.stage = 1 then spdmCapabilities s q else (spdmError 4 0, s.spdm))
  else if code = 0xE3 then (if s.spdm.stage = 2 then spdmAlgorithms s q else (spdmError 4 0, s.spdm))
  else if s.spdm.stage ≠ 3 then (spdmError 4 0, s.spdm)
  else if code = 0x81 then spdmDigests s q
  else if code = 0x82 then spdmCertificate s q
  else if code = 0x83 then spdmChallenge s q
  else spdmMeasurements s q

end Sys2Proof.Machine
end

