-- ==== Sys2Proof/Machine/Firefly.lean ====
section
/-! DEFINITION. Firefly: boot, bring-up, the mailbox and the error log (spec/21_launch_management.md R330 to R335), module reset and loss of
power (R331, spec/04_memory.md R72, spec/15_causeway.md R250). -/
namespace Sys2Proof.Machine

/-! ## The mailbox (R334) -/

def mbBusy (s : State) : Bool := s.mbStat.getLsbD 17
/-- Firefly completes the request: DONE, RESULT and TAG are set and BUSY is cleared. -/
def State.mbDone (s : State) (result : Nat) : State := { s with mbStat := BitVec.ofNat 64 (fld s.mbCmd.toNat 48 16 * 2 ^ 48 + 2 ^ 16 + result * 2 ^ 8) }
def State.arg (s : State) (i : Nat) : Word := s.mbArg.get 0 i
def State.setArg (s : State) (i : Nat) (v : Word) : State := { s with mbArg := s.mbArg.set i v }
/-- Bytes of MBDATA from offset 0x100 on. -/
def State.setData (s : State) (bs : List Byte) : State :=
  { s with mbData := ((bs.take 3840).zipIdx).foldl (fun (t : Table Byte) e => t.set e.2 e.1) s.mbData }
def State.data (s : State) (n : Nat) : List Byte := (List.range n).map (fun i => s.mbData.get 0 i)
/-- A write to MBCMD starts a request; while BUSY is 1 it is ignored; a nonzero reserved field completes it at once with RESULT 2. -/
def State.mbStart (s : State) (v : Word) : State :=
  if mbBusy s then s
  else
    let s1 := { s with mbCmd := v }
    if fld v.toNat 16 32 ≠ 0 then s1.mbDone 2 else { s1 with mbStat := (s.mbStat ||| 0x20000#64) &&& ~~~0x10000#64 }
/-- The row of a command: it acts while that command is the request in progress. -/
def mbRow (cmd : Nat) (body : State → State) (s : State) : Host.Outcome State Fault Refusal :=
  .next (if mbBusy s && decide (fld s.mbCmd.toNat 0 16 = cmd) then body s else s)

/-- EVREADY (R334). Mailbox command setting EVCTL.EN on named dies: on those in service now, and on the others as they enter service. -/
def execEvready (s : State) : Host.Outcome State Fault Refusal :=
  mbRow 1 (fun s =>
    let m := fld (s.arg 0).toNat 0 4
    let s1 := { s with evready := Nat.lor s.evready m }
    ((List.range 4).foldl (fun s d => if m / 2 ^ d % 2 = 1 ∧ (s.die d).inService = true then s.modDie d (fun v => { v with evEn := true }) else s) s1).mbDone 0) s

/-- Sensor readings: their number and their values come from outside; at most as many as MBDATA holds. -/
def sensorCount (s : State) : Nat := min (Config.sensorCount s.fresh) 240
def sensorBytes (s : State) : List Byte := (List.range (sensorCount s)).flatMap (fun i => leBytes 16 (Config.sensor (s.fresh + i)).toNat)
/-- An error-log entry in 32 bytes. -/
def LogEntry.bytes (e : LogEntry) : List Byte := leBytes 8 e.unit ++ leBytes 8 e.cause ++ leBytes 8 e.addr ++ leBytes 8 e.time
/-- SENSORS (R334). Mailbox command returning sensor readings. -/
def execSensors (s : State) : Host.Outcome State Fault Refusal :=
  mbRow 2 (fun s =>
    (((s.setArg 0 (BitVec.ofNat 64 (sensorCount s))).setData (sensorBytes s)).bump 240).mbDone 0) s

/-- ERRLOG (R334). Mailbox command returning error-log entries from an index on. -/
def execErrlog (s : State) : Host.Outcome State Fault Refusal :=
  mbRow 3 (fun s =>
    let es := (s.errlog.drop (s.arg 0).toNat).take 120
    (((s.setArg 0 (BitVec.ofNat 64 es.length)).setArg 1 (BitVec.ofNat 64 s.errlog.length)).setData (es.flatMap LogEntry.bytes)).mbDone 0) s

/-- The image of a stage in a copy verifies: its signature over its digest checks against the key that the earlier stage trusts; the first key is
one whose digest the ROM holds (R330). -/
def imageGood (stage : Nat) (copy : List Byte) : Bool :=
  let key := Config.trustedKey stage
  (decide (stage ≠ 0) || decide (sha3 key = Config.romDigest)) &&
    mlDsaVerify key (digestBytes (sha3 (Config.stageImage stage copy))) (Config.stageSig stage copy)
/-- The images of copy B verify, all eight stages of them. -/
def copyGood (copy : List Byte) : Bool := (List.range 8).all (fun i => imageGood i copy)
/-- A chunk of an image is written into copy B, which is unused from then on, until the last chunk is there and the image verifies (R333, R334). -/
def State.updateChunk (s : State) (off : Nat) (bs : List Byte) (last : Bool) : State :=
  let b := s.imageB ++ List.replicate (off - s.imageB.length) 0
  let s1 := { s with imageB := b.take off ++ bs ++ b.drop (off + bs.length), updateOk := false, unusedB := true }
  if last && copyGood s1.imageB then { s1 with updateOk := true, unusedB := false } else s1
/-- UPDATE (R334). Mailbox command writing an image chunk into copy B and verifying the last. -/
def execUpdate (s : State) : Host.Outcome State Fault Refusal :=
  mbRow 4 (fun s =>
    let n := (s.arg 1).toNat
    let last := (s.arg 2).getLsbD 0
    if 3840 < n then s.mbDone 2
    else
      let s1 := s.updateChunk (s.arg 0).toNat (s.data n) last
      s1.mbDone (if last && s1.unusedB then 3 else 0)) s

/-- SPDM (R334). Mailbox command carrying one SPDM request message, replaced by the responder's answer (R335). -/
def execSpdm (s : State) : Host.Outcome State Fault Refusal :=
  mbRow 5 (fun s =>
    let n := (s.arg 0).toNat
    if 3840 < n then s.mbDone 2
    else
      let r := spdmRespond s (s.data n)
      (((({ s with spdm := r.2 } : State).setArg 0 (BitVec.ofNat 64 r.1.length)).setData r.1).bump 32).mbDone 0) s

/-- MEASURE (R334). Mailbox command returning the measurement log: the boot stages in order, then the configuration record. -/
def execMeasure (s : State) : Host.Outcome State Fault Refusal :=
  mbRow 6 (fun s =>
    let ds := s.measureLog
    ((s.setArg 0 (BitVec.ofNat 64 ds.length)).setData (ds.flatMap digestBytes)).mbDone 0) s

/-- MAILBOX_UNKNOWN_COMMAND (R334). An unlisted mailbox command completes with RESULT 1. -/
def execMailboxUnknownCommand (s : State) : Host.Outcome State Fault Refusal :=
  let c := fld s.mbCmd.toNat 0 16
  .next (if mbBusy s && decide (c = 0 ∨ 6 < c) then s.mbDone 1 else s)

/-- A request over SMBus is served (R333): the same services, with the answer in bytes, and the stages at which boot has halted (R330). -/
def State.serveSmbus (s : State) : Smbus → State
  | .sensors => ({ s with smbus := sensorBytes s } : State).bump 240
  | .errlog first => { s with smbus := (s.errlog.drop first).flatMap LogEntry.bytes }
  | .update off bs last => let s1 := s.updateChunk off bs last; { s1 with smbus := [if last && s1.unusedB then 3 else 0] }
  | .report => { s with smbus := s.reports.map (BitVec.ofNat 8) }

/-! ## Reset, boot and bring-up (R250, R330 to R332) -/

/-- What a reset leaves beside the reset state: flash, the boot images, the configuration record with its incarnation number
incremented, and the plan of the model. Firefly signs the record as it stores it, once it has found it signed as it must be (R331; execBootStage). -/
def State.restart (s : State) : State :=
  { State.reset with
    flash := s.flash, flashHurt := s.flashHurt, imageA := s.imageA, imageB := s.imageB, updateOk := s.updateOk, unusedB := s.unusedB, signer := s.signer
    incarn := s.storedIncarn + 1, storedIncarn := s.storedIncarn + 1
    plan := s.plan, pace := s.pace, fresh := s.fresh, nextId := s.nextId }
/-- MODULE_RESET (R331). Module reset sets reset state and increments the incarnation. -/
def execModuleReset (s : State) : Host.Outcome State Fault Refusal := .next s.restart

/-- POWER_LOSS (R72). The module loses power; only FLUSHOUTs already complete remain durable in flash, and the next power-up is a module
reset. -/
def execPowerLoss (s : State) : Host.Outcome State Fault Refusal := .next s.restart

/-- The copies of the images in the order in which they are tried: an update that was verified takes effect at the reset (R333), and a copy B whose
update was not verified is unused (R334). -/
def State.copies (s : State) : List (List Byte) :=
  if s.unusedB then [s.imageA] else if s.updateOk then [s.imageB, s.imageA] else [s.imageA, s.imageB]
/-- BOOT_STAGE (R330). Firefly verifies a boot stage image, falling back to its other copy; when both fail boot halts at that stage and reports it over
SMBus. Before the images of the later stages it verifies the configuration record, which neither key may have failed to sign, and signs it anew with
the identity key (R331). -/
def execBootStage (stage : Nat) (s : State) : Host.Outcome State Fault Refusal :=
  .next (if s.bootHalted ∨ s.bootStage ≠ stage then s
    else
      let halt := { s with bootHalted := true, reports := s.reports ++ [stage] }
      if stage = 1 ∧ s.signer = .other then halt
      else
        match s.copies.find? (imageGood stage) with
        | none => halt
        | some copy => { s with measures := s.measures ++ [sha3 (Config.stageImage stage copy)], bootStage := stage + 1, signer := if stage = 1 then .identity else s.signer })

/-- DIE_ENTER_SERVICE (R332). A die enters service: die 0 first, a further one with a die-reset event on its queue. Boot has passed
its eight stages (R330). -/
def execDieEnterService (die : Nat) (s : State) : Host.Outcome State Fault Refusal :=
  .next (if s.bootHalted || decide (s.bootStage ≠ 8) || (s.die die).inService || (decide (die ≠ 0) && !(s.die 0).inService) then s
    else
      let s1 := s.modDie die (fun v => { v with inService := true, evEn := v.evEn || decide (s.evready / 2 ^ die % 2 = 1) })
      if die = 0 then s1 else s1.postFree die 4 0 0)

/-- FULL_SERVICE (R332). Firefly halts die 0 by HALTCTL, raises it to 1.1 GHz, ends forced redundancy, resumes it and sets FULL. -/
def execFullService (s : State) : Host.Outcome State Fault Refusal :=
  .next (if s.bootHalted || decide (s.bootStage ≠ 8) || s.fullService || (List.range 4).any (fun d => !(s.die d).inService) then s
    else ({ s.haltctl 0 0x800 with fullService := true } : State).haltctl 0 0xC00)

/-- CORRECTED_ERROR (R315). A corrected ECC error is counted and logged by Firefly. -/
def execCorrectedError (unit cause addr : Nat) (s : State) : Host.Outcome State Fault Refusal :=
  .next { s with errlog := s.errlog ++ [⟨unit, cause, addr, s.dtime⟩] }

/-- SVCSTAT (R317). -/
def State.svcstat (s : State) : Word :=
  BitVec.ofNat 64 ((List.range 4).foldl (fun a d => a + (s.die d).inService.toNat * 2 ^ d) 0 + s.fullService.toNat * 16)

end Sys2Proof.Machine
end

