-- ==== Sys2Proof/Machine/Arrivals.lean ====
section
/-! DEFINITION. What happens when a message arrives: requests at their homes, answers at their cores, the MMIO registers, copy pieces and
channel data, pulls and releases (spec/05_tags.md R81 to R106, R339, spec/06_copies.md R114 to R120, spec/07_channels.md R131, R132, R150,
spec/08_scalar.md R168 to R170, spec/14_atomics_fences.md R233 to R239, spec/21_launch_management.md R316, R317, R334). -/
namespace Sys2Proof.Machine

/-! ## MMIO registers (R316, R317, R334) -/

/-- The 8 bytes at a multiple of 8 of the control and MMIO range. A write-only register, and an offset that has no register, read as a free
value. -/
def State.mmioDword (s : State) (la : Nat) : Word :=
  let o := la - 0x18000000000
  let m := la - 0x18000020000
  let d := la - 0x18100000000
  let free := Config.freeReg (s.fresh + la / 8 % 16)
  if 0x18100000000 ≤ la then s.readDie (d / 2 ^ 16) (d % 2 ^ 16 / 8)
  else if 0x18000020000 ≤ la then
    if m = 8 then s.mbStat
    else if 0x10 ≤ m ∧ m < 0x100 then s.arg ((m - 0x10) / 8)
    else if 0x100 ≤ m then BitVec.ofNat 64 (leNat ((List.range 8).map (fun i => s.mbData.get 0 (m - 0x100 + i))))
    else free
  else if o = 8 then s.luarm
  else if o = 0x18 then s.svcstat
  else if 0x400 ≤ o ∧ o < 0x600 then s.fltenq.get 0 ((o - 0x400) / 8)
  else if 0x600 ≤ o ∧ o < 0x800 then s.fltchan.get 0 ((o - 0x600) / 8)
  else free
/-- n bytes of the range, as one number. -/
def State.mmioRead (s : State) (la n : Nat) : Nat :=
  leNat ((List.range n).map (fun i => BitVec.ofNat 8 ((s.mmioDword ((la + i) / 8 * 8)).toNat / 2 ^ (8 * ((la + i) % 8)))))
/-- A write to the 8 bytes at a multiple of 8. -/
def State.mmioWrite (s : State) (la : Nat) (v : Word) : State :=
  let o := la - 0x18000000000
  let m := la - 0x18000020000
  let d := la - 0x18100000000
  if 0x18100000000 ≤ la then s.writeDie (d / 2 ^ 16) (d % 2 ^ 16 / 8) v
  else if 0x18000020000 ≤ la then
    if m = 0 then s.mbStart v
    else if mbBusy s then s
    else if 0x10 ≤ m ∧ m < 0x100 then s.setArg ((m - 0x10) / 8) v
    else if 0x100 ≤ m then
      { s with mbData := (List.range 8).foldl (fun (t : Table Byte) i => t.set (m - 0x100 + i) (BitVec.ofNat 8 (v.toNat / 2 ^ (8 * i)))) s.mbData }
    else s
  else if o = 0 then s.doorbell (fld v.toNat 0 8)
  else if o = 8 then s.luarmWrite v
  else if o = 0x10 then s.lupreempt v
  else if 0x400 ≤ o ∧ o < 0x600 then { s with fltenq := s.fltenq.set ((o - 0x400) / 8) v }
  else if 0x600 ≤ o ∧ o < 0x800 then { s with fltchan := s.fltchan.set ((o - 0x600) / 8) v }
  else s
/-- The registers that the bytes of a store reach, with the dwords that they then hold: bytes that the store leaves out keep their value. -/
def State.mmioDwords (s : State) (ws : List (Nat × Byte × Byte)) : List (Nat × Word) :=
  ((ws.map (fun w => w.1 / 8 * 8)).dedup).map (fun la =>
    let old := s.mmioDword la
    let bytes := (List.range 8).map (fun i =>
      let b : Byte := BitVec.ofNat 8 (old.toNat / 2 ^ (8 * i))
      match ws.find? (fun w => decide (w.1 = la + i)) with
      | some w => (b &&& ~~~w.2.1) ||| (w.2.2 &&& w.2.1)
      | none => b)
    (la, BitVec.ofNat 64 (leNat bytes)))
/-- A LUARM write waits while its queue has a packet in progress (R319). -/
def State.mmioHeld (s : State) (ws : List (Nat × Byte × Byte)) : Bool :=
  (s.mmioDwords ws).any (fun e => decide (e.1 = 0x18000000008) && (s.queue (fld e.2.toNat 56 8)).inProgress)
def State.mmioStore (s : State) (ws : List (Nat × Byte × Byte)) : State := ((s.mmioDwords ws).foldl (fun s e => s.mmioWrite e.1 e.2) s).bump 16
/-- Whole bytes at an address, as the writes of a store. -/
def byteWrites (la : Nat) (bs : List Byte) : List (Nat × Byte × Byte) := bs.zipIdx.map (fun e => (la + e.2, BitVec.allOnes 8, e.1))

/-! ## Requests at their homes (R233, R234) -/

/-- A load, store or AMO of a core of this module counts for migration (R69). -/
def State.counted (s : State) (r : Req) : State :=
  match r.src, r.rop with
  | .core c, .load pa _ _ _ | .core c, .store pa _ _ _ _ | .core c, .amo pa _ _ _ _ => s.countAccess c (paLocal pa) r.under
  | _, _ => s
/-- The first request of its source on its way to its home. -/
def State.request? (s : State) (id : Nat) : Option Req :=
  match s.inTurn id with
  | some m => (match m.body with | .req r => some r | _ => none)
  | none => none
/-- The request leaves the net, counts and is performed or held. -/
def State.performReq (s : State) (id : Nat) (r : Req) : State := ((s.take id).counted r).arriveReq r
/-- A request to an address of the MMIO range that no row of R316 names. -/
def State.refuseMmio (s : State) (id : Nat) (r : Req) : State := (s.take id).reply r (.trap ⟨.prot, r.va, 0, 0⟩)

/-- LOAD_PERFORM (R233). A load request is performed at its home once its tag row lets it proceed; so is a TAG request of another core. -/
def execLoadPerform (id : Nat) (s : State) : Host.Outcome State Fault Refusal :=
  .next <| match s.request? id with
  | none => s
  | some r =>
    match r.rop with
    | .load pa n _ _ =>
      if !r.home.isMmio then s.performReq id r
      else if !mmioNamed (paLocal pa) then s.refuseMmio id r
      else ((s.take id).reply r (.vals [BitVec.ofNat 1024 (s.mmioRead (paLocal pa) n)])).bump 16
    | .tag _ _ _ _ => s.performReq id r
    | _ => s

/-- STORE_PERFORM (R169). A store is performed at its home and acknowledged. -/
def execStorePerform (id : Nat) (s : State) : Host.Outcome State Fault Refusal :=
  .next <| match s.request? id with
  | none => s
  | some r =>
    match r.rop with
    | .store pa _ ws _ _ =>
      if !r.home.isMmio then s.performReq id r
      else if !mmioNamed (paLocal pa) then s.refuseMmio id r
      else if s.mmioHeld ws then s
      else ((s.take id).mmioStore ws).ack r
    | _ => s

/-- AMO_PERFORM (R238). An AMO or no-return reduction is performed at its home in one step; one at IOEPNEW has rows of its own. -/
def execAmoPerform (id : Nat) (s : State) : Host.Outcome State Fault Refusal :=
  .next <| match s.request? id with
  | none => s
  | some r =>
    match r.rop with
    | .amo pa f _ _ _ =>
      if !r.home.isMmio then s.performReq id r
      else if f = 8 ∧ isIoepnew (paLocal pa) = true then s else s.refuseMmio id r
    | _ => s

/-- The module of a merge hears that it is performed (R236). -/
def State.merged (s : State) (src : Src) (who op : Nat) : State :=
  match src with
  | .remote m p => s.tell m p who 0 (.farEnd who op 0)
  | _ => s.farOver who op
/-- ABSMAX_MERGE (R228). DRAIN's absmax signed-max merge is performed at its home as an AMO is: it counts (R69), and one that waits keeps its
place (R80). -/
def execAbsmaxMerge (id : Nat) (s : State) : Host.Outcome State Fault Refusal :=
  .next <| match s.inTurn id with
  | some m =>
    (match m.body with
    | .absmax pa v who op core va pc dest u =>
      let la := paLocal pa
      let ts := touchedTiles la 8
      if s.migrating la || (decide (placeOf la = .hbm) && s.hbmLent la 8) then s.queueEngine m [] .store
      else match s.touchAll .store ts with
        | (s1, false) => s1.queueEngine m ts .store
        | (s1, true) =>
          if !s1.atTurn ts (.msg id) then s1.queueEngine m ts .store
          else
            let s2 := match m.src with
              | .remote _ _ => s1.take id
              | _ => (s1.take id).countAccess core la u
            if s2.hurt la 8 then (s2.mergeRefused m.src who op core u.asid va pc dest 0x10).settle
            else
              let old : Word := BitVec.ofNat 64 (s2.view la 8)
              let r : Req := ⟨id, m.src, who, op, m.dst, .amo pa 2 v 0 false, va, u, false, false, none, pc, 0, false, false⟩
              (((({ s2 with mem := s2.mem.writeMasked (storeWrites la 8 (amoNew 2 old v).toNat) } : State).watchWrite r ts).merged m.src who op)).settle
    | _ => s)
  | none => s

/-! ## Answers at the core (R168, R170) -/

/-- A store or reduction is acknowledged. -/
def State.acked (s : State) (pk op : Nat) : State :=
  let p := s.proc pk
  let s1 := s.setProc pk { p with unacked := p.unacked.filter (fun u => u.op != op) }
  if p.state = .blocked ∧ p.on = op ∧ p.why = 0 then s1.wake pk else s1
/-- The trap of an answer, whose TRAPINFO is the VA of the load where its home did not know it: the refusal of a travel packet. -/
def State.named (s : State) (pk op : Nat) (t : Trap) : Trap :=
  match (s.proc pk).outs.find? (fun o => decide (o.id = op)) with
  | some o => if o.kind = .load ∧ t.info = 0 then { t with info := o.va } else t
  | none => t

/-- LOAD_COMPLETE (R168). A load's value reaches the issuing core and is written to its destination; so is the value, or the trap, of every
other operation. A store that another module refuses, or that meets an uncorrectable error there, leaves a record (R170, R257); one whose pull is
abandoned makes its process trap ECC when it next issues, and waits while another trap pends (R339). -/
def execLoadComplete (id : Nat) (s : State) : Host.Outcome State Fault Refusal :=
  .next <| match s.inTurn id with
  | some m =>
    (match m.body with
    | .answer pk op a =>
      let p := s.proc pk
      let s1 := (s.take id).unsend op
      let store := p.unacked.any (fun u => decide (u.op = op))
      (match a with
      | .vals vs => if store then s1.acked pk op else s1.done pk op vs
      | .trap t =>
        if store && decide (t.cls = 8) then
          if p.pend.isSome then s.stay id
          else ((s1.acked pk op).modProc pk (fun p => { p.settled with pend := some { t with cls := 0 } })).synced pk
        else if store then ((s.storeLost (s.originWord pk) op t.cause).take id).unsend op |>.acked pk op
        else (s1.failed pk op (s.named pk op t)).farOver (s.originWord pk) op)
    | _ => s)
  | none => s

/-- STORE_ACKNOWLEDGE (R170). An acknowledgement reaches the issuing core and releases waiting ordering; so does the end of a transfer or a merge
that another module performed (R236). -/
def execStoreAcknowledge (id : Nat) (s : State) : Host.Outcome State Fault Refusal :=
  .next <| match s.inTurn id with
  | some m =>
    (match m.body with
    | .ack pk op =>
      let s1 := (s.take id).unsend op
      if (s.proc pk).unacked.any (fun u => decide (u.op = op)) then s1.acked pk op else s1.done pk op []
    | .farEnd pk op code =>
      let s1 := if code = 0 then s.take id else (s.take id).mergeLost op code
      (s1.unsend op).farOver (s.originWord pk) op
    | _ => s)
  | none => s

/-- HOLD_NOTICE (R170). A home's notice that a store waits on a LENT tile blocks the process; while it is BLOCKED or SLEEPING already the notice
waits for it. -/
def execHoldNotice (id : Nat) (s : State) : Host.Outcome State Fault Refusal :=
  .next <| match s.inTurn id with
  | some m =>
    (match m.body with
    | .hold pk op edge =>
      let p := s.proc pk
      if op = 0 then
        -- the number of a guest's batch, from the die that posted it (R305)
        (s.take id).modProc pk (fun p => match p.batch with
          | some (256, va) => { p with batch := some (fld edge.toNat 0 8, va), wait := edge }
          | _ => p)
      else if !(p.unacked.any (fun u => decide (u.op = op)) || p.outs.any (fun o => decide (o.id = op))) then s.take id
      else match p.state with
        | .running | .ready | .parked => (s.take id).block pk 0 edge op
        | .blocked | .sleeping => s.stay id
        | _ => s.take id
    | _ => s)
  | none => s

/-- PROMOTION_NOTICE (R235). A home's promotion notice makes the core wait for remote stores before releasing: while an earlier store of the
process to another module is unacknowledged, the notice waits at the core; then the release leaves. -/
def execPromotionNotice (id : Nat) (s : State) : Host.Outcome State Fault Refusal :=
  .next <| match s.inTurn id with
  | some m =>
    (match m.body with
    | .promote pk op o =>
      let us := (s.proc pk).unacked
      -- stores stand in the order in which they were sent; those that came with a travelled process have numbers of its earlier module
      let before := if us.any (fun u => decide (u.op = op)) then us.takeWhile (fun u => u.op != op) else us.filter (fun u => decide (u.op < op ∨ 2 ^ 64 ≤ u.op))
      if before.any (fun u => match u.home with | .remote _ => true | _ => false) then s.stay id
      else (s.take id).send (.core (coreOf pk)) m.src.home (.promoted o)
    | _ => s)
  | none => s

/-- PROMOTED_RELEASE (R235). The core releases a held STL or send after its remote stores are acknowledged. -/
def execPromotedRelease (id : Nat) (s : State) : Host.Outcome State Fault Refusal :=
  .next <| match s.inTurn id with
  | some m =>
    (match m.body with
    | .promoted o =>
      let s1 := s.take id
      if s1.held.any (fun r => decide (r.id = o)) then
        ({ s1 with held := s1.held.map (fun (r : Req) => if r.id = o then { r with released := true } else r) } : State).settle
      else match s1.xfer o with
        | some x => if x.promoted then (s1.modXfer o (fun x => { x with promoted := false })).beginXfer { x with promoted := false } else s1
        | none => s1
    | _ => s)
  | none => s

/-! ## Park slots and limits (R85 to R87) -/

/-- PARK_RETRY (R85). A request returned for lack of park slots is sent again after 64 cycles; to another module as a new request of its stream. -/
def execParkRetry (id : Nat) (s : State) : Host.Outcome State Fault Refusal :=
  .next <| match s.msg id with
  | some m =>
    (match m.body with
    | .retry r t =>
      let pk := s.keyOf r.who
      let asid := (s.proc pk).asid
      if s.cycles (dieOfCore (coreOf pk)) (s.dtime - t) < 64 then s
      else match r.home with
        | .remote k => (s.take id).sendAway (coreOf pk) r.who k asid (s.askey.get 0 asid) (.req r)
        | h => (s.take id).send r.src h (.req r)
    | _ => s)
  | none => s

/-- The limit of a request has passed since its first arrival, in cycles of its home's clock (R86). A halted core takes the expiry when issue
resumes (R310). -/
def State.limitPassed (s : State) (r : Req) : Bool :=
  let die := match r.home with | .core n => dieOfCore n | .scarab n => n / 32 | _ => 0
  let halted := decide (s.moduleOf r.who = s.modid) && (s.core (coreOf (s.keyOf r.who))).halted
  match r.arrived with
  | some t => decide (r.limit ≠ 0 ∧ r.limit ≤ s.cycles die (s.dtime - t)) && !halted
  | none => false
/-- SYNC_LIMIT_EXPIRE (R87). A remote synchronising wait exceeds LIMIT, is withdrawn and traps SYNC-LIMIT. A returned attempt counts too. -/
def execSyncLimitExpire (id : Nat) (s : State) : Host.Outcome State Fault Refusal :=
  let t (r : Req) : Answer := .trap ⟨.syncLimit, r.va, 0, 0⟩
  .next <| match s.held.find? (fun r => decide (r.id = id)), s.msg id with
  | some r, _ => if s.limitPassed r then (({ s with held := s.held.filter (fun h => h.id != id) } : State).reply r (t r)).settle else s
  | none, some m =>
    (match m.body with
    | .retry r _ => if s.limitPassed r then (s.take id).reply r (t r) else s
    | _ => s)
  | none, none => s

/-- WATCH_EVENT_MESSAGE (R92). A watch-event message sets the holder's event and ready bit; it follows a holder that has moved on (R91). -/
def execWatchEventMessage (id : Nat) (s : State) : Host.Outcome State Fault Refusal :=
  .next <| match s.inTurn id with
  | some m =>
    (match m.body with
    | .watchEvent who =>
      let k := s.moduleOf who
      if k = s.modid then (s.take id).setEvent (s.keyOf who) else (s.take id).tell k m.src.port who 0 (.watchEvent who)
    | _ => s)
  | none => s

/-! ## Lends (R99 to R103) -/

/-- The lender's count falls by n; a pull clears the pristine bit. At zero every source tile moves from LENT to FULL and the record is freed,
with the others of an HBM range (R101). -/
def State.lendDown (s : State) (id n : Nat) (pull : Bool) : State :=
  match s.lendOf id with
  | none => s
  | some l =>
    let s1 := s.modLend id (fun l => { l with outstanding := l.outstanding - n, pristine := l.pristine && !pull })
    if n < l.outstanding then s1
    else
      let s2 := if l.hbm then s1 else (touchedTiles l.src l.len).foldl (fun s t => (s.applyRow .lendReleased t.1 t.2).1) s1
      ({ s2 with
        cores := s2.cores.map (fun (k : Nat × Core) => (k.1, { k.2 with lends := k.2.lends.filter (fun x => x.id != id) }))
        lendsHbm := s2.lendsHbm.filter (fun e => e.2.id != id) } : State).settle

/-- LEND_RELEASE_MESSAGE (R101). A pull or release lowers the lender's count; at zero the source tiles return to FULL. -/
def execLendReleaseMessage (id : Nat) (s : State) : Host.Outcome State Fault Refusal :=
  .next <| match s.inTurn id with
  | some m =>
    (match m.body with
    | .lendRelease lend n pull => (s.take id).lendDown lend n pull
    | _ => s)
  | none => s

/-- RELINK (R103). A relink message moves a lend to a new holder; the pulls that wait for it are then served. -/
def execRelink (id : Nat) (s : State) : Host.Outcome State Fault Refusal :=
  .next <| match s.inTurn id with
  | some m =>
    (match m.body with
    | .relink lend holder => (s.take id).modLend lend (fun l => { l with holder := holder })
    | _ => s)
  | none => s

/-- A pull into a tile is over: no record counts it as in flight any more. -/
def State.pullOver (s : State) (core tile : Nat) : State :=
  s.modCore core (fun k => { k with marks := k.marks.map (fun e => (e.1, { e.2 with pulling := e.2.pulling.filter (fun t => t.1 != tile) })) })

/-! ## Transfers of channels (R131, R132, R137) -/

/-- The streamer at a home, as a sender: it is another source than the core there (R234). -/
def Home.streamer : Home → Src
  | .core n => .streamer n
  | h => h.src
/-- An answer to a message goes to a home: to the module that sent it by the plane that carried it (R251). -/
def State.sendBack (s : State) (via src : Src) (dst : Home) (b : Body) : State :=
  match via, dst with
  | .remote k p, .remote j => if j = k then s.tell k p 0 0 b else s.send src dst b
  | _, _ => s.send src dst b
/-- Bytes go to the home of a physical address: as an arrival of the tile there. -/
def State.pushTo (s : State) (via src : Src) (pa : Nat) (bytes : List Byte) (who : Claimant) : State :=
  match placeOf (paLocal pa) with
  | .scratch k off => s.sendBack via src (s.homeOf pa) (.push k ((tileAt (inWindow off)).getD 0) bytes who)
  | _ => s.sendBack via src (s.homeOf pa) (.pushMem pa bytes who)
/-- A delivery into a ring slot has nobody who waits for it: it is over when its source has been read and the slot is full, which come in either order
(R131, R132). -/
def State.ringDone (s : State) (id : Nat) : State :=
  match s.xfer id with
  | some x =>
    if x.core < 1536 ∧ x.recv.isNone = true ∧ x.n ≤ x.read ∧ x.n ≤ x.done then
      let s1 := s.dropXfer x.id
      ((if tyClass (s.xferType x) = 2 then s1 else s1.farDone x).kickRing x.core x.slot).releaseHeld x.core x.slot
    else s
  | none => s
/-- A tile of a transfer has been read. With the last one the sender completes, that of a reference to an eager tensor excepted, and a receive from a
ring frees its slot (R131, R132). -/
def State.xferCount (s : State) (x : Xfer) : State :=
  let s1 := s.modXfer x.id (fun y => { y with read := x.read + 1 })
  if x.read + 1 < x.n then s1
  else
    let s2 := match x.send with
      | some o => if o.eager && x.recv.isNone then s1 else s1.chanAnswer o (.vals [])
      | none => s1
    if x.fromRing then s2.popRing x.core x.slot else s2.ringDone x.id
/-- A unit has a further tile of a SENDT (R139). -/
def State.unitData (s : State) (x : Xfer) (bytes : List Byte) : State :=
  let y := { x with read := x.read + 1, data := x.data ++ bytes }
  if y.read < y.n then (s.modXfer x.id (fun _ => y)).xferNext y y.read
  else
    let u := s.unit x.slot
    let s1 := ((s.dropXfer x.id).farDone x).setUnit x.slot { u with outq := u.outq ++ [y.data] }
    (match x.send with | some o => s1.chanAnswer o (.vals []) | none => s1).kickUnit x.slot
/-- What stands at the head of a ring of words or of lend references has been read. -/
def State.ringHead (s : State) (x : Xfer) (bytes : List Byte) : State :=
  if tyClass (s.xferType x) = 0 then (s.modXfer x.id (fun y => { y with read := 1, data := bytes, done := y.n })).popRing x.core x.slot
  else
    let o := (s.ep x.core (x.slot + 1)).refs.head?
    let y := { x with send := o, read := 0 }
    let s1 := (s.modXfer x.id (fun _ => y)).popRing x.core x.slot
    match o with
    | some q => s1.deferStep y q
    | none => s1
/-- The bytes of a tile of a transfer of this module are there. -/
def State.xferData (s : State) (via src : Src) (x : Xfer) (idx : Nat) (bytes : List Byte) : State :=
  if x.core = 1536 ∧ x.send.isSome = true then s.unitData x bytes
  else if x.fromRing ∧ tyClass (s.xferType x) ≠ 1 then s.ringHead x bytes
  else (s.pushTo via src (x.dst + idx * x.tile) bytes (.transfer s.modid x.core x.id idx)).xferCount x
/-- The VA that a struck tile of a transfer's source has: in the operand of the sender; of a ring slot, in the local view of the channel home (log
79). -/
def Xfer.hurtVa (x : Xfer) (idx : Nat) : Word :=
  match x.send with
  | some o => if x.fromRing then o.va else o.va + BitVec.ofNat 64 (idx * x.tile)
  | none => BitVec.ofNat 64 (0xF0000000000000 + (paLocal x.src + idx * x.tile - scratchBase) % 2 ^ 24)
/-- A tile of a transfer could not be read (R137, R300): the CAUSE 0x10, or 0x0E where the limit of an eager re-send has passed. Where another message
of the ring stands behind it the delivery goes on with free bytes. -/
def State.xferHurt (s : State) (x : Xfer) (idx code : Nat) : State :=
  let t : Trap := if code = 0x0E then ⟨.chanTimeout, (match x.send with | some o => o.handle | none => 0), 0, 0⟩ else ⟨.ecc, x.hurtVa idx, 0, 0⟩
  match s.failXfer x t with
  | some s1 => (if x.core < 1536 then s1.releaseHeld x.core x.slot else s1.kickUnit x.slot).settle
  | none => (s.bump x.tile).xferData (.core x.core) (.core x.core) x idx ((List.range x.tile).map (fun i => Config.freeByte (s.fresh + i)))
/-- A tile that the channel home itself delivers: of a message of a unit, a word, or a lend reference, whose bytes have no meaning. What a message
does not fill is free. -/
def State.xferOwn (s : State) (x : Xfer) (idx : Nat) : State :=
  let free (n : Nat) : List Byte := (List.range n).map (fun i => Config.freeByte (s.fresh + i))
  if x.core = 1536 then
    let m := (x.data.drop (idx * x.tile)).take x.tile
    (s.bump (x.tile - m.length)).xferData .launchUnit .launchUnit x idx (m ++ free (x.tile - m.length))
  else if tyClass (s.xferType x) = 2 then (s.bump 64).xferData (.core x.core) (.core x.core) x idx (free 64)
  else s.xferData (.core x.core) (.core x.core) x idx (wordBytes (match x.send with | some o => o.val | none => 0) ++ List.replicate 56 0)

/-! ## Streamers (R114, R120, R125) -/

/-- The claimant has no use for what a streamer would read: its piece has been abandoned or withdrawn, or its transfer is over. -/
def State.useless (s : State) (who : Claimant) : Bool :=
  match who with
  | .piece m k cid idx => decide (m = s.modid) && !(match s.copyOf k cid with | some c => c.active.any (fun z => decide (z.idx = idx ∧ z.stage = 3)) | none => false)
  | .transfer m _ id _ => decide (m = s.modid) && (s.xfer id).isNone
  | .pull _ => false
/-- What a streamer has read goes to its destination; the home of a transfer hears of it. The streamer is a source of its own: no order holds between
its pushes and what its core asks for (R234). -/
def State.bulkRead (s : State) (m : Msg) (b : Bulk) (bytes : List Byte) : State :=
  let me := m.dst.streamer
  match b.who with
  | .transfer k c id idx =>
    if k = s.modid then (match s.xfer id with | some x => s.xferData m.src me x idx bytes | none => s)
    else if b.dst = 0 then s.sendBack m.src me (.remote k) (.push c idx bytes b.who)
    else (s.pushTo m.src me b.dst bytes b.who).tell k m.src.port 0 0 (.xferStep id idx 1 .empty)
  | _ => s.pushTo m.src me b.dst bytes b.who
/-- A streamer could not read (R116, R137, R339). -/
def State.bulkFailed (s : State) (m : Msg) (b : Bulk) (code : Nat) : State :=
  match b.who with
  | .transfer k _ id idx =>
    if k ≠ s.modid then s.tell k m.src.port 0 0 (.xferStep id idx code .empty)
    else (match s.xfer id with | some x => s.xferHurt x idx code | none => s)
  | _ => s.pieceResult m.src 0 0 b.who code true
/-- A streamer's read by the LDP row, of a ring slot by the LDX row; what waits keeps its place (R80). The copy source requests of this module's cores
count (R69). -/
def State.streamRead (s : State) (m : Msg) (b : Bulk) : State :=
  let la := paLocal b.src
  if s.useless b.who then (s.take m.id).settle
  else if !s.isFirst m || s.pieceBefore m then s
  else if b.sum then
    -- the source accumulator tile stays FULL (R120)
    let t := tileOfPa b.src
    let d := tileOfPa b.dst
    let a := s.acc t.1 (t.2 - 2560)
    if a.tag ≠ .full ∨ s.atTurn [t] (.msg m.id) = false then s.queueEngine m [t] .sync
    else if a.ecce ∨ s.hurt (tileAddr t.1 t.2) 0x2800 = true then ((s.take m.id).bulkFailed m b 0x10).settle
    else ((s.take m.id).sendBack m.src m.dst.streamer (s.homeOf b.dst) (.accum d.1 (d.2 - 2560) a b.who)).settle
  else if placeOf la = .mmio then ((s.take m.id).bump 16).bulkRead m b (leBytes b.n (s.mmioRead la b.n))
  else if s.migrating la then s.queueEngine m [] .sync
  else
    let ts := touchedTiles la b.n
    let row : TagEvent := if b.ldx then .ldx else .sync
    match s.touchAll row ts with
    | (s1, false) => s1.queueEngine m ts row
    | (s1, true) =>
      if !s1.atTurn ts (.msg m.id) then s1.queueEngine m ts row
      else if s1.hurt la b.n then ((s1.take m.id).bulkFailed m b 0x10).settle
      else
        let s2 := if b.ldx then ts.foldl (fun s t => (s.applyRow .ldx t.1 t.2).1) (s1.take m.id) else s1.take m.id
        let s3 := match m.src with
          | .copyUnit c => if b.under.len = 0 then s2 else s2.countAccess c la b.under
          | _ => s2
        (s3.bulkRead m b (s1.mem.bytes la b.n)).settle
/-- STREAMER_READ (R114). A streamer reads a piece's source by the LDP row and pushes it; it reads the tiles of channel transfers too (R131), and gives
up a read of an eager re-send whose limit has passed while it waits (R104). -/
def execStreamerRead (id : Nat) (s : State) : Host.Outcome State Fault Refusal :=
  .next <| match s.msg id with
  | some m =>
    (match m.body with
    | .stream b => s.streamRead m b
    | .xferRead xid idx => (match s.inTurn id, s.xfer xid with
      | none, _ => s
      | some _, none => s.take id
      | some _, some x => ((s.take id).xferOwn x idx).settle)
    | .unread (.transfer k c xid _) =>
      if !s.isFirst m then s else
      let mine (x : Msg) : Bool := (match x.body with
        | .stream b => (match b.who with | .transfer k1 c1 i _ => decide (k1 = k ∧ c1 = c ∧ i = xid) | _ => false)
        | _ => false) && s.queuedEngine x.id
      (match s.net.find? mine with
      | some x => (match x.body with
        | .stream b => (((s.take id).take x.id).bulkFailed x b 0x0E).settle
        | _ => s.take id)
      | none => s.take id)
    | .unread _ => s.take id
    | _ => s)
  | none => s

/-! ## Arrivals (R81, R82) -/

/-- The claim of an arrival of another module is over. -/
def State.dropClaim (s : State) (who : Claimant) : State := { s with claims := s.claims.filter (fun x => x.1 != who) }
/-- A transfer of this module has a further tile in place. -/
def State.xferPlaced (s : State) (x : Xfer) : State :=
  (s.modXfer x.id (fun y => { y with done := y.done + 1 })).ringDone x.id
/-- The data of an arrival is in place: whoever claimed it goes on, and a pull lowers its lender's count (R100). -/
def State.landed (s : State) (src : Src) (core tile : Nat) (who : Claimant) : State :=
  match who with
  | .piece _ _ _ _ => (s.dropClaim who).pieceResult src 0 0 who 1 false
  | .transfer m _ id idx =>
    if m ≠ s.modid then (s.dropClaim who).tell m src.port 0 0 (.xferStep id idx 2 .empty)
    else (match s.xfer id with | some x => s.xferPlaced x | none => s)
  | .pull lend => (s.pullOver core tile).send (.core core) src.home (.lendRelease lend 1 true)
/-- The claim for which a push comes still stands: it has not been given back. -/
def State.claimStands (s : State) (core tile : Nat) (who : Claimant) : Bool :=
  match who with
  | .piece m k cid idx => if m = s.modid then !s.useless (.piece m k cid idx) else s.claims.any (fun x => decide (x.1 = who ∧ x.2.1 = core ∧ x.2.2.1 = tile))
  | .transfer m _ id _ => if m = s.modid then (s.xfer id).isSome else decide (core = 1536) || s.claims.any (fun x => decide (x.1 = who ∧ x.2.1 = core ∧ x.2.2.1 = tile))
  | .pull _ => decide (s.tag core tile = .pending)
/-- A claimant without what its number makes needless. -/
def Claimant.bare : Claimant → Claimant
  | .transfer m _ id idx => .transfer m 0 id idx
  | c => c
/-- A claim that another module has taken or asked for is given back (R116, R136, R137). -/
def State.giveClaim (s : State) (who : Claimant) : State :=
  let asks (r : Req) : Bool := match r.rop with | .claim _ _ c | .claimMem _ _ c => decide (c.bare = who.bare) | _ => false
  let s1 : State := { s with held := s.held.filter (fun r => !asks r), net := s.net.filter (fun m => match m.body with | .req r => !asks r | _ => true) }
  (match s1.claims.find? (fun (x : Claimant × Nat × Nat × Tag) => decide (x.1.bare = who.bare)) with
  | some (w, c, t, prior) => (if s1.tag c t = Tag.pending then s1.setTag c t (if prior = Tag.via then Tag.empty else prior) else s1).dropClaim w
  | none => s1).settle
/-- A piece of this module that is still at work. -/
def State.pieceOfClaim (s : State) (core cid idx : Nat) : Option Piece := (s.copyOf core cid).bind (fun c => c.active.find? (fun z => decide (z.idx = idx)))

/-- ARRIVAL_CLAIM (R82). An arrival claims a destination tile at its home by the Arrival-claims row; the steps of a lend, and of the
installation of a waymark, that come from another module are performed here too, what another module says of a claim, and what it gives back. -/
def execArrivalClaim (id : Nat) (s : State) : Host.Outcome State Fault Refusal :=
  .next <| match s.inTurn id with
  | some m =>
    (match m.body with
    | .pieceEnd core cid idx 0 _ prior =>
      let who : Claimant := .piece s.modid core cid idx
      let s1 := (s.take id).unsendPiece who false
      if (s.pieceOfClaim core cid idx).any (fun z => decide (z.stage = 1 ∨ z.stage = 6)) then s1.claimed who prior
      else s1.tell m.src.module m.src.port 0 0 (.unclaim 0 0 who prior)
    | .xferStep xid idx 0 prior =>
      (match s.xfer xid with
      | some x => (s.take id).claimed (.transfer s.modid x.core xid idx) prior
      | none => (s.take id).tell m.src.module m.src.port 0 0 (.unclaim 0 0 (.transfer s.modid 0 xid idx) prior))
    | .unclaim _ _ c _ => (s.take id).giveClaim c
    | .unlend core tiles lend => (s.take id).giveBack core tiles lend
    | .req r => (match r.rop with
        | .claim .. | .claimMem .. | .lendOpen .. | .lendTile .. | .mark .. | .markOpen .. | .install .. => (s.take id).arriveReq r
        | _ => s)
    | _ => s)
  | none => s

/-- A shoot-down has called something back from another module, and it waits there no more: a piece is sent again under a new translation, and its claim
stands (R115); a channel operation needs none (R145). -/
def State.withdrawn (s0 : State) (w : Recalled) : State :=
  let s : State := { s0 with recalls := s0.recalls.filter (fun x => x != w) }
  match w with
  | .piece core cid idx =>
    let who : Claimant := .piece s.modid core cid idx
    let s1 : State := { s with sent := s.sent.filter (fun p => match p.body with | .stream b => b.who != who | _ => true) }
    let sum := (s1.copyOf core cid).any (fun c => decide (c.form = 2 ∨ c.form = 4))
    s1.modPiece core cid idx (fun z => if z.stage = 3 then
      { z with stage := if (touchedTiles (paLocal z.dpa) 1).isEmpty || sum then 0 else 2, spa := 0, str := Under.none } else z)
  | .chan who op => s.modProc (s.keyOf who) (fun p => { p with outs := p.outs.map (fun (o : OutOp) => if o.id = op then { o with under := Under.none } else o) })

/-- ARRIVAL_COMPLETE (R81). An arrival's data is written whole and the tile becomes FULL; bytes without tags are written in one step. The pushes of a
streamer to one home come in order, and so do the pieces of a core between two homes (R125, R234). -/
def execArrivalComplete (id : Nat) (s : State) : Host.Outcome State Fault Refusal :=
  .next <| match s.inTurn id with
  | some m =>
    (match m.body with
    | .push core tile bytes who =>
      if s.pieceBefore m then s
      else if !s.claimStands core tile who then s.take id
      else if core = 1536 then (match who with
        | .transfer _ _ xid _ => (match s.xfer xid with | some x => ((s.take id).unitData x bytes).settle | none => s.take id)
        | _ => s.take id)
      else
        let la := tileAddr core tile
        let s1 := (({ (s.take id) with mem := s.mem.writeBytes la bytes } : State).heal la bytes.length).setTag core tile .full
        (s1.landed m.src core tile who).settle
    | .pushMem pa bytes who =>
      let la := paLocal pa
      if s.pieceBefore m then s
      else if s.migrating la || (decide (placeOf la = .hbm) && s.hbmLent la bytes.length) then s.queueEngine m [] .store
      else if placeOf la = .mmio then
        if s.mmioHeld (byteWrites la bytes) then s else (((s.take id).mmioStore (byteWrites la bytes)).landed m.src 0 0 who).settle
      else ((({ (s.take id) with mem := s.mem.writeBytes la bytes } : State).heal la bytes.length).landed m.src 0 0 who).settle
    | .pieceEnd core cid idx code atSource _ =>
      let who : Claimant := .piece s.modid core cid idx
      if code = 0 then s
      else if code = 2 then (s.take id).modPiece core cid idx (fun z => if z.stage = 1 then { z with stage := 6 } else z)
      else ((s.take id).unsendPiece who true).pieceResult m.src 0 0 who code atSource
    | .xferStep xid idx code _ =>
      (match s.xfer xid with
      | none => if code = 0 then s else s.take id
      | some x =>
        if code = 0 then s
        else if code = 1 then (s.take id).xferCount x
        else if code = 2 then (s.take id).xferPlaced x
        else (s.take id).xferHurt x idx code)
    | .recalled w none => (s.take id).withdrawn w
    | _ => s)
  | none => s

/-! ## Pulls (R100, R339) -/

/-- The row of an event at VIA is a pull (R82). -/
def TagEvent.touches (e : TagEvent) : Bool := decide (e.row .via = .pull)
/-- The request is one that touches its tile: its row at VIA is a pull (R82). -/
def Req.touches (r : Req) : Bool :=
  match r.rop with
  | .load .. | .amo .. | .lendTile .. => true
  | .store _ _ _ stx _ => !stx
  | .tag f _ _ _ => decide (f = 1 ∨ f = 3 ∨ f = 7)
  | _ => false
/-- An instruction whose request waits on an abandoned pull traps ECC; of a store that its core counts as unacknowledged the answer says so with the
class 8 (R339). -/
def State.failTouch (s : State) (r : Req) : State :=
  let t : Trap := ⟨.ecc, r.va, 0, 0⟩
  match r.rop with
  | .store _ _ _ false _ | .amo _ _ _ _ false => s.reply r (.trap { t with cls := 8 })
  | .lendTile k x c slot => s.stepDone r c slot (2 ^ 24 + k * 4096 + x) (.trap t)
  | _ => s.reply r (.trap t)
/-- A macro-operation that waits on an abandoned pull ends as if it had read an uncorrectable error (R230, R339). -/
def State.abandonTop (s : State) (core : Nat) (t : TileOp) (tile : Nat) : State :=
  let o := tileOff tile
  let s0 := s.modProc t.pk (fun p => { p with savedOps := p.savedOps.filter (fun x => x.id != t.id) })
  if t.sub = 2 then s0.failTop core t ⟨.ecc, localVa o, 0, 0⟩
  else if t.packs then ((s0.topRecord core t o (localVa t.dst.1)).unclaim core t.dstTiles t.prior).finishTop core t [] 0
  else if t.sub = 3 then (s0.topRecord core t o t.b).finishTop core t [] 0
  else
    let a := s0.acc core t.acc
    let a1 := ({ a with ecce := true, tag := .full } : Acc).addCells s.fresh (fun _ => 0)
    (((s0.modAcc core t.acc (fun _ => a1)).bump 1024).topRecord core t o (localVa (accOff t.acc))).finishTop core t [] t.flags
/-- An engine that waits on an abandoned pull is abandoned (R116, R339): with its message, or with its completion tile, which then is never set. Processes
and macro-operations are abandoned as such. -/
def State.failEngine (s : State) (core tile : Nat) (w : Waiter) : State :=
  let addr : Word := localVa (tileOff tile)
  match w with
  | .msg id => (match s.msg id with
    | some m => (match m.body with
      | .stream b => (s.take id).bulkFailed m b 0x10
      | .absmax _ _ who op c va pc dest u => (s.take id).mergeRefused m.src who op c u.asid va pc dest 0x10
      | .accum _ _ _ who => (s.take id).pieceResult m.src 0 0 who 0x10 false
      | _ => s)
    | none => s)
  | .copy c id => (match s.copyOf c id with
    | some x => ((s.engineFault (dieOfCore c) x.asid x.who 0x10 0 x.form 0 0 x.pc addr addr 0).dropCopy c id)
    | none => s)
  | .flash id => (match s.borer.find? (fun f => decide (f.id = id)) with
    | some f => (s.engineFault (dieOfCore core) f.asid f.who 0x10 0 f.form 0 0 f.pc addr addr f.word).flashOver f
    | none => s)
  | .proc _ | .top _ _ => s
/-- What a process itself waits for at the tile: the next read of a word in progress, a tile guard of an ALT (R339). -/
def State.failProc (s : State) (core tile pk : Nat) : State :=
  let p := s.proc pk
  let s1 := match p.polls with
    | some (va, ts) => if ts.contains (core, tile) then ((s.modProc pk (fun p => { p.settled with pend := some ⟨.ecc, va, 0, 0⟩ })).wake pk).synced pk else s
    | none => s
  match p.multi with
  | some m =>
    let list := m.args.drop 1
    let hit (i : Nat) : Bool := decide (guardKind list i = 2) && decide (s.guardTile pk (guardVal list i) = some (core, tile))
    (match (if m.form = 0 then none else (List.range (list.length / 2)).find? hit) with
    | some i => s1.failed pk m.op ⟨.ecc, guardVal list i, 0, 0⟩
    | none => s1)
  | none => s1
/-- What waits at a tile whose pull is abandoned (R339). -/
def State.failWaiters (s : State) (core tile : Nat) : State :=
  let here (r : Req) : Bool := r.tiles.contains (core, tile)
  let bad := s.held.filter (fun r => here r && r.touches)
  let engines := s.held.filterMap (fun r => match r.rop with | .engine _ e w => if here r && e.touches then some w else none | _ => none)
  let e := s.tileEdge (core, tile)
  let stuck (t : TileOp) : Bool := decide (t.waits = e) && (t.rowAt tile).touches
  let tops := (s.core core).tileq.filter stuck ++ s.procs.flatMap (fun p => p.2.savedOps.filter stuck)
  let walks := s.walks.filter (fun w => w.failed.isNone && decide (s.walk ⟨w.core, w.asid, true, w.origin, [], w.root, none, none⟩ w.va = .waits core tile))
  let s1 : State := { s with held := s.held.filter (fun r => !(here r && r.touches)) }
  let s2 := bad.foldl State.failTouch s1
  let s3 := engines.foldl (fun s w => s.failEngine core tile w) s2
  let s4 := tops.foldl (fun s t => s.abandonTop core t tile) s3
  let s5 := walks.foldl (fun s w => s.failWalk w .ecc 0) s4
  (s.procs.map (·.1)).foldl (fun s pk => s.failProc core tile pk) s5
/-- A pull that could not read its source is abandoned where its tile is (R339): src is the failing physical address. The record goes to the die of
the holder, or, where the holder has moved to another module, of the tile's core (DESIGN CHOICE, log 93). -/
def State.abandonPull (s : State) (core tile lend src : Nat) : State :=
  let m := (s.core core).marks.find? (fun e => decide (e.2.state ≠ 0 ∧ e.2.lend = lend) && e.2.pulling.any (fun t => decide (t.1 = tile)))
  let who := match m with | some e => e.2.holder | none => 0
  let dest : Word := match m with | some e => e.2.va + BitVec.ofNat 64 ((tile - e.2.tile) * e.2.tsize) | none => 0
  let pk := s.keyOf who
  let d := if s.moduleOf who = s.modid then dieOfCore (coreOf pk) else dieOfCore core
  let s1 := (s.pullOver core tile).engineFault d (s.proc pk).asid who 0x10 0 0x20 0 0 0 (BitVec.ofNat 64 src) dest 0
  ((s1.failWaiters core tile).setTag core tile .empty).settle

/-- PULL_READ (R100). The lender or its Scarab reads lent source bytes and sends the pull data; a pull of another holder than the one recorded
waits for the relink (R103). One that cannot be read is abandoned: the lender counts the tile as released (R339). -/
def execPullRead (id : Nat) (s : State) : Host.Outcome State Fault Refusal :=
  .next <| match s.inTurn id with
  | some m =>
    (match m.body with
    | .pullRead lend a core tile holder =>
      (match s.lendOf lend with
      | none => s.take id
      | some l =>
        if l.holder ≠ holder then s.stay id
        else
          let n := tileSize tile
          let back : Home := match m.src with | .remote k _ => .remote k | _ => .core core
          match s.struck.find? (fun x => decide (a ≤ x ∧ x < a + n)) with
          | some x => ((s.take id).lendDown lend 1 true).sendBack m.src m.dst.src back (.pullFailed core tile lend (s.paOf x))
          | none => (s.take id).sendBack m.src m.dst.src back (.push core tile (s.mem.bytes a n) (.pull lend)))
    | .pullFailed core tile lend src => (s.take id).abandonPull core tile lend src
    | _ => s)
  | none => s

end Sys2Proof.Machine
end

