-- ==== Sys2Proof/Machine/Control.lean ====
section
/-! DEFINITION. Branches and calls (spec/08_scalar.md R166). -/
namespace Sys2Proof.Machine

/-- BR (R166). Branches to pc + disp22 * 4. -/
def execBr (o : BT) (s : State) : Host.Outcome State Fault Refusal :=
  issue (infoBT o (packBT 0x10 o)) (fun pk s => s.modProc pk (fun p =>
    p.retire [] p.r (p.pc + o.disp.signExtend 64 * 4) true)) s

/-- JAL (R166). Jumps to pc + disp16 * 4 and writes the link to gd. -/
def execJal (o : RI) (s : State) : Host.Outcome State Fault Refusal :=
  issue (infoRI o (packRI 0x11 o)) (fun pk s => s.modProc pk (fun p =>
    p.retire [(0, o.d.toNat)] (p.r.setG o.d (p.pc + 4)) (p.pc + o.imm.signExtend 64 * 4) true)) s

/-- JR (R166). Jumps to g[a] and writes the link to gd; a target that is no multiple of 4 traps MISALIGN and nothing is written. -/
def execJr (o : RR) (s : State) : Host.Outcome State Fault Refusal :=
  issue (infoRR o (packRR 0x12 0 o)) (fun pk s =>
    let p := s.proc pk
    let t := p.r.getG o.a
    if t.toNat % 4 ≠ 0 then s.raise pk ⟨.misalign, t, 0, 0⟩
    else s.modProc pk (fun p => p.retire [(0, o.d.toNat)] (p.r.setG o.d (p.pc + 4)) t true)) s

end Sys2Proof.Machine
end

