-- ==== Sys2Proof/Machine/Scalar.lean ====
section
/-! DEFINITION. Integer arithmetic, immediates, compares, predicate logic and scalar floating point (spec/08_scalar.md R151 to R165). -/
namespace Sys2Proof.Machine

/-! ## Shared operations -/

/-- g[d] := f(g[a], g[b]), no flag. -/
def alu (w : Nat) (o : RRR) (f : Word → Word → Word) (s : State) : Host.Outcome State Fault Refusal :=
  issuePure (infoRRR o w) (fun r => r.setG o.d (f (r.getG o.a) (r.getG o.b))) s
/-- The same with flags. -/
def aluFlags (w : Nat) (o : RRR) (f : Word → Word → Word × Flags) (s : State) : Host.Outcome State Fault Refusal :=
  issuePure (infoRRR o w) (fun r => let x := f (r.getG o.a) (r.getG o.b); (r.orFlags x.2).setG o.d x.1) s
/-- g[d] := f(g[a]), with flags. -/
def aluOne (w : Nat) (o : RR) (f : Word → Word × Flags) (s : State) : Host.Outcome State Fault Refusal :=
  issuePure (infoRR o w) (fun r => let x := f (r.getG o.a); (r.orFlags x.2).setG o.d x.1) s
/-- g[d] := f(g[a], imm10). -/
def aluImm (w : Nat) (o : RRI) (f : Word → BitVec 10 → Word) (s : State) : Host.Outcome State Fault Refusal :=
  issuePure (infoRRI o w) (fun r => r.setG o.d (f (r.getG o.a) o.imm)) s
/-- g[d] := f(g[a], amount). -/
def shiftImm (w : Nat) (o : SHI) (f : Word → Nat → Word) (s : State) : Host.Outcome State Fault Refusal :=
  issuePure (infoSHI o w) (fun r => r.setG o.d (f (r.getG o.a) o.amt.toNat)) s

/-- Shift amounts are b[5:0] (R152). -/
def amount (b : Word) : Nat := b.toNat % 64
def shlWord (a : Word) (n : Nat) : Word := a <<< n
def shrWord (a : Word) (n : Nat) : Word := a >>> n
def sraWord (a : Word) (n : Nat) : Word := a.sshiftRight n
def rolWord (a : Word) (n : Nat) : Word := a.rotateLeft n
def minWord (a b : Word) : Word := if a.slt b then a else b
def maxWord (a b : Word) : Word := if a.slt b then b else a
def minuWord (a b : Word) : Word := if a.ult b then a else b
def maxuWord (a b : Word) : Word := if a.ult b then b else a
/-- R153. -/
def addsWord (a b : Word) : Word × Flags := let x := satInt 64 (a.toInt + b.toInt); (BitVec.ofInt 64 x.1, x.2)
def subsWord (a b : Word) : Word × Flags := let x := satInt 64 (a.toInt - b.toInt); (BitVec.ofInt 64 x.1, x.2)
/-- Bits [127:64] of a product (R154). -/
def highWord (p : Int) : Word := BitVec.ofInt 64 (p / 2 ^ 64)
/-- R155. -/
def divWord (a b : Word) : Word × Flags := (if b = 0 then BitVec.allOnes 64 else a.sdiv b, dzFlag b)
def divuWord (a b : Word) : Word × Flags := (if b = 0 then BitVec.allOnes 64 else a.udiv b, dzFlag b)
def remWord (a b : Word) : Word × Flags := (if b = 0 then a else a.srem b, dzFlag b)
def remuWord (a b : Word) : Word × Flags := (if b = 0 then a else a.umod b, dzFlag b)
/-- R154. -/
def clzWord (a : Word) : Word := if a = 0 then 64 else BitVec.ofNat 64 (63 - Nat.log2 a.toNat)
def ctzWord (a : Word) : Word := if a = 0 then 64 else BitVec.ofNat 64 (Nat.log2 (a &&& -a).toNat)
def popcWord (a : Word) : Word := BitVec.ofNat 64 ((List.range 64).countP (fun i => a.getLsbD i))
def brevWord (a : Word) : Word := BitVec.ofNat 64 ((List.range 64).foldl (fun acc i => 2 * acc + (a.getLsbD i).toNat) 0)
/-- Field position and length (R156). -/
def fieldPos (b : Word) : Nat := b.toNat % 64
def fieldLen (b : Word) : Nat := b.toNat / 256 % 64 + 1
def bfxWord (a b : Word) : Word := (a >>> fieldPos b) &&& BitVec.ofNat 64 (2 ^ fieldLen b - 1)
def bfiWord (d a b : Word) : Word :=
  let m : Word := BitVec.ofNat 64 (2 ^ fieldLen b - 1) <<< fieldPos b
  (d &&& ~~~ m) ||| ((a <<< fieldPos b) &&& m)

/-- p[pT] := c and p[pF] := NOT c (R158, R164). -/
def Regs.setPair (r : Regs) (t f : BitVec 3) (c : Bool) : Regs := (r.setP t c).setP f (!c)
/-- CMP (R158). -/
def compare (w : Nat) (o : CP) (c : Word → Word → Bool) (s : State) : Host.Outcome State Fault Refusal :=
  issuePure (infoCP o w) (fun r => r.setPair o.pT o.pF (c (r.getG o.a) (r.getG o.b))) s
/-- CMPI (R158). -/
def compareImm (w : Nat) (o : CPI) (c : Word → Word → Bool) (s : State) : Host.Outcome State Fault Refusal :=
  issuePure (infoCPI o w) (fun r => r.setPair o.pT o.pF (c (r.getG o.a) (o.imm.signExtend 64))) s
/-- PLOG (R159). -/
def predLogic (w : Nat) (o : PL) (f : Bool → Bool → Bool) (s : State) : Host.Outcome State Fault Refusal :=
  issuePure (infoPL o w) (fun r => r.setP o.d (f (r.getP o.a) (r.getP o.b))) s
/-- FCMP (R164). -/
def floatCompare (w : Nat) (o : FP) (c : Fmt → Nat → Nat → Bool × Flags) (s : State) : Host.Outcome State Fault Refusal :=
  issuePure (infoFP o w) (fun r =>
    let F := fmtOf o.fmt
    let x := c F (lowBits F (r.getG o.a)) (lowBits F (r.getG o.b))
    (r.orFlags x.2).setPair o.pT o.pF x.1) s
/-- A two-source float operation on codes; the result is zero-extended (R160). -/
def floatOp (w : Nat) (o : FR) (f : Fmt → Nat → Nat → Nat × Flags) (s : State) : Host.Outcome State Fault Refusal :=
  issuePure (infoFR o w) (fun r =>
    let F := fmtOf o.fmt
    let x := f F (lowBits F (r.getG o.a)) (lowBits F (r.getG o.b))
    (r.orFlags x.2).setG o.d (BitVec.ofNat 64 x.1)) s
/-- The same with g[d] as the addend (R162). -/
def floatAcc (w : Nat) (o : FR) (f : Fmt → Nat → Nat → Nat → Nat × Flags) (s : State) : Host.Outcome State Fault Refusal :=
  issuePure (infoFRD o w) (fun r =>
    let F := fmtOf o.fmt
    let x := f F (lowBits F (r.getG o.d)) (lowBits F (r.getG o.a)) (lowBits F (r.getG o.b))
    (r.orFlags x.2).setG o.d (BitVec.ofNat 64 x.1)) s
/-- FSQRT. -/
def floatOne (w : Nat) (o : FR1) (f : Fmt → Nat → Nat × Flags) (s : State) : Host.Outcome State Fault Refusal :=
  issuePure (infoFR1 o w) (fun r =>
    let F := fmtOf o.fmt
    let x := f F (lowBits F (r.getG o.a))
    (r.orFlags x.2).setG o.d (BitVec.ofNat 64 x.1)) s

/-- Exact operations rounded RNE (R160, R162). -/
def fopAdd (F : Fmt) (a b : Nat) : Nat × Flags := roundRne F (valAdd (F.value a) (F.value b))
def fopSub (F : Fmt) (a b : Nat) : Nat × Flags := roundRne F (valSub (F.value a) (F.value b))
def fopMul (F : Fmt) (a b : Nat) : Nat × Flags := roundRne F (valMul (F.value a) (F.value b))
def fopFma (F : Fmt) (d a b : Nat) : Nat × Flags := roundRne F (valFma (F.value d) (F.value a) (F.value b))
def fopDiv (F : Fmt) (a b : Nat) : Nat × Flags := roundRne F (valDiv F.f (F.value a) (F.value b))
def fopSqrt (F : Fmt) (a : Nat) : Nat × Flags := roundRne F (valSqrt F.f (F.value a))

/-- FCVT between float formats (R165). -/
def cvtFloat (F G : Fmt) (x : Word) : Word × Flags := let r := roundTo G .rne (F.value (lowBits F x)); (BitVec.ofNat 64 r.1, r.2)
/-- FCVT to an integer, truncated towards zero (R165). -/
def cvtToInt (F : Fmt) (lo hi : Int) (x : Word) : Word × Flags := let r := roundInt lo hi .rtz (F.value (lowBits F x)); (BitVec.ofInt 64 r.1, r.2)
/-- FCVT from an integer, rounded RNE (R165). -/
def cvtFromInt (F : Fmt) (i : Int) : Word × Flags := let r := roundTo F .rne (.ofInt i); (BitVec.ofNat 64 r.1, r.2)

/-! ## ALU (R152, R153) -/

/-- ADD (R152). Writes a + b modulo 2^64 to gd. -/
def execAdd (o : RRR) (s : State) : Host.Outcome State Fault Refusal :=
  alu (packRRR 0x00 0 o) o (fun a b => a + b) s

/-- SUB (R152). Writes a - b modulo 2^64 to gd. -/
def execSub (o : RRR) (s : State) : Host.Outcome State Fault Refusal :=
  alu (packRRR 0x00 1 o) o (fun a b => a - b) s

/-- AND (R152). Writes a AND b to gd. -/
def execAnd (o : RRR) (s : State) : Host.Outcome State Fault Refusal :=
  alu (packRRR 0x00 2 o) o (fun a b => a &&& b) s

/-- OR (R152). Writes a OR b to gd. -/
def execOr (o : RRR) (s : State) : Host.Outcome State Fault Refusal :=
  alu (packRRR 0x00 3 o) o (fun a b => a ||| b) s

/-- XOR (R152). Writes a XOR b to gd. -/
def execXor (o : RRR) (s : State) : Host.Outcome State Fault Refusal :=
  alu (packRRR 0x00 4 o) o (fun a b => a ^^^ b) s

/-- ANDN (R152). Writes a AND NOT b to gd. -/
def execAndn (o : RRR) (s : State) : Host.Outcome State Fault Refusal :=
  alu (packRRR 0x00 5 o) o (fun a b => a &&& ~~~ b) s

/-- SHL (R152). Shifts a left by b[5:0], filling with zeros. -/
def execShl (o : RRR) (s : State) : Host.Outcome State Fault Refusal :=
  alu (packRRR 0x00 6 o) o (fun a b => shlWord a (amount b)) s

/-- SHR (R152). Shifts a right logically by b[5:0]. -/
def execShr (o : RRR) (s : State) : Host.Outcome State Fault Refusal :=
  alu (packRRR 0x00 7 o) o (fun a b => shrWord a (amount b)) s

/-- SRA (R152). Shifts a right arithmetically by b[5:0]. -/
def execSra (o : RRR) (s : State) : Host.Outcome State Fault Refusal :=
  alu (packRRR 0x00 8 o) o (fun a b => sraWord a (amount b)) s

/-- ROL (R152). Rotates a left by b[5:0]. -/
def execRol (o : RRR) (s : State) : Host.Outcome State Fault Refusal :=
  alu (packRRR 0x00 9 o) o (fun a b => rolWord a (amount b)) s

/-- MIN (R152). Writes the signed smaller of a and b. -/
def execMin (o : RRR) (s : State) : Host.Outcome State Fault Refusal :=
  alu (packRRR 0x00 10 o) o minWord s

/-- MAX (R152). Writes the signed larger of a and b. -/
def execMax (o : RRR) (s : State) : Host.Outcome State Fault Refusal :=
  alu (packRRR 0x00 11 o) o maxWord s

/-- MINU (R152). Writes the unsigned smaller of a and b. -/
def execMinu (o : RRR) (s : State) : Host.Outcome State Fault Refusal :=
  alu (packRRR 0x00 12 o) o minuWord s

/-- MAXU (R152). Writes the unsigned larger of a and b. -/
def execMaxu (o : RRR) (s : State) : Host.Outcome State Fault Refusal :=
  alu (packRRR 0x00 13 o) o maxuWord s

/-- ADDS (R153). Writes the signed saturated sum, setting SAT on saturation. -/
def execAdds (o : RRR) (s : State) : Host.Outcome State Fault Refusal :=
  aluFlags (packRRR 0x00 14 o) o addsWord s

/-- SUBS (R153). Writes the signed saturated difference, setting SAT on saturation. -/
def execSubs (o : RRR) (s : State) : Host.Outcome State Fault Refusal :=
  aluFlags (packRRR 0x00 15 o) o subsWord s

/-! ## MULDIV (R154 to R156) -/

/-- MUL (R154). Writes the low 64 bits of a times b. -/
def execMul (o : RRR) (s : State) : Host.Outcome State Fault Refusal :=
  alu (packRRR 0x01 0 o) o (fun a b => a * b) s

/-- MULH (R154). Writes the high 64 bits of the signed product. -/
def execMulh (o : RRR) (s : State) : Host.Outcome State Fault Refusal :=
  alu (packRRR 0x01 1 o) o (fun a b => highWord (a.toInt * b.toInt)) s

/-- MULHU (R154). Writes the high 64 bits of the unsigned product. -/
def execMulhu (o : RRR) (s : State) : Host.Outcome State Fault Refusal :=
  alu (packRRR 0x01 2 o) o (fun a b => highWord ((a.toNat : Int) * (b.toNat : Int))) s

/-- MULHSU (R154). Writes the high 64 bits of signed a times unsigned b. -/
def execMulhsu (o : RRR) (s : State) : Host.Outcome State Fault Refusal :=
  alu (packRRR 0x01 3 o) o (fun a b => highWord (a.toInt * (b.toNat : Int))) s

/-- DIV (R155). Signed division truncating towards zero; by zero writes all ones and sets DZ. -/
def execDiv (o : RRR) (s : State) : Host.Outcome State Fault Refusal :=
  aluFlags (packRRR 0x01 4 o) o divWord s

/-- DIVU (R155). Unsigned division; by zero writes all ones and sets DZ. -/
def execDivu (o : RRR) (s : State) : Host.Outcome State Fault Refusal :=
  aluFlags (packRRR 0x01 5 o) o divuWord s

/-- REM (R155). Signed remainder; by zero writes a and sets DZ. -/
def execRem (o : RRR) (s : State) : Host.Outcome State Fault Refusal :=
  aluFlags (packRRR 0x01 6 o) o remWord s

/-- REMU (R155). Unsigned remainder; by zero writes a and sets DZ. -/
def execRemu (o : RRR) (s : State) : Host.Outcome State Fault Refusal :=
  aluFlags (packRRR 0x01 7 o) o remuWord s

/-- CLZ (R154). Writes the number of leading zero bits of a. -/
def execClz (o : RR) (s : State) : Host.Outcome State Fault Refusal :=
  aluOne (packRR 0x01 8 o) o (fun a => (clzWord a, 0)) s

/-- CTZ (R154). Writes the number of trailing zero bits of a. -/
def execCtz (o : RR) (s : State) : Host.Outcome State Fault Refusal :=
  aluOne (packRR 0x01 9 o) o (fun a => (ctzWord a, 0)) s

/-- POPC (R154). Writes the number of one bits of a. -/
def execPopc (o : RR) (s : State) : Host.Outcome State Fault Refusal :=
  aluOne (packRR 0x01 10 o) o (fun a => (popcWord a, 0)) s

/-- BREV (R154). Writes a with its bit order reversed. -/
def execBrev (o : RR) (s : State) : Host.Outcome State Fault Refusal :=
  aluOne (packRR 0x01 11 o) o (fun a => (brevWord a, 0)) s

/-- BFX (R156). Extracts the bit field of a that b selects, zero-extended. -/
def execBfx (o : RRR) (s : State) : Host.Outcome State Fault Refusal :=
  alu (packRRR 0x01 12 o) o bfxWord s

/-- BFI (R156). Inserts a into the bit field of gd that b selects. -/
def execBfi (o : RRR) (s : State) : Host.Outcome State Fault Refusal :=
  issuePure (infoRRRD o (packRRR 0x01 13 o)) (fun r => r.setG o.d (bfiWord (r.getG o.d) (r.getG o.a) (r.getG o.b))) s

/-! ## Immediates (R157) -/

/-- ADDI (R157). Adds a sign-extended 10-bit immediate. -/
def execAddi (o : RRI) (s : State) : Host.Outcome State Fault Refusal :=
  aluImm (packRRI 0x02 o) o (fun a i => a + i.signExtend 64) s

/-- ANDI (R157). ANDs with a sign-extended 10-bit immediate. -/
def execAndi (o : RRI) (s : State) : Host.Outcome State Fault Refusal :=
  aluImm (packRRI 0x03 o) o (fun a i => a &&& i.signExtend 64) s

/-- ORI (R157). ORs with a zero-extended 10-bit immediate. -/
def execOri (o : RRI) (s : State) : Host.Outcome State Fault Refusal :=
  aluImm (packRRI 0x04 o) o (fun a i => a ||| i.setWidth 64) s

/-- XORI (R157). XORs with a zero-extended 10-bit immediate. -/
def execXori (o : RRI) (s : State) : Host.Outcome State Fault Refusal :=
  aluImm (packRRI 0x05 o) o (fun a i => a ^^^ i.setWidth 64) s

/-- SHLI (R157). Shifts left by an immediate amount. -/
def execShli (o : SHI) (s : State) : Host.Outcome State Fault Refusal :=
  shiftImm (packSHI 0x06 0 o) o shlWord s

/-- SHRI (R157). Shifts right logically by an immediate amount. -/
def execShri (o : SHI) (s : State) : Host.Outcome State Fault Refusal :=
  shiftImm (packSHI 0x06 1 o) o shrWord s

/-- SRAI (R157). Shifts right arithmetically by an immediate amount. -/
def execSrai (o : SHI) (s : State) : Host.Outcome State Fault Refusal :=
  shiftImm (packSHI 0x06 2 o) o sraWord s

/-- ROLI (R157). Rotates left by an immediate amount. -/
def execRoli (o : SHI) (s : State) : Host.Outcome State Fault Refusal :=
  shiftImm (packSHI 0x06 3 o) o rolWord s

/-- IMM (R157). Sets gd to a sign-extended 16-bit immediate. -/
def execImm (o : RI) (s : State) : Host.Outcome State Fault Refusal :=
  issuePure (infoRI o (packRI 0x07 o)) (fun r => r.setG o.d (o.imm.signExtend 64)) s

/-- IMMH (R157). Shifts gd left by 16 and inserts a 16-bit immediate. -/
def execImmh (o : RI) (s : State) : Host.Outcome State Fault Refusal :=
  issuePure (infoRID o (packRI 0x08 o)) (fun r => r.setG o.d ((r.getG o.d <<< 16) ||| o.imm.setWidth 64)) s

/-! ## Compares and predicates (R158, R159) -/

/-- CMPEQ (R158). Writes a = b to pT and its complement to pF. -/
def execCmpeq (o : CP) (s : State) : Host.Outcome State Fault Refusal :=
  compare (packCP 0x09 0 o) o condEq s

/-- CMPNE (R158). Writes a ≠ b to pT and its complement to pF. -/
def execCmpne (o : CP) (s : State) : Host.Outcome State Fault Refusal :=
  compare (packCP 0x09 1 o) o condNe s

/-- CMPLT (R158). Writes signed a < b and its complement. -/
def execCmplt (o : CP) (s : State) : Host.Outcome State Fault Refusal :=
  compare (packCP 0x09 2 o) o condLt s

/-- CMPLE (R158). Writes signed a ≤ b and its complement. -/
def execCmple (o : CP) (s : State) : Host.Outcome State Fault Refusal :=
  compare (packCP 0x09 3 o) o condLe s

/-- CMPGT (R158). Writes signed a > b and its complement. -/
def execCmpgt (o : CP) (s : State) : Host.Outcome State Fault Refusal :=
  compare (packCP 0x09 4 o) o condGt s

/-- CMPGE (R158). Writes signed a ≥ b and its complement. -/
def execCmpge (o : CP) (s : State) : Host.Outcome State Fault Refusal :=
  compare (packCP 0x09 5 o) o condGe s

/-- CMPLTU (R158). Writes unsigned a < b and its complement. -/
def execCmpltu (o : CP) (s : State) : Host.Outcome State Fault Refusal :=
  compare (packCP 0x09 6 o) o condLtu s

/-- CMPLEU (R158). Writes unsigned a ≤ b and its complement. -/
def execCmpleu (o : CP) (s : State) : Host.Outcome State Fault Refusal :=
  compare (packCP 0x09 7 o) o condLeu s

/-- CMPGTU (R158). Writes unsigned a > b and its complement. -/
def execCmpgtu (o : CP) (s : State) : Host.Outcome State Fault Refusal :=
  compare (packCP 0x09 8 o) o condGtu s

/-- CMPGEU (R158). Writes unsigned a ≥ b and its complement. -/
def execCmpgeu (o : CP) (s : State) : Host.Outcome State Fault Refusal :=
  compare (packCP 0x09 9 o) o condGeu s

/-- CMPEQI (R158). Compares a for equality with a sign-extended imm6. -/
def execCmpeqi (o : CPI) (s : State) : Host.Outcome State Fault Refusal :=
  compareImm (packCPI 0x0A 0 o) o condEq s

/-- CMPNEI (R158). Compares a for inequality with imm6. -/
def execCmpnei (o : CPI) (s : State) : Host.Outcome State Fault Refusal :=
  compareImm (packCPI 0x0A 1 o) o condNe s

/-- CMPLTI (R158). Signed a < imm6. -/
def execCmplti (o : CPI) (s : State) : Host.Outcome State Fault Refusal :=
  compareImm (packCPI 0x0A 2 o) o condLt s

/-- CMPLEI (R158). Signed a ≤ imm6. -/
def execCmplei (o : CPI) (s : State) : Host.Outcome State Fault Refusal :=
  compareImm (packCPI 0x0A 3 o) o condLe s

/-- CMPGTI (R158). Signed a > imm6. -/
def execCmpgti (o : CPI) (s : State) : Host.Outcome State Fault Refusal :=
  compareImm (packCPI 0x0A 4 o) o condGt s

/-- CMPGEI (R158). Signed a ≥ imm6. -/
def execCmpgei (o : CPI) (s : State) : Host.Outcome State Fault Refusal :=
  compareImm (packCPI 0x0A 5 o) o condGe s

/-- CMPLTUI (R158). Unsigned a < sign-extended imm6. -/
def execCmpltui (o : CPI) (s : State) : Host.Outcome State Fault Refusal :=
  compareImm (packCPI 0x0A 6 o) o condLtu s

/-- CMPLEUI (R158). Unsigned a ≤ sign-extended imm6. -/
def execCmpleui (o : CPI) (s : State) : Host.Outcome State Fault Refusal :=
  compareImm (packCPI 0x0A 7 o) o condLeu s

/-- CMPGTUI (R158). Unsigned a > sign-extended imm6. -/
def execCmpgtui (o : CPI) (s : State) : Host.Outcome State Fault Refusal :=
  compareImm (packCPI 0x0A 8 o) o condGtu s

/-- CMPGEUI (R158). Unsigned a ≥ sign-extended imm6. -/
def execCmpgeui (o : CPI) (s : State) : Host.Outcome State Fault Refusal :=
  compareImm (packCPI 0x0A 9 o) o condGeu s

/-- PAND (R159). Writes pa AND pb to pd. -/
def execPand (o : PL) (s : State) : Host.Outcome State Fault Refusal :=
  predLogic (packPL 0x0B 0 o) o (fun a b => a && b) s

/-- POR (R159). Writes pa OR pb to pd. -/
def execPor (o : PL) (s : State) : Host.Outcome State Fault Refusal :=
  predLogic (packPL 0x0B 1 o) o (fun a b => a || b) s

/-- PXOR (R159). Writes pa XOR pb to pd. -/
def execPxor (o : PL) (s : State) : Host.Outcome State Fault Refusal :=
  predLogic (packPL 0x0B 2 o) o (fun a b => a ^^ b) s

/-- PANDN (R159). Writes pa AND NOT pb to pd. -/
def execPandn (o : PL) (s : State) : Host.Outcome State Fault Refusal :=
  predLogic (packPL 0x0B 3 o) o (fun a b => a && !b) s

/-- PORN (R159). Writes pa OR NOT pb to pd. -/
def execPorn (o : PL) (s : State) : Host.Outcome State Fault Refusal :=
  predLogic (packPL 0x0B 4 o) o (fun a b => a || !b) s

/-- PNAND (R159). Writes NOT (pa AND pb) to pd. -/
def execPnand (o : PL) (s : State) : Host.Outcome State Fault Refusal :=
  predLogic (packPL 0x0B 5 o) o (fun a b => !(a && b)) s

/-- PNOR (R159). Writes NOT (pa OR pb) to pd. -/
def execPnor (o : PL) (s : State) : Host.Outcome State Fault Refusal :=
  predLogic (packPL 0x0B 6 o) o (fun a b => !(a || b)) s

/-- PXNOR (R159). Writes NOT (pa XOR pb) to pd. -/
def execPxnor (o : PL) (s : State) : Host.Outcome State Fault Refusal :=
  predLogic (packPL 0x0B 7 o) o (fun a b => !(a ^^ b)) s

/-! ## Scalar floating point (R160 to R165) -/

/-- FCMPEQ (R164). Floating-point equality compare into a predicate pair. -/
def execFcmpeq (o : FP) (s : State) : Host.Outcome State Fault Refusal :=
  floatCompare (packFP 0x0C 0 o) o fcondEq s

/-- FCMPLT (R164). Floating-point less-than compare, NV for any NaN. -/
def execFcmplt (o : FP) (s : State) : Host.Outcome State Fault Refusal :=
  floatCompare (packFP 0x0C 1 o) o fcondLt s

/-- FCMPLE (R164). Floating-point less-or-equal compare, NV for any NaN. -/
def execFcmple (o : FP) (s : State) : Host.Outcome State Fault Refusal :=
  floatCompare (packFP 0x0C 2 o) o fcondLe s

/-- FCMPUN (R164). Floating-point unordered compare. -/
def execFcmpun (o : FP) (s : State) : Host.Outcome State Fault Refusal :=
  floatCompare (packFP 0x0C 3 o) o fcondUn s

/-- FADD (R162). Scalar floating-point addition, rounded RNE. -/
def execFadd (o : FR) (s : State) : Host.Outcome State Fault Refusal :=
  floatOp (packFR 0x0D 0 o) o fopAdd s

/-- FSUB (R162). Scalar floating-point subtraction. -/
def execFsub (o : FR) (s : State) : Host.Outcome State Fault Refusal :=
  floatOp (packFR 0x0D 1 o) o fopSub s

/-- FMUL (R162). Scalar floating-point multiplication. -/
def execFmul (o : FR) (s : State) : Host.Outcome State Fault Refusal :=
  floatOp (packFR 0x0D 2 o) o fopMul s

/-- FMA (R162). Fused multiply-add into gd with one rounding. -/
def execFma (o : FR) (s : State) : Host.Outcome State Fault Refusal :=
  floatAcc (packFR 0x0D 3 o) o fopFma s

/-- FMIN (R163). Floating-point minimum with NaN and signed-zero rules. -/
def execFmin (o : FR) (s : State) : Host.Outcome State Fault Refusal :=
  floatOp (packFR 0x0E 0 o) o (fun F => F.minmax false) s

/-- FMAX (R163). Floating-point maximum with NaN and signed-zero rules. -/
def execFmax (o : FR) (s : State) : Host.Outcome State Fault Refusal :=
  floatOp (packFR 0x0E 1 o) o (fun F => F.minmax true) s

/-- FDIV (R162). Scalar floating-point division. -/
def execFdiv (o : FR) (s : State) : Host.Outcome State Fault Refusal :=
  floatOp (packFR 0x0E 2 o) o fopDiv s

/-- FSQRT (R162). Scalar floating-point square root. -/
def execFsqrt (o : FR1) (s : State) : Host.Outcome State Fault Refusal :=
  floatOne (packFR1 0x0E 3 o) o fopSqrt s

/-- FCVTSH (R165). Converts FP32 to FP16. -/
def execFcvtsh (o : RR) (s : State) : Host.Outcome State Fault Refusal :=
  aluOne (packRR 0x0F 0 o) o (cvtFloat .fp32 .fp16) s

/-- FCVTSB (R165). Converts FP32 to BF16. -/
def execFcvtsb (o : RR) (s : State) : Host.Outcome State Fault Refusal :=
  aluOne (packRR 0x0F 1 o) o (cvtFloat .fp32 .bf16) s

/-- FCVTHS (R165). Converts FP16 to FP32 exactly. -/
def execFcvths (o : RR) (s : State) : Host.Outcome State Fault Refusal :=
  aluOne (packRR 0x0F 2 o) o (cvtFloat .fp16 .fp32) s

/-- FCVTBS (R165). Converts BF16 to FP32 exactly. -/
def execFcvtbs (o : RR) (s : State) : Host.Outcome State Fault Refusal :=
  aluOne (packRR 0x0F 3 o) o (cvtFloat .bf16 .fp32) s

/-- FCVTSI (R165). Converts FP32 to signed 64-bit integer, truncating. -/
def execFcvtsi (o : RR) (s : State) : Host.Outcome State Fault Refusal :=
  aluOne (packRR 0x0F 4 o) o (cvtToInt .fp32 (-(2 ^ 63)) (2 ^ 63 - 1)) s

/-- FCVTIS (R165). Converts signed 64-bit integer to FP32. -/
def execFcvtis (o : RR) (s : State) : Host.Outcome State Fault Refusal :=
  aluOne (packRR 0x0F 5 o) o (fun a => cvtFromInt .fp32 a.toInt) s

/-- FCVTHI (R165). Converts FP16 to signed 64-bit integer. -/
def execFcvthi (o : RR) (s : State) : Host.Outcome State Fault Refusal :=
  aluOne (packRR 0x0F 6 o) o (cvtToInt .fp16 (-(2 ^ 63)) (2 ^ 63 - 1)) s

/-- FCVTIH (R165). Converts signed 64-bit integer to FP16. -/
def execFcvtih (o : RR) (s : State) : Host.Outcome State Fault Refusal :=
  aluOne (packRR 0x0F 7 o) o (fun a => cvtFromInt .fp16 a.toInt) s

/-- FCVTSU (R165). Converts FP32 to unsigned 64-bit integer. -/
def execFcvtsu (o : RR) (s : State) : Host.Outcome State Fault Refusal :=
  aluOne (packRR 0x0F 8 o) o (cvtToInt .fp32 0 (2 ^ 64 - 1)) s

/-- FCVTUS (R165). Converts unsigned 64-bit integer to FP32. -/
def execFcvtus (o : RR) (s : State) : Host.Outcome State Fault Refusal :=
  aluOne (packRR 0x0F 9 o) o (fun a => cvtFromInt .fp32 (a.toNat : Int)) s

/-- FCVTHB (R165). Converts FP16 to BF16. -/
def execFcvthb (o : RR) (s : State) : Host.Outcome State Fault Refusal :=
  aluOne (packRR 0x0F 10 o) o (cvtFloat .fp16 .bf16) s

/-- FCVTBH (R165). Converts BF16 to FP16. -/
def execFcvtbh (o : RR) (s : State) : Host.Outcome State Fault Refusal :=
  aluOne (packRR 0x0F 11 o) o (cvtFloat .bf16 .fp16) s

end Sys2Proof.Machine
end

