-- ==== Sys2Proof/Machine/Sched.lean ====
section
/-! DEFINITION. The steps of the hardware scheduler: tasks from the inbox, the privileged event queue, residency, and the deadlock probe
(spec/17_scheduling.md R272 to R288). -/
namespace Sys2Proof.Machine

/-! ## Tasks (R280 to R282) -/

/-- Index of the save-area slot of the pool that a task takes: the lowest that no task holds and that fits (R282; which one is a DESIGN CHOICE, log 105). -/
def Core.poolFree (k : Core) : Option Nat :=
  (List.range k.taskCount).find? (fun i => !k.pool.contains i && decide (k.taskFirst + (i + 1) * saveTiles k.partition ≤ 2048))
/-- The four conditions of R281 for one slot. -/
def State.mayStart (s : State) (core : Nat) (b : Inbox) : Bool :=
  let k := s.core core
  s.inputsHold core b && !k.freePids.isEmpty && k.poolFree.isSome && (b.event || decide (recNeed b.record ≤ k.partition))
/-- The record that starts first among those whose conditions hold: event records first, then by arrival (R281). -/
def State.startsFirst (s : State) (core : Nat) : Option Nat :=
  let ok := (s.core core).inbox.filter (fun e => (e.2.event || !recBad e.2.record) && s.mayStart core e.2)
  let pool := if ok.any (fun e => e.2.event) then ok.filter (fun e => e.2.event) else ok
  (pool.find? (fun e => pool.all (fun f => decide (e.2.order ≤ f.2.order)))).map (·.1)
/-- The process that a record becomes. -/
def State.taskProc (s : State) (core : Nat) (b : Inbox) (slot : Nat) : Proc :=
  let k := s.core core
  let r := b.record
  let args := if b.event then (r.drop 1) ++ [r.getD 0 0] else r.drop 1
  let d := s.die (dieOfCore core)
  { Proc.reset with
    r := startRegs args
    pc := if b.event then d.evvec.get 0 (fld (r.getD 0 0).toNat 56 8) else BitVec.ofNat 64 (recEntry r)
    prio := if b.event then 3 else recPrio r
    priv := b.event || decide (recPrio r = 3)
    task := true
    need := if b.event then 0 else recNeed r
    asid := if b.event then d.evAsid else recAsid r
    save := k.taskFirst + slot * saveTiles k.partition
    extents := b.extents
    taskId := b.task
    poolSlot := slot }

/-- TASK_START (R281). An inbox record whose inputs and resources hold starts as a task; a record with a reserved value is discarded
(R280), and VIA tiles of its inputs are pulled. A halted core starts no task (R310). -/
def execTaskStart (core slot : Nat) (s : State) : Host.Outcome State Fault Refusal :=
  let k := s.core core
  .next <| match k.inbox.find? (fun e => decide (e.1 = slot)) with
  | none => s
  | some (_, b) =>
    if !b.event && recBad b.record then
      (s.setCore core { k with inbox := k.inbox.drop slot }).postOther (dieOfCore core) (recAsid b.record) 0 0x01 6 0 (b.record.getD 0 0)
    else if k.halted = true ∨ s.startsFirst core ≠ some slot then
      ((s.inputTiles core b).1.foldl (fun s t => if s.tag t.1 t.2 = .via then s.startPull t.1 t.2 else s) s)
    else match k.freePids, k.poolFree with
      | pid :: rest, some i =>
        (s.setCore core { k with inbox := k.inbox.drop slot, freePids := rest, pool := k.pool ++ [i] }).create core pid (s.taskProc core b i)
      | _, _ => s

/-! ## The privileged event queue (R284, R285) -/

/-- EVENT_RECORD_POST (R284). A held record is posted into the privileged event queue when space appears. -/
def execEventRecordPost (die : Nat) (s : State) : Host.Outcome State Fault Refusal :=
  let d := s.die die
  .next <| match d.posting with
  | [] => s
  | r :: rest => if 256 ≤ d.queue.length then s else s.setDie die { d with queue := d.queue ++ [r], posting := rest }

/-- EVENT_RECORD_DELIVER (R284). The event queue delivers its oldest record into a free inbox slot, slot 7 first; a record whose EVVEC is 0 is
discarded and counted. -/
def execEventRecordDeliver (die : Nat) (s : State) : Host.Outcome State Fault Refusal :=
  let d := s.die die
  let c := die * 384
  let k := s.core c
  .next <| match d.queue with
  | [] => s
  | r :: rest =>
    if !d.evEn then s
    else if d.evvec.get 0 (fld (r.getD 0 0).toNat 56 8) = 0 then s.setDie die { d with queue := rest, evDrop := min (d.evDrop + 1) (2 ^ 32 - 1) }
    else match [7, 0, 1, 2, 3, 4, 5, 6].find? (fun i => k.inbox.all (fun e => e.1 != i)) with
      | none => s
      | some i =>
        let b : Inbox := ⟨r, true, s.nextId, 0, []⟩
        ({ s with nextId := s.nextId + 1 }.setDie die { d with queue := rest }).setCore c { k with inbox := k.inbox.set i b }

/-! ## Residency (R272, R275) -/

/-- The resident processes of a core. -/
def State.residents (s : State) (core : Nat) : List Nat := (s.core core).slots.map (fun pid => core * 256 + pid)
/-- The one of a list that has waited longest, or has been resident longest. -/
def State.oldest (s : State) (f : Proc → Nat) (xs : List Nat) : Option Nat :=
  xs.find? (fun pk => xs.all (fun q => decide (f (s.proc pk) ≤ f (s.proc q))))
/-- The victim of the second case: among those of lowest priority, one that waits before one that runs. -/
def State.lowVictim (s : State) (core h : Nat) : Option Nat :=
  let low := (s.residents core).filter (fun pk => decide ((s.proc pk).prio < (s.proc h).prio))
  let least := low.filter (fun pk => low.all (fun q => decide ((s.proc pk).prio ≤ (s.proc q).prio)))
  let waiting := least.filter (fun pk => (s.proc pk).waits)
  if waiting.isEmpty then s.oldest (·.resSince) least else s.oldest (·.since) waiting
/-- The victim of the third case. -/
def State.waitVictim (s : State) (core h : Nat) : Option Nat :=
  s.oldest (·.since) ((s.residents core).filter (fun pk =>
    let p := s.proc pk
    p.waits && decide (p.prio ≤ (s.proc h).prio ∧ 64 ≤ s.cycles (dieOfCore core) (s.dtime - p.since))))
/-- The victim of the fourth case. -/
def State.sliceVictim (s : State) (core h : Nat) : Option Nat :=
  s.oldest (·.resSince) ((s.residents core).filter (fun pk =>
    let p := s.proc pk
    decide (p.state = .running ∧ p.prio = (s.proc h).prio ∧ 4096 ≤ p.issuedRes)))
/-- The victim leaves and h takes its slot. -/
def State.switchTo (s : State) (victim h : Nat) : State := (s.leave victim).enter h
/-- The head of the queues, and which case of R272 applies: 1 a free slot, 2 lower priority, 3 a long wait, 4 the slice; with the victim.
The resident processes of a halted core stay in their slots (R310), and a victim stays in its slot up to its next instruction boundary (R47). -/
def State.decision (s : State) (core : Nat) : Option (Nat × Nat × Nat) :=
  match if (s.core core).halted then none else s.headOf core with
  | none => none
  | some pid =>
    let h := core * 256 + pid
    if (s.core core).slots.length < (s.core core).slotCount then some (1, h, h)
    else
      let pick : Option (Nat × Nat × Nat) := match s.lowVictim core h with
        | some v => some (2, v, h)
        | none => match s.waitVictim core h with
          | some v => some (3, v, h)
          | none => (s.sliceVictim core h).map (fun v => (4, v, h))
      pick.filter (fun x => (s.proc x.2.1).atBoundary)

/-- A resident that CORECTL.HOLD puts out, now that it stands at a boundary (R279). -/
def State.putOut (s : State) (core : Nat) : Option Nat :=
  if (s.core core).halted then none else (s.residents core).find? (fun pk => s.heldOut pk)
/-- CONTEXT_SWITCH (R275). A victim leaves at an instruction boundary and the head of the queue becomes resident; one that HOLD puts out leaves. -/
def execContextSwitch (core : Nat) (s : State) : Host.Outcome State Fault Refusal :=
  .next <| match s.putOut core, s.decision core with
  | some v, _ => s.leave v
  | none, some (1, _, h) => s.enter h
  | none, some (2, v, h) => s.switchTo v h
  | _, _ => s

/-- SLICE_ROTATION (R272). A RUNNING process reaching 4,096 instructions becomes a victim for a ready peer. -/
def execSliceRotation (core : Nat) (s : State) : Host.Outcome State Fault Refusal :=
  .next <| match s.decision core with
  | some (4, v, h) => s.switchTo v h
  | _ => s

/-- BLOCKED_WAIT_LIMIT (R272). A resident BLOCKED or SLEEPING process waiting 64 cycles becomes a victim. -/
def execBlockedWaitLimit (core : Nat) (s : State) : Host.Outcome State Fault Refusal :=
  .next <| match s.decision core with
  | some (3, v, h) => s.switchTo v h
  | _ => s

/-! ## The deadlock probe (R287, R288) -/

def Src.coreNo : Src → Option Nat
  | .core n | .copyUnit n | .streamer n => some n
  | _ => none
/-- An operation that a limit bounds counts for a process of the die (R135, R86, R148). -/
def State.limitCounts (s : State) (d : Nat) : Bool :=
  let here (who : Nat) : Bool := decide (s.moduleOf who = s.modid ∧ dieOfCore (coreOf (s.keyOf who)) = d)
  let on (o : Option ChanOp) : Bool := match o with | some o => here o.who && decide (o.limit ≠ 0) && !o.committed | none => false
  -- an operation at a home of another module is taken to wait within its TIMEOUT
  let far (p : Proc) : Bool := decide (p.r.ctl.timeout ≠ 0) && p.outs.any (fun o => decide (o.kind = .chan ∧ hModule o.va ≠ s.modid))
  let deadline (p : Proc) : Bool := match p.multi with
    | some m => decide (m.form ≠ 0) && (List.range ((m.args.length - 1) / 2)).any (fun i => decide (guardKind (m.args.drop 1) i = 3))
    | none => false
  s.held.any (fun r => decide (r.limit ≠ 0) && here r.who) ||
    s.cores.any (fun (k : Nat × Core) => k.2.eps.any (fun e => on e.2.waiting || on e.2.lending || e.2.held.any (fun o => on (some o)))) ||
    s.units.any (fun u => on u.2.waiting || on u.2.sender) ||
    s.xfers.any (fun x => decide (x.read < x.n) && (match x.send with | some o => o.eager && on (some o) | none => false)) ||
    s.procs.any (fun (e : Nat × Proc) => decide (dieOfCore (coreOf e.1) = d ∧ e.2.state = .blocked) && (far e.2 || deadline e.2))
/-- A request of a process to another module has not been answered, and no notice says that it waits there. -/
def Proc.asks (p : Proc) (m : Nat) : Bool :=
  let waits (op : Nat) : Bool := decide (p.state = .blocked ∧ p.on = op ∧ p.wait ≠ 0)
  let far (h : Option Home) : Bool := match h with | some (.remote _) => true | _ => false
  p.unacked.any (fun u => far (some u.home) && !waits u.op) ||
    p.outs.any (fun o => (far o.home || (decide (o.kind = .chan) && p.multi.isNone && decide (hModule o.va ≠ m))) && !waits o.id)
/-- A request of an engine or of a channel home to another module, which stays in the replay buffers until it is answered. -/
def Body.engineAsks : Body → Bool
  | .stream _ => true
  | .req r => !r.isInstr
  | _ => false
/-- A held request counts as outstanding, but for one that its process is BLOCKED on, or of which it has a notice (log 51). -/
def State.heldOpen (s : State) (r : Req) : Bool :=
  let p := s.proc (s.keyOf r.who)
  match r.rop with
  | .engine .. => false
  | _ => !(r.isInstr && (r.noticed || decide (p.state = .blocked ∧ p.on = r.op)))
/-- The die is quiet. -/
def State.quiet (s : State) (d : Nat) : Bool :=
  let mine (c : Nat) : Bool := decide (dieOfCore c = d)
  s.procs.all (fun (e : Nat × Proc) => !mine (coreOf e.1) ||
      (decide (e.2.state = .free ∨ e.2.state = .blocked ∨ e.2.state = .exited) && !e.2.asks s.modid)) &&
    s.cores.all (fun (k : Nat × Core) => !mine k.1 || (k.2.tags.all (fun t => decide (t.2 ≠ .pending)) && k.2.acc.all (fun a => decide (a.2.tag ≠ .pending)))) &&
    -- requests on their way, and answers to the cores of the die
    s.net.all (fun m => !((m.src.coreNo.map mine).getD false) && (m.body.isRequest || !((m.dst.coreNo.map mine).getD false))) &&
    s.held.all (fun r => !((r.src.coreNo.map mine).getD false) || !s.heldOpen r) &&
    s.outbox.all (fun p => decide (p.port / 2 ≠ d) || !p.request) && s.sent.all (fun p => decide (p.port / 2 ≠ d) || !p.body.engineAsks) && !s.limitCounts d
/-- After every move: a die that is not quiet starts a new quiet period. -/
def State.watchQuiet (s : State) : State :=
  (s.dies.map (·.1)).foldl (fun s d => if s.quiet d then s else s.modDie d (fun v => { v with quietSince := s.dtime, reported := [] })) s

/-- Where an edge leads (R287): to a process, to none, or out of the module. -/
inductive Lead
  | proc (w : Nat)
  | nobody
  | away
  deriving DecidableEq, Repr
/-- Where a handle that stands for the holder of a lend leads. -/
def State.leadOf (s : State) (h : Word) : Lead :=
  if hModule h ≠ s.modid then .away
  else match s.holderOf h with
    | some w => .proc w
    | none => .nobody
/-- The receive end that is to hold a range which a SENDD has taken and not recorded yet (R99). -/
def State.takerOf (s : State) (c t : Nat) : Option Word :=
  let covers (o : ChanOp) : Bool := decide (o.form = 8 ∧ (tileOfPa o.val.toNat).1 = c) && o.taken.contains t
  let within (e : Endpoint) : Bool := (e.waiting.toList ++ e.lending.toList ++ e.held).any covers
  match s.cores.findSome? (fun (k : Nat × Core) => (k.2.eps.find? (fun e => within e.2)).map (fun e => (k.1, e.1))) with
  | some (k, i) => some (s.epHandle k (sendSlot i + 1))
  | none => (s.xfers.find? (fun x => match x.send with | some o => covers o | none => false)).map (fun x => s.epHandle x.core (x.slot + 1))
/-- The die of the home of the object that an edge names, where that is here. -/
def State.edgeDie (s : State) (p : Proc) (pk : Nat) : Option Nat :=
  let obj := p.wait.toNat % 2 ^ 60
  match p.wait.toNat / 2 ^ 60 with
  | 1 => if !s.isHere obj then none else match placeOf (paLocal obj) with
    | .scratch c _ => some (dieOfCore c)
    | .hbm => some (scarabOf (paLocal obj) / 32)
    | _ => some 0
  | 2 => let h : Word := BitVec.ofNat 64 (obj / 2 ^ 28 % 2 ^ 28 * 2 ^ 32)
    if hModule h ≠ s.modid then none else some (hDie h)
  | 3 => if s.moduleOf obj ≠ s.modid then none else some (dieOfCore (coreOf (s.keyOf obj)))
  | 4 => some (fld obj 8 2)
  | 7 => if fld obj 19 7 = s.modid then some (fld obj 17 2) else none
  | _ => some (dieOfCore (coreOf pk))
/-- Where the wait-for edge of a BLOCKED process leads (R287). -/
def State.edgeTo (s : State) (p : Proc) : Lead :=
  let x := p.wait.toNat
  let obj := x % 2 ^ 60
  match x / 2 ^ 60 with
  | 1 =>
    if !s.isHere obj then .away
    else
      let la := paLocal obj
      let covers (l : Lend) : Bool := decide (l.src ≤ la ∧ la < l.src + l.len)
      let of (h : Option Word) : Lead := match h with | some h => s.leadOf h | none => .nobody
      match placeOf la with
      | .scratch c off =>
        (match tileAt (inWindow off) with
        | some t =>
          if s.tag c t ≠ .lent then .nobody
          else match (s.core c).lends.find? covers with
            | some l => s.leadOf l.holder
            | none => of (s.takerOf c t)
        | none => .nobody)
      | .hbm => of ((s.lendsHbm.find? (fun e => covers e.2)).map (·.2.holder))
      | _ => .nobody
  | 2 =>
    let h : Word := match p.outs.find? (fun o => decide (o.id = p.on)) with
      | some o => if o.kind = .chan ∧ p.multi.isNone = true then o.va else BitVec.ofNat 64 (obj / 2 ^ 28 % 2 ^ 28 * 2 ^ 32)
      | none => BitVec.ofNat 64 (obj / 2 ^ 28 % 2 ^ 28 * 2 ^ 32)
    if hModule h ≠ s.modid then .away
    else if hKind h ≠ 0 then .nobody
    else
      let e := s.ep (hHome h) (peerSlot (hSlot h))
      if e.state = 2 then .proc e.owner else .nobody
  | 3 => .proc obj
  | _ => .nobody
/-- The processes that a chain passes, and how it ends: 1 back at its start, 2 at an object that leads to no process, 3 at another module, 0 not
reported. Every die that it passes, of a process or of an object, has to be quiet. -/
def State.chain (s : State) (start : Nat) : Nat → Nat → List Nat → List Nat × Nat
  | 0, _, seen => (seen, 0)
  | n + 1, w, seen =>
    let pk := s.keyOf w
    let p := s.proc pk
    if s.moduleOf w ≠ s.modid then (seen, 3)
    else if p.state ≠ .blocked ∨ s.quiet (dieOfCore (coreOf pk)) = false then (seen, 0)
    else if (match s.edgeDie p pk with | some d => !s.quiet d | none => false) = true then (seen, 0)
    else match s.edgeTo p with
      | .nobody => (seen ++ [w], 2)
      | .away => (seen ++ [w], 3)
      | .proc t => if t = start then (seen ++ [w], 1) else if seen.contains t ∨ t = w then (seen, 0) else s.chain start n t (seen ++ [w])
/-- The record of a chain: its processes, and those of other modules that it passed. -/
def State.reportChain (s : State) (d : Nat) (ws : List Nat) (far : List Word) (type_ : Nat) : State :=
  let links := (ws.map (fun w => BitVec.ofNat 64 (w + (s.proc (s.keyOf w)).wait.toNat / 2 ^ 60 * 2 ^ 28)) ++ far).take 6
  let w := ws.headD 0
  s.post d 5 (s.proc (s.keyOf w)).asid w (BitVec.ofNat 64 (type_ + links.length * 2 ^ 8) :: links)
/-- Every chain is reported once, by the die of its lowest process word; a cycle from that word on. Of a chain that leaves the module the rest comes
from outside: whether it is reported, as a cycle or a stall, and the links that it adds (log 88). -/
def State.probeFrom (s : State) (d : Nat) (w : Nat) : State :=
  match s.chain w (s.procs.length + 1) w [] with
  | (ws, k) =>
    let low := ws.foldl min w
    let type_ := if k ≠ 3 then k else if Config.freeBool s.fresh then 1 else 2
    let far := if k ≠ 3 then [] else (List.range ((Config.freeReg s.fresh).toNat % 6)).map (fun i => Config.freeReg (s.fresh + 1 + i) &&& 0xF3FFFFFF#64)
    let key := 2 * w + (type_ - 1)
    let s1 := if k = 3 then s.bump 8 else s
    if k = 0 ∨ dieOfCore (coreOf (s.keyOf low)) ≠ d ∨ (type_ = 1 ∧ low ≠ w) ∨ (s.die d).reported.contains key ∨ (k = 3 ∧ Config.freeBool (s.fresh + 7) = true) then s1
    else (s1.reportChain d ws far type_).modDie d (fun v => { v with reported := v.reported ++ [key] })

/-- DEADLOCK_PROBE (R288). A die quiet for DLCTL.WAIT probes wait-for chains and reports cycles and stalls. -/
def execDeadlockProbe (die : Nat) (s : State) : Host.Outcome State Fault Refusal :=
  let d := s.die die
  let words := (s.procs.filter (fun (e : Nat × Proc) => decide (e.2.state = .blocked) && e.2.away.isNone)).map (fun e => s.originWord e.1)
  .next (if d.dlWait = 0 ∨ s.quiet die = false ∨ s.dtime < d.quietSince + d.dlWait then s else words.foldl (fun s w => s.probeFrom die w) s)

end Sys2Proof.Machine
end

