-- ==== Sys2Proof/Machine/Vector.lean ====
section
/-! DEFINITION. Vector arithmetic, compares, conversion, reductions, moves, permutations and mask logic (spec/10_vector.md R188, R189, R193 to
R202). -/
namespace Sys2Proof.Machine

/-! ## Shared operations -/

/-- The integer operations on lanes of s bits (R193, R194). -/
def laneOp (s : Nat) (f : Int → Int → Int) (a b : Nat) : Nat × Flags := (laneOfInt s (f (signedLane s a) (signedLane s b)), 0)
def laneOpU (s : Nat) (f : Nat → Nat → Nat) (a b : Nat) : Nat × Flags := (f a b % 2 ^ s, 0)
/-- Shift amounts are b[log2(s) - 1 : 0]. -/
def laneShift (s : Nat) (f : Nat → Nat → Nat) (a b : Nat) : Nat × Flags := (f a (b % s) % 2 ^ s, 0)
def laneSra (s : Nat) (a b : Nat) : Nat × Flags := (laneOfInt s (signedLane s a / 2 ^ (b % s)), 0)
def laneAdds (s : Nat) (a b : Nat) : Nat × Flags :=
  let x := satInt s (signedLane s a + signedLane s b)
  (laneOfInt s x.1, x.2)

/-- An integer form: f is given the lane size and the two lanes. -/
def vecInt (w : Nat) (o : VI) (f : Nat → Nat → Nat → Nat × Flags) (s : State) : Host.Outcome State Fault Refusal :=
  issuePure (infoVI o w) (fun r =>
    let n := sizeBits o.size
    let x := vecMap n (r.getQ o.q) (r.getV o.vd) (fun j => f n (getLane (r.getV o.va) n j) (getLane (r.getV o.vb) n j))
    (r.orFlags x.2).setV o.vd x.1) s
/-- A float form with two sources; the third lane given is that of vd. -/
def vecFloat (w : Nat) (o : VF) (F : Fmt) (f : Fmt → Nat → Nat → Nat → Nat × Flags) (s : State) : Host.Outcome State Fault Refusal :=
  issuePure (infoVF o w) (fun r =>
    let n := F.bits
    let x := vecMap n (r.getQ o.q) (r.getV o.vd)
      (fun j => f F (getLane (r.getV o.vd) n j) (getLane (r.getV o.va) n j) (getLane (r.getV o.vb) n j))
    (r.orFlags x.2).setV o.vd x.1) s
/-- A float form with one source. -/
def vecFloat1 (w : Nat) (o : VF1) (F : Fmt) (f : Fmt → Nat → Nat × Flags) (s : State) : Host.Outcome State Fault Refusal :=
  issuePure (infoVF1 o w) (fun r =>
    let n := F.bits
    let x := vecMap n (r.getQ o.q) (r.getV o.vd) (fun j => f F (getLane (r.getV o.va) n j))
    (r.orFlags x.2).setV o.vd x.1) s

/-- VABS and VNEG change the sign bit alone (R195). -/
def signClear (F : Fmt) (a : Nat) : Nat × Flags := (a % 2 ^ (F.bits - 1), 0)
def signFlip (F : Fmt) (a : Nat) : Nat × Flags := (Nat.xor a (2 ^ (F.bits - 1)), 0)
/-- The correctly rounded functions of R196. -/
def fopExp2 (F : Fmt) (a : Nat) : Nat × Flags := roundRne F (valExp2 (F.value a))
def fopLog2 (F : Fmt) (a : Nat) : Nat × Flags := roundRne F (valLog2 (F.value a))
def fopRcp (F : Fmt) (a : Nat) : Nat × Flags := roundRne F (valRcp F.f (F.value a))
def fopRsq (F : Fmt) (a : Nat) : Nat × Flags := roundRne F (valRsq F.f (F.value a))

/-- The float format of a vector type; FP32 stands for the integer types, which do not use it. -/
def vtyFmt : VTy → Fmt
  | .f16 => .fp16
  | .bf16 => .bf16
  | _ => .fp32
/-- A compare of all lanes into two masks (R197). -/
def vecCompare (w : Nat) (o : VC) (ci : Int → Int → Bool) (cf : Fmt → Nat → Nat → Bool × Flags) (s : State) : Host.Outcome State Fault Refusal :=
  issuePure (infoVC o w) (fun r =>
    let n := vtyBits o.ty
    let one (j : Nat) : Bool × Flags :=
      let a := getLane (r.getV o.va) n j
      let b := getLane (r.getV o.vb) n j
      if o.ty.isInt then (ci (signedLane n a) (signedLane n b), 0) else cf (vtyFmt o.ty) a b
    let cs := (List.range (laneCount n)).map one
    ((r.orFlags (cs.foldl (fun a c => a ||| c.2) 0)).setQ o.qT (maskOf (cs.map (·.1)))).setQ o.qF (maskOf (cs.map (fun c => !c.1)))) s
/-- Unsigned order of lanes that were read as signed numbers of one size. -/
def ltuInt (a b : Int) : Bool := if (a < 0) = (b < 0) then decide (a < b) else decide (b < 0)
/-- NE and ORD of floats (R197). -/
def fcondNe (F : Fmt) (a b : Nat) : Bool × Flags := let x := fcondEq F a b; (!x.1, x.2)
def fcondOrd (F : Fmt) (a b : Nat) : Bool × Flags := let x := fcondUn F a b; (!x.1, x.2)

/-- The value of a lane of a VCVT type. -/
def ctyValue (t : CTy) (x : Nat) : Val :=
  match t with
  | .i8 => .ofInt (signedLane 8 x)
  | .i16 => .ofInt (signedLane 16 x)
  | .i32 => .ofInt (signedLane 32 x)
  | .f16 => Fmt.fp16.value x
  | .bf16 => Fmt.bf16.value x
  | .f32 => Fmt.fp32.value x
  | .e4m3 => Fmt.e4m3.value x
  | .e5m2 => Fmt.e5m2.value x
/-- A value rounded into a lane of a VCVT type (R181, R198). -/
def ctyRound (t : CTy) (rm : Rm) (v : Val) : Nat × Flags :=
  let int (n : Nat) : Nat × Flags := let x := roundInt (-(2 ^ (n - 1))) (2 ^ (n - 1) - 1) rm v; (laneOfInt n x.1, x.2)
  match t with
  | .i8 => int 8
  | .i16 => int 16
  | .i32 => int 32
  | .f16 => roundTo .fp16 rm v
  | .bf16 => roundTo .bf16 rm v
  | .f32 => roundTo .fp32 rm v
  | .e4m3 => roundTo .e4m3 rm v
  | .e5m2 => roundTo .e5m2 rm v

/-- The pairing of R199, level by level. -/
def pairUp (f : Nat → Nat → Nat × Flags) : List Nat → List Nat × Flags
  | a :: b :: r => let x := f a b; let y := pairUp f r; (x.1 :: y.1, x.2 ||| y.2)
  | r => (r, 0)
def pairAll (f : Nat → Nat → Nat × Flags) : Nat → List Nat → Nat × Flags
  | 0, xs => (xs.headD 0, 0)
  | n + 1, xs => let y := pairUp f xs; let z := pairAll f n y.1; (z.1, y.2 ||| z.2)
/-- A reduction of the lanes of va into lane 0 of vd (R199). -/
def vecReduce (w : Nat) (o : VR) (id : VTy → Nat) (f : VTy → Nat → Nat → Nat × Flags) (isum : Bool) (s : State) : Host.Outcome State Fault Refusal :=
  issuePure (infoVR o w) (fun r =>
    let n := vtyBits o.ty
    let q := r.getQ o.q
    let t := (List.range (laneCount n)).map (fun j => if q.getLsbD j then getLane (r.getV o.va) n j else id o.ty)
    let x : Nat × Flags :=
      if isum && o.ty.isInt then
        let y := satInt n ((t.map (signedLane n)).foldl (· + ·) 0)
        (laneOfInt n y.1, y.2)
      else pairAll (f o.ty) 7 t
    let old := toLanes n (r.getV o.vd)
    (r.orFlags x.2).setV o.vd (ofLanes n (x.1 :: old.drop 1))) s
/-- The identities of R199. -/
def sumId (t : VTy) : Nat := if t.isInt then 0 else 2 ^ (vtyBits t - 1)
def maxId (t : VTy) : Nat := if t.isInt then 2 ^ (vtyBits t - 1) else (vtyFmt t).infCode true
def minId (t : VTy) : Nat := if t.isInt then 2 ^ (vtyBits t - 1) - 1 else (vtyFmt t).infCode false
def sumOp (t : VTy) (a b : Nat) : Nat × Flags := fopAdd (vtyFmt t) a b
def maxOp (t : VTy) (a b : Nat) : Nat × Flags := if t.isInt then laneOp (vtyBits t) max a b else (vtyFmt t).minmax true a b
def minOp (t : VTy) (a b : Nat) : Nat × Flags := if t.isInt then laneOp (vtyBits t) min a b else (vtyFmt t).minmax false a b

/-- A permutation: f gives the source of lane j from the number of lanes and the two sources (R201). -/
def vecPerm (w : Nat) (o : VX) (f : Nat → (Nat → Nat) → (Nat → Nat) → Nat → Nat) (s : State) : Host.Outcome State Fault Refusal :=
  issuePure (infoVX o w) (fun r =>
    let n := sizeBits o.size
    let x := vecMap n (r.getQ o.q) (r.getV o.vd)
      (fun j => (f (laneCount n) (getLane (r.getV o.va) n) (getLane (r.getV o.vb) n) j, 0))
    r.setV o.vd x.1) s
/-- QLOG (R202). -/
def maskLogic (w : Nat) (o : PL) (f : Mask → Mask → Mask) (s : State) : Host.Outcome State Fault Refusal :=
  issuePure (infoPLQ o w) (fun r => r.setQ o.d (f (r.getQ o.a) (r.getQ o.b))) s

/-! ## Reductions (R199) -/

/-- VRSUM (R199). Reduces active lanes by sum into lane 0. -/
def execVrsum (o : VR) (s : State) : Host.Outcome State Fault Refusal :=
  vecReduce (packVR 0x25 0 o) o sumId sumOp true s

/-- VRMAX (R199). Reduces active lanes by maximum into lane 0. -/
def execVrmax (o : VR) (s : State) : Host.Outcome State Fault Refusal :=
  vecReduce (packVR 0x25 1 o) o maxId maxOp false s

/-- VRMIN (R199). Reduces active lanes by minimum into lane 0. -/
def execVrmin (o : VR) (s : State) : Host.Outcome State Fault Refusal :=
  vecReduce (packVR 0x25 2 o) o minId minOp false s

/-! ## Moves (R200) -/

/-- VBCAST (R200). Broadcasts g[a] into every lane of vd. -/
def execVbcast (o : VB) (s : State) : Host.Outcome State Fault Refusal :=
  issuePure (infoVB o (packVB 0x26 0 o)) (fun r =>
    let n := sizeBits o.size
    r.setV o.v (ofLanes n (List.replicate (laneCount n) ((r.getG o.g).toNat % 2 ^ n)))) s

/-- VEXT (R200). Extracts a lane zero-extended into gd. -/
def execVext (o : VM) (s : State) : Host.Outcome State Fault Refusal :=
  issuePure (infoVMX o (packVM 0x26 1 o)) (fun r => r.setG o.g (BitVec.ofNat 64 (getLane (r.getV o.v) (sizeBits o.size) o.lane.toNat))) s

/-- VEXTS (R200). Extracts a lane sign-extended into gd. -/
def execVexts (o : VM) (s : State) : Host.Outcome State Fault Refusal :=
  issuePure (infoVMX o (packVM 0x26 2 o)) (fun r =>
    let n := sizeBits o.size
    r.setG o.g (BitVec.ofInt 64 (signedLane n (getLane (r.getV o.v) n o.lane.toNat)))) s

/-- VINS (R200). Inserts g[a] into one lane of vd. -/
def execVins (o : VM) (s : State) : Host.Outcome State Fault Refusal :=
  issuePure (infoVMI o (packVM 0x26 3 o)) (fun r =>
    let n := sizeBits o.size
    r.setV o.v (ofLanes n ((toLanes n (r.getV o.v)).set o.lane.toNat ((r.getG o.g).toNat % 2 ^ n)))) s

/-! ## Permutations (R201) -/

/-- VSEL (R201). Selects lanes of va or vb by the mask. -/
def execVsel (o : VX) (s : State) : Host.Outcome State Fault Refusal :=
  issuePure { infoVX o (packVX 0x27 0 o) with reads := [(1, o.va.toNat), (1, o.vb.toNat), (2, o.q.toNat)] } (fun r =>
    let n := sizeBits o.size
    let q := r.getQ o.q
    r.setV o.vd (ofLanes n ((List.range (laneCount n)).map (fun j => if q.getLsbD j then getLane (r.getV o.va) n j else getLane (r.getV o.vb) n j)))) s

/-- VPERM (R201). Permutes lanes of va by indices in vb. -/
def execVperm (o : VX) (s : State) : Host.Outcome State Fault Refusal :=
  vecPerm (packVX 0x27 1 o) o (fun n a b j => a (b j % n)) s

/-- VZIP (R201). Interleaves lanes of va and vb. -/
def execVzip (o : VX) (s : State) : Host.Outcome State Fault Refusal :=
  vecPerm (packVX 0x27 2 o) o (fun _ a b j => if j % 2 = 0 then a (j / 2) else b (j / 2)) s

/-- VUNZIP (R201). De-interleaves lanes of va and vb. -/
def execVunzip (o : VX) (s : State) : Host.Outcome State Fault Refusal :=
  vecPerm (packVX 0x27 3 o) o (fun n a b j => if j < n / 2 then a (2 * j) else b (2 * (j - n / 2))) s

/-! ## Mask logic (R202) -/

/-- QAND (R202). Mask AND. -/
def execQand (o : PL) (s : State) : Host.Outcome State Fault Refusal :=
  maskLogic (packPL 0x28 0 o) o (fun a b => a &&& b) s

/-- QOR (R202). Mask OR. -/
def execQor (o : PL) (s : State) : Host.Outcome State Fault Refusal :=
  maskLogic (packPL 0x28 1 o) o (fun a b => a ||| b) s

/-- QXOR (R202). Mask XOR. -/
def execQxor (o : PL) (s : State) : Host.Outcome State Fault Refusal :=
  maskLogic (packPL 0x28 2 o) o (fun a b => a ^^^ b) s

/-- QANDN (R202). Mask AND NOT. -/
def execQandn (o : PL) (s : State) : Host.Outcome State Fault Refusal :=
  maskLogic (packPL 0x28 3 o) o (fun a b => a &&& ~~~ b) s

/-- QORN (R202). Mask OR NOT. -/
def execQorn (o : PL) (s : State) : Host.Outcome State Fault Refusal :=
  maskLogic (packPL 0x28 4 o) o (fun a b => a ||| ~~~ b) s

/-- QNAND (R202). Mask NAND. -/
def execQnand (o : PL) (s : State) : Host.Outcome State Fault Refusal :=
  maskLogic (packPL 0x28 5 o) o (fun a b => ~~~ (a &&& b)) s

/-- QNOR (R202). Mask NOR. -/
def execQnor (o : PL) (s : State) : Host.Outcome State Fault Refusal :=
  maskLogic (packPL 0x28 6 o) o (fun a b => ~~~ (a ||| b)) s

/-- QXNOR (R202). Mask XNOR. -/
def execQxnor (o : PL) (s : State) : Host.Outcome State Fault Refusal :=
  maskLogic (packPL 0x28 7 o) o (fun a b => ~~~ (a ^^^ b)) s

/-! ## Integer arithmetic (R193, R194) -/

/-- VADD_I (R193). Integer vector add modulo the lane size. -/
def execVaddI (o : VI) (s : State) : Host.Outcome State Fault Refusal :=
  vecInt (packVI (0x30 + o.size.code) 0 o) o (fun n => laneOp n (· + ·)) s

/-- VSUB_I (R193). Integer vector subtract. -/
def execVsubI (o : VI) (s : State) : Host.Outcome State Fault Refusal :=
  vecInt (packVI (0x30 + o.size.code) 1 o) o (fun n => laneOp n (· - ·)) s

/-- VMUL_I (R193). Integer vector multiply, low half. -/
def execVmulI (o : VI) (s : State) : Host.Outcome State Fault Refusal :=
  vecInt (packVI (0x30 + o.size.code) 2 o) o (fun n => laneOp n (· * ·)) s

/-- VMULH_I (R193). Integer vector signed multiply, high half. -/
def execVmulhI (o : VI) (s : State) : Host.Outcome State Fault Refusal :=
  vecInt (packVI (0x30 + o.size.code) 3 o) o (fun n => laneOp n (fun a b => a * b / 2 ^ n)) s

/-- VMIN_I (R193). Integer vector signed minimum. -/
def execVminI (o : VI) (s : State) : Host.Outcome State Fault Refusal :=
  vecInt (packVI (0x30 + o.size.code) 4 o) o (fun n => laneOp n min) s

/-- VMAX_I (R193). Integer vector signed maximum. -/
def execVmaxI (o : VI) (s : State) : Host.Outcome State Fault Refusal :=
  vecInt (packVI (0x30 + o.size.code) 5 o) o (fun n => laneOp n max) s

/-- VMINU (R193). Integer vector unsigned minimum. -/
def execVminu (o : VI) (s : State) : Host.Outcome State Fault Refusal :=
  vecInt (packVI (0x30 + o.size.code) 6 o) o (fun n => laneOpU n min) s

/-- VMAXU (R193). Integer vector unsigned maximum. -/
def execVmaxu (o : VI) (s : State) : Host.Outcome State Fault Refusal :=
  vecInt (packVI (0x30 + o.size.code) 7 o) o (fun n => laneOpU n max) s

/-- VAND (R193). Vector AND. -/
def execVand (o : VI) (s : State) : Host.Outcome State Fault Refusal :=
  vecInt (packVI (0x30 + o.size.code) 8 o) o (fun n => laneOpU n Nat.land) s

/-- VOR (R193). Vector OR. -/
def execVor (o : VI) (s : State) : Host.Outcome State Fault Refusal :=
  vecInt (packVI (0x30 + o.size.code) 9 o) o (fun n => laneOpU n Nat.lor) s

/-- VXOR (R193). Vector XOR. -/
def execVxor (o : VI) (s : State) : Host.Outcome State Fault Refusal :=
  vecInt (packVI (0x30 + o.size.code) 10 o) o (fun n => laneOpU n Nat.xor) s

/-- VANDN (R193). Vector AND NOT. -/
def execVandn (o : VI) (s : State) : Host.Outcome State Fault Refusal :=
  vecInt (packVI (0x30 + o.size.code) 11 o) o (fun n => laneOpU n (fun a b => Nat.land a (2 ^ n - 1 - b))) s

/-- VSHL (R193). Vector shift left. -/
def execVshl (o : VI) (s : State) : Host.Outcome State Fault Refusal :=
  vecInt (packVI (0x30 + o.size.code) 12 o) o (fun n => laneShift n (fun a k => a * 2 ^ k)) s

/-- VSHR (R193). Vector logical shift right. -/
def execVshr (o : VI) (s : State) : Host.Outcome State Fault Refusal :=
  vecInt (packVI (0x30 + o.size.code) 13 o) o (fun n => laneShift n (fun a k => a / 2 ^ k)) s

/-- VSRA (R193). Vector arithmetic shift right. -/
def execVsra (o : VI) (s : State) : Host.Outcome State Fault Refusal :=
  vecInt (packVI (0x30 + o.size.code) 14 o) o laneSra s

/-- VADDS (R194). Vector signed saturating add, setting SAT. -/
def execVadds (o : VI) (s : State) : Host.Outcome State Fault Refusal :=
  vecInt (packVI (0x30 + o.size.code) 15 o) o laneAdds s

/-! ## Floating point (R195, R196) -/

/-- VADD_F16 (R195). FP16 vector add. -/
def execVaddF16 (o : VF) (s : State) : Host.Outcome State Fault Refusal :=
  vecFloat (packVF 0x33 0 o) o .fp16 (fun F _ a b => fopAdd F a b) s

/-- VSUB_F16 (R195). FP16 vector subtract. -/
def execVsubF16 (o : VF) (s : State) : Host.Outcome State Fault Refusal :=
  vecFloat (packVF 0x33 1 o) o .fp16 (fun F _ a b => fopSub F a b) s

/-- VMUL_F16 (R195). FP16 vector multiply. -/
def execVmulF16 (o : VF) (s : State) : Host.Outcome State Fault Refusal :=
  vecFloat (packVF 0x33 2 o) o .fp16 (fun F _ a b => fopMul F a b) s

/-- VFMA_F16 (R195). FP16 vector fused multiply-add. -/
def execVfmaF16 (o : VF) (s : State) : Host.Outcome State Fault Refusal :=
  vecFloat (packVF 0x33 3 o) o .fp16 fopFma s

/-- VMIN_F16 (R195). FP16 vector minimum. -/
def execVminF16 (o : VF) (s : State) : Host.Outcome State Fault Refusal :=
  vecFloat (packVF 0x33 4 o) o .fp16 (fun F _ a b => F.minmax false a b) s

/-- VMAX_F16 (R195). FP16 vector maximum. -/
def execVmaxF16 (o : VF) (s : State) : Host.Outcome State Fault Refusal :=
  vecFloat (packVF 0x33 5 o) o .fp16 (fun F _ a b => F.minmax true a b) s

/-- VABS_F16 (R195). FP16 vector absolute value by sign bit. -/
def execVabsF16 (o : VF1) (s : State) : Host.Outcome State Fault Refusal :=
  vecFloat1 (packVF1 0x33 6 o) o .fp16 signClear s

/-- VNEG_F16 (R195). FP16 vector negation by sign bit. -/
def execVnegF16 (o : VF1) (s : State) : Host.Outcome State Fault Refusal :=
  vecFloat1 (packVF1 0x33 7 o) o .fp16 signFlip s

/-- VDIV_F16 (R195). FP16 vector divide. -/
def execVdivF16 (o : VF) (s : State) : Host.Outcome State Fault Refusal :=
  vecFloat (packVF 0x33 8 o) o .fp16 (fun F _ a b => fopDiv F a b) s

/-- VSQRT_F16 (R195). FP16 vector square root. -/
def execVsqrtF16 (o : VF1) (s : State) : Host.Outcome State Fault Refusal :=
  vecFloat1 (packVF1 0x33 9 o) o .fp16 fopSqrt s

/-- VEXP2_F16 (R196). FP16 vector correctly rounded 2^a. -/
def execVexp2F16 (o : VF1) (s : State) : Host.Outcome State Fault Refusal :=
  vecFloat1 (packVF1 0x33 10 o) o .fp16 fopExp2 s

/-- VLOG2_F16 (R196). FP16 vector correctly rounded log2. -/
def execVlog2F16 (o : VF1) (s : State) : Host.Outcome State Fault Refusal :=
  vecFloat1 (packVF1 0x33 11 o) o .fp16 fopLog2 s

/-- VRCP_F16 (R196). FP16 vector correctly rounded reciprocal. -/
def execVrcpF16 (o : VF1) (s : State) : Host.Outcome State Fault Refusal :=
  vecFloat1 (packVF1 0x33 12 o) o .fp16 fopRcp s

/-- VRSQ_F16 (R196). FP16 vector correctly rounded reciprocal square root. -/
def execVrsqF16 (o : VF1) (s : State) : Host.Outcome State Fault Refusal :=
  vecFloat1 (packVF1 0x33 13 o) o .fp16 fopRsq s

/-- VADD_BF16 (R195). BF16 vector add. -/
def execVaddBf16 (o : VF) (s : State) : Host.Outcome State Fault Refusal :=
  vecFloat (packVF 0x34 0 o) o .bf16 (fun F _ a b => fopAdd F a b) s

/-- VSUB_BF16 (R195). BF16 vector subtract. -/
def execVsubBf16 (o : VF) (s : State) : Host.Outcome State Fault Refusal :=
  vecFloat (packVF 0x34 1 o) o .bf16 (fun F _ a b => fopSub F a b) s

/-- VMUL_BF16 (R195). BF16 vector multiply. -/
def execVmulBf16 (o : VF) (s : State) : Host.Outcome State Fault Refusal :=
  vecFloat (packVF 0x34 2 o) o .bf16 (fun F _ a b => fopMul F a b) s

/-- VFMA_BF16 (R195). BF16 vector fused multiply-add. -/
def execVfmaBf16 (o : VF) (s : State) : Host.Outcome State Fault Refusal :=
  vecFloat (packVF 0x34 3 o) o .bf16 fopFma s

/-- VMIN_BF16 (R195). BF16 vector minimum. -/
def execVminBf16 (o : VF) (s : State) : Host.Outcome State Fault Refusal :=
  vecFloat (packVF 0x34 4 o) o .bf16 (fun F _ a b => F.minmax false a b) s

/-- VMAX_BF16 (R195). BF16 vector maximum. -/
def execVmaxBf16 (o : VF) (s : State) : Host.Outcome State Fault Refusal :=
  vecFloat (packVF 0x34 5 o) o .bf16 (fun F _ a b => F.minmax true a b) s

/-- VABS_BF16 (R195). BF16 vector absolute value. -/
def execVabsBf16 (o : VF1) (s : State) : Host.Outcome State Fault Refusal :=
  vecFloat1 (packVF1 0x34 6 o) o .bf16 signClear s

/-- VNEG_BF16 (R195). BF16 vector negation. -/
def execVnegBf16 (o : VF1) (s : State) : Host.Outcome State Fault Refusal :=
  vecFloat1 (packVF1 0x34 7 o) o .bf16 signFlip s

/-- VDIV_BF16 (R195). BF16 vector divide. -/
def execVdivBf16 (o : VF) (s : State) : Host.Outcome State Fault Refusal :=
  vecFloat (packVF 0x34 8 o) o .bf16 (fun F _ a b => fopDiv F a b) s

/-- VSQRT_BF16 (R195). BF16 vector square root. -/
def execVsqrtBf16 (o : VF1) (s : State) : Host.Outcome State Fault Refusal :=
  vecFloat1 (packVF1 0x34 9 o) o .bf16 fopSqrt s

/-- VEXP2_BF16 (R196). BF16 vector 2^a. -/
def execVexp2Bf16 (o : VF1) (s : State) : Host.Outcome State Fault Refusal :=
  vecFloat1 (packVF1 0x34 10 o) o .bf16 fopExp2 s

/-- VLOG2_BF16 (R196). BF16 vector log2. -/
def execVlog2Bf16 (o : VF1) (s : State) : Host.Outcome State Fault Refusal :=
  vecFloat1 (packVF1 0x34 11 o) o .bf16 fopLog2 s

/-- VRCP_BF16 (R196). BF16 vector reciprocal. -/
def execVrcpBf16 (o : VF1) (s : State) : Host.Outcome State Fault Refusal :=
  vecFloat1 (packVF1 0x34 12 o) o .bf16 fopRcp s

/-- VRSQ_BF16 (R196). BF16 vector reciprocal square root. -/
def execVrsqBf16 (o : VF1) (s : State) : Host.Outcome State Fault Refusal :=
  vecFloat1 (packVF1 0x34 13 o) o .bf16 fopRsq s

/-- VADD_F32 (R195). FP32 vector add. -/
def execVaddF32 (o : VF) (s : State) : Host.Outcome State Fault Refusal :=
  vecFloat (packVF 0x35 0 o) o .fp32 (fun F _ a b => fopAdd F a b) s

/-- VSUB_F32 (R195). FP32 vector subtract. -/
def execVsubF32 (o : VF) (s : State) : Host.Outcome State Fault Refusal :=
  vecFloat (packVF 0x35 1 o) o .fp32 (fun F _ a b => fopSub F a b) s

/-- VMUL_F32 (R195). FP32 vector multiply. -/
def execVmulF32 (o : VF) (s : State) : Host.Outcome State Fault Refusal :=
  vecFloat (packVF 0x35 2 o) o .fp32 (fun F _ a b => fopMul F a b) s

/-- VFMA_F32 (R195). FP32 vector fused multiply-add. -/
def execVfmaF32 (o : VF) (s : State) : Host.Outcome State Fault Refusal :=
  vecFloat (packVF 0x35 3 o) o .fp32 fopFma s

/-- VMIN_F32 (R195). FP32 vector minimum. -/
def execVminF32 (o : VF) (s : State) : Host.Outcome State Fault Refusal :=
  vecFloat (packVF 0x35 4 o) o .fp32 (fun F _ a b => F.minmax false a b) s

/-- VMAX_F32 (R195). FP32 vector maximum. -/
def execVmaxF32 (o : VF) (s : State) : Host.Outcome State Fault Refusal :=
  vecFloat (packVF 0x35 5 o) o .fp32 (fun F _ a b => F.minmax true a b) s

/-- VABS_F32 (R195). FP32 vector absolute value. -/
def execVabsF32 (o : VF1) (s : State) : Host.Outcome State Fault Refusal :=
  vecFloat1 (packVF1 0x35 6 o) o .fp32 signClear s

/-- VNEG_F32 (R195). FP32 vector negation. -/
def execVnegF32 (o : VF1) (s : State) : Host.Outcome State Fault Refusal :=
  vecFloat1 (packVF1 0x35 7 o) o .fp32 signFlip s

/-- VDIV_F32 (R195). FP32 vector divide. -/
def execVdivF32 (o : VF) (s : State) : Host.Outcome State Fault Refusal :=
  vecFloat (packVF 0x35 8 o) o .fp32 (fun F _ a b => fopDiv F a b) s

/-- VSQRT_F32 (R195). FP32 vector square root. -/
def execVsqrtF32 (o : VF1) (s : State) : Host.Outcome State Fault Refusal :=
  vecFloat1 (packVF1 0x35 9 o) o .fp32 fopSqrt s

/-- VEXP2_F32 (R196). FP32 vector 2^a. -/
def execVexp2F32 (o : VF1) (s : State) : Host.Outcome State Fault Refusal :=
  vecFloat1 (packVF1 0x35 10 o) o .fp32 fopExp2 s

/-- VLOG2_F32 (R196). FP32 vector log2. -/
def execVlog2F32 (o : VF1) (s : State) : Host.Outcome State Fault Refusal :=
  vecFloat1 (packVF1 0x35 11 o) o .fp32 fopLog2 s

/-- VRCP_F32 (R196). FP32 vector reciprocal. -/
def execVrcpF32 (o : VF1) (s : State) : Host.Outcome State Fault Refusal :=
  vecFloat1 (packVF1 0x35 12 o) o .fp32 fopRcp s

/-- VRSQ_F32 (R196). FP32 vector reciprocal square root. -/
def execVrsqF32 (o : VF1) (s : State) : Host.Outcome State Fault Refusal :=
  vecFloat1 (packVF1 0x35 13 o) o .fp32 fopRsq s

/-! ## Compares (R197) -/

/-- VCMPEQ (R197). Vector equality compare into a mask pair. -/
def execVcmpeq (o : VC) (s : State) : Host.Outcome State Fault Refusal :=
  vecCompare (packVC 0x36 0 o) o (fun a b => decide (a = b)) fcondEq s

/-- VCMPNE (R197). Vector inequality compare into a mask pair. -/
def execVcmpne (o : VC) (s : State) : Host.Outcome State Fault Refusal :=
  vecCompare (packVC 0x36 1 o) o (fun a b => decide (a ≠ b)) fcondNe s

/-- VCMPLT (R197). Vector less-than compare. -/
def execVcmplt (o : VC) (s : State) : Host.Outcome State Fault Refusal :=
  vecCompare (packVC 0x36 2 o) o (fun a b => decide (a < b)) fcondLt s

/-- VCMPLE (R197). Vector less-or-equal compare. -/
def execVcmple (o : VC) (s : State) : Host.Outcome State Fault Refusal :=
  vecCompare (packVC 0x36 3 o) o (fun a b => decide (a ≤ b)) fcondLe s

/-- VCMPLTU (R197). Vector unsigned less-than compare. -/
def execVcmpltu (o : VC) (s : State) : Host.Outcome State Fault Refusal :=
  vecCompare (packVC 0x36 4 o) o ltuInt (fun _ _ _ => (false, 0)) s

/-- VCMPLEU (R197). Vector unsigned less-or-equal compare. -/
def execVcmpleu (o : VC) (s : State) : Host.Outcome State Fault Refusal :=
  vecCompare (packVC 0x36 5 o) o (fun a b => !ltuInt b a) (fun _ _ _ => (false, 0)) s

/-- VCMPUN (R197). Vector unordered compare. -/
def execVcmpun (o : VC) (s : State) : Host.Outcome State Fault Refusal :=
  vecCompare (packVC 0x36 6 o) o (fun _ _ => false) fcondUn s

/-- VCMPORD (R197). Vector ordered compare. -/
def execVcmpord (o : VC) (s : State) : Host.Outcome State Fault Refusal :=
  vecCompare (packVC 0x36 7 o) o (fun _ _ => false) fcondOrd s

/-! ## Conversion (R198) -/

/-- VCVT (R198). Converts active lanes between vector formats with a rounding mode. -/
def execVcvt (o : VV) (s : State) : Host.Outcome State Fault Refusal :=
  issuePure (infoVV o (packVV 0x37 o)) (fun r =>
    let a := ctyBits o.src
    let b := ctyBits o.dst
    let m := laneCount (max a b)
    let q := r.getQ o.q
    let x := vecMap b (q &&& BitVec.ofNat 128 (2 ^ m - 1)) (r.getV o.vd) (fun j => ctyRound o.dst o.rm (ctyValue o.src (getLane (r.getV o.va) a j)))
    (r.orFlags x.2).setV o.vd x.1) s

end Sys2Proof.Machine
end

