-- ==== Sys2Proof/Machine/Dispatch.lean ====
section
/-! DEFINITION. What each instruction word, and each step of the device, does: one arm for each constructor, one call of its meaning. -/
namespace Sys2Proof.Machine

def exec (i : Instr) (s : State) : Host.Outcome State Fault Refusal :=
  match i with
  | .add o => Sys2Proof.Machine.execAdd o s
  | .sub o => Sys2Proof.Machine.execSub o s
  | .and o => Sys2Proof.Machine.execAnd o s
  | .or o => Sys2Proof.Machine.execOr o s
  | .xor o => Sys2Proof.Machine.execXor o s
  | .andn o => Sys2Proof.Machine.execAndn o s
  | .shl o => Sys2Proof.Machine.execShl o s
  | .shr o => Sys2Proof.Machine.execShr o s
  | .sra o => Sys2Proof.Machine.execSra o s
  | .rol o => Sys2Proof.Machine.execRol o s
  | .min o => Sys2Proof.Machine.execMin o s
  | .max o => Sys2Proof.Machine.execMax o s
  | .minu o => Sys2Proof.Machine.execMinu o s
  | .maxu o => Sys2Proof.Machine.execMaxu o s
  | .adds o => Sys2Proof.Machine.execAdds o s
  | .subs o => Sys2Proof.Machine.execSubs o s
  | .mul o => Sys2Proof.Machine.execMul o s
  | .mulh o => Sys2Proof.Machine.execMulh o s
  | .mulhu o => Sys2Proof.Machine.execMulhu o s
  | .mulhsu o => Sys2Proof.Machine.execMulhsu o s
  | .div o => Sys2Proof.Machine.execDiv o s
  | .divu o => Sys2Proof.Machine.execDivu o s
  | .rem o => Sys2Proof.Machine.execRem o s
  | .remu o => Sys2Proof.Machine.execRemu o s
  | .clz o => Sys2Proof.Machine.execClz o s
  | .ctz o => Sys2Proof.Machine.execCtz o s
  | .popc o => Sys2Proof.Machine.execPopc o s
  | .brev o => Sys2Proof.Machine.execBrev o s
  | .bfx o => Sys2Proof.Machine.execBfx o s
  | .bfi o => Sys2Proof.Machine.execBfi o s
  | .addi o => Sys2Proof.Machine.execAddi o s
  | .andi o => Sys2Proof.Machine.execAndi o s
  | .ori o => Sys2Proof.Machine.execOri o s
  | .xori o => Sys2Proof.Machine.execXori o s
  | .shli o => Sys2Proof.Machine.execShli o s
  | .shri o => Sys2Proof.Machine.execShri o s
  | .srai o => Sys2Proof.Machine.execSrai o s
  | .roli o => Sys2Proof.Machine.execRoli o s
  | .imm o => Sys2Proof.Machine.execImm o s
  | .immh o => Sys2Proof.Machine.execImmh o s
  | .cmpeq o => Sys2Proof.Machine.execCmpeq o s
  | .cmpne o => Sys2Proof.Machine.execCmpne o s
  | .cmplt o => Sys2Proof.Machine.execCmplt o s
  | .cmple o => Sys2Proof.Machine.execCmple o s
  | .cmpgt o => Sys2Proof.Machine.execCmpgt o s
  | .cmpge o => Sys2Proof.Machine.execCmpge o s
  | .cmpltu o => Sys2Proof.Machine.execCmpltu o s
  | .cmpleu o => Sys2Proof.Machine.execCmpleu o s
  | .cmpgtu o => Sys2Proof.Machine.execCmpgtu o s
  | .cmpgeu o => Sys2Proof.Machine.execCmpgeu o s
  | .cmpeqi o => Sys2Proof.Machine.execCmpeqi o s
  | .cmpnei o => Sys2Proof.Machine.execCmpnei o s
  | .cmplti o => Sys2Proof.Machine.execCmplti o s
  | .cmplei o => Sys2Proof.Machine.execCmplei o s
  | .cmpgti o => Sys2Proof.Machine.execCmpgti o s
  | .cmpgei o => Sys2Proof.Machine.execCmpgei o s
  | .cmpltui o => Sys2Proof.Machine.execCmpltui o s
  | .cmpleui o => Sys2Proof.Machine.execCmpleui o s
  | .cmpgtui o => Sys2Proof.Machine.execCmpgtui o s
  | .cmpgeui o => Sys2Proof.Machine.execCmpgeui o s
  | .pand o => Sys2Proof.Machine.execPand o s
  | .por o => Sys2Proof.Machine.execPor o s
  | .pxor o => Sys2Proof.Machine.execPxor o s
  | .pandn o => Sys2Proof.Machine.execPandn o s
  | .porn o => Sys2Proof.Machine.execPorn o s
  | .pnand o => Sys2Proof.Machine.execPnand o s
  | .pnor o => Sys2Proof.Machine.execPnor o s
  | .pxnor o => Sys2Proof.Machine.execPxnor o s
  | .fcmpeq o => Sys2Proof.Machine.execFcmpeq o s
  | .fcmplt o => Sys2Proof.Machine.execFcmplt o s
  | .fcmple o => Sys2Proof.Machine.execFcmple o s
  | .fcmpun o => Sys2Proof.Machine.execFcmpun o s
  | .fadd o => Sys2Proof.Machine.execFadd o s
  | .fsub o => Sys2Proof.Machine.execFsub o s
  | .fmul o => Sys2Proof.Machine.execFmul o s
  | .fma o => Sys2Proof.Machine.execFma o s
  | .fmin o => Sys2Proof.Machine.execFmin o s
  | .fmax o => Sys2Proof.Machine.execFmax o s
  | .fdiv o => Sys2Proof.Machine.execFdiv o s
  | .fsqrt o => Sys2Proof.Machine.execFsqrt o s
  | .fcvtsh o => Sys2Proof.Machine.execFcvtsh o s
  | .fcvtsb o => Sys2Proof.Machine.execFcvtsb o s
  | .fcvths o => Sys2Proof.Machine.execFcvths o s
  | .fcvtbs o => Sys2Proof.Machine.execFcvtbs o s
  | .fcvtsi o => Sys2Proof.Machine.execFcvtsi o s
  | .fcvtis o => Sys2Proof.Machine.execFcvtis o s
  | .fcvthi o => Sys2Proof.Machine.execFcvthi o s
  | .fcvtih o => Sys2Proof.Machine.execFcvtih o s
  | .fcvtsu o => Sys2Proof.Machine.execFcvtsu o s
  | .fcvtus o => Sys2Proof.Machine.execFcvtus o s
  | .fcvthb o => Sys2Proof.Machine.execFcvthb o s
  | .fcvtbh o => Sys2Proof.Machine.execFcvtbh o s
  | .br o => Sys2Proof.Machine.execBr o s
  | .jal o => Sys2Proof.Machine.execJal o s
  | .jr o => Sys2Proof.Machine.execJr o s
  | .ldb o => Sys2Proof.Machine.execLdb o s
  | .ldh o => Sys2Proof.Machine.execLdh o s
  | .ldw o => Sys2Proof.Machine.execLdw o s
  | .ldd o => Sys2Proof.Machine.execLdd o s
  | .ldbu o => Sys2Proof.Machine.execLdbu o s
  | .ldhu o => Sys2Proof.Machine.execLdhu o s
  | .ldwu o => Sys2Proof.Machine.execLdwu o s
  | .stb o => Sys2Proof.Machine.execStb o s
  | .sth o => Sys2Proof.Machine.execSth o s
  | .stw o => Sys2Proof.Machine.execStw o s
  | .std o => Sys2Proof.Machine.execStd o s
  | .ldx o => Sys2Proof.Machine.execLdx o s
  | .ldp o => Sys2Proof.Machine.execLdp o s
  | .stx o => Sys2Proof.Machine.execStx o s
  | .tempty o => Sys2Proof.Machine.execTempty o s
  | .tfull o => Sys2Proof.Machine.execTfull o s
  | .tqry o => Sys2Proof.Machine.execTqry o s
  | .twaitf o => Sys2Proof.Machine.execTwaitf o s
  | .twaite o => Sys2Proof.Machine.execTwaite o s
  | .watch o => Sys2Proof.Machine.execWatch o s
  | .unwatch o => Sys2Proof.Machine.execUnwatch o s
  | .waitw o => Sys2Proof.Machine.execWaitw o s
  | .lda o => Sys2Proof.Machine.execLda o s
  | .stl o => Sys2Proof.Machine.execStl o s
  | .amoadd o => Sys2Proof.Machine.execAmoadd o s
  | .amosmin o => Sys2Proof.Machine.execAmosmin o s
  | .amosmax o => Sys2Proof.Machine.execAmosmax o s
  | .amoumin o => Sys2Proof.Machine.execAmoumin o s
  | .amoumax o => Sys2Proof.Machine.execAmoumax o s
  | .amoand o => Sys2Proof.Machine.execAmoand o s
  | .amoor o => Sys2Proof.Machine.execAmoor o s
  | .amoxor o => Sys2Proof.Machine.execAmoxor o s
  | .amoswap o => Sys2Proof.Machine.execAmoswap o s
  | .amocas o => Sys2Proof.Machine.execAmocas o s
  | .vrsum o => Sys2Proof.Machine.execVrsum o s
  | .vrmax o => Sys2Proof.Machine.execVrmax o s
  | .vrmin o => Sys2Proof.Machine.execVrmin o s
  | .vbcast o => Sys2Proof.Machine.execVbcast o s
  | .vext o => Sys2Proof.Machine.execVext o s
  | .vexts o => Sys2Proof.Machine.execVexts o s
  | .vins o => Sys2Proof.Machine.execVins o s
  | .vsel o => Sys2Proof.Machine.execVsel o s
  | .vperm o => Sys2Proof.Machine.execVperm o s
  | .vzip o => Sys2Proof.Machine.execVzip o s
  | .vunzip o => Sys2Proof.Machine.execVunzip o s
  | .qand o => Sys2Proof.Machine.execQand o s
  | .qor o => Sys2Proof.Machine.execQor o s
  | .qxor o => Sys2Proof.Machine.execQxor o s
  | .qandn o => Sys2Proof.Machine.execQandn o s
  | .qorn o => Sys2Proof.Machine.execQorn o s
  | .qnand o => Sys2Proof.Machine.execQnand o s
  | .qnor o => Sys2Proof.Machine.execQnor o s
  | .qxnor o => Sys2Proof.Machine.execQxnor o s
  | .fence o => Sys2Proof.Machine.execFence o s
  | .vaddI o => Sys2Proof.Machine.execVaddI o s
  | .vsubI o => Sys2Proof.Machine.execVsubI o s
  | .vmulI o => Sys2Proof.Machine.execVmulI o s
  | .vmulhI o => Sys2Proof.Machine.execVmulhI o s
  | .vminI o => Sys2Proof.Machine.execVminI o s
  | .vmaxI o => Sys2Proof.Machine.execVmaxI o s
  | .vminu o => Sys2Proof.Machine.execVminu o s
  | .vmaxu o => Sys2Proof.Machine.execVmaxu o s
  | .vand o => Sys2Proof.Machine.execVand o s
  | .vor o => Sys2Proof.Machine.execVor o s
  | .vxor o => Sys2Proof.Machine.execVxor o s
  | .vandn o => Sys2Proof.Machine.execVandn o s
  | .vshl o => Sys2Proof.Machine.execVshl o s
  | .vshr o => Sys2Proof.Machine.execVshr o s
  | .vsra o => Sys2Proof.Machine.execVsra o s
  | .vadds o => Sys2Proof.Machine.execVadds o s
  | .vaddF16 o => Sys2Proof.Machine.execVaddF16 o s
  | .vsubF16 o => Sys2Proof.Machine.execVsubF16 o s
  | .vmulF16 o => Sys2Proof.Machine.execVmulF16 o s
  | .vfmaF16 o => Sys2Proof.Machine.execVfmaF16 o s
  | .vminF16 o => Sys2Proof.Machine.execVminF16 o s
  | .vmaxF16 o => Sys2Proof.Machine.execVmaxF16 o s
  | .vabsF16 o => Sys2Proof.Machine.execVabsF16 o s
  | .vnegF16 o => Sys2Proof.Machine.execVnegF16 o s
  | .vdivF16 o => Sys2Proof.Machine.execVdivF16 o s
  | .vsqrtF16 o => Sys2Proof.Machine.execVsqrtF16 o s
  | .vexp2F16 o => Sys2Proof.Machine.execVexp2F16 o s
  | .vlog2F16 o => Sys2Proof.Machine.execVlog2F16 o s
  | .vrcpF16 o => Sys2Proof.Machine.execVrcpF16 o s
  | .vrsqF16 o => Sys2Proof.Machine.execVrsqF16 o s
  | .vaddBf16 o => Sys2Proof.Machine.execVaddBf16 o s
  | .vsubBf16 o => Sys2Proof.Machine.execVsubBf16 o s
  | .vmulBf16 o => Sys2Proof.Machine.execVmulBf16 o s
  | .vfmaBf16 o => Sys2Proof.Machine.execVfmaBf16 o s
  | .vminBf16 o => Sys2Proof.Machine.execVminBf16 o s
  | .vmaxBf16 o => Sys2Proof.Machine.execVmaxBf16 o s
  | .vabsBf16 o => Sys2Proof.Machine.execVabsBf16 o s
  | .vnegBf16 o => Sys2Proof.Machine.execVnegBf16 o s
  | .vdivBf16 o => Sys2Proof.Machine.execVdivBf16 o s
  | .vsqrtBf16 o => Sys2Proof.Machine.execVsqrtBf16 o s
  | .vexp2Bf16 o => Sys2Proof.Machine.execVexp2Bf16 o s
  | .vlog2Bf16 o => Sys2Proof.Machine.execVlog2Bf16 o s
  | .vrcpBf16 o => Sys2Proof.Machine.execVrcpBf16 o s
  | .vrsqBf16 o => Sys2Proof.Machine.execVrsqBf16 o s
  | .vaddF32 o => Sys2Proof.Machine.execVaddF32 o s
  | .vsubF32 o => Sys2Proof.Machine.execVsubF32 o s
  | .vmulF32 o => Sys2Proof.Machine.execVmulF32 o s
  | .vfmaF32 o => Sys2Proof.Machine.execVfmaF32 o s
  | .vminF32 o => Sys2Proof.Machine.execVminF32 o s
  | .vmaxF32 o => Sys2Proof.Machine.execVmaxF32 o s
  | .vabsF32 o => Sys2Proof.Machine.execVabsF32 o s
  | .vnegF32 o => Sys2Proof.Machine.execVnegF32 o s
  | .vdivF32 o => Sys2Proof.Machine.execVdivF32 o s
  | .vsqrtF32 o => Sys2Proof.Machine.execVsqrtF32 o s
  | .vexp2F32 o => Sys2Proof.Machine.execVexp2F32 o s
  | .vlog2F32 o => Sys2Proof.Machine.execVlog2F32 o s
  | .vrcpF32 o => Sys2Proof.Machine.execVrcpF32 o s
  | .vrsqF32 o => Sys2Proof.Machine.execVrsqF32 o s
  | .vcmpeq o => Sys2Proof.Machine.execVcmpeq o s
  | .vcmpne o => Sys2Proof.Machine.execVcmpne o s
  | .vcmplt o => Sys2Proof.Machine.execVcmplt o s
  | .vcmple o => Sys2Proof.Machine.execVcmple o s
  | .vcmpltu o => Sys2Proof.Machine.execVcmpltu o s
  | .vcmpleu o => Sys2Proof.Machine.execVcmpleu o s
  | .vcmpun o => Sys2Proof.Machine.execVcmpun o s
  | .vcmpord o => Sys2Proof.Machine.execVcmpord o s
  | .vcvt o => Sys2Proof.Machine.execVcvt o s
  | .vld o => Sys2Proof.Machine.execVld o s
  | .vst o => Sys2Proof.Machine.execVst o s
  | .mma o => Sys2Proof.Machine.execMma o s
  | .shape o => Sys2Proof.Machine.execShape o s
  | .acz o => Sys2Proof.Machine.execAcz o s
  | .drain o => Sys2Proof.Machine.execDrain o s
  | .table o => Sys2Proof.Machine.execTable o s
  | .rowsum o => Sys2Proof.Machine.execRowsum o s
  | .colsum o => Sys2Proof.Machine.execColsum o s
  | .pack o => Sys2Proof.Machine.execPack o s
  | .unpack o => Sys2Proof.Machine.execUnpack o s
  | .aread o => Sys2Proof.Machine.execAread o s
  | .copy o => Sys2Proof.Machine.execCopy o s
  | .copys o => Sys2Proof.Machine.execCopys o s
  | .copya o => Sys2Proof.Machine.execCopya o s
  | .mcast o => Sys2Proof.Machine.execMcast o s
  | .redg o => Sys2Proof.Machine.execRedg o s
  | .flushout o => Sys2Proof.Machine.execFlushout o s
  | .fetchin o => Sys2Proof.Machine.execFetchin o s
  | .mkch o => Sys2Proof.Machine.execMkch o s
  | .close o => Sys2Proof.Machine.execClose o s
  | .bind o => Sys2Proof.Machine.execBind o s
  | .rebind o => Sys2Proof.Machine.execRebind o s
  | .send o => Sys2Proof.Machine.execSend o s
  | .recv o => Sys2Proof.Machine.execRecv o s
  | .sendt o => Sys2Proof.Machine.execSendt o s
  | .recvt o => Sys2Proof.Machine.execRecvt o s
  | .sendd o => Sys2Proof.Machine.execSendd o s
  | .pull o => Sys2Proof.Machine.execPull o s
  | .dropw o => Sys2Proof.Machine.execDropw o s
  | .alt o => Sys2Proof.Machine.execAlt o s
  | .altf o => Sys2Proof.Machine.execAltf o s
  | .probe o => Sys2Proof.Machine.execProbe o s
  | .nop o => Sys2Proof.Machine.execNop o s
  | .trap o => Sys2Proof.Machine.execTrap o s
  | .trapret o => Sys2Proof.Machine.execTrapret o s
  | .halt o => Sys2Proof.Machine.execHalt o s
  | .ctlr o => Sys2Proof.Machine.execCtlr o s
  | .ctlw o => Sys2Proof.Machine.execCtlw o s
  | .spawn o => Sys2Proof.Machine.execSpawn o s
  | .exit o => Sys2Proof.Machine.execExit o s
  | .yield o => Sys2Proof.Machine.execYield o s
  | .prio o => Sys2Proof.Machine.execPrio o s
  | .sleep o => Sys2Proof.Machine.execSleep o s
  | .ifence o => Sys2Proof.Machine.execIfence o s
  | .tlbinv o => Sys2Proof.Machine.execTlbinv o s
  | .repart o => Sys2Proof.Machine.execRepart o s
  | .qarm o => Sys2Proof.Machine.execQarm o s
  | .ckptSave o => Sys2Proof.Machine.execCkptSave o s
  | .ckptRestore o => Sys2Proof.Machine.execCkptRestore o s
  | .gopen o => Sys2Proof.Machine.execGopen o s
  | .gfree o => Sys2Proof.Machine.execGfree o s
  | .whoami o => Sys2Proof.Machine.execWhoami o s
  | .pget o => Sys2Proof.Machine.execPget o s
  | .pset o => Sys2Proof.Machine.execPset o s
  | .streamres o => Sys2Proof.Machine.execStreamres o s
  | .loadPerform id => Sys2Proof.Machine.execLoadPerform id s
  | .loadComplete id => Sys2Proof.Machine.execLoadComplete id s
  | .storePerform id => Sys2Proof.Machine.execStorePerform id s
  | .storeAcknowledge id => Sys2Proof.Machine.execStoreAcknowledge id s
  | .holdNotice id => Sys2Proof.Machine.execHoldNotice id s
  | .amoPerform id => Sys2Proof.Machine.execAmoPerform id s
  | .absmaxMerge id => Sys2Proof.Machine.execAbsmaxMerge id s
  | .parkRetry id => Sys2Proof.Machine.execParkRetry id s
  | .syncLimitExpire id => Sys2Proof.Machine.execSyncLimitExpire id s
  | .watchEventMessage id => Sys2Proof.Machine.execWatchEventMessage id s
  | .arrivalClaim id => Sys2Proof.Machine.execArrivalClaim id s
  | .arrivalComplete id => Sys2Proof.Machine.execArrivalComplete id s
  | .copyAccept core => Sys2Proof.Machine.execCopyAccept core s
  | .pieceDispatch core => Sys2Proof.Machine.execPieceDispatch core s
  | .streamerRead id => Sys2Proof.Machine.execStreamerRead id s
  | .completionTileSet core copyId => Sys2Proof.Machine.execCompletionTileSet core copyId s
  | .copyaAccumulate id => Sys2Proof.Machine.execCopyaAccumulate id s
  | .groupDrainComplete die group => Sys2Proof.Machine.execGroupDrainComplete die group s
  | .borerRequest id => Sys2Proof.Machine.execBorerRequest id s
  | .fetchinComplete id => Sys2Proof.Machine.execFetchinComplete id s
  | .flushoutComplete id => Sys2Proof.Machine.execFlushoutComplete id s
  | .migrationCopyDone id => Sys2Proof.Machine.execMigrationCopyDone id s
  | .endMarker id => Sys2Proof.Machine.execEndMarker id s
  | .migrationCountExpire page requester => Sys2Proof.Machine.execMigrationCountExpire page requester s
  | .pageWalk id => Sys2Proof.Machine.execPageWalk id s
  | .shootdownAcknowledge id core => Sys2Proof.Machine.execShootdownAcknowledge id core s
  | .shootdownComplete id => Sys2Proof.Machine.execShootdownComplete id s
  | .pullRead id => Sys2Proof.Machine.execPullRead id s
  | .lendReleaseMessage id => Sys2Proof.Machine.execLendReleaseMessage id s
  | .relink id => Sys2Proof.Machine.execRelink id s
  | .channelSendArrive id => Sys2Proof.Machine.execChannelSendArrive id s
  | .channelReceiveArrive id => Sys2Proof.Machine.execChannelReceiveArrive id s
  | .transferFinish core slot => Sys2Proof.Machine.execTransferFinish core slot s
  | .channelTimeoutExpire core pid => Sys2Proof.Machine.execChannelTimeoutExpire core pid s
  | .timerDeadlineExpire slot => Sys2Proof.Machine.execTimerDeadlineExpire slot s
  | .altDeadlineExpire core pid => Sys2Proof.Machine.execAltDeadlineExpire core pid s
  | .unbindRequest id => Sys2Proof.Machine.execUnbindRequest id s
  | .exitComplete core pid => Sys2Proof.Machine.execExitComplete core pid s
  | .promotionNotice id => Sys2Proof.Machine.execPromotionNotice id s
  | .promotedRelease id => Sys2Proof.Machine.execPromotedRelease id s
  | .sleepExpire core pid => Sys2Proof.Machine.execSleepExpire core pid s
  | .spawnChildCreate id => Sys2Proof.Machine.execSpawnChildCreate id s
  | .taskStart core slot => Sys2Proof.Machine.execTaskStart core slot s
  | .eventRecordPost die => Sys2Proof.Machine.execEventRecordPost die s
  | .eventRecordDeliver die => Sys2Proof.Machine.execEventRecordDeliver die s
  | .contextSwitch core => Sys2Proof.Machine.execContextSwitch core s
  | .sliceRotation core => Sys2Proof.Machine.execSliceRotation core s
  | .blockedWaitLimit core => Sys2Proof.Machine.execBlockedWaitLimit core s
  | .deadlockProbe die => Sys2Proof.Machine.execDeadlockProbe die s
  | .macroOpStart core => Sys2Proof.Machine.execMacroOpStart core s
  | .macroStepComplete core => Sys2Proof.Machine.execMacroStepComplete core s
  | .causewayRequestReceive id => Sys2Proof.Machine.execCausewayRequestReceive id s
  | .frozenNotice id => Sys2Proof.Machine.execFrozenNotice id s
  | .resumeMessage id => Sys2Proof.Machine.execResumeMessage id s
  | .flitReceive port peer crcGood reqCredits repCredits => Sys2Proof.Machine.execFlitReceive port peer crcGood reqCredits repCredits s
  | .linkRetrainComplete port peer success => Sys2Proof.Machine.execLinkRetrainComplete port peer success s
  | .linkSilenceTimeout peer => Sys2Proof.Machine.execLinkSilenceTimeout peer s
  | .partitionQuiesce peer => Sys2Proof.Machine.execPartitionQuiesce peer s
  | .laserRetune port peer => Sys2Proof.Machine.execLaserRetune port peer s
  | .dtimeAlign stamp => Sys2Proof.Machine.execDtimeAlign stamp s
  | .travelAdmit id => Sys2Proof.Machine.execTravelAdmit id s
  | .travelAcknowledge id => Sys2Proof.Machine.execTravelAcknowledge id s
  | .doorbell queue => Sys2Proof.Machine.execDoorbell queue s
  | .luarm value => Sys2Proof.Machine.execLuarm value s
  | .lupreempt value => Sys2Proof.Machine.execLupreempt value s
  | .nopPacket queue => Sys2Proof.Machine.execNopPacket queue s
  | .launch queue => Sys2Proof.Machine.execLaunch queue s
  | .launchRecordWrite queue => Sys2Proof.Machine.execLaunchRecordWrite queue s
  | .wait queue => Sys2Proof.Machine.execWait queue s
  | .waitPoll queue => Sys2Proof.Machine.execWaitPoll queue s
  | .release queue => Sys2Proof.Machine.execRelease queue s
  | .releasePerform queue => Sys2Proof.Machine.execReleasePerform queue s
  | .indirect queue => Sys2Proof.Machine.execIndirect queue s
  | .loop queue => Sys2Proof.Machine.execLoop queue s
  | .fetchfence queue => Sys2Proof.Machine.execFetchfence queue s
  | .taskExitReport id => Sys2Proof.Machine.execTaskExitReport id s
  | .haltCommand die value => Sys2Proof.Machine.execHaltCommand die value s
  | .resumeCommand die value => Sys2Proof.Machine.execResumeCommand die value s
  | .coreHalted core => Sys2Proof.Machine.execCoreHalted core s
  | .pgnoteResume die value => Sys2Proof.Machine.execPgnoteResume die value s
  | .pgnoteDeliverPage die value => Sys2Proof.Machine.execPgnoteDeliverPage die value s
  | .pgnoteDeliverProt die value => Sys2Proof.Machine.execPgnoteDeliverProt die value s
  | .rgnctlCommit value => Sys2Proof.Machine.execRgnctlCommit value s
  | .corectlHold core value => Sys2Proof.Machine.execCorectlHold core value s
  | .ioepnewEndpoint id => Sys2Proof.Machine.execIoepnewEndpoint id s
  | .ioepnewTimer id => Sys2Proof.Machine.execIoepnewTimer id s
  | .controlRegisterWrite die core number value => Sys2Proof.Machine.execControlRegisterWrite die core number value s
  | .evready => Sys2Proof.Machine.execEvready s
  | .sensors => Sys2Proof.Machine.execSensors s
  | .errlog => Sys2Proof.Machine.execErrlog s
  | .update => Sys2Proof.Machine.execUpdate s
  | .spdm => Sys2Proof.Machine.execSpdm s
  | .measure => Sys2Proof.Machine.execMeasure s
  | .mailboxUnknownCommand => Sys2Proof.Machine.execMailboxUnknownCommand s
  | .moduleReset => Sys2Proof.Machine.execModuleReset s
  | .bootStage stage => Sys2Proof.Machine.execBootStage stage s
  | .dieEnterService die => Sys2Proof.Machine.execDieEnterService die s
  | .fullService => Sys2Proof.Machine.execFullService s
  | .correctedError unit cause addr => Sys2Proof.Machine.execCorrectedError unit cause addr s
  | .ethernetFrameReceive port frame => Sys2Proof.Machine.execEthernetFrameReceive port frame s
  | .tokenBucketRefill die asid => Sys2Proof.Machine.execTokenBucketRefill die asid s
  | .fireflyPeerDownReport peer => Sys2Proof.Machine.execFireflyPeerDownReport peer s
  | .ethernetFrameTransmit port => Sys2Proof.Machine.execEthernetFrameTransmit port s
  | .hostQueueMessage slot message => Sys2Proof.Machine.execHostQueueMessage slot message s
  | .powerLoss => Sys2Proof.Machine.execPowerLoss s

end Sys2Proof.Machine
end

