-- ==== Sys2Proof/Machine/Runahead.lean ====
section
/-! DEFINITION. Fetching a word (spec/08_scalar.md R167, spec/14_atomics_fences.md R249) and running ahead after a page fault
(spec/19_faults.md R305, R306), one word of it a turn. -/
namespace Sys2Proof.Machine

/-! ## Fetch (R167) -/

/-- What a fetch gives: a word and its physical address, a failure, a walk to wait for, or a word that is not here yet. -/
inductive Fetched
  | word (w : Word32) (pa : Nat)
  | fail (c : Cause) (level : Nat)
  | miss
  | away
  deriving DecidableEq, Repr
/-- The word at a virtual address, through the core's instruction buffer. Code runs from HBM or host memory (R56). -/
def State.fetch (s : State) (now : Bool) (pk va : Nat) : Fetched :=
  let c := s.ctxOf pk
  match (if now then s.xlateNow c .x va else s.xlate c .x va) with
  | .miss => .miss
  | .fail x l => .fail x l
  | .ok pa _ =>
    match placeOf (paLocal pa) with
    | .hbm | .host =>
      match (s.core c.core).ibuf.find? (fun e => decide (e.1 = pa)) with
      | some e => .word e.2 pa
      | none =>
        if !s.isHere pa then (match (s.core c.core).badWords.find? (fun e => decide (e.1 = pa)) with
          | some e => .fail e.2 0
          | none => .away)
        else if s.migrating (paLocal pa) then .away
        else if s.hurt (paLocal pa) 4 then .fail .ecc 0
        else .word (BitVec.ofNat 32 (s.mem.readN (paLocal pa) 4)) pa
    | _ => .fail .prot 0

/-! ## What runahead makes of a word -/

/-- An access that runahead translates and does not perform. -/
structure AheadAccess where
  info : Issue
  base : BitVec 6
  ea : Word → Word
  size : Nat
  access : Access
  cls : Nat
  /-- Register with the number of tiles of a TAG word. -/
  count : Option (BitVec 6)
  /-- Its own checks, by privilege, physical address and number of tiles. -/
  check : Bool → Nat → Nat → Option Cause
/-- How runahead treats a word: it ends there; it computes, with predicates that it reads and writes; it branches or jumps with a link; it
translates an access; or it does nothing. -/
inductive Ahead
  | stop
  | compute (w : Issue) (ps pd : List Nat)
  | branch (w : Issue) (off : Word)
  | jump (w : Issue) (link : BitVec 6) (target : Option (BitVec 6)) (off : Word)
  | access (x : AheadAccess)
  | quiet (w : Issue)

/-- The checks of a TAG range. -/
def tagCause (f n pa : Nat) : Option Cause :=
  match tagRange f n pa with
  | .error c => some c
  | .ok _ => none
/-- Majors 0x29 and 0x3A to 0x3E, and the steps of the device, end runahead. -/
def ahead (i : Instr) : Ahead :=
  match i with
  | .add o | .sub o | .and o | .or o | .xor o | .andn o | .shl o | .shr o | .sra o | .rol o | .min o | .max o | .minu o | .maxu o | .mul o | .mulh o
    | .mulhu o | .mulhsu o | .bfx o | .adds o | .subs o | .div o | .divu o | .rem o | .remu o => .compute (infoRRR o 0) [] []
  | .bfi o => .compute (infoRRRD o 0) [] []
  | .clz o | .ctz o | .popc o | .brev o | .fcvtsh o | .fcvtsb o | .fcvths o | .fcvtbs o | .fcvtsi o | .fcvtis o | .fcvthi o | .fcvtih o | .fcvtsu o
    | .fcvtus o | .fcvthb o | .fcvtbh o => .compute (infoRR o 0) [] []
  | .addi o | .andi o | .ori o | .xori o => .compute (infoRRI o 0) [] []
  | .shli o | .shri o | .srai o | .roli o => .compute (infoSHI o 0) [] []
  | .imm o => .compute (infoRI o 0) [] []
  | .immh o => .compute (infoRID o 0) [] []
  | .cmpeq o | .cmpne o | .cmplt o | .cmple o | .cmpgt o | .cmpge o | .cmpltu o | .cmpleu o | .cmpgtu o | .cmpgeu o => .compute (infoCP o 0) [] [o.pT.toNat, o.pF.toNat]
  | .cmpeqi o | .cmpnei o | .cmplti o | .cmplei o | .cmpgti o | .cmpgei o | .cmpltui o | .cmpleui o | .cmpgtui o | .cmpgeui o => .compute (infoCPI o 0) [] [o.pT.toNat, o.pF.toNat]
  | .pand o | .por o | .pxor o | .pandn o | .porn o | .pnand o | .pnor o | .pxnor o => .compute (infoPL o 0) [o.a.toNat, o.b.toNat] [o.d.toNat]
  | .fcmpeq o | .fcmplt o | .fcmple o | .fcmpun o => .compute (infoFP o 0) [] [o.pT.toNat, o.pF.toNat]
  | .fadd o | .fsub o | .fmul o | .fmin o | .fmax o | .fdiv o => .compute (infoFR o 0) [] []
  | .fma o => .compute (infoFRD o 0) [] []
  | .fsqrt o => .compute (infoFR1 o 0) [] []
  | .vrsum o | .vrmax o | .vrmin o => .compute (infoVR o 0) [] []
  | .vbcast o => .compute (infoVB o 0) [] []
  | .vext o | .vexts o => .compute (infoVMX o 0) [] []
  | .vins o => .compute (infoVMI o 0) [] []
  | .vsel o => .compute ({ infoVX o 0 with reads := [(1, o.va.toNat), (1, o.vb.toNat), (2, o.q.toNat)] }) [] []
  | .vperm o | .vzip o | .vunzip o => .compute (infoVX o 0) [] []
  | .qand o | .qor o | .qxor o | .qandn o | .qorn o | .qnand o | .qnor o | .qxnor o => .compute (infoPLQ o 0) [] []
  | .vaddI o | .vsubI o | .vmulI o | .vmulhI o | .vminI o | .vmaxI o | .vminu o | .vmaxu o | .vand o | .vor o | .vxor o | .vandn o | .vshl o | .vshr o
    | .vsra o | .vadds o => .compute (infoVI o 0) [] []
  | .vaddF16 o | .vsubF16 o | .vmulF16 o | .vfmaF16 o | .vminF16 o | .vmaxF16 o | .vdivF16 o | .vaddBf16 o | .vsubBf16 o | .vmulBf16 o | .vfmaBf16 o
    | .vminBf16 o | .vmaxBf16 o | .vdivBf16 o | .vaddF32 o | .vsubF32 o | .vmulF32 o | .vfmaF32 o | .vminF32 o | .vmaxF32 o | .vdivF32 o => .compute (infoVF o 0) [] []
  | .vabsF16 o | .vnegF16 o | .vsqrtF16 o | .vexp2F16 o | .vlog2F16 o | .vrcpF16 o | .vrsqF16 o | .vabsBf16 o | .vnegBf16 o | .vsqrtBf16 o
    | .vexp2Bf16 o | .vlog2Bf16 o | .vrcpBf16 o | .vrsqBf16 o | .vabsF32 o | .vnegF32 o | .vsqrtF32 o | .vexp2F32 o | .vlog2F32 o | .vrcpF32 o
    | .vrsqF32 o => .compute (infoVF1 o 0) [] []
  | .vcmpeq o | .vcmpne o | .vcmplt o | .vcmple o | .vcmpltu o | .vcmpleu o | .vcmpun o | .vcmpord o => .compute (infoVC o 0) [] []
  | .vcvt o => .compute (infoVV o 0) [] []
  | .br o => .branch (infoBT o 0) (o.disp.signExtend 64 * 4)
  | .jal o => .jump (infoRI o 0) o.d none (o.imm.signExtend 64 * 4)
  | .jr o => .jump (infoRR o 0) o.d (some o.a) 0
  | .ldb o => .access ⟨infoLD o 0, o.a, fun b => eaSigned b o.disp 1, 1, .rd, 0, none, fun priv pa _ => loadCheck priv pa 1⟩
  | .ldh o => .access ⟨infoLD o 0, o.a, fun b => eaSigned b o.disp 2, 2, .rd, 0, none, fun priv pa _ => loadCheck priv pa 2⟩
  | .ldw o => .access ⟨infoLD o 0, o.a, fun b => eaSigned b o.disp 4, 4, .rd, 0, none, fun priv pa _ => loadCheck priv pa 4⟩
  | .ldd o => .access ⟨infoLD o 0, o.a, fun b => eaSigned b o.disp 8, 8, .rd, 0, none, fun priv pa _ => loadCheck priv pa 8⟩
  | .ldbu o => .access ⟨infoLD o 0, o.a, fun b => eaSigned b o.disp 1, 1, .rd, 0, none, fun priv pa _ => loadCheck priv pa 1⟩
  | .ldhu o => .access ⟨infoLD o 0, o.a, fun b => eaSigned b o.disp 2, 2, .rd, 0, none, fun priv pa _ => loadCheck priv pa 2⟩
  | .ldwu o => .access ⟨infoLD o 0, o.a, fun b => eaSigned b o.disp 4, 4, .rd, 0, none, fun priv pa _ => loadCheck priv pa 4⟩
  | .stb o => .access ⟨infoST o 0, o.a, fun b => eaSigned b o.disp 1, 1, .wr, 1, none, fun _ pa _ => storeCheck false pa 1⟩
  | .sth o => .access ⟨infoST o 0, o.a, fun b => eaSigned b o.disp 2, 2, .wr, 1, none, fun _ pa _ => storeCheck false pa 2⟩
  | .stw o => .access ⟨infoST o 0, o.a, fun b => eaSigned b o.disp 4, 4, .wr, 1, none, fun _ pa _ => storeCheck false pa 4⟩
  | .std o => .access ⟨infoST o 0, o.a, fun b => eaSigned b o.disp 8, 8, .wr, 1, none, fun _ pa _ => storeCheck false pa 8⟩
  | .ldx o => .access ⟨infoLD o 0, o.a, fun b => eaSigned b o.disp 8, 8, .rd, 3, none, fun _ pa _ => syncCheck false pa⟩
  | .ldp o => .access ⟨infoLD o 0, o.a, fun b => eaSigned b o.disp 8, 8, .rd, 3, none, fun _ pa _ => syncCheck false pa⟩
  | .stx o => .access ⟨infoST o 0, o.a, fun b => eaSigned b o.disp 8, 8, .wr, 3, none, fun _ pa _ => syncCheck true pa⟩
  | .tempty o => .access ⟨infoTG o 0, o.a, fun b => b, 1, .wr, 3, some o.b, fun _ pa n => tagCause 0 n pa⟩
  | .tfull o => .access ⟨infoTG o 0, o.a, fun b => b, 1, .wr, 3, some o.b, fun _ pa n => tagCause 1 n pa⟩
  | .twaitf o => .access ⟨infoTG o 0, o.a, fun b => b, 1, .rd, 3, some o.b, fun _ pa n => tagCause 3 n pa⟩
  | .twaite o => .access ⟨infoTG o 0, o.a, fun b => b, 1, .rd, 3, some o.b, fun _ pa n => tagCause 4 n pa⟩
  | .watch o => .access ⟨infoTG o 0, o.a, fun b => b, 1, .wr, 3, some o.b, fun _ pa n => tagCause 5 n pa⟩
  | .unwatch o => .access ⟨infoTG o 0, o.a, fun b => b, 1, .rd, 3, some o.b, fun _ pa n => tagCause 6 n pa⟩
  | .tqry o => .access ⟨infoRRR o 0, o.a, fun b => b, 1, .rd, 3, some o.b, fun _ pa n => tagCause 2 n pa⟩
  | .waitw o => .quiet { word := 0, gu := o }
  | .lda o => .access ⟨infoLA o 0, o.a, fun b => eaUnsigned b o.disp 8, 8, .rd, 6, none, fun priv pa _ => ldaCheck priv pa⟩
  | .stl o => .access ⟨infoSL o 0, o.a, fun b => eaUnsigned b o.disp 8, 8, .wr, 6, none, fun _ pa _ => stlCheck pa⟩
  | .amoadd o => .access ⟨infoRRR o 0, o.a, fun b => b, 8, .rw, 4, none, fun _ pa _ => amoCheck 0 pa⟩
  | .amosmin o => .access ⟨infoRRR o 0, o.a, fun b => b, 8, .rw, 4, none, fun _ pa _ => amoCheck 1 pa⟩
  | .amosmax o => .access ⟨infoRRR o 0, o.a, fun b => b, 8, .rw, 4, none, fun _ pa _ => amoCheck 2 pa⟩
  | .amoumin o => .access ⟨infoRRR o 0, o.a, fun b => b, 8, .rw, 4, none, fun _ pa _ => amoCheck 3 pa⟩
  | .amoumax o => .access ⟨infoRRR o 0, o.a, fun b => b, 8, .rw, 4, none, fun _ pa _ => amoCheck 4 pa⟩
  | .amoand o => .access ⟨infoRRR o 0, o.a, fun b => b, 8, .rw, 4, none, fun _ pa _ => amoCheck 5 pa⟩
  | .amoor o => .access ⟨infoRRR o 0, o.a, fun b => b, 8, .rw, 4, none, fun _ pa _ => amoCheck 6 pa⟩
  | .amoxor o => .access ⟨infoRRR o 0, o.a, fun b => b, 8, .rw, 4, none, fun _ pa _ => amoCheck 7 pa⟩
  | .amoswap o => .access ⟨infoRRR o 0, o.a, fun b => b, 8, .rw, 4, none, fun _ pa _ => amoCheck 8 pa⟩
  | .amocas o => .access ⟨{ infoRRR o 0 with gs := [o.d.toNat, o.a.toNat, o.b.toNat, o.b.toNat + 1] }, o.a, fun b => b, 8, .rw, 4, none, fun _ pa _ => amoCheck 9 pa⟩
  | .vld o => .access ⟨infoVL o 0, o.a, fun b => eaSigned b o.disp 128, 128, .rd, 5, none, fun priv pa _ => loadCheck priv pa 128⟩
  | .vst o => .access ⟨infoVS o 0, o.a, fun b => eaSigned b o.disp 128, 128, .wr, 5, none, fun _ pa _ => storeCheck true pa 128⟩
  | _ => .stop
/-- The rules of issue for a word. -/
def Ahead.info : Ahead → Issue
  | .stop => { word := 0, gu := ⟨false, 0⟩ }
  | .compute w _ _ | .branch w _ | .jump w _ _ _ | .quiet w => w
  | .access x => x.info
/-- Registers that a word of the majors that end runahead writes, when it is the one that faulted. -/
def stopWrites (i : Instr) : List RegRef :=
  match i with
  | .recvt o => [(0, o.b.toNat + 1)]
  | .qarm o => [(0, o.d.toNat)]
  | .spawn o => [(0, o.d.toNat)]
  | .alt o | .altf o => [(0, o.b.toNat)]
  | .ckptRestore _ => (List.range 64).map (fun k => (0, k)) ++ (List.range 32).map (fun k => (1, k)) ++ (List.range 8).map (fun k => (2, k)) ++
      (List.range 8).map (fun k => (4, k))
  | _ => []

/-! ## The run -/

/-- g0, q0 and p0 are never unknown. -/
def always (x : RegRef) : Bool := decide (x.2 = 0 ∧ (x.1 = 0 ∨ x.1 = 2 ∨ x.1 = 4))
def Run.known (a : Run) (xs : List RegRef) : Bool := xs.all (fun x => !a.unknown.contains x)
def Run.mark (a : Run) (xs : List RegRef) : Run := { a with unknown := a.unknown ++ xs.filter (fun x => !always x && !a.unknown.contains x) }
def Run.clear (a : Run) (xs : List RegRef) : Run := { a with unknown := a.unknown.filter (fun x => !xs.contains x) }
def Run.goTo (a : Run) (pc : Word) (jumped : Bool) : Run := { a with pc := pc, jumped := jumped, words := a.words + 1 }
def Run.next (a : Run) : Run := a.goTo (a.pc + 4) false
def Run.addPage (a : Run) (va : Nat) : Run :=
  if a.first = va / 65536 ∨ a.pages.contains (va / 65536) = true then a else { a with pages := a.pages ++ [va / 65536] }
/-- The registers after a word that only computes on known values. -/
def State.computed (s : State) (pk : Nat) (a : Run) (i : Instr) : Regs :=
  let p := s.proc pk
  let q := { p.settled with r := a.r, pc := a.pc, outs := [], fifth := none, multi := none, pend := none, struck := [], transferred := false }
  match exec i { ((s.setProc pk q).modCore (coreOf pk) (fun k => { k with tileWait := [] })) with turn := pk } with
  | .next t => (t.proc pk).r
  | _ => a.r
/-- What a word of the run does: the run goes on, it ends, or it waits for a walk. -/
inductive AheadStep
  | go (a : Run)
  | stop
  | walk (va : Nat)
  deriving DecidableEq, Repr
/-- One access of the run, which ends it where its word would trap. -/
def State.aheadAccess (s : State) (pk : Nat) (a : Run) (x : AheadAccess) : AheadStep :=
  let p := s.proc pk
  let b := (a.mark x.info.writes).next
  let ea := x.ea (a.r.getG x.base)
  let n : Option Nat := match x.count with
    | none => some 1
    | some c => if a.known [(0, c.toNat)] then some (a.r.getG c).toNat else none
  if !a.known [(0, x.base.toNat)] || decide (n = some 0) then .go b
  else if ea.toNat % x.size ≠ 0 then .stop
  else match s.xlate (s.ctxOf pk) x.access ea.toNat with
    | .fail .page _ => .go (b.addPage ea.toNat)
    | .fail _ _ => .stop
    | .miss => .walk ea.toNat
    | .ok pa _ => match n with
      | some n => if (x.check p.priv pa n).isSome then .stop else .go b
      | none => .go b
/-- One word of the run. -/
noncomputable def State.aheadWord (s : State) (pk : Nat) (a : Run) (w : Word32) : AheadStep :=
  let p := s.proc pk
  let g := guardOf w.toNat
  if g.never then (if a.jumped then .stop else .go a.next)
  else match decode w with
    | .error _ => .stop
    | .ok i =>
      let f := ahead i
      let info := f.info
      match f with
      | .stop => .stop
      | _ =>
        if (info.check p (s.core (coreOf pk)).partition).isSome ∨ a.known [(4, g.p.toNat)] = false then .stop
        else if !a.r.guard g then .go a.next
        else if info.reads.any (fun x => p.struck.contains x && !a.unknown.contains x) then .stop
        else match f with
          | .stop => .stop
          | .quiet _ => .go a.next
          | .branch _ off => .go (a.goTo (a.pc + off) true)
          | .jump _ link target off =>
            let linked (t : Word) : Run := { (a.clear [(0, link.toNat)]) with r := a.r.setG link (a.pc + 4) }.goTo t true
            (match target with
            | none => .go (linked (a.pc + off))
            | some t => if a.known [(0, t.toNat)] = false ∨ (a.r.getG t).toNat % 4 ≠ 0 then .stop else .go (linked (a.r.getG t)))
          | .access x => s.aheadAccess pk a x
          | .compute w ps pd =>
            let dst := w.writes ++ pd.map (fun k => (4, k))
            if a.known (w.reads ++ ps.map (fun k => (4, k))) then .go ({ a.clear dst with r := s.computed pk a i }.next) else .go (a.mark dst).next
/-- Registers that outstanding operations, and the faulting word, will write. -/
noncomputable def State.aheadUnknown (s : State) (pk : Nat) (t : Trap) : List RegRef :=
  let p := s.proc pk
  let outs := p.outs.flatMap (fun o => match o.live, o.dest with
    | true, .g d _ _ => [(0, d.toNat)]
    | true, .gg d e => [(0, d.toNat), (0, e.toNat)]
    | true, .v d _ => [(1, d.toNat)]
    | _, _ => ([] : List RegRef))
  let own := if t.cls = 2 then [] else match s.fetch true pk p.pc.toNat with
    | .word w _ => (match decode w with | .ok i => (ahead i).info.writes ++ stopWrites i | .error _ => [])
    | _ => []
  outs ++ own
/-- Runahead starts (R305): the registers of the process stand as the rollback point, into which its older operations complete. -/
noncomputable def State.startAhead (s : State) (pk : Nat) (t : Trap) : State :=
  let p := s.proc pk
  let a0 : Run := ⟨t, p.pc + 4, false, p.r, [], t.info.toNat / 65536, [], 0⟩
  s.setProc pk { p.settled with pend := none, ahead := some (a0.mark (s.aheadUnknown pk t)) }
/-- The run goes on, and the failure of its last walk is used up. -/
def State.setAhead (s : State) (pk : Nat) (a : Run) : State := s.modProc pk (fun p => { p with ahead := some a, walked := none })
/-- One word of the run, or its end (R305 point 5): the batch is full, 512 words have issued, a fetch faults, or the word ends it. -/
noncomputable def State.aheadGo (s : State) (pk : Nat) (a : Run) : State :=
  if 7 ≤ a.pages.length ∨ 512 ≤ a.words then s.endAhead pk
  else match s.fetch false pk a.pc.toNat with
    | .miss => s.queueWalk (s.ctxOf pk) a.pc.toNat
    | .away => s
    | .fail .page _ => (s.setAhead pk (a.addPage a.pc.toNat)).endAhead pk
    | .fail _ _ => s.endAhead pk
    | .word w _ => match s.aheadWord pk a w with
      | .go b => s.setAhead pk b
      | .stop => s.endAhead pk
      | .walk va => s.queueWalk (s.ctxOf pk) va

end Sys2Proof.Machine
end

