-- ==== Sys2Proof/Machine/Moves.lean ====
section
/-! DEFINITION. The moves of the module (log 4): a process issues its next word, a part of the device takes a step, something comes from
outside, or time passes; and which move comes where the plan names none. -/
namespace Sys2Proof.Machine

/-! ## Issue (R41, R42, R47, R167) -/

/-- The word has been fetched: the core's instruction buffer holds it (R249). -/
def State.keepWord (s : State) (core pa : Nat) (w : Word32) : State :=
  if (s.core core).ibuf.any (fun e => decide (e.1 = pa)) then s else s.modCore core (fun k => { k with ibuf := k.ibuf ++ [(pa, w)] })
/-- A trap that pends is entered; a PAGE of an unprivileged process is not delivered but starts to run ahead, unless it is the answer to a batch (R47,
R305, R307). -/
noncomputable def State.enterTrap (s : State) (pk : Nat) (t : Trap) : State :=
  let p := s.proc pk
  if t.cause = .page ∧ p.priv = false ∧ p.batch = none then s.startAhead pk t else s.trap pk t p.pc
/-- A fetch that fails (R167): on sequential execution once every older operation has passed its commit point. -/
noncomputable def State.fetchTrap (s : State) (pk : Nat) (c : Cause) (level : Nat) : State :=
  let p := s.proc pk
  if !p.mayIssue false false || s.entering pk then s.stall pk false false
  else if !p.transferred && p.outs.any (fun o => !o.committed) then s
  else (s.modCore (coreOf pk) (fun k => { k with badWords := [] })).enterTrap pk ⟨c, p.pc, 2, level⟩
/-- A word that is no instruction (R41): ILLEGAL, whatever its guard. -/
def State.illegalWord (s : State) (pk : Nat) (w : Word32) : State :=
  if !(s.proc pk).mayIssue false false || s.entering pk then s.stall pk false false else (s.count pk).trap pk ⟨.illegal, w.setWidth 64, 0, 0⟩ (s.proc pk).pc
/-- A never-guarded word, whatever its payload (R40, R42). -/
def State.neverWord (s : State) (pk : Nat) (w : Word32) : State :=
  let p := s.proc pk
  if !p.mayIssue false false || s.entering pk then s.stall pk false false
  else if p.transferred then (s.count pk).trap pk ⟨.illegal, w.setWidth 64, 0, 0⟩ p.pc
  else s.setProc pk p.pass
/-- The word has begun and is not over: it does not fetch again (R5). -/
def Proc.begun (p : Proc) : Bool := p.midWord || p.base.isSome || p.polls.isSome
/-- After an instruction: a PAGE that it raised starts to run ahead in the same step (R305); a word that is not over stays in hand (R5). -/
noncomputable def State.afterWord (s : State) (pk : Nat) (w : Word32) : State :=
  let p := s.proc pk
  match p.pend with
  | some t => if t.cause = .page ∧ p.state = .running then s.enterTrap pk t else s
  | none => if p.begun && p.cur.isNone then s.setProc pk { p with cur := some w } else s
/-- A word in the hands of the process. -/
noncomputable def State.issueWord (s : State) (pk : Nat) (w : Word32) : Host.Outcome State Fault Refusal :=
  if (guardOf w.toNat).never then .next (s.neverWord pk w)
  else match decode w with
    | .error _ => .next (s.illegalWord pk w)
    | .ok i => match exec i s with
      | .next t => .next (t.afterWord pk w)
      | .fault f => .fault f
      | .refused r => .refused r
/-- A process may issue: it is RUNNING in a slot of a core that issues, and HOLD does not put it out. -/
def State.mayRun (s : State) (pk : Nat) : Bool :=
  let k := s.core (coreOf pk)
  decide ((s.proc pk).state = .running) && k.slots.contains (pidOf pk) && !k.halted && !k.halting && !s.heldOut pk
/-- The process issues: the word that it has in hand, or the one that it fetches. -/
noncomputable def State.issueNext (s : State) (pk : Nat) : Host.Outcome State Fault Refusal :=
  let p := s.proc pk
  match (if p.begun then p.cur else none) with
  | some w => s.issueWord pk w
  | none => match s.fetch false pk p.pc.toNat with
    | .miss => .next (s.queueWalk (s.ctxOf pk) p.pc.toNat)
    | .away => .next s
    | .fail c l => .next (s.fetchTrap pk c l)
    | .word w pa => (s.keepWord (coreOf pk) pa w).issueWord pk w
/-- A process has its turn: a MKCH, ALT or ALTF that waits looks again, of a process off the slots too (R47). Then it takes the trap that pends, runs
ahead of a fault, goes on with its end, or issues its next word, if it may. -/
noncomputable def State.issueTurn (s0 : State) (pk : Nat) : Host.Outcome State Fault Refusal :=
  let s := ({ s0 with turn := pk } : State).multiGo pk
  let p := s.proc pk
  if !s.resident pk then .next (if p.multi = (s0.proc pk).multi then s else s.synced pk)
  else if !s.mayRun pk then .next s
  else match p.pend, p.ahead with
    | some t, _ => .next (s.enterTrap pk t)
    | none, some a => .next (s.aheadGo pk a)
    | none, none =>
      if p.ending ≠ 0 then .next (s.exitStep pk)
      else match s.issueNext pk with
        | .next t => .next (t.multiBlock pk)
        | .fault f => .fault f
        | .refused r => .refused r

/-! ## From outside -/

/-- The home, on this module, of a request that comes from outside. -/
def State.homeHere (s : State) (r : Req) : Home :=
  match r.rop with
  | .load pa _ _ _ | .store pa _ _ _ _ | .amo pa _ _ _ _ | .claimMem pa _ _ => s.homeOf (s.paOf (paLocal pa))
  | .tag _ c _ _ | .claim c _ _ | .lendTile c _ _ _ | .install c _ _ _ _ _ | .markOpen c _ _ _ _ _ | .mark _ c _ _ _ _ _ => .core c
  | .lendOpen src _ _ _ _ _ => s.homeOf (s.paOf src)
  | .engine _ _ _ => .mmio 0
/-- Where a message of another module goes that no region is consulted for. -/
def State.bodyHome (s : State) (m : Msg) : Home :=
  match m.body with
  | .pullRead lend .. | .lendRelease lend .. | .relink lend _ => (match s.lendOf lend with
    | some l => s.homeOf (s.paOf l.src)
    | none => .mmio 0)
  | .push core .. | .unclaim core .. | .unlend core .. => if core < 1536 then .core core else .mmio 1
  | .pushMem pa .. => s.homeOf (s.paOf (paLocal pa))
  | .accum core .. | .pullFailed core .. | .chanStep core .. | .pieceEnd core .. => .core core
  | .xferStep xid .. => (match s.xfer xid with | some x => .core x.core | none => .mmio 0)
  | .travelAck who | .frozenNotice who _ | .resume who _ _ | .guardSaid who .. | .recalled (.chan who _) _ => .core (coreOf (s.keyOf who))
  | .recalled (.piece core _ _) _ => .core core
  | _ => s.entry m
/-- A message from outside takes a number of its own. -/
def State.bringIn (s : State) (src : Src) (dst : Home) (b : Body) (check : Option Header) : State :=
  { s with net := s.net ++ [⟨s.nextId, src, dst, b, check, false⟩], nextId := s.nextId + 1 }
/-- Mail for a process comes to its core, or follows it where it has moved (R263). -/
def State.mailIn (s : State) (src : Src) (who : Nat) (b : Nat → Body) : State :=
  if s.moduleOf who = s.modid then s.bringIn src (.core (coreOf (s.keyOf who))) (b (s.keyOf who)) none
  else s.mailTo (s.moduleOf who) src.port who (b who)
/-- A message of another module, from a peer whose incarnation is the one recorded (R261). A request of a process's ordering stream, and every
access, is checked at the edge slice first (R253, R256). -/
def State.arriveFrom (s : State) (m : Msg) (h : Header) : State :=
  match m.body with
  | .answer who op a => s.mailIn m.src who (fun k => .answer k op a)
  | .ack who op => s.mailIn m.src who (fun k => .ack k op)
  | .hold who op e => s.mailIn m.src who (fun k => .hold k op e)
  | .promote who op o => s.mailIn m.src who (fun k => .promote k op o)
  | .farEnd who op c => s.mailIn m.src who (fun k => .farEnd k op c)
  | .watchEvent who => s.mailIn m.src who (fun _ => .watchEvent who)
  | .retry r t =>
    -- it comes back to the core of its process, which sends it again (R85)
    let pk := s.keyOf r.who
    (s.unsend r.op).bringIn m.src (.core (coreOf pk)) (.retry { r with src := .core (coreOf pk), home := .remote m.src.module } t) none
  | .relocated who at_ => s.relocate who at_
  | .batch die r =>
    let who := fld (r.getD 0 0).toNat 0 26
    (s.post die 2 (fld (r.getD 0 0).toNat 26 6) who (r.drop 1)).tell m.src.module m.src.port who 0 (.hold who 0 (edgeBatch (s.die die).seq.toNat))
  | .pgnote v who op =>
    let to_ := s.moduleOf (fld v.toNat 0 26)
    if to_ ≠ s.modid then s.tell to_ m.src.port who 0 m.body
    else
      let s1 := s.readyNoted (s.keyOf (fld v.toNat 0 26)) v
      if op = 0 then s1 else s1.tell m.src.module m.src.port who 0 (.answer who op (.vals []))
  | .req r =>
    let q := { r with id := s.nextId, src := m.src, home := s.homeHere r, noticed := false, asked := false }
    if h.seq.isSome ∨ h.cls ≠ 6 then s.bringIn m.src (.mmio 0) (.req q) (some h) else s.bringIn m.src q.home (.req q) none
  | b => if h.seq.isSome ∨ h.cls ≠ 6 then s.bringIn m.src (.mmio 0) b (some h) else s.bringIn m.src (s.bodyHome m) b none
/-- A request of a host core, or of an external host: a plain access or an AMO under a process word that no process has (DESIGN CHOICE, log 94). -/
def State.hostRequest (s : State) (src : Src) (who op : Nat) (rop : ROp) : State :=
  let plain : Option ROp := match rop with
    | .load pa n _ _ => some (.load pa n false false)
    | .store pa n ws _ _ => some (.store pa n ws false false)
    | .amo pa f v e ret => some (.amo pa f v e ret)
    | _ => none
  match plain with
  | some x =>
    let r : Req := ⟨s.nextId, src, who, op, .host, x, 0, Under.none, false, false, none, 0, 0, false, false⟩
    let q := { r with home := s.homeHere r }
    s.bringIn src q.home (.req q) none
  | none => s
/-- A message arrives from another module, or from a host core. -/
def State.arrive (s : State) (m : Msg) (h : Header) : State :=
  match m.src, m.body with
  | .remote k p, _ => if !s.incarnOk k h.incarn then s.dropStale (p / 2) k else s.arriveFrom m { h with m := k }
  | .hostCore n, .req r => s.hostRequest (.hostCore n) (2 ^ 26 + n) r.op r.rop
  | _, _ => s
/-- The windows of the PCIe endpoint (R336): BAR0 of 16 MiB from 0x0180_0000_0000 on, BAR2 of the 256 GiB of host memory; local address and size. -/
def barOf (bar : Nat) : Option (Nat × Nat) := if bar = 0 then some (0x18000000000, 2 ^ 24) else if bar = 2 then some (0x10000000000, 2 ^ 38) else none
def PcieOp.size : PcieOp → Nat
  | .read n => n
  | .write bs => bs.length
  | .swap _ => 8
/-- An access by an external host lies in its window. -/
def pcieFits (bar off : Nat) (op : PcieOp) : Bool := match barOf bar with
  | some x => decide (0 < op.size ∧ off + op.size ≤ x.2) && (match op with | .swap _ => decide (off % 8 = 0) | _ => true)
  | none => false
/-- An external host reaches an offset of a window as the host cores reach the address there; its answers are under the numbers of its requests. -/
def State.pcie (s : State) (bar off : Nat) (op : PcieOp) : State :=
  match barOf bar with
  | none => s
  | some x =>
    let pa := s.paOf (x.1 + off)
    s.hostRequest .pcie (2 ^ 26 + 32) s.nextId (match op with
      | .read n => .load pa n false false
      | .write bs => .store pa bs.length (byteWrites (x.1 + off) bs) false false
      | .swap v => .amo pa 8 v 0 true)
/-- A router or edge slice merges two no-return reductions (R240): the second takes its place directly after the first. -/
def State.merge (s : State) (a b : Nat) : State :=
  match s.msg a, s.msg b with
  | some x, some y =>
    (match x.body, y.body with
    | .req q, .req r => (match q.rop, r.rop with
      | .amo pa f _ _ false, .amo pb g _ _ false =>
        let upto := (s.net.dropWhile (fun m => m.id != a)).takeWhile (fun m => m.id != b)
        if pa = pb ∧ f = g ∧ x.dst = y.dst ∧ upto.any (fun m => decide (m.id = a)) ∧
            !upto.any (fun m => m.body.isRequest && decide (m.id ≠ a ∧ m.src = y.src ∧ m.dst = y.dst)) then
          { s with net := (s.net.filter (fun m => m.id != b)).flatMap (fun m => if m.id = a then [m, y] else [m]) }
        else s
      | _, _ => s)
    | _, _ => s)
  | _, _ => s
/-- A walk stands at an entry of another module, or of a page that migrates. -/
def State.walkAway (s : State) (w : Walk) : Bool := w.failed.isNone && decide (s.walk ⟨w.core, w.asid, true, w.origin, [], w.root, none, none⟩ w.va = .away)
/-- A translation whose walk reached an entry on another module comes from outside (R264). -/
def State.remoteFill (s : State) (core : Nat) (e : TlbEntry) : State :=
  let mine (w : Walk) : Bool := decide (w.core = core ∧ w.asid = e.asid ∧ w.origin = e.origin ∧ e.va ≤ w.va ∧ w.va < e.va + e.size) && s.walkAway w
  if s.walks.any mine then ({ s with walks := s.walks.filter (fun w => !mine w) } : State).fillTlb core e else s

/-! ## Moves -/

/-- The part that a move names exists. -/
def moveFits (m : Move) : Bool :=
  match m with
  | .issue pk => decide (pk < 1536 * 256)
  | .event i => i.wellFormed
  | .fetchWord core _ _ | .failFetch core _ _ | .evictTlb core _ | .evictWord core _ | .fillTlb core _ | .rowFault core => decide (core < 1536)
  | .strikeReg pk _ _ => decide (pk < 1536 * 256)
  | .readAhead q _ => decide (q < 256)
  -- a module has 32 host cores (R8, R14)
  | .arrive m _ => (match m.src with | .hostCore n => decide (n < 32) | _ => true)
  | .pcie bar off op => pcieFits bar off op
  | .admitPeer _ _ | .guestSlot _ _ | .failWalk _ _ _ | .pass _ | .strike _ _ | .strikeFlash _ _ | .merge _ _ | .peerPhase _ _ | .smbus _ | .signRecord _ => true
/-- What a move does, before time passes. -/
noncomputable def State.play (s : State) (m : Move) : Host.Outcome State Fault Refusal :=
  if !moveFits m then .fault .noSuchPart
  else match m with
    | .issue pk => s.issueTurn pk
    | .event i => if i.hasWord then .refused .notAStep else exec i s
    | .arrive m h => .next (s.arrive m h)
    | .admitPeer peer incarn => .next (s.admitPeer peer incarn)
    | .guestSlot peer free => .next (s.setPeer peer { s.peer peer with guestFree := free })
    | .readAhead q n => .next (s.readAhead q n)
    | .fetchWord core pa w => .next (if s.isHere pa then s else s.keepWord core pa w)
    | .failFetch core pa c => .next (if s.isHere pa || (s.core core).badWords.any (fun e => decide (e.1 = pa)) then s
        else s.modCore core (fun k => { k with badWords := k.badWords ++ [(pa, c)] }))
    | .failWalk id c l => .next (match s.walks.find? (fun w => decide (w.id = id)) with
        | some w => if s.walkAway w then s.failWalk w c l else s
        | none => s)
    | .pass _ => .next s
    | .evictTlb core i => .next (s.modCore core (fun k => { k with tlb := k.tlb.eraseIdx i }))
    | .evictWord core pa => .next (s.modCore core (fun k => { k with ibuf := k.ibuf.filter (fun e => e.1 != pa) }))
    | .fillTlb core e => .next (s.remoteFill core e)
    | .strike a u => .next { s with struck := s.struck ++ [a], errlog := s.errlog ++ [⟨u, 0x10, a, s.dtime⟩] }
    | .strikeFlash a u => .next { s with flashHurt := s.flashHurt ++ [a], errlog := s.errlog ++ [⟨u, 0x10, a, s.dtime⟩] }
    | .strikeReg pk r u => .next (({ s with errlog := s.errlog ++ [⟨u, 0x10, (regInfo r).toNat, s.dtime⟩] } : State).modProc pk (fun p => { p with struck := p.struck ++ [r] }))
    | .peerPhase peer service => .next (s.setPeer peer { s.peer peer with service := service })
    | .smbus r => .next (s.serveSmbus r)
    | .pcie bar off op => .next (s.pcie bar off op)
    | .signRecord by_ => .next { s with signer := by_ }
    | .rowFault core => .next (s.modCore core (fun k => { k with rowFault := true }))
    | .merge a b => .next (s.merge a b)
/-- DTIME advances by ns, except while it is held in start-up (R38). -/
def State.tick (s : State) (ns : Nat) : State :=
  if s.phase = 0 ∨ s.drift = 0 then { s with dtime := s.dtime + (ns - s.timeHold), timeHold := s.timeHold - ns }
  else
    -- the rate stays between 0.999 and 1.001: at most one nanosecond is made up in 1,000
    let t := s.slew + ns
    let k : Nat := min (t / 1000) s.drift.natAbs
    if 0 < s.drift then { s with dtime := s.dtime + ns + k, drift := s.drift - k, slew := t % 1000 }
    else { s with dtime := s.dtime + (ns - k), drift := s.drift + k, slew := t % 1000 }
/-- What every move ends with: time has passed; what waited for a walk or at a home looks again (R67, R145, R148, R215), and an EXIT at what holds it
(R287); packets leave as they may, waiting FENCEs look again, and dies that are not quiet begin a new quiet period. -/
def State.close (s : State) (ns : Nat) : State :=
  ((((((((s.tick ns).renewHeld).kickStale).kickGuards).wakeTops).watchExits).pump).wakeFences).watchQuiet
/-- Nanoseconds that a move takes. -/
def State.takes (s : State) : Move → Nat
  | .pass ns => ns
  | _ => s.pace
/-- A whole move. -/
noncomputable def State.moveOn (s : State) (m : Move) : Host.Outcome State Fault Refusal :=
  match s.play m with
  | .next t => .next (t.close (s.takes m))
  | .fault f => .fault f
  | .refused r => .refused r

/-! ## The move that comes where the plan names none -/

/-- The rows that a message waits for. -/
noncomputable def Msg.rows (m : Msg) : List Instr :=
  if m.check.isSome then [.causewayRequestReceive m.id, .travelAdmit m.id]
  else match m.body with
  | .req r => (match r.rop with
    | .load .. | .tag .. => [.loadPerform m.id]
    | .store .. => [.storePerform m.id]
    | .amo .. => [.amoPerform m.id, .ioepnewEndpoint m.id, .ioepnewTimer m.id]
    | _ => [.arrivalClaim m.id])
  | .answer .. => [.loadComplete m.id]
  | .ack .. | .farEnd .. => [.storeAcknowledge m.id]
  | .hold .. => [.holdNotice m.id]
  | .watchEvent .. => [.watchEventMessage m.id]
  | .push .. | .pushMem .. => [.arrivalComplete m.id]
  | .pieceEnd .. | .xferStep .. => [.arrivalClaim m.id, .arrivalComplete m.id]
  | .unclaim .. | .unlend .. => [.arrivalClaim m.id]
  | .stream .. | .xferRead .. | .unread .. => [.streamerRead m.id]
  | .accum .. => [.copyaAccumulate m.id]
  | .pullRead .. | .pullFailed .. => [.pullRead m.id]
  | .lendRelease .. => [.lendReleaseMessage m.id]
  | .relink .. => [.relink m.id]
  | .chanSend .. | .chanStep .. | .chanVal .. | .recall .. => [.channelSendArrive m.id]
  | .chanRecv .. | .guardAsk .. | .guardSaid .. | .guardDrop .. => [.channelReceiveArrive m.id]
  | .recalled _ none => [.arrivalComplete m.id]
  | .recalled _ (some _) => [.shootdownAcknowledge m.id 0]
  | .unbind .. | .unbindAll .. => [.unbindRequest m.id]
  | .promote .. => [.promotionNotice m.id]
  | .promoted .. => [.promotedRelease m.id]
  | .spawn .. => [.spawnChildCreate m.id]
  | .exited .. => [.taskExitReport m.id]
  | .frozenNotice .. => [.frozenNotice m.id]
  | .resume .. => [.resumeMessage m.id]
  | .travelAck .. => [.travelAcknowledge m.id]
  | .absmax .. => [.absmaxMerge m.id]
  | .retry .. => [.parkRetry m.id, .syncLimitExpire m.id]
  | .endMarker .. => [.endMarker m.id]
  | .shoot .. | .shootAck .. => [.shootdownAcknowledge m.id 0]
  | .travel .. | .unwatch .. | .pgnote .. | .relocated .. | .batch .. => []
/-- The rows of a core's engines and scheduler. -/
noncomputable def coreRows (c : Nat) (k : Core) : List Instr :=
  [.coreHalted c, .copyAccept c, .macroStepComplete c, .macroOpStart c, .pieceDispatch c] ++ k.copyq.map (fun x => .completionTileSet c x.id) ++
    k.inbox.map (fun e => .taskStart c e.1) ++ [.contextSwitch c, .blockedWaitLimit c, .sliceRotation c]
/-- The rows of a process that waits or ends. -/
noncomputable def procRows (pk : Nat) : List Instr :=
  let c := coreOf pk
  let i := pidOf pk
  [.exitComplete c i, .sleepExpire c i, .channelTimeoutExpire c i, .altDeadlineExpire c i]
/-- The rows of a die. -/
noncomputable def dieRows (d : Nat) (v : Die) : List Instr :=
  [.eventRecordPost d, .eventRecordDeliver d, .deadlockProbe d] ++ v.groups.map (fun g => .groupDrainComplete d g.1) ++ v.asrate.map (fun a => .tokenBucketRefill d a.1)
/-- The row of the packet that the Launch Unit serves next; a queue that halts, by the row of a NOP. -/
noncomputable def State.packetRows (s : State) : List Instr :=
  match s.luNext with
  | none => []
  | some q => match s.luTodo q with
    | .packet h => (match pkOp h with
      | 1 => [.launch q]
      | 2 => [.wait q]
      | 3 => [.release q]
      | 4 => [.indirect q]
      | 5 => [.loop q]
      | 6 => [.fetchfence q]
      | _ => [.nopPacket q])
    | _ => [.nopPacket q]
/-- The rows of a command queue that waits. -/
noncomputable def State.queueRows (s : State) (q : Nat) (v : Queue) : List Instr :=
  [.launchRecordWrite q, .releasePerform q] ++ (if v.waiting = 1 ∧ v.lastPoll + 1000 ≤ s.dtime then [.waitPoll q] else [])
/-- Every row that some part of the device waits to take. -/
noncomputable def State.rows (s : State) : List Instr :=
  s.net.flatMap Msg.rows ++ s.cores.flatMap (fun (k : Nat × Core) => coreRows k.1 k.2) ++ s.procs.flatMap (fun (p : Nat × Proc) => procRows p.1) ++
    s.held.map (fun r => .syncLimitExpire r.id) ++ s.xfers.map (fun x => .transferFinish x.core x.slot) ++
    s.borer.flatMap (fun f => [.borerRequest f.id, .fetchinComplete f.id, .flushoutComplete f.id]) ++
    s.dies.flatMap (fun (d : Nat × Die) => dieRows d.1 d.2) ++ s.walks.map (fun w => .pageWalk w.id) ++
    s.shoots.flatMap (fun d => (d.need.filter (fun c => decide (c < 1536))).map (fun c => .shootdownAcknowledge d.id c) ++ [.shootdownComplete d.id]) ++
    s.migs.map (fun m => .migrationCopyDone m.id) ++ s.counts.map (fun c => .migrationCountExpire c.page c.requester) ++
    s.outbox.map (fun p => .laserRetune p.port p.target) ++ s.peers.flatMap (fun (p : Nat × Peer) => [.linkSilenceTimeout p.1, .partitionQuiesce p.1]) ++
    s.units.map (fun u => .timerDeadlineExpire u.1) ++ s.packetRows ++ s.queues.flatMap (fun (q : Nat × Queue) => s.queueRows q.1 q.2) ++
    [.evready, .sensors, .errlog, .update, .spdm, .measure, .mailboxUnknownCommand, .bootStage s.bootStage] ++
    (if s.bootStage = 8 then [.dieEnterService 0, .dieEnterService 1, .dieEnterService 2, .dieEnterService 3, .fullService] else [])
/-- A row does something now. -/
def State.acts (s : State) (i : Instr) : Bool :=
  i.wellFormed && (match exec i s with | .next t => decide (t ≠ s) | _ => false)
/-- A process has something to do in its turn: it may issue, or a MKCH, ALT or ALTF of it can go on. -/
def State.hasTurn (s : State) (pk : Nat) : Bool := s.mayRun pk || ((s.proc pk).multi.isSome && decide (s.multiGo pk ≠ s))
/-- The process whose turn comes after the one that issued last. -/
def State.nextTurn (s : State) : Option Nat :=
  let ready := (s.procs.map (·.1)).filter s.hasTurn
  match ready.find? (fun pk => decide (s.turn < pk)) with
  | some pk => some pk
  | none => ready.head?
/-- A part of the device that can act does; otherwise the processes issue in turn; otherwise time passes. -/
noncomputable def State.defaultMove (s : State) : Move :=
  match s.rows.find? s.acts with
  | some i => .event i
  | none => match s.nextTurn with
    | some pk => .issue pk
    | none => .pass s.pace

/-! ## A word to be fetched (log 9) -/

/-- Where it lies: local address and virtual address. -/
def bootVa : Nat := 0x10000
/-- The translation of its page. -/
def State.bootEntry (s : State) (asid : Nat) : TlbEntry :=
  ⟨asid, s.modid, true, bootVa, 65536, s.paOf bootVa, true, true, true, true, 0, 0⟩
/-- Process 0 of core 0 is RUNNING, resident and privileged, with its pc at the page; the page is mapped for it, the word lies there, and the
next move is its turn. -/
def State.loadedAt (s : State) (w : Nat) : State :=
  let p := s.proc 0
  let q := { p.settled with
    pc := BitVec.ofNat 64 bootVa, transferred := true, state := .running, priv := true, guest := false, outs := [], fifth := none, multi := none, pend := none
    ending := 0, extents := [], guestRoot := 0, away := none, batch := none }
  let k := s.core 0
  let k1 := { k with
    slots := if k.slots.contains 0 then k.slots else k.slots ++ [0]
    freePids := k.freePids.filter (fun i => i != 0)
    halted := false, halting := false
    tlb := s.bootEntry p.asid :: k.tlb
    ibuf := k.ibuf.filter (fun e => e.1 != s.paOf bootVa)
    tileWait := k.tileWait.filter (fun t => t.pk != 0) }
  let d := s.die 0
  let root := d.asroot.get 0 p.asid
  { (((s.setProc 0 q).setCore 0 k1).setDie 0 { d with asroot := d.asroot.set p.asid (root ||| 1#64) }) with
    mem := s.mem.writeN bootVa 4 w
    struck := s.struck.filter (fun a => !decide (bootVa ≤ a ∧ a < bootVa + 4))
    migs := s.migs.filter (fun m => decide (m.page ≠ bootVa ∧ m.frame ≠ bootVa))
    turn := 0
    plan := .issue 0 :: s.plan }

end Sys2Proof.Machine
end

