-- ==== Sys2Proof/Machine/Step.lean ====
section
/-! DEFINITION. One step of the module: the move that the plan names, or the default one, and what every move ends with (log 4). -/
namespace Sys2Proof.Machine

/-- One step. -/
noncomputable def step (s : State) : Host.Outcome State Fault Refusal :=
  match s.plan with
  | m :: rest => ({ s with plan := rest } : State).moveOn m
  | [] => s.moveOn s.defaultMove

/-- Places a word where the process 0 of core 0 fetches its next word (log 9): local address 0x10000 of HBM, mapped there; the word's bits
above nbits are 0. -/
def State.withFetchWord (s : State) (nbits w : Nat) : State := s.loadedAt (w % 2 ^ nbits % 2 ^ 32)

end Sys2Proof.Machine
end

