-- ==== Sys2Proof/Safety.lean ====
section
/-! DEFINITION. What counts as a safe run, in the terms that statements use. -/
namespace Sys2Proof.Safety
open Sys2Proof.Machine

/-- The outcome is a next state. -/
def goesOn (o : Host.Outcome State Fault Refusal) : Prop := ∃ t, o = .next t

/-- A step answers a next state. -/
def steps (s t : State) : Prop := step s = .next t

/-- Everything for another module stands at the ports (spec/15_causeway.md R251): no message on the net is addressed to one. -/
def portsClear (s : State) : Prop := ∀ m ∈ s.net, ∀ k, m.dst ≠ .remote k

/-- Nothing keeps a process from issuing a word now but what the word names (R43, R44): no window is closed, a long-latency word
finds fewer than four operations outstanding and none for which it was held before, one with an external effect finds all of them past their commit
points. -/
structure Open (long ext : Bool) (p : Proc) : Prop where
  windows : ∀ o ∈ p.outs, o.issued ≠ o.l
  count : long = true → p.outs.length < 4
  oldest : long = true → p.holdsFifth = false
  commit : ext = true → ∀ o ∈ p.outs, o.committed = true

/-- The registers that a word names lie in the allotment of a partition (R33, R34). -/
structure Allotted (gs vs : List Nat) (partition : Nat) : Prop where
  g : ∀ i ∈ gs, i < gAllot partition
  v : ∀ i ∈ vs, i < vAllot partition

/-- The word of the process that has its turn has its effect now: its guard is true (R40), the process may run it and it names registers
of its allotment, with no reserved field (R41), it may issue (R44), no word of the process waits for its place in the tile queue (R214) or is in
progress, and no register that it reads is struck (R315). -/
structure Clear (w : Issue) (s : State) : Prop where
  mark : w.gu.never = false
  guard : (s.proc s.turn).r.guard w.gu = true
  legal : w.illegal = false
  mode : w.priv = true → (s.proc s.turn).priv = true
  names : Allotted w.gs w.vs (s.core (coreOf s.turn)).partition
  open_ : Open w.long w.ext (s.proc s.turn)
  queue : s.entering s.turn = false
  start : (s.proc s.turn).midWord = false
  good : ∀ r ∈ w.reads, r ∉ (s.proc s.turn).struck

/-- The word of the process that has its turn is past its first step, so that its guard and its checks stand, and goes on now: no word of the process
waits for its place in the tile queue, and no window is closed. It takes its operands from the registers that Proc.word gives. -/
structure Going (w : Issue) (s : State) : Prop where
  mark : w.gu.never = false
  begun : (s.proc s.turn).midWord = true
  open_ : Open w.long w.ext (s.proc s.turn)
  queue : s.entering s.turn = false

/-- The state after a word of the process that has its turn: it wrote the registers ws, leaving r, and control is at pc. -/
def retired (s : State) (ws : List RegRef) (r : Regs) (pc : Word) (jumped : Bool) : State :=
  s.setProc s.turn ((s.proc s.turn).retire ws r pc jumped)

/-- The same with control falling through: what a word that only computes leaves. -/
def computes (s : State) (ws : List RegRef) (r : Regs) : Host.Outcome State Fault Refusal :=
  .next (retired s ws r ((s.proc s.turn).pc + 4) false)

/-- An access of the process that has its turn may leave the core: its address translates to pa (R61 to R66), the stream to its home runs (R258),
and no acquire keeps it back (R244). -/
structure Reaches (s : State) (a : Access) (va : Word) (pa : Nat) (u : Under) : Prop where
  translates : s.xlate (s.ctxOf s.turn) a va.toNat = .ok pa u
  runs : s.awayWait s.turn (s.homeOf pa) = false
  free : (s.proc s.turn).acquires (coreOf s.turn) (s.homeOf pa) = false

/-- What a guest's access to the module where it runs carries, by which it is checked there as a request of another module would be (R264). -/
def guestHeader (s : State) (pk : Nat) (b : Body) : Option Header :=
  if (s.proc pk).guest && decide (b.access.1 ≠ 6) then
    some (s.headerTo (coreOf pk) (s.originWord pk) s.modid none (s.askey.get 0 (s.proc pk).asid) b) else none

/-- Between s and t the process pk has sent one request of operation op for va, which translates to pa: to its home as a message, or to the
ports for another module. Nothing else was sent. -/
def asks (s t : State) (pk op : Nat) (rop : ROp) (va : Word) (pa : Nat) : Prop :=
  ∃ r : Req, r.rop = rop ∧ r.op = op ∧ r.va = va ∧ r.who = s.originWord pk ∧ r.home = s.homeOf pa ∧
    match s.homeOf pa with
    | .remote m => t.net = s.net ∧ ∃ x : Packet, t.outbox = s.outbox ++ [x] ∧ x.target = m ∧ x.request = true ∧ x.body = .req r
    | h => t.outbox = s.outbox ∧ ∃ n, t.net = s.net ++ [⟨n, .core (coreOf pk), h, .req r, guestHeader s pk (.req r), false⟩]

/-- Lane by lane of n bits: an active lane of new holds what f gives it, another lane what it held in old; fl holds each flag that some active
lane raises (R188, R189). -/
def laneResult (n : Nat) (q : Mask) (old new : VReg) (fl : Flags) (f : Nat → Nat × Flags) : Prop :=
  (∀ j < 1024 / n, getLane new n j = if q.getLsbD j then (f j).1 % 2 ^ n else getLane old n j) ∧
  (∀ b, fl.getLsbD b = true ↔ ∃ j < 1024 / n, q.getLsbD j = true ∧ (f j).2.getLsbD b = true)

/-- A vector word leaves vd with these lanes, and its flags raised. -/
def computesLanes (i : Instr) (s : State) (vd : BitVec 5) (n : Nat) (q : Mask) (f : Nat → Nat × Flags) : Prop :=
  let r := (s.proc s.turn).r
  ∃ v fl, exec i s = computes s [(1, vd.toNat)] ((r.orFlags fl).setV vd v) ∧ laneResult n q (r.getV vd) v fl f

end Sys2Proof.Safety
end

