-- ==== Sys2Proof/Certificates/Slice0/Obligations.lean ====
section
/-! DEFINITION. The statements for the provers. Each says which rules of spec/ it states. `Safety.Clear` gives the conditions under which a
word has its effect, `Safety.computes` the state that a word leaves which only computes on registers. -/
open Sys2Proof Sys2Proof.Machine

/-- R152, R154: what the register-to-register words that raise no flag write: sums, differences and products modulo 2^64, the high halves of the
three products, bitwise logic, shifts and rotates by b[5:0], and the smaller and the larger of two. Each leaves the rest as `computes` says. -/
def Obligations.AluWritesResult : Prop :=
  ∀ (o : RRR) (s : State), Safety.Clear (infoRRR o 0) s →
    let r := (s.proc s.turn).r
    let a := r.getG o.a
    let b := r.getG o.b
    let n := b.toNat % 64
    let put (x : Word) := Safety.computes s [(0, o.d.toNat)] (r.setG o.d x)
    exec (.add o) s = put (a + b) ∧ exec (.sub o) s = put (a - b) ∧ exec (.and o) s = put (a &&& b) ∧ exec (.or o) s = put (a ||| b) ∧
    exec (.xor o) s = put (a ^^^ b) ∧ exec (.andn o) s = put (a &&& ~~~b) ∧ exec (.shl o) s = put (a <<< n) ∧ exec (.shr o) s = put (a >>> n) ∧
    exec (.sra o) s = put (BitVec.ofInt 64 (a.toInt / 2 ^ n)) ∧ exec (.rol o) s = put ((a <<< n) ||| (a >>> ((64 - n) % 64))) ∧
    exec (.min o) s = put (BitVec.ofInt 64 (min a.toInt b.toInt)) ∧ exec (.max o) s = put (BitVec.ofInt 64 (max a.toInt b.toInt)) ∧
    exec (.minu o) s = put (BitVec.ofNat 64 (min a.toNat b.toNat)) ∧ exec (.maxu o) s = put (BitVec.ofNat 64 (max a.toNat b.toNat)) ∧
    exec (.mul o) s = put (BitVec.ofNat 64 (a.toNat * b.toNat)) ∧
    exec (.mulh o) s = put (BitVec.ofInt 64 (a.toInt * b.toInt / 2 ^ 64)) ∧
    exec (.mulhu o) s = put (BitVec.ofNat 64 (a.toNat * b.toNat / 2 ^ 64)) ∧
    exec (.mulhsu o) s = put (BitVec.ofInt 64 (a.toInt * (b.toNat : Int) / 2 ^ 64))

/-- R153, R155: saturating sums and differences with SAT, and divisions that truncate towards zero, with DZ, all ones and the dividend for a
zero divisor. -/
def Obligations.SaturationAndDivision : Prop :=
  ∀ (o : RRR) (s : State), Safety.Clear (infoRRR o 0) s →
    let r := (s.proc s.turn).r
    let a := r.getG o.a
    let b := r.getG o.b
    let put (x : Word) (f : Flags) := Safety.computes s [(0, o.d.toNat)] ((r.orFlags f).setG o.d x)
    let sat (x : Int) := put (BitVec.ofInt 64 (max (-(2 ^ 63)) (min (2 ^ 63 - 1) x))) (if -(2 ^ 63) ≤ x ∧ x < 2 ^ 63 then 0 else fSAT)
    exec (.adds o) s = sat (a.toInt + b.toInt) ∧ exec (.subs o) s = sat (a.toInt - b.toInt) ∧
    (b = 0 →
      exec (.div o) s = put (BitVec.allOnes 64) fDZ ∧ exec (.divu o) s = put (BitVec.allOnes 64) fDZ ∧
      exec (.rem o) s = put a fDZ ∧ exec (.remu o) s = put a fDZ) ∧
    (b ≠ 0 →
      exec (.div o) s = put (BitVec.ofInt 64 (a.toInt.tdiv b.toInt)) 0 ∧ exec (.divu o) s = put (BitVec.ofNat 64 (a.toNat / b.toNat)) 0 ∧
      exec (.rem o) s = put (BitVec.ofInt 64 (a.toInt.tmod b.toInt)) 0 ∧ exec (.remu o) s = put (BitVec.ofNat 64 (a.toNat % b.toNat)) 0)

/-- R154: what the bit counts and the bit reversal write. -/
def Obligations.BitCountsAndReversal : Prop :=
  ∀ (o : RR) (s : State), Safety.Clear (infoRR o 0) s →
    let r := (s.proc s.turn).r
    let a := r.getG o.a
    let put (x : Word) := Safety.computes s [(0, o.d.toNat)] (r.setG o.d x)
    (∃ n ≤ 64, exec (.clz o) s = put (BitVec.ofNat 64 n) ∧ (∀ i < n, a.getLsbD (63 - i) = false) ∧ (n < 64 → a.getLsbD (63 - n) = true)) ∧
    (∃ n ≤ 64, exec (.ctz o) s = put (BitVec.ofNat 64 n) ∧ (∀ i < n, a.getLsbD i = false) ∧ (n < 64 → a.getLsbD n = true)) ∧
    exec (.popc o) s = put (BitVec.ofNat 64 ((List.range 64).filter (fun i => a.getLsbD i)).length) ∧
    (∃ x : Word, exec (.brev o) s = put x ∧ ∀ i < 64, x.getLsbD i = a.getLsbD (63 - i))

/-- R156: extraction and insertion of the bit field of length b[13:8] + 1 at position b[5:0]; bits beyond bit 63 read as zero and are not
written. -/
def Obligations.BitFields : Prop :=
  ∀ (o : RRR) (s : State),
    let r := (s.proc s.turn).r
    let a := r.getG o.a
    let b := r.getG o.b
    let d := r.getG o.d
    let pos := b.toNat % 64
    let len := b.toNat / 2 ^ 8 % 64 + 1
    let put (x : Word) := Safety.computes s [(0, o.d.toNat)] (r.setG o.d x)
    (Safety.Clear (infoRRR o 0) s →
      ∃ x : Word, exec (.bfx o) s = put x ∧ ∀ i < 64, x.getLsbD i = (decide (i < len) && a.getLsbD (pos + i))) ∧
    (Safety.Clear (infoRRRD o 0) s → ∃ x : Word, exec (.bfi o) s = put x ∧
      ∀ i < 64, x.getLsbD i = if pos ≤ i ∧ i < pos + len then a.getLsbD (i - pos) else d.getLsbD i)

/-- R157: the immediate forms. -/
def Obligations.ImmediatesWriteResult : Prop :=
  (∀ (o : RRI) (s : State), Safety.Clear (infoRRI o 0) s →
    let r := (s.proc s.turn).r
    let a := r.getG o.a
    let put (x : Word) := Safety.computes s [(0, o.d.toNat)] (r.setG o.d x)
    exec (.addi o) s = put (BitVec.ofInt 64 (a.toInt + o.imm.toInt)) ∧ exec (.andi o) s = put (a &&& BitVec.ofInt 64 o.imm.toInt) ∧
    exec (.ori o) s = put (a ||| BitVec.ofNat 64 o.imm.toNat) ∧ exec (.xori o) s = put (a ^^^ BitVec.ofNat 64 o.imm.toNat)) ∧
  (∀ (o : SHI) (s : State), Safety.Clear (infoSHI o 0) s →
    let r := (s.proc s.turn).r
    let a := r.getG o.a
    let n := o.amt.toNat
    let put (x : Word) := Safety.computes s [(0, o.d.toNat)] (r.setG o.d x)
    exec (.shli o) s = put (a <<< n) ∧ exec (.shri o) s = put (a >>> n) ∧ exec (.srai o) s = put (BitVec.ofInt 64 (a.toInt / 2 ^ n)) ∧
    exec (.roli o) s = put ((a <<< n) ||| (a >>> ((64 - n) % 64)))) ∧
  (∀ (o : RI) (s : State),
    let r := (s.proc s.turn).r
    let put (x : Word) := Safety.computes s [(0, o.d.toNat)] (r.setG o.d x)
    (Safety.Clear (infoRI o 0) s → exec (.imm o) s = put (BitVec.ofInt 64 o.imm.toInt)) ∧
    (Safety.Clear (infoRID o 0) s → exec (.immh o) s = put (BitVec.ofNat 64 ((r.getG o.d).toNat * 2 ^ 16 + o.imm.toNat))))

/-- R158: each compare writes its condition to pT and the complement to pF; CMPI compares with the sign-extended imm6. -/
def Obligations.ComparesWritePair : Prop :=
  (∀ (o : CP) (s : State), Safety.Clear (infoCP o 0) s →
    let r := (s.proc s.turn).r
    let a := r.getG o.a
    let b := r.getG o.b
    let put (c : Bool) := Safety.computes s [] ((r.setP o.pT c).setP o.pF (!c))
    exec (.cmpeq o) s = put (decide (a = b)) ∧ exec (.cmpne o) s = put (decide (a ≠ b)) ∧
    exec (.cmplt o) s = put (decide (a.toInt < b.toInt)) ∧ exec (.cmple o) s = put (decide (a.toInt ≤ b.toInt)) ∧
    exec (.cmpgt o) s = put (decide (b.toInt < a.toInt)) ∧ exec (.cmpge o) s = put (decide (b.toInt ≤ a.toInt)) ∧
    exec (.cmpltu o) s = put (decide (a.toNat < b.toNat)) ∧ exec (.cmpleu o) s = put (decide (a.toNat ≤ b.toNat)) ∧
    exec (.cmpgtu o) s = put (decide (b.toNat < a.toNat)) ∧ exec (.cmpgeu o) s = put (decide (b.toNat ≤ a.toNat))) ∧
  (∀ (o : CPI) (s : State), Safety.Clear (infoCPI o 0) s →
    let r := (s.proc s.turn).r
    let a := r.getG o.a
    let b : Word := BitVec.ofInt 64 o.imm.toInt
    let put (c : Bool) := Safety.computes s [] ((r.setP o.pT c).setP o.pF (!c))
    exec (.cmpeqi o) s = put (decide (a = b)) ∧ exec (.cmpnei o) s = put (decide (a ≠ b)) ∧
    exec (.cmplti o) s = put (decide (a.toInt < b.toInt)) ∧ exec (.cmplei o) s = put (decide (a.toInt ≤ b.toInt)) ∧
    exec (.cmpgti o) s = put (decide (b.toInt < a.toInt)) ∧ exec (.cmpgei o) s = put (decide (b.toInt ≤ a.toInt)) ∧
    exec (.cmpltui o) s = put (decide (a.toNat < b.toNat)) ∧ exec (.cmpleui o) s = put (decide (a.toNat ≤ b.toNat)) ∧
    exec (.cmpgtui o) s = put (decide (b.toNat < a.toNat)) ∧ exec (.cmpgeui o) s = put (decide (b.toNat ≤ a.toNat)))

/-- R159, R202: the eight logic words on predicates and on lane masks. -/
def Obligations.PredicateAndMaskLogic : Prop :=
  (∀ (o : PL) (s : State), Safety.Clear (infoPL o 0) s →
    let r := (s.proc s.turn).r
    let a := r.getP o.a
    let b := r.getP o.b
    let put (c : Bool) := Safety.computes s [] (r.setP o.d c)
    exec (.pand o) s = put (a && b) ∧ exec (.por o) s = put (a || b) ∧ exec (.pxor o) s = put (a != b) ∧ exec (.pandn o) s = put (a && !b) ∧
    exec (.porn o) s = put (a || !b) ∧ exec (.pnand o) s = put (!(a && b)) ∧ exec (.pnor o) s = put (!(a || b)) ∧
    exec (.pxnor o) s = put (a == b)) ∧
  (∀ (o : PL) (s : State), Safety.Clear (infoPLQ o 0) s →
    let r := (s.proc s.turn).r
    let a := r.getQ o.a
    let b := r.getQ o.b
    let put (c : Mask) := Safety.computes s [(2, o.d.toNat)] (r.setQ o.d c)
    exec (.qand o) s = put (a &&& b) ∧ exec (.qor o) s = put (a ||| b) ∧ exec (.qxor o) s = put (a ^^^ b) ∧ exec (.qandn o) s = put (a &&& ~~~b) ∧
    exec (.qorn o) s = put (a ||| ~~~b) ∧ exec (.qnand o) s = put (~~~(a &&& b)) ∧ exec (.qnor o) s = put (~~~(a ||| b)) ∧
    exec (.qxnor o) s = put (~~~(a ^^^ b)))

/-- R160 to R165: the scalar floating-point words read the low bits of their sources as codes of the format, compute exactly, round once to
nearest even, and write the code zero-extended with the flags of the rounding; compares write a predicate pair. -/
def Obligations.ScalarFloat : Prop :=
  (∀ (o : FR) (s : State), Safety.Clear (infoFR o 0) s →
    let r := (s.proc s.turn).r
    let F := fmtOf o.fmt
    let a := (r.getG o.a).toNat % 2 ^ F.bits
    let b := (r.getG o.b).toNat % 2 ^ F.bits
    let d := (r.getG o.d).toNat % 2 ^ F.bits
    let put (x : Nat × Flags) := Safety.computes s [(0, o.d.toNat)] ((r.orFlags x.2).setG o.d (BitVec.ofNat 64 x.1))
    exec (.fadd o) s = put (roundRne F (valAdd (F.value a) (F.value b))) ∧ exec (.fsub o) s = put (roundRne F (valSub (F.value a) (F.value b))) ∧
    exec (.fmul o) s = put (roundRne F (valMul (F.value a) (F.value b))) ∧ exec (.fdiv o) s = put (roundRne F (valDiv F.f (F.value a) (F.value b))) ∧
    exec (.fmin o) s = put (F.minmax false a b) ∧ exec (.fmax o) s = put (F.minmax true a b) ∧
    ((0, o.d.toNat) ∉ (s.proc s.turn).struck → exec (.fma o) s = put (roundRne F (valFma (F.value d) (F.value a) (F.value b))))) ∧
  (∀ (o : FR1) (s : State), Safety.Clear (infoFR1 o 0) s →
    let r := (s.proc s.turn).r
    let F := fmtOf o.fmt
    let x := roundRne F (valSqrt F.f (F.value ((r.getG o.a).toNat % 2 ^ F.bits)))
    exec (.fsqrt o) s = Safety.computes s [(0, o.d.toNat)] ((r.orFlags x.2).setG o.d (BitVec.ofNat 64 x.1))) ∧
  (∀ (o : FP) (s : State), Safety.Clear (infoFP o 0) s →
    let r := (s.proc s.turn).r
    let F := fmtOf o.fmt
    let a := (r.getG o.a).toNat % 2 ^ F.bits
    let b := (r.getG o.b).toNat % 2 ^ F.bits
    let nan := (F.value a).isNan || (F.value b).isNan
    let signalling := (F.value a).isSignalling || (F.value b).isSignalling
    let put (c : Bool) (f : Flags) := Safety.computes s [] (((r.orFlags f).setP o.pT c).setP o.pF (!c))
    exec (.fcmpeq o) s = put (!nan && decide (F.key a = F.key b)) (if signalling then fNV else 0) ∧
    exec (.fcmplt o) s = put (!nan && decide (F.key a < F.key b)) (if nan then fNV else 0) ∧
    exec (.fcmple o) s = put (!nan && decide (F.key a ≤ F.key b)) (if nan then fNV else 0) ∧
    exec (.fcmpun o) s = put nan (if signalling then fNV else 0))

/-- R165: the twelve conversions: between float formats and from integers rounded to nearest even, to integers truncated and saturated. -/
def Obligations.ScalarConversions : Prop :=
  ∀ (o : RR) (s : State), Safety.Clear (infoRR o 0) s →
    let r := (s.proc s.turn).r
    let a := r.getG o.a
    let put (x : Word) (f : Flags) := Safety.computes s [(0, o.d.toNat)] ((r.orFlags f).setG o.d x)
    let ff (F G : Fmt) := let x := roundTo G .rne (F.value (a.toNat % 2 ^ F.bits)); put (BitVec.ofNat 64 x.1) x.2
    let fi (F : Fmt) (lo hi : Int) := let x := roundInt lo hi .rtz (F.value (a.toNat % 2 ^ F.bits)); put (BitVec.ofInt 64 x.1) x.2
    let gf (F : Fmt) (i : Int) := let x := roundTo F .rne (.ofInt i); put (BitVec.ofNat 64 x.1) x.2
    exec (.fcvtsh o) s = ff .fp32 .fp16 ∧ exec (.fcvtsb o) s = ff .fp32 .bf16 ∧ exec (.fcvths o) s = ff .fp16 .fp32 ∧
    exec (.fcvtbs o) s = ff .bf16 .fp32 ∧ exec (.fcvthb o) s = ff .fp16 .bf16 ∧ exec (.fcvtbh o) s = ff .bf16 .fp16 ∧
    exec (.fcvtsi o) s = fi .fp32 (-(2 ^ 63)) (2 ^ 63 - 1) ∧ exec (.fcvthi o) s = fi .fp16 (-(2 ^ 63)) (2 ^ 63 - 1) ∧
    exec (.fcvtsu o) s = fi .fp32 0 (2 ^ 64 - 1) ∧ exec (.fcvtis o) s = gf .fp32 a.toInt ∧ exec (.fcvtih o) s = gf .fp16 a.toInt ∧
    exec (.fcvtus o) s = gf .fp32 (a.toNat : Int)

/-- R166: branches and calls; a JR whose target is no multiple of 4 traps MISALIGN at its own address and writes no link. A branch whose guard is false continues at pc + 4. -/
def Obligations.BranchesAndCalls : Prop :=
  (∀ (o : BT) (s : State), Safety.Clear (infoBT o 0) s →
    let p := s.proc s.turn
    exec (.br o) s = .next (Safety.retired s [] p.r (p.pc + BitVec.ofInt 64 (o.disp.toInt * 4)) true)) ∧
  (∀ (o : RI) (s : State), Safety.Clear (infoRI o 0) s →
    let p := s.proc s.turn
    exec (.jal o) s = .next (Safety.retired s [(0, o.d.toNat)] (p.r.setG o.d (p.pc + 4)) (p.pc + BitVec.ofInt 64 (o.imm.toInt * 4)) true)) ∧
  (∀ (o : RR) (s : State), Safety.Clear (infoRR o 0) s →
    let p := s.proc s.turn
    let t := p.r.getG o.a
    (t.toNat % 4 = 0 → exec (.jr o) s = .next (Safety.retired s [(0, o.d.toNat)] (p.r.setG o.d (p.pc + 4)) t true)) ∧
    (t.toNat % 4 ≠ 0 → exec (.jr o) s = .next (s.raise s.turn ⟨.misalign, t, 0, 0⟩))) ∧
  (∀ (i : Instr) (w : Issue) (s : State), ((∃ o, i = .br o ∧ w = infoBT o (packBT 0x10 o)) ∨ (∃ o, i = .jal o ∧ w = infoRI o (packRI 0x11 o)) ∨ (∃ o, i = .jr o ∧ w = infoRR o (packRR 0x12 0 o))) →
    w.gu.never = false → (s.proc s.turn).r.guard w.gu = false → (s.proc s.turn).mayIssue false false = true →
      Safety.Allotted w.gs w.vs (s.core (coreOf s.turn)).partition → exec i s = .next (s.setProc s.turn (s.proc s.turn).pass))

/-- R43, R168: a plain load that passes its checks sends one load request to the home of its address and opens its window; the register is
written when the answer arrives. Its displacement is scaled by the size. A load that moves its process (R262) is a statement of its own. -/
def Obligations.PlainLoadsAsk : Prop :=
  ∀ (o : LD) (s : State) (pa : Nat) (u : Under),
    let p := s.proc s.turn
    let load (i : Instr) (z : Nat) (sgn : Bool) :=
      let ea := p.r.getG o.a + BitVec.ofInt 64 (o.disp.toInt * z)
      Safety.Clear { infoLD o 0 with ext := s.toMmio s.turn ea } s → ea.toNat % z = 0 → Safety.Reaches s .rd ea pa u →
        loadCheck p.priv pa z = none → s.travels s.turn pa = false →
        ∃ t, exec i s = .next t ∧ Safety.asks s t s.turn s.nextId (.load pa z false false) ea pa ∧ t.mem = s.mem ∧
          t.proc s.turn = p.open_ s.nextId o.l.toNat false .load (.g o.d z sgn) ea 0 [(0, o.d.toNat)] (some (s.homeOf pa))
    load (.ldb o) 1 true ∧ load (.ldh o) 2 true ∧ load (.ldw o) 4 true ∧ load (.ldd o) 8 false ∧ load (.ldbu o) 1 false ∧
    load (.ldhu o) 2 false ∧ load (.ldwu o) 4 false

/-- R88 to R90, R244, R337: LDX and LDP are synchronising loads of one dword and acquires, after which any later access waits, whatever its home; LDA acquires
at the scope it names, AUTO being SYS. Only a wait at another core is limited by SYNCLIM (R85, R86). -/
def Obligations.SynchronisingLoadsAsk : Prop :=
  (∀ (o : LD) (s : State) (pa : Nat) (u : Under),
    let p := s.proc s.turn
    let ea := p.r.getG o.a + BitVec.ofInt 64 (o.disp.toInt * 8)
    Safety.Clear { infoLD o 0 with ext := true } s → ea.toNat % 8 = 0 → Safety.Reaches s .rd ea pa u → syncCheck false pa = none →
      s.travels s.turn pa = false →
      (∃ t, exec (.ldx o) s = .next t ∧ Safety.asks s t s.turn s.nextId (.load pa 8 true true) ea pa ∧ t.mem = s.mem ∧
        t.proc s.turn = p.open_ s.nextId o.l.toNat false .sync (.g o.d 8 false) ea 3 [(0, o.d.toNat)] (some (s.homeOf pa))) ∧
      (∃ t, exec (.ldp o) s = .next t ∧ Safety.asks s t s.turn s.nextId (.load pa 8 false true) ea pa ∧ t.mem = s.mem ∧
        t.proc s.turn = p.open_ s.nextId o.l.toNat false .sync (.g o.d 8 false) ea 3 [(0, o.d.toNat)] (some (s.homeOf pa)))) ∧
  (∀ (o : LA) (s : State) (pa : Nat) (u : Under),
    let p := s.proc s.turn
    let ea := p.r.getG o.a + BitVec.ofNat 64 (o.disp.toNat * 8)
    Safety.Clear (infoLA o 0) s → ea.toNat % 8 = 0 → Safety.Reaches s .rd ea pa u → ldaCheck p.priv pa = none →
      s.travels s.turn pa = false →
      ∃ t, exec (.lda o) s = .next t ∧ Safety.asks s t s.turn s.nextId (.load pa 8 false false) ea pa ∧ t.mem = s.mem ∧
        t.proc s.turn = p.open_ s.nextId o.l.toNat false .load (.g o.d 8 false) ea
          (match o.scope with | .core => 1 | .pkg => 2 | .sys => 3 | .auto => 3) [(0, o.d.toNat)] (some (s.homeOf pa)))

/-- R262: a scalar load to memory of another module that has room for the process moves the process instead of fetching the data: a travel
packet takes it there, its registers as they stand and its pc at the load. -/
def Obligations.RemoteLoadTravels : Prop :=
  ∀ (s : State) (pa : Nat) (u : Under),
    let p := s.proc s.turn
    let moves (i : Instr) (w : Issue) (z : Nat) (ea : Word) (check : Option Cause) :=
      Safety.Clear w s → ea.toNat % z = 0 → Safety.Reaches s .rd ea pa u → check = none → s.travels s.turn pa = true →
        ∃ t x r, exec i s = .next t ∧ t.net = s.net ∧ t.outbox = s.outbox ++ [x] ∧ x.target = paModule pa ∧ x.body = .travel r ∧
          r.pc = p.pc ∧ r.r = p.r ∧ r.pa = pa ∧ r.who = s.originWord s.turn ∧ r.op = s.nextId
    (∀ o : LD,
      let ea (z : Nat) := p.r.getG o.a + BitVec.ofInt 64 (o.disp.toInt * z)
      let plain (i : Instr) (z : Nat) := moves i { infoLD o 0 with ext := s.toMmio s.turn (ea z) } z (ea z) (loadCheck p.priv pa z)
      plain (.ldb o) 1 ∧ plain (.ldh o) 2 ∧ plain (.ldw o) 4 ∧ plain (.ldd o) 8 ∧ plain (.ldbu o) 1 ∧ plain (.ldhu o) 2 ∧ plain (.ldwu o) 4 ∧
      moves (.ldx o) { infoLD o 0 with ext := true } 8 (ea 8) (syncCheck false pa) ∧
      moves (.ldp o) { infoLD o 0 with ext := true } 8 (ea 8) (syncCheck false pa)) ∧
    (∀ o : LA, moves (.lda o) (infoLA o 0) 8 (p.r.getG o.a + BitVec.ofNat 64 (o.disp.toNat * 8)) (ldaCheck p.priv pa))

/-- R88, R89, R90, R169, R170, R245: a store that passes its checks sends its bytes to the home of its address and passes its word; the core counts it
as unacknowledged, at most 16 of them: a seventeenth waits for the oldest. STL waits for the unacknowledged stores in its scope first. No byte of memory changes before the home
performs it. STX sends a synchronising store that is an outstanding operation, once the module holds no unacknowledged store of the process. -/
def Obligations.StoresAsk : Prop :=
  ((∀ (o : ST) (s : State) (pa : Nat) (u : Under),
    let p := s.proc s.turn
    let store (i : Instr) (z : Nat) :=
      let ea := p.r.getG o.a + BitVec.ofInt 64 (o.disp.toInt * z)
      let f := storeForm (paLocal pa) z ((p.r.getG o.s).toNat % 2 ^ (8 * z))
      Safety.Clear (infoST o 0) s → ea.toNat % z = 0 → Safety.Reaches s .wr ea pa u → storeCheck false pa z = none → p.storesFull = false →
        ∃ t, exec i s = .next t ∧ Safety.asks s t s.turn s.nextId (.store pa z f.1 false false) ea pa ∧ t.mem = s.mem ∧
          t.proc s.turn = { p.pass with r := p.r.orFlags f.2, unacked := p.unacked ++ [⟨s.nextId, s.homeOf pa, false, pa⟩] }
    store (.stb o) 1 ∧ store (.sth o) 2 ∧ store (.stw o) 4 ∧ store (.std o) 8) ∧
  (∀ (o : SL) (s : State) (pa : Nat) (u : Under),
    let p := s.proc s.turn
    let ea := p.r.getG o.a + BitVec.ofNat 64 (o.disp.toNat * 8)
    Safety.Clear (infoSL o 0) s → ea.toNat % 8 = 0 → Safety.Reaches s .wr ea pa u → stlCheck pa = none → p.storesFull = false →
      (∀ x ∈ p.unacked, scopeCovers (scopeLevel o.scope) (coreOf s.turn) x.home = false) →
      ∃ t, exec (.stl o) s = .next t ∧
        Safety.asks s t s.turn s.nextId (.store pa 8 (storeWrites (paLocal pa) 8 (p.r.getG o.s).toNat) false (decide (o.scope = .auto))) ea pa ∧
        t.mem = s.mem ∧ t.proc s.turn = { p.pass with unacked := p.unacked ++ [⟨s.nextId, s.homeOf pa, false, pa⟩] })) ∧
  (∀ (o : ST) (s : State) (pa : Nat) (u : Under),
    let p := s.proc s.turn
    let ea := p.r.getG o.a + BitVec.ofInt 64 (o.disp.toInt * 8)
    Safety.Clear (infoST o 0) s → ea.toNat % 8 = 0 → Safety.Reaches s .wr ea pa u → syncCheck true pa = none →
      (∀ x ∈ p.unacked, ∃ m, x.home = .remote m) →
      ∃ t, exec (.stx o) s = .next t ∧
        Safety.asks s t s.turn s.nextId (.store pa 8 (storeWrites (paLocal pa) 8 (p.r.getG o.s).toNat) true false) ea pa ∧ t.mem = s.mem ∧
        t.proc s.turn = p.open_ s.nextId 0 false .sync .none ea 0 [] (some (s.homeOf pa)))

/-- R190 to R192: VLD and VST move 128 bytes in one access; a VLD clears VCLEAN at once, and the bytes of a VST are those its mask selects, encoded
through the block and float windows. -/
def Obligations.VectorMemoryAsks : Prop :=
  (∀ (o : VL) (s : State) (pa : Nat) (u : Under),
    let p := s.proc s.turn
    let ea := p.r.getG o.a + BitVec.ofInt 64 (o.disp.toInt * 128)
    let q := p.open_ s.nextId o.l.toNat false .load (.v o.vd (vldBytes pa (p.r.getQ o.q))) ea 0 [(1, o.vd.toNat)] (some (s.homeOf pa))
    Safety.Clear { infoVL o 0 with ext := s.toMmio s.turn ea } s → ea.toNat % 128 = 0 → Safety.Reaches s .rd ea pa u →
      loadCheck p.priv pa 128 = none →
      ∃ t, exec (.vld o) s = .next t ∧ Safety.asks s t s.turn s.nextId (.load pa 128 false false) ea pa ∧ t.mem = s.mem ∧
        t.proc s.turn = { q with r := { q.r with flags := q.r.flags &&& ~~~fVCLEAN } }) ∧
  (∀ (o : VS) (s : State) (pa : Nat) (u : Under),
    let p := s.proc s.turn
    let ea := p.r.getG o.a + BitVec.ofInt 64 (o.disp.toInt * 128)
    let f := vstForm (paLocal pa) (p.r.getV o.vs) (p.r.getQ o.q) o.rm
    Safety.Clear (infoVS o 0) s → ea.toNat % 128 = 0 → Safety.Reaches s .wr ea pa u → storeCheck true pa 128 = none →
      p.storesFull = false →
      ∃ t, exec (.vst o) s = .next t ∧ Safety.asks s t s.turn s.nextId (.store pa 128 f.1 false false) ea pa ∧ t.mem = s.mem ∧
        t.proc s.turn = { p.pass with r := p.r.orFlags f.2, unacked := p.unacked ++ [⟨s.nextId, s.homeOf pa, false, pa⟩] })

/-- R56 to R58, R65, R88, R94, R168, R169, R190, R238, R244, R245, R305: where an access traps, at the word's own pc. First MISALIGN of an address that is no multiple of the access
size; then the failure of its translation, with the class of the access and the level for a batch, where a PAGE of an unprivileged process pends instead and runahead begins; then what the check of its
form says: MISALIGN of a synchronising, acquiring, releasing or atomic access, and of most stores, through the windows that bar them, PROT of a buffer that its window does not show or that bars the access, PRIV
of an unprivileged load of the process store. -/
def Obligations.AccessTraps : Prop :=
  (∀ s : State,
    let p := s.proc s.turn
    let r := p.r
    let traps (i : Instr) (w : Issue) (z : Nat) (a : Access) (cls : Nat) (ea : Word) (check : Nat → Option Cause) : Prop := Safety.Clear w s →
      let trapped (x : Trap) : Prop := exec i s = .next ((s.count s.turn).trap s.turn x p.pc)
      (ea.toNat % z ≠ 0 → trapped ⟨.misalign, ea, 0, 0⟩) ∧
      (ea.toNat % z = 0 →
        (∀ c l, s.xlate (s.ctxOf s.turn) a ea.toNat = .fail c l → (c ≠ .page ∨ p.priv = true) → trapped ⟨c, ea, cls, l⟩) ∧
        (∀ l, s.xlate (s.ctxOf s.turn) a ea.toNat = .fail .page l → p.priv = false →
          exec i s = .next (s.setProc s.turn { p.settled with pend := some ⟨.page, ea, cls, l⟩ })) ∧
        (∀ pa u c, s.xlate (s.ctxOf s.turn) a ea.toNat = .ok pa u → check pa = some c → trapped ⟨c, ea, 0, 0⟩))
    (∀ o : LD,
      let ea (z : Nat) : Word := r.getG o.a + BitVec.ofInt 64 (o.disp.toInt * z)
      let load (i : Instr) (z : Nat) : Prop := traps i { infoLD o 0 with ext := s.toMmio s.turn (ea z) } z .rd 0 (ea z) (fun pa => loadCheck p.priv pa z)
      load (.ldb o) 1 ∧ load (.ldh o) 2 ∧ load (.ldw o) 4 ∧ load (.ldd o) 8 ∧ load (.ldbu o) 1 ∧ load (.ldhu o) 2 ∧ load (.ldwu o) 4 ∧
      traps (.ldx o) { infoLD o 0 with ext := true } 8 .rd 3 (ea 8) (syncCheck false) ∧ traps (.ldp o) { infoLD o 0 with ext := true } 8 .rd 3 (ea 8) (syncCheck false)) ∧
    (∀ o : ST,
      let ea (z : Nat) : Word := r.getG o.a + BitVec.ofInt 64 (o.disp.toInt * z)
      let store (i : Instr) (z : Nat) : Prop := traps i (infoST o 0) z .wr 1 (ea z) (fun pa => storeCheck false pa z)
      store (.stb o) 1 ∧ store (.sth o) 2 ∧ store (.stw o) 4 ∧ store (.std o) 8 ∧ traps (.stx o) (infoST o 0) 8 .wr 3 (ea 8) (syncCheck true)) ∧
    (∀ o : LA, traps (.lda o) (infoLA o 0) 8 .rd 6 (r.getG o.a + BitVec.ofNat 64 (o.disp.toNat * 8)) (ldaCheck p.priv)) ∧
    (∀ o : SL, traps (.stl o) (infoSL o 0) 8 .wr 6 (r.getG o.a + BitVec.ofNat 64 (o.disp.toNat * 8)) stlCheck) ∧
    (∀ o : RRR,
      let amo (i : Instr) (f : Nat) (w : Issue) : Prop := traps i { w with ext := true } 8 .rw 4 (r.getG o.a) (amoCheck f)
      let w := infoRRR o 0
      amo (.amoadd o) 0 w ∧ amo (.amosmin o) 1 w ∧ amo (.amosmax o) 2 w ∧ amo (.amoumin o) 3 w ∧ amo (.amoumax o) 4 w ∧ amo (.amoand o) 5 w ∧ amo (.amoor o) 6 w ∧
      amo (.amoxor o) 7 w ∧ amo (.amoswap o) 8 w ∧ amo (.amocas o) 9 { w with gs := w.gs ++ [o.b.toNat + 1], reads := w.reads ++ [(0, o.b.toNat + 1)] }) ∧
    (∀ o : VL, let ea := r.getG o.a + BitVec.ofInt 64 (o.disp.toInt * 128)
      traps (.vld o) { infoVL o 0 with ext := s.toMmio s.turn ea } 128 .rd 5 ea (fun pa => loadCheck p.priv pa 128)) ∧
    (∀ o : VS, traps (.vst o) (infoVS o 0) 128 .wr 5 (r.getG o.a + BitVec.ofInt 64 (o.disp.toInt * 128)) (fun pa => storeCheck true pa 128)) ∧
    (∀ o : TG, r.getG o.b ≠ 0 →
      let tiles (i : Instr) (f : Nat) (a : Access) : Prop := traps i (infoTG o 0) 1 a 3 (r.getG o.a) (tagCause f (r.getG o.b).toNat)
      tiles (.tempty o) 0 .wr ∧ tiles (.tfull o) 1 .wr ∧ tiles (.twaitf o) 3 .rd ∧ tiles (.twaite o) 4 .rd ∧ tiles (.watch o) 5 .wr ∧ tiles (.unwatch o) 6 .rd) ∧
    (∀ o : RRR, r.getG o.b ≠ 0 → traps (.tqry o) { infoRRR o 0 with ext := true } 1 .rd 3 (r.getG o.a) (tagCause 2 (r.getG o.b).toNat))) ∧
  (∀ (priv : Bool) (pa n c off : Nat), placeOf (paLocal pa) = .scratch c off →
    let w := off / 2 ^ 21
    let o := off % 2 ^ 21
    (w ≠ 0 → (∀ x, syncCheck x pa = some .misalign) ∧ ldaCheck priv pa = some .misalign ∧ stlCheck pa = some .misalign ∧ ∀ f, amoCheck f pa = some .misalign) ∧
    ((w = 1 ∨ w = 2 ∨ w = 3 ∨ w = 6) → o < 0x60000 → storeCheck false pa n = some .misalign) ∧
    ((w = 4 ∨ w = 5) → o < 0x60000 → ∀ x, storeCheck x pa 1 = some .misalign) ∧
    (0x60000 ≤ o → ∀ x, storeCheck x pa n = some .prot) ∧
    (0x60000 ≤ o → o < 0xA0000 → (w = 0 ∨ w = 7 → loadCheck priv pa n = none) ∧ (w ≠ 0 → w ≠ 7 → loadCheck priv pa n = some .prot)) ∧
    ((0xA0000 ≤ o ∧ o < 0xC0000) ∨ 0xD0000 ≤ o → loadCheck priv pa n = some .prot) ∧
    (w = 0 → 0xC0000 ≤ o → o < 0xD0000 → loadCheck false pa n = some .priv ∧ loadCheck true pa n = none) ∧
    (w = 0 → 0x60000 ≤ o → syncCheck true pa = some .prot ∧ (∀ f, amoCheck f pa = some .prot) ∧ (0xA0000 ≤ o → syncCheck false pa = some .prot))) ∧
  (∀ (s : State) (x : Ctx) (a : Access) (va : Nat), 2 ^ 56 ≤ va ∨ (va / 2 ^ 52 ≠ 15 ∧ s.rootOf x = none) → s.xlate x a va = .fail .prot 0)

/-- R238, R239, R243: an AMO that passes its checks sends one request. With d = 0 the eight reductions leave as stores do and
are counted as unacknowledged; every other AMO is an outstanding operation that writes gd. -/
def Obligations.AtomicsAsk : Prop :=
  ∀ (o : RRR) (s : State) (pa : Nat) (u : Under),
    let p := s.proc s.turn
    let ea := p.r.getG o.a
    let amo (i : Instr) (f : Nat) (w : Issue) :=
      let noReturn := decide (o.d = 0 ∧ f < 8)
      Safety.Clear { w with ext := true } s → ea.toNat % 8 = 0 → Safety.Reaches s .rw ea pa u → amoCheck f pa = none →
        (noReturn = true → p.storesFull = false) →
        (s.isHere pa = false → ((s.core (coreOf s.turn)).amoOut.filter (fun x => decide (x.1 = paModule pa))).length < 64) →
        ∃ t, exec i s = .next t ∧ Safety.asks s t s.turn s.nextId (.amo pa f (p.r.getG o.b) (p.r.nextG o.b) (!noReturn)) ea pa ∧ t.mem = s.mem ∧
          (t.core (coreOf s.turn)).amoOut = (s.core (coreOf s.turn)).amoOut ++ (if s.isHere pa then [] else [(paModule pa, s.nextId, (s.core (coreOf s.turn)).amoSeq.get 0 (paModule pa))]) ∧
          t.proc s.turn = if noReturn then { p.pass with unacked := p.unacked ++ [⟨s.nextId, s.homeOf pa, true, pa⟩] }
            else p.open_ s.nextId 0 false .amo (.g o.d 8 false) ea 0 [(0, o.d.toNat)] (some (s.homeOf pa))
    let w := infoRRR o 0
    amo (.amoadd o) 0 w ∧ amo (.amosmin o) 1 w ∧ amo (.amosmax o) 2 w ∧ amo (.amoumin o) 3 w ∧ amo (.amoumax o) 4 w ∧ amo (.amoand o) 5 w ∧
    amo (.amoor o) 6 w ∧ amo (.amoxor o) 7 w ∧ amo (.amoswap o) 8 w ∧
    amo (.amocas o) 9 { w with gs := w.gs ++ [o.b.toNat + 1], reads := w.reads ++ [(0, o.b.toNat + 1)] }

/-- R94, R95: on one tile of this module with nothing held, TEMPTY and TFULL apply their rows of R82, TWAITF and TWAITE complete where the tile
is FULL or LENT, or EMPTY, WATCH records the process as holder, UNWATCH removes it; the answer is on its way. With n = 0 a word of the group
has no other effect than to pass. -/
def Obligations.TagWordsTakeEffect : Prop :=
  ∀ (o : TG) (s : State) (pa : Nat) (u : Under) (c tile : Nat), Safety.Clear (infoTG o 0) s →
    let p := s.proc s.turn
    let ea := p.r.getG o.a
    let me := s.originWord s.turn
    let old := s.tag c tile
    let done (t : State) := ∃ m ∈ t.net, m.body = .answer s.turn s.nextId (.vals [])
    let one (a : Access) (f : Nat) (i : Instr) (holds : Prop) (q : State → Prop) :=
      p.r.getG o.b = 1 → p.guest = false → s.keyOf me = s.turn → s.moduleOf me = s.modid → s.held = [] → Safety.Reaches s a ea pa u → s.isHere pa = true →
        tagRange f 1 pa = .ok (c, tile) → s.busyTo (.core (coreOf s.turn)) me (s.homeOf pa) = false → holds →
        ∃ t, exec i s = .next t ∧ q t ∧ done t
    (p.r.getG o.b = 0 → ∀ i ∈ [Instr.tempty o, .tfull o, .twaitf o, .twaite o, .watch o, .unwatch o],
      exec i s = .next (s.setProc s.turn p.pass)) ∧
    one .wr 0 (.tempty o) (old = .empty ∨ old = .full) (fun t => t.tag c tile = .empty) ∧
    one .wr 1 (.tfull o) (old = .empty ∨ old = .full) (fun t => t.tag c tile = .full) ∧
    one .rd 3 (.twaitf o) (old = .full ∨ old = .lent) (fun t => t.tag c tile = old) ∧
    one .rd 4 (.twaite o) (old = .empty) (fun t => t.tag c tile = old) ∧
    one .wr 5 (.watch o) ((s.core c).holder tile = none ∧ (s.core c).watches.length < 64) (fun t => (t.core c).holder tile = some me) ∧
    one .rd 6 (.unwatch o) ((s.core c).watches = [(tile, me)]) (fun t => (t.core c).watches = [])

/-- R95, R247, R249: TQRY writes the empty snapshot for n = 0; for one tile of this module with nothing held the tile's code, with its watch bit, is on its
way to gd. WAITW ends where the watch event stands, and clears it. A FENCE passes once nothing that its before mask names is incomplete in its scope; an IFENCE passes once every store of the
process is acknowledged, and the core then holds no instruction word. -/
def Obligations.TagQueriesAndFences : Prop :=
  ((∀ (o : RRR) (s : State) (pa : Nat) (u : Under) (c tile : Nat), Safety.Clear { infoRRR o 0 with ext := true } s →
    let p := s.proc s.turn
    (p.r.getG o.b = 0 → exec (.tqry o) s = Safety.computes s [(0, o.d.toNat)] (p.r.setG o.d 0)) ∧
    (p.r.getG o.b = 1 → p.guest = false → s.keyOf (s.originWord s.turn) = s.turn → s.moduleOf (s.originWord s.turn) = s.modid → s.held = [] →
      s.isHere pa = true → Safety.Reaches s .rd (p.r.getG o.a) pa u →
      tagRange 2 1 pa = .ok (c, tile) → s.busyTo (.core (coreOf s.turn)) (s.originWord s.turn) (s.homeOf pa) = false →
      ∃ t m, exec (.tqry o) s = .next t ∧ m ∈ t.net ∧
        m.body = .answer s.turn s.nextId (.vals [BitVec.ofNat 1024 ((s.tag c tile).code + if ((s.core c).holder tile).isSome then 8 else 0)]) ∧
        t.proc s.turn = p.open_ s.nextId 0 false .sync (.g o.d 8 false) (p.r.getG o.a) 0 [(0, o.d.toNat)] (some (s.homeOf pa)))) ∧
  (∀ (g : Guard) (s : State), Safety.Clear { word := 0, gu := g, ext := true } s → (s.proc s.turn).wev = true →
    exec (.waitw g) s = .next (s.setProc s.turn { (s.proc s.turn).pass with wev := false }))) ∧
  ((∀ (o : FN) (s : State), Safety.Clear (infoFN o 0) s →
    (∀ b < 6, o.before.getLsbD b = true → s.incomplete s.turn (scopeLevel o.scope) b = false) →
    exec (.fence o) s = .next (s.setProc s.turn (s.proc s.turn).pass)) ∧
  (∀ (g : Guard) (s : State), Safety.Clear { word := 0, gu := g, ext := true } s → (s.proc s.turn).unacked = [] →
    ∃ t, exec (.ifence g) s = .next t ∧ (t.core (coreOf s.turn)).ibuf = [] ∧ t.proc s.turn = (s.proc s.turn).pass ∧ t.mem = s.mem))

/-- R188, R189, R193, R194: the integer vector words, lane by lane. -/
def Obligations.VectorIntegerLanes : Prop :=
  ∀ (o : VI) (s : State), Safety.Clear (infoVI o 0) s →
    let r := (s.proc s.turn).r
    let n := sizeBits o.size
    let a (j : Nat) := getLane (r.getV o.va) n j
    let b (j : Nat) := getLane (r.getV o.vb) n j
    let sa (j : Nat) := signedLane n (a j)
    let sb (j : Nat) := signedLane n (b j)
    let k (j : Nat) := b j % n
    let nat (i : Instr) (f : Nat → Nat) := Safety.computesLanes i s o.vd n (r.getQ o.q) (fun j => (f j, 0))
    let int (i : Instr) (f : Nat → Int) := nat i (fun j => (f j % 2 ^ n).toNat)
    int (.vaddI o) (fun j => sa j + sb j) ∧ int (.vsubI o) (fun j => sa j - sb j) ∧ int (.vmulI o) (fun j => sa j * sb j) ∧
    int (.vmulhI o) (fun j => sa j * sb j / 2 ^ n) ∧ int (.vminI o) (fun j => min (sa j) (sb j)) ∧ int (.vmaxI o) (fun j => max (sa j) (sb j)) ∧
    nat (.vminu o) (fun j => min (a j) (b j)) ∧ nat (.vmaxu o) (fun j => max (a j) (b j)) ∧ nat (.vand o) (fun j => a j &&& b j) ∧
    nat (.vor o) (fun j => a j ||| b j) ∧ nat (.vxor o) (fun j => a j ^^^ b j) ∧ nat (.vandn o) (fun j => a j &&& (2 ^ n - 1 - b j)) ∧
    nat (.vshl o) (fun j => a j * 2 ^ k j) ∧ nat (.vshr o) (fun j => a j / 2 ^ k j) ∧ int (.vsra o) (fun j => sa j / 2 ^ k j) ∧
    Safety.computesLanes (.vadds o) s o.vd n (r.getQ o.q) (fun j =>
      let x := sa j + sb j
      ((max (-(2 ^ (n - 1))) (min (2 ^ (n - 1) - 1) x) % 2 ^ n).toNat, if -(2 ^ (n - 1)) ≤ x ∧ x < 2 ^ (n - 1) then 0 else fSAT))

/-- R195: the float vector words with two sources in FP16, BF16 and FP32, lane by lane: exact, rounded once to nearest even. -/
def Obligations.VectorFloatLanes : Prop :=
  ∀ (o : VF) (s : State), Safety.Clear (infoVF o 0) s →
    let r := (s.proc s.turn).r
    let form (F : Fmt) (add sub mul fma min_ max_ div : Instr) :=
      let a (j : Nat) := getLane (r.getV o.va) F.bits j
      let b (j : Nat) := getLane (r.getV o.vb) F.bits j
      let d (j : Nat) := getLane (r.getV o.vd) F.bits j
      let one (i : Instr) (f : Nat → Nat × Flags) := Safety.computesLanes i s o.vd F.bits (r.getQ o.q) f
      one add (fun j => roundRne F (valAdd (F.value (a j)) (F.value (b j)))) ∧ one sub (fun j => roundRne F (valSub (F.value (a j)) (F.value (b j)))) ∧
      one mul (fun j => roundRne F (valMul (F.value (a j)) (F.value (b j)))) ∧
      one fma (fun j => roundRne F (valFma (F.value (d j)) (F.value (a j)) (F.value (b j)))) ∧
      one min_ (fun j => F.minmax false (a j) (b j)) ∧ one max_ (fun j => F.minmax true (a j) (b j)) ∧
      one div (fun j => roundRne F (valDiv F.f (F.value (a j)) (F.value (b j))))
    form .fp16 (.vaddF16 o) (.vsubF16 o) (.vmulF16 o) (.vfmaF16 o) (.vminF16 o) (.vmaxF16 o) (.vdivF16 o) ∧
    form .bf16 (.vaddBf16 o) (.vsubBf16 o) (.vmulBf16 o) (.vfmaBf16 o) (.vminBf16 o) (.vmaxBf16 o) (.vdivBf16 o) ∧
    form .fp32 (.vaddF32 o) (.vsubF32 o) (.vmulF32 o) (.vfmaF32 o) (.vminF32 o) (.vmaxF32 o) (.vdivF32 o)

/-- R195, R196: the float vector words with one source: VABS and VNEG change the sign bit alone and raise no flag; the square root, the exponential,
the logarithm, the reciprocal and the reciprocal square root are correctly rounded (of the exponential and the logarithm, that the value rounded is
the exact one is the model's reading, log 13). -/
def Obligations.VectorFloatOneSource : Prop :=
  ∀ (o : VF1) (s : State), Safety.Clear (infoVF1 o 0) s →
    let r := (s.proc s.turn).r
    let form (F : Fmt) (abs_ neg sqrt exp2 log2 rcp rsq : Instr) :=
      let a (j : Nat) := getLane (r.getV o.va) F.bits j
      let one (i : Instr) (f : Nat → Nat × Flags) := Safety.computesLanes i s o.vd F.bits (r.getQ o.q) f
      one abs_ (fun j => (a j % 2 ^ (F.bits - 1), 0)) ∧ one neg (fun j => (a j ^^^ 2 ^ (F.bits - 1), 0)) ∧
      one sqrt (fun j => roundRne F (valSqrt F.f (F.value (a j)))) ∧ one exp2 (fun j => roundRne F (valExp2 (F.value (a j)))) ∧
      one log2 (fun j => roundRne F (valLog2 (F.value (a j)))) ∧ one rcp (fun j => roundRne F (valRcp F.f (F.value (a j)))) ∧
      one rsq (fun j => roundRne F (valRsq F.f (F.value (a j))))
    form .fp16 (.vabsF16 o) (.vnegF16 o) (.vsqrtF16 o) (.vexp2F16 o) (.vlog2F16 o) (.vrcpF16 o) (.vrsqF16 o) ∧
    form .bf16 (.vabsBf16 o) (.vnegBf16 o) (.vsqrtBf16 o) (.vexp2Bf16 o) (.vlog2Bf16 o) (.vrcpBf16 o) (.vrsqBf16 o) ∧
    form .fp32 (.vabsF32 o) (.vnegF32 o) (.vsqrtF32 o) (.vexp2F32 o) (.vlog2F32 o) (.vrcpF32 o) (.vrsqF32 o)

/-- R197: a vector compare writes the condition of every lane to qT and its complement to qF, bits past the last lane zero in both; integer types
compare lanes as the mnemonic says, float types by value with the flags of R164. -/
def Obligations.VectorComparesWritePair : Prop :=
  ∀ (o : VC) (s : State), Safety.Clear (infoVC o 0) s →
    let r := (s.proc s.turn).r
    let n := vtyBits o.ty
    let F := vtyFmt o.ty
    let a (j : Nat) := getLane (r.getV o.va) n j
    let b (j : Nat) := getLane (r.getV o.vb) n j
    let result (i : Instr) (c : Nat → Bool × Flags) := ∃ (t f : Mask) (fl : Flags),
      exec i s = Safety.computes s [(2, o.qT.toNat), (2, o.qF.toNat)] (((r.orFlags fl).setQ o.qT t).setQ o.qF f) ∧
      (∀ j < 128, t.getLsbD j = (decide (j < 1024 / n) && (c j).1) ∧ f.getLsbD j = (decide (j < 1024 / n) && !(c j).1)) ∧
      (∀ x, fl.getLsbD x = true ↔ ∃ j < 1024 / n, (c j).2.getLsbD x = true)
    let whole (i : Instr) (ci : Int → Int → Bool) := result i (fun j => (ci (signedLane n (a j)) (signedLane n (b j)), 0))
    let plain (i : Instr) (ci : Nat → Nat → Bool) := result i (fun j => (ci (a j) (b j), 0))
    let real (i : Instr) (quiet : Bool) (c : Int → Int → Bool) (unordered : Bool) := result i (fun j =>
      let nan := (F.value (a j)).isNan || (F.value (b j)).isNan
      let signalling := (F.value (a j)).isSignalling || (F.value (b j)).isSignalling
      (if nan then unordered else c (F.key (a j)) (F.key (b j)), if signalling || (!quiet && nan) then fNV else 0))
    (o.ty.isInt = true →
      whole (.vcmpeq o) (fun x y => decide (x = y)) ∧ whole (.vcmpne o) (fun x y => decide (x ≠ y)) ∧ whole (.vcmplt o) (fun x y => decide (x < y)) ∧
      whole (.vcmple o) (fun x y => decide (x ≤ y)) ∧ plain (.vcmpltu o) (fun x y => decide (x < y)) ∧ plain (.vcmpleu o) (fun x y => decide (x ≤ y))) ∧
    (o.ty.isInt = false →
      real (.vcmpeq o) true (fun x y => decide (x = y)) false ∧ real (.vcmpne o) true (fun x y => decide (x ≠ y)) true ∧
      real (.vcmplt o) false (fun x y => decide (x < y)) false ∧ real (.vcmple o) false (fun x y => decide (x ≤ y)) false ∧
      real (.vcmpun o) true (fun _ _ => false) true ∧ real (.vcmpord o) true (fun _ _ => true) false)

/-- R198: VCVT converts lane j of the source type to lane j of the destination type, for the lanes that the wider type has; every other lane of vd keeps its
value. -/
def Obligations.VectorConversionLanes : Prop :=
  ∀ (o : VV) (s : State), Safety.Clear (infoVV o 0) s →
    let r := (s.proc s.turn).r
    let m := 1024 / max (ctyBits o.src) (ctyBits o.dst)
    let q : Mask := r.getQ o.q &&& BitVec.ofNat 128 (2 ^ m - 1)
    Safety.computesLanes (.vcvt o) s o.vd (ctyBits o.dst) q (fun j => ctyRound o.dst o.rm (ctyValue o.src (getLane (r.getV o.va) (ctyBits o.src) j)))

/-- R199: a reduction writes lane 0 of vd and leaves the other lanes: integer sums exactly, saturated once; maxima and minima of the active lanes;
float sums and extremes by pairs, level by level, inactive lanes standing for the identity. -/
def Obligations.VectorReductions : Prop :=
  ∀ (o : VR) (s : State), Safety.Clear (infoVR o 0) s →
    let r := (s.proc s.turn).r
    let n := vtyBits o.ty
    let q := r.getQ o.q
    let lanes := (List.range (1024 / n)).map (fun j => (j, getLane (r.getV o.va) n j))
    let first (i : Instr) (x : Nat) (fl : Flags) := ∃ v : VReg,
      exec i s = Safety.computes s [(1, o.vd.toNat)] ((r.orFlags fl).setV o.vd v) ∧ getLane v n 0 = x ∧
      ∀ j < 1024 / n, j ≠ 0 → getLane v n j = getLane (r.getV o.vd) n j
    let active := (lanes.filter (fun e => q.getLsbD e.1)).map (fun e => signedLane n e.2)
    let filled (id : Nat) := lanes.map (fun e => if q.getLsbD e.1 then e.2 else id)
    (o.ty.isInt = true →
      (let x : Int := active.foldl (· + ·) 0
       first (.vrsum o) (max (-(2 ^ (n - 1))) (min (2 ^ (n - 1) - 1) x) % 2 ^ n).toNat (if -(2 ^ (n - 1)) ≤ x ∧ x < 2 ^ (n - 1) then 0 else fSAT)) ∧
      first (.vrmax o) (active.foldl max (-(2 ^ (n - 1))) % 2 ^ n).toNat 0 ∧ first (.vrmin o) (active.foldl min (2 ^ (n - 1) - 1) % 2 ^ n).toNat 0) ∧
    (o.ty.isInt = false →
      let F := vtyFmt o.ty
      let tree (i : Instr) (id : Nat) (f : Nat → Nat → Nat × Flags) := let x := pairAll f 7 (filled id); first i (x.1 % 2 ^ n) x.2
      tree (.vrsum o) (2 ^ (n - 1)) (fun a b => roundRne F (valAdd (F.value a) (F.value b))) ∧
      tree (.vrmax o) (F.infCode true) (F.minmax true) ∧ tree (.vrmin o) (F.infCode false) (F.minmax false))

/-- R200, R201: broadcasts, extractions, insertions and permutations, lane by lane; none raises a flag. -/
def Obligations.VectorMovesAndPermutations : Prop :=
  (∀ (o : VB) (s : State), Safety.Clear (infoVB o 0) s →
    let r := (s.proc s.turn).r
    let n := sizeBits o.size
    ∃ v : VReg, exec (.vbcast o) s = Safety.computes s [(1, o.v.toNat)] (r.setV o.v v) ∧ ∀ j < 1024 / n, getLane v n j = (r.getG o.g).toNat % 2 ^ n) ∧
  (∀ (o : VM) (s : State),
    let r := (s.proc s.turn).r
    let n := sizeBits o.size
    let x := getLane (r.getV o.v) n o.lane.toNat
    (Safety.Clear (infoVMX o 0) s →
      exec (.vext o) s = Safety.computes s [(0, o.g.toNat)] (r.setG o.g (BitVec.ofNat 64 x)) ∧
      exec (.vexts o) s = Safety.computes s [(0, o.g.toNat)] (r.setG o.g (BitVec.ofInt 64 (signedLane n x)))) ∧
    (Safety.Clear (infoVMI o 0) s →
      ∃ v : VReg, exec (.vins o) s = Safety.computes s [(1, o.v.toNat)] (r.setV o.v v) ∧
        ∀ j < 1024 / n, getLane v n j = if j = o.lane.toNat then (r.getG o.g).toNat % 2 ^ n else getLane (r.getV o.v) n j)) ∧
  (∀ (o : VX) (s : State),
    let r := (s.proc s.turn).r
    let n := sizeBits o.size
    let m := 1024 / n
    let a (j : Nat) := getLane (r.getV o.va) n j
    let b (j : Nat) := getLane (r.getV o.vb) n j
    let one (i : Instr) (f : Nat → Nat) := Safety.computesLanes i s o.vd n (r.getQ o.q) (fun j => (f j, 0))
    (Safety.Clear { infoVX o 0 with reads := [(1, o.va.toNat), (1, o.vb.toNat), (2, o.q.toNat)] } s →
      ∃ v : VReg, exec (.vsel o) s = Safety.computes s [(1, o.vd.toNat)] (r.setV o.vd v) ∧
        ∀ j < m, getLane v n j = if (r.getQ o.q).getLsbD j then a j else b j) ∧
    (Safety.Clear (infoVX o 0) s →
      one (.vperm o) (fun j => a (b j % m)) ∧ one (.vzip o) (fun j => if j % 2 = 0 then a (j / 2) else b (j / 2)) ∧
      one (.vunzip o) (fun j => if j < m / 2 then a (2 * j) else b (2 * (j - m / 2)))))

/-- R214, R217 to R225, R228: a tile word that passes its checks queues one entry that captures what it reads; the operation is outstanding with its
window L, committed but for DRAIN. AREAD alone writes a register, gb. Of a guest, the ranges that the entry reads and writes are checked as R264 says; that the check
is made as the word is queued, one access a range, and that a range which fails traps there, is the model's choice (log 106). -/
def Obligations.TileWordsQueue : Prop :=
  ∀ (s : State),
    let p := s.proc s.turn
    let k := s.core (coreOf s.turn)
    let queued (i : Instr) (l : Nat) (e : TileOp) (dest : Dest) (ws : List RegRef) (va : Word) :=
      (s.topBar s.turn e = none → ∃ t, exec i s = .next t ∧ t.mem = s.mem ∧ t.proc s.turn = p.open_ s.nextId l (decide (e.sub ≠ 2)) .tileOp dest va 0 ws ∧
        (t.core (coreOf s.turn)).tileq = k.tileq ++ [{ e with id := s.nextId, pk := s.turn, op := s.nextId, pc := p.pc, priv := p.priv }]) ∧
      (∀ cls off n c, s.topBar s.turn e = some (cls, off, n, c) →
        exec i s = .next ((s.barNotice s.turn cls (scratchAddr (coreOf s.turn) off) n c).raise s.turn ⟨c, localVa off, 0, 0⟩))
    k.tileq.length < 8 → k.tileWait = [] →
    (∀ o : MM,
      let nA : BitVec 3 := BitVec.ofNat 3 (2 * o.pair.toNat)
      let shA := p.r.getSh nA
      let shB := p.r.getSh (nA + 1)
      let a := p.r.getG o.a
      let b := p.r.getG o.b
      Safety.Clear { infoMM o 0 with reads := (infoMM o 0).reads ++ [(3, nA.toNat), (3, (nA + 1).toNat)] } s →
        shKind shA = 3 → opRole shA = 0 → shKind shB = 3 → opRole shB = 1 → opK shA = opK shB →
        rowsCheck a shA 32 (opK shA) = none → packedCheck b shB = none →
        queued (.mma o) o.l.toNat { TileOp.blank with sub := 15, acc := o.acc.toNat, a := a, b := b, shA := shA, shB := shB, red := o.r } .none [] a) ∧
    (∀ o : T1,
      let x := p.r.getG o.a
      Safety.Clear (infoT1 o 0) s → x.toNat / 8 % 2 ^ 5 = 0 → x.toNat / 2 ^ 16 = 0 → -112 ≤ (x.extractLsb' 8 8).toInt → (x.extractLsb' 8 8).toInt ≤ 32 →
        queued (.acz o) o.l.toNat { TileOp.blank with sub := 1, acc := x.toNat % 8, a := x } .none [] 0) ∧
    (∀ o : T2, Safety.Clear (infoT2 o 0) s →
      let a := p.r.getG o.a
      let b := p.r.getG o.b
      let c := p.r.ctl
      let out := c.dfmt.toNat % 2 ^ 4
      let T := if bufAt (vaOff b) = .act then 1024 else 64
      let sh := p.r.getSh (BitVec.ofNat 3 (b.toNat / 8))
      let named := (3, (BitVec.ofNat 3 (b.toNat / 8)).toNat) ∉ p.struck ∧ b.toNat / 2 ^ 6 % 2 ^ 26 = 0 ∧ shKind sh = 3
      -- DRAIN keeps its own word for a completion trap in the field shB
      (a.toNat < 2 ^ 13 → a.toNat / 2 ^ 10 ≤ 4 → c.dfmt.toNat < 32 → out ≤ 12 → c.dtable.toNat < 2 ^ 26 → c.dtable.toNat % 2 ^ 8 = 0 →
        localCheck b T (padTo (outZ out) T) [.gs, .act] = none → (a.getLsbD 3 = true → localCheck c.dbias 8 256 [.gs] = none) →
        (a.getLsbD 7 = true → localCheck c.dmult 8 256 [.gs] = none) →
        queued (.drain o) o.l.toNat { TileOp.blank with
          sub := 2, acc := a.toNat % 8, a := a, b := b, dfmt := c.dfmt, dbias := c.dbias, dmult := c.dmult, dtable := c.dtable, dabs := c.dabs,
          shB := BitVec.ofNat 256 (packT2 0x3B 2 o) } .none [] b) ∧
      (b.toNat < 4 → localCheck a 64 1024 [.gs] = none → queued (.table o) o.l.toNat { TileOp.blank with sub := 3, a := a, b := b } .none [] a) ∧
      (named → opRole sh = 1 → packedCheck a sh = none →
        queued (.rowsum o) o.l.toNat { TileOp.blank with sub := 4, acc := b.toNat % 8, a := a, b := b, shA := sh } .none [] a) ∧
      (named → opRole sh = 0 → rowsCheck a sh 32 (opK sh) = none →
        queued (.colsum o) o.l.toNat { TileOp.blank with sub := 5, acc := b.toNat % 8, a := a, b := b, shA := sh } .none [] a)) ∧
    (∀ o : T2, Safety.Clear (infoPk o 0) s →
      let a := p.r.getG o.a
      let b := p.r.getG o.b
      let x := p.r.nextG o.b
      let T := if bufAt (vaOff b) = .act then 1024 else 64
      let sh := p.r.getSh (BitVec.ofNat 3 x.toNat)
      x.toNat < 8 → (3, x.toNat) ∉ p.struck → shKind sh = 3 → opRole sh = 1 →
        (rowsCheck a sh (opK sh) 32 = none → localCheck b 1024 (padTo (packedZ sh) 1024) [.wt] = none →
          queued (.pack o) o.l.toNat { TileOp.blank with sub := 6, a := a, b := b, shA := sh } .none [] a) ∧
        (packedCheck a sh = none → localCheck b T (padTo (opK sh * 128) T) [.gs, .act] = none →
          queued (.unpack o) o.l.toNat { TileOp.blank with sub := 7, a := a, b := b, shA := sh } .none [] a)) ∧
    (∀ o : T2, Safety.Clear { infoT2 o 0 with reads := [(0, o.a.toNat)], writes := [(0, o.b.toNat)] } s →
      let x := p.r.getG o.a
      x.toNat < 2 ^ 15 → x.toNat / 2 ^ 13 ≠ 3 →
        queued (.aread o) o.l.toNat { TileOp.blank with sub := 8, acc := x.toNat % 8, a := x } (.g o.b 8 false) [(0, o.b.toNat)] x)

/-- R80, R108, R109, R206, R218: SHAPE reads 32 bytes of general store whose tiles may be read, in its turn at them, and writes them to shN; a record that fails
its checks traps SHAPE-ALIGN and writes nothing. That a guest's read is checked by the region table as it is made is log 106, the model's choice. -/
def Obligations.ShapeLoadsRecord : Prop :=
  ∀ (o : SH) (s : State), Safety.Clear (infoSH o 0) s →
    let p := s.proc s.turn
    let c := coreOf s.turn
    let va := p.r.getG o.a
    let lo := scratchAddr c (vaOff va)
    let x : BitVec 256 := BitVec.ofNat 256 (s.mem.readN lo 32)
    localCheck va 32 32 [.gs] = none → s.busyTo (.core c) (s.originWord s.turn) (.core c) = false → p.acquires c (.core c) = false →
      s.atTurn (tilesUnder c (vaOff va) 32) (.proc s.turn) = true → s.guestBar s.turn 0 lo 32 = none → (∀ e ∈ tilesUnder c (vaOff va) 32, s.tag e.1 e.2 ≠ .pending ∧ s.tag e.1 e.2 ≠ .via) → s.hurt lo 32 = false →
      (shapeBad x = false → exec (.shape o) s = .next (Safety.retired s [(3, o.n.toNat)] (p.r.setSh o.n x) (p.pc + 4) false)) ∧
      (shapeBad x = true → exec (.shape o) s = .next (s.raise s.turn ⟨.shapeAlign, va, 0, 0⟩))

/-- R80, R212, R214, R215, R219, R220, R221, R222, R223: with nothing running, MACRO_OP_START starts the entry of the queue whose tiles let it go and whose turn it is there; an entry that adds into or drains
an accumulator tile takes it, FULL to PENDING. A step of an ACZ empties the cells of its tile, sets its anchor and makes it FULL; a step of an MMA, ROWSUM or COLSUM that is not the
last adds its terms to the 88-bit cells modulo 2^88 and leaves the entry at the next k-block. -/
def Obligations.SequencerRows : Prop :=
  (∀ (s : State) (core : Nat) (e : TileOp),
    (s.core core).tileq = [e] → e.running = false → (s.core core).halted = false → e.taken = false → e.takes = true → e.step = 0 →
      (s.proc e.pk).state = .running → s.tag core (2560 + e.acc) = .full → s.atTurn [(core, 2560 + e.acc)] (.top core e.id) = true →
      ∃ t, exec (.macroOpStart core) s = .next t ∧ t.tag core (2560 + e.acc) = .pending ∧
        (t.core core).tileq = [{ e with running := true, taken := true, waits := 0 }] ∧ t.mem = s.mem) ∧
  (∀ (s : State) (core : Nat) (e : TileOp), (s.core core).tileq = [e] → e.running = true → (s.core core).tileWait = [] →
    (e.sub = 1 → e.acc < 8 → s.tag core (2560 + e.acc) ≠ .pending → s.held = [] →
      ∃ t, exec (.macroStepComplete core) s = .next t ∧ (∀ k, (t.acc core e.acc).cell k = 0) ∧
        (t.acc core e.acc).anchor = (e.a.extractLsb' 8 8).toInt ∧ t.tag core (2560 + e.acc) = .full ∧ (t.core core).tileq = []) ∧
    ((e.sub = 4 ∨ e.sub = 5 ∨ e.sub = 15) → e.taken = true → (s.topReads core e).2 = none → s.topHurt core e = none →
      s.hurtAt core (accOff e.acc) 0x2800 = none → (s.acc core e.acc).ecce = false → (s.core core).rowFault = false → e.step + 1 < kBlocks e.shA →
      ∃ t, exec (.macroStepComplete core) s = .next t ∧
        (∀ k < 1024, (t.acc core e.acc).cell k = (s.acc core e.acc).cell k + BitVec.ofInt 88 ((s.topTerms core e (s.acc core e.acc).anchor).1 k)) ∧
        (t.core core).tileq.map (·.step) = [e.step + 1] ∧ t.mem = s.mem))

/-- R107, R110, R112, R113, R119, R120: a word of the COPY group that passes its checks hands one copy to the copy unit, with the pieces of its form: rows of a
record, a rectangle of a slab, one accumulator tile, and one set or one tile for each member of a group that is open for its address space, a guest's being its
origin module's (R264). A privileged FLUSHOUT or FETCHIN that passes its checks hands one request to Borer and passes its word; a FETCHIN that pushes
names the record and the destination too. That Borer accepts a request as its word issues, and that every copy goes through the acceptance of the copy unit, is log 46,
and which member bases and set sources are checked at issue is log 31: these clauses are the model's reading. -/
def Obligations.CopyGroupHandsRequest : Prop :=
  (∀ (o : TC) (s : State), Safety.Clear (infoTC o 0) s →
    let p := s.proc s.turn
    let a := p.r.getG o.a
    let b := p.r.getG o.b
    let ctl := p.r.nextG o.b
    let r := p.r.getSh o.sh
    let g := (s.die (dieOfCore (coreOf s.turn))).groups.get Group.free (ctl.toNat / 2 ^ 24 % 2 ^ 8)
    let hands (i : Instr) (form n : Nat) (members : List Word) := recordFits form r = true → operandChecks form r members a b n = none →
      ∃ t, exec i s = .next t ∧ t.mem = s.mem ∧ t.proc s.turn = p.open_ s.nextId o.l.toNat true .copy .none a 0 [] ∧
        (t.core (coreOf s.turn)).copyWait = (s.core (coreOf s.turn)).copyWait ++
          [⟨s.nextId, s.turn, s.nextId, p.pc, p.asid, form, a, b, r, ctl, members, p.priv, s.originWord s.turn, (s.ctxOf s.turn).origin, p.guestRoot, 0, n, [], false⟩]
    let rows := shRows r * (shRowBytes r / shPiece r)
    ctl.toNat / 2 ^ 11 % 2 ^ 12 = 0 →
    (ctl.toNat / 2 ^ 24 % 2 ^ 8 = 0 → hands (.copy o) 0 rows [] ∧ hands (.copys o) 1 rows [] ∧ hands (.copya o) 2 1 []) ∧
    (g.state = 1 → g.asid = p.asid → g.origin = (s.ctxOf s.turn).origin → hands (.mcast o) 3 (g.bases.length * shRows r * (shRowBytes r / shPiece r)) g.bases ∧
      hands (.redg o) 4 g.bases.length g.bases)) ∧
  ((∀ (o : T2) (s : State), Safety.Clear { infoPk o 0 with priv := true } s →
    let p := s.proc s.turn
    let frame := p.r.getG o.a
    let word := p.r.getG o.b
    let ctl := p.r.nextG o.b
    flashChecks s 0 ctl word frame false = none →
      ∃ t, exec (.flushout o) s = .next t ∧ t.mem = s.mem ∧ t.flash = s.flash ∧ t.proc s.turn = p.pass ∧
        t.borer = s.borer ++ [⟨s.nextId, coreOf s.turn, s.turn, p.pc, 5, word, paLocal frame.toNat, 0, 0, ctl.toNat % 2 ^ 11, p.asid, s.originWord s.turn, (s.ctxOf s.turn).origin, p.guestRoot, 0, []⟩]) ∧
  (∀ (o : TC) (s : State), Safety.Clear { infoTC o 0 with priv := true, reads := [(0, o.a.toNat), (0, o.b.toNat), (0, o.b.toNat + 1)] } s →
    let p := s.proc s.turn
    let word := p.r.getG o.a
    let frame := p.r.getG o.b
    let ctl := p.r.nextG o.b
    let dst := p.r.nextG o.a
    let r := p.r.getSh o.sh
    let asked (push : Word) (r : BitVec 256) := ∃ t, exec (.fetchin o) s = .next t ∧ t.mem = s.mem ∧ t.proc s.turn = p.pass ∧
      t.borer = s.borer ++ [⟨s.nextId, coreOf s.turn, s.turn, p.pc, 6, word, paLocal frame.toNat, push, r, ctl.toNat % 2 ^ 11, p.asid, s.originWord s.turn, (s.ctxOf s.turn).origin, p.guestRoot, 0, []⟩]
    flashChecks s 0 ctl word frame true = none →
      (word.getLsbD 36 = false → asked 0 0) ∧
      (word.getLsbD 36 = true → o.a.toNat + 1 < gAllot (s.core (coreOf s.turn)).partition → (0, o.a.toNat + 1) ∉ p.struck → (3, o.sh.toNat) ∉ p.struck →
        recordFits 6 r = true → operandChecks 6 r [] 0 dst (pieceCount 6 r 0) = none → (shRows r - 1) * shSstride r + shRowBytes r ≤ 65536 →
        asked dst r)))

/-- R121 to R123, R264: GOPEN opens a FREE group for its address space with the bases that it read from its table; GFREE moves an OPEN group of its address space to
DRAINING and is BLOCKED until the group is drained, whose completion passes it. That GOPEN reads its table a dword a step is log 10: the pace is the model's. -/
def Obligations.GroupWords : Prop :=
  (∀ (o : RR) (s : State) (n : Word) (bases : List Word),
    let p := s.proc s.turn
    let id := (p.word.getG o.d).toNat % 256
    let d := dieOfCore (coreOf s.turn)
    let va := p.word.getG o.a
    Safety.Going { word := 0, gu := o.gu, gs := [o.d.toNat, o.a.toNat], reads := [(0, o.d.toNat), (0, o.a.toNat)], ext := true } s →
      ((s.die d).groups.get Group.free id).state = 0 → va.toNat % 8 = 0 → inLocalStore va.toNat 8 = true →
      p.buf = n :: bases → 0 < n.toNat → n.toNat ≤ 64 → bases.length = n.toNat → (∀ b ∈ bases.getLast?, b.toNat % 1024 = 0) →
      ∃ t, exec (.gopen o) s = .next t ∧ t.proc s.turn = p.pass ∧ t.mem = s.mem ∧ (t.die d).groups.get Group.free id = ⟨1, p.asid, (s.ctxOf s.turn).origin, bases⟩) ∧
  (∀ (o : D1) (s : State),
    let p := s.proc s.turn
    let id := (p.word.getG o.d).toNat % 256
    let d := dieOfCore (coreOf s.turn)
    let g := (s.die d).groups.get Group.free id
    let w : Issue := { word := 0, gu := o.gu, gs := [o.d.toNat], reads := [(0, o.d.toNat)], ext := true }
    Safety.Clear w s → p.state = .running → g.state = 1 → g.asid = p.asid → g.origin = (s.ctxOf s.turn).origin →
        ∃ t, exec (.gfree o) s = .next t ∧ (t.proc s.turn).state = .blocked ∧ (t.proc s.turn).pc = p.pc ∧ t.mem = s.mem ∧
          (t.die d).groups.get Group.free id = { g with state := 2 }) ∧
  (∀ (s : State) (die group pk : Nat),
    let waits (p : Proc) : Prop := p.state = .blocked ∧ p.why = 4 ∧ p.wait = edgeGroup die group
    ((s.die die).groups.get Group.free group).state = 2 → (∀ k ∈ s.cores, ∀ c ∈ k.2.copyq ++ k.2.copyWait, c.ofGroup group = false) →
      (pk, s.proc pk) ∈ s.procs → waits (s.proc pk) → (∀ e ∈ s.procs, waits e.2 → e.1 = pk) →
      ∃ t, exec (.groupDrainComplete die group) s = .next t ∧ (t.proc pk).pc = (s.proc pk).pc + 4 ∧ (t.proc pk).state ≠ .blocked ∧ t.mem = s.mem)

/-- R72, R73, R74, R75, R76, R107, R111, R114, R120, R123: the copy unit accepts a copy while it has a free slot; it claims the destination tile of a new piece; it sets the completion
tile once every piece is performed; a COPYA piece adds the truncated source cells to a FULL tile, in its turn; a DRAINING group without pieces becomes FREE. Borer takes a request whose frame and sectors are free: it encodes the page of a FLUSHOUT, and decodes an image into the frame of a FETCHIN;
each request ends with the TFULL row on its completion tile, a FLUSHOUT's once its image is in flash. That BORER_REQUEST itself encodes the page of a FLUSHOUT and
writes the page of a FETCHIN is log 48, and that every copy passes COPY_ACCEPT is log 46: these clauses are the model's reading. -/
def Obligations.CopyUnitAndBorerRows : Prop :=
  ((∀ (s : State) (core : Nat) (c : Copy) (rest : List Copy), (s.core core).copyWait = c :: rest →
    ((s.core core).copyq.filter (fun c => decide (c.form < 5))).length < 16 → (s.proc c.pk).state = .running →
    (∃ e ∈ (s.proc c.pk).outs, e.id = c.op) → (∀ e ∈ (s.proc c.pk).outs, e.id = c.op → e.more = []) →
    ∃ t, exec (.copyAccept core) s = .next t ∧ (t.core core).copyq = (s.core core).copyq ++ [c] ∧ (t.core core).copyWait = rest ∧
      ∀ e ∈ (t.proc c.pk).outs, e.id ≠ c.op) ∧
  (∀ (s : State) (core : Nat) (c : Copy) (pa : Nat) (u : Under) (k off tile : Nat),
    let z := c.piece 0
    (s.core core).copyq = [c] → c.next = 0 → c.active = [] → 0 < c.total → c.form = 0 → c.origin = s.modid →
      s.xlate (s.copyCtx core c) .wr z.dst.toNat = .ok pa u → pieceFits c.form c.size true pa = true → s.isHere pa = true →
      placeOf (paLocal pa) = .scratch k off → tileAt (inWindow off) = some tile →
      ∃ t n m, exec (.pieceDispatch core) s = .next t ∧ t.net = s.net ++ [⟨n, .copyUnit core, .core k, .req m, none, false⟩] ∧
        m.rop = .claim k tile (.piece s.modid core c.id 0) ∧ m.who = c.who ∧ m.va = z.dst ∧
        (t.core core).copyq = [{ c with next := 1, active := [{ z with stage := 1, dpa := pa, dtr := u }] }]) ∧
  (∀ (s : State) (core id : Nat) (c : Copy), (s.core core).copyq = [c] → c.id = id → c.total ≤ c.next → c.active = [] → c.form < 5 →
    c.ctl.getLsbD 23 = true → c.abandoned = false → s.held = [] → s.tag core (c.ctl.toNat % 2 ^ 11) = .empty →
    ∃ t, exec (.completionTileSet core id) s = .next t ∧ t.tag core (c.ctl.toNat % 2 ^ 11) = .full ∧ (t.core core).copyq = []) ∧
  (∀ (s : State) (id n core : Nat) (m : Msg) (who : Claimant) (src : Acc),
    s.msg id = some m → m.body = .accum core n src who → s.isFirst m = true → s.pieceBefore m = false → (s.acc core n).tag = .full →
      (s.acc core n).ecce = false → s.held = [] → s.hurt (scratchAddr core (accOff n)) 0x2800 = false →
      ∃ t, exec (.copyaAccumulate id) s = .next t ∧ (∀ m ∈ t.net, m.id ≠ id) ∧
        ∀ k < 1024, (t.acc core n).cell k = (s.acc core n).cell k + BitVec.ofInt 88 (truncAt (src.stored k) src.anchor (s.acc core n).anchor)) ∧
  (∀ (s : State) (die group : Nat), ((s.die die).groups.get Group.free group).state = 2 →
    (∀ k ∈ s.cores, ∀ c ∈ k.2.copyq ++ k.2.copyWait, c.ofGroup group = false) →
    ∃ t, exec (.groupDrainComplete die group) s = .next t ∧ ((t.die die).groups.get Group.free group).state = 0)) ∧
  ((∀ (s : State) (f : Flash), s.borer = [f] → f.stage = 0 → s.borerReason f = 0 → s.reachable (s.paOf f.frame) = true →
    (f.form = 5 → s.hurt f.frame 65536 = false → ∃ t, exec (.borerRequest f.id) s = .next t ∧ t.mem = s.mem ∧ t.flash = s.flash ∧
      t.borer = [{ f with stage := 1, image := flashImage (f.word.toNat / 2 ^ 34 % 4) (s.mem.bytes f.frame 65536) }]) ∧
    (f.form = 6 → f.word.getLsbD 36 = false →
      (∀ a ∈ s.flashHurt, ¬ (f.word.toNat % 2 ^ 34 * 2048 ≤ a ∧ a < f.word.toNat % 2 ^ 34 * 2048 + flashSectors (f.word.toNat / 2 ^ 34 % 4) * 2048)) →
      ∃ t, exec (.borerRequest f.id) s = .next t ∧ t.borer = [{ f with stage := 2 }] ∧ t.flash = s.flash ∧
      t.mem = s.mem.writeBytes f.frame (flashPage (f.word.toNat / 2 ^ 34 % 4)
        (s.flash.bytes (f.word.toNat % 2 ^ 34 * 2048) (flashSectors (f.word.toNat / 2 ^ 34 % 4) * 2048))))) ∧
  (∀ (s : State) (f : Flash), s.borer = [f] → s.held = [] → s.tag f.core f.ctile = .empty → s.copyOf f.core f.id = none →
    (∀ u ∈ s.units, u.2.unit = 9 → u.2.waiting = none ∧ u.2.sender = none) →
    (f.form = 6 → f.stage = 2 → ∃ t, exec (.fetchinComplete f.id) s = .next t ∧ t.tag f.core f.ctile = .full ∧ t.borer = []) ∧
    (f.form = 5 → f.stage = 1 → ∃ t, exec (.flushoutComplete f.id) s = .next t ∧ t.tag f.core f.ctile = .full ∧ t.borer = [] ∧
      t.flash = s.flash.writeBytes (f.word.toNat % 2 ^ 34 * 2048) f.image ∧ t.mem = s.mem)))

/-- R130, R133, R140, R145, R150: a word of the CHAN group that names a handle leaves for its channel home, once its operand is translated: a message on
this module, a packet to another. CLOSE of an IO endpoint, a timer or a waymark is privileged; sends wait until this module holds no unacknowledged store of
the process. A word operand, and no operand, need no translation; a RECV carries its word, for the trap of Borer's record queue. That an operand is translated before it
leaves, and when, is log 42 (with log 98): the moment is the model's. -/
def Obligations.ChannelWordsLeave : Prop :=
  ∀ (s : State),
    let p := s.proc s.turn
    let me := coreOf s.turn
    let leaves (i : Instr) (w : Issue) (form l : Nat) (h v x : Word) (dest : Dest) (ws : List RegRef) :=
      let receives := decide (form = 5 ∨ form = 7)
      let away := decide (hModule h ≠ s.modid)
      let dst : Home := if away then .remote (hModule h) else if hKind h = 0 ∨ hKind h = 3 then .core (hHome h) else .mmio 1
      let body (o : ChanOp) : Body := if receives then .chanRecv (hHome h) o else .chanSend (hHome h) o
      Safety.Clear w s → s.handleNamed form h = true → (form = 1 → hKind h ≠ 0 → p.priv = true) →
        (form = 5 → hKind h = 1 → away = false → (s.unit (hSlot h)).unit = 9 → p.priv = true) → s.awayWait s.turn dst = false →
        (form = 4 ∨ form = 6 ∨ form = 8 → p.clearHere = true) →
        let asked : ChanOp := { blankOp with
          id := s.nextId, who := s.originWord s.turn, op := s.nextId, form := form, handle := h, val := v, va := x, asid := p.asid, priv := p.priv
          limit := p.r.ctl.timeout.toNat % 2 ^ 40, via := .core me }
        let opened (o : ChanOp) := p.open_ s.nextId l false .chan dest h (if receives then 3 else 0) ws none [] o.under
        (form < 6 ∨ 8 < form → s.chanVa (s.ctxOf s.turn) false asked (hType h) = some asked) ∧
        ∀ o, s.chanVa (s.ctxOf s.turn) false asked (hType h) = some o → ∃ t, exec i s = .next t ∧ t.mem = s.mem ∧
          t.proc s.turn = (if away = true ∧ (form = 4 ∨ form = 6 ∨ form = 8) then { (opened o) with far := (opened o).far ++ [(5, s.nextId)] } else opened o) ∧
          o.form = form ∧ o.handle = h ∧ o.who = s.originWord s.turn ∧ o.op = s.nextId ∧ o.asid = p.asid ∧ o.priv = p.priv ∧
          o.limit = p.r.ctl.timeout.toNat % 2 ^ 40 ∧
          (away = false → t.outbox = s.outbox ∧ ∃ n, t.net = s.net ++ [⟨n, .core me, dst, body o, none, false⟩]) ∧
          (away = true → t.net = s.net ∧ ∃ x : Packet, t.outbox = s.outbox ++ [x] ∧ x.target = hModule h ∧ x.body = body o)
    (∀ o : T1,
      let h := p.r.getG o.a
      leaves (.close o) (infoT1 o 0) 1 o.l.toNat h 0 0 .none [] ∧ leaves (.bind o) (infoT1 o 0) 2 o.l.toNat h 0 0 .none [] ∧
      leaves (.dropw o) (infoT1 o 0) 10 o.l.toNat h 0 0 .none []) ∧
    (∀ o : T2,
      let h := p.r.getG o.a
      let x := p.r.getG o.b
      let two (i : Instr) (form : Nat) := leaves i (infoCH o 0) form o.l.toNat h x x .none []
      two (.rebind o) 3 ∧ two (.send o) 4 ∧ two (.sendt o) 6 ∧ two (.sendd o) 8 ∧
      leaves (.recv o) { infoCH o 0 with reads := [(0, o.a.toNat)], writes := [(0, o.b.toNat)] } 5 o.l.toNat h
        (BitVec.ofNat 64 (packT2 0x3D 5 o)) 0 (.g o.b 8 false) [(0, o.b.toNat)] ∧
      leaves (.recvt o) { infoCH o 0 with gs := (infoCH o 0).gs ++ [o.b.toNat + 1], writes := [(0, o.b.toNat + 1)] } 7 o.l.toNat h x x (.g (o.b + 1) 8 false)
        [(0, o.b.toNat + 1)] ∧
      leaves (.probe o) { infoCH o 0 with reads := [(0, o.a.toNat)], writes := [(0, o.b.toNat)] } 13 o.l.toNat h 0 0 (.g o.b 8 false) [(0, o.b.toNat)])

/-- R43, R128, R129, R132, R141: MKCH takes the first free pair of its core and empties its ring, makes both ends of the type asked for, owned or unbound,
and writes the two handles with the generations of their slots. While no pair is free it is one outstanding operation that waits, with its window L. That a guest's ring is checked by the region table as one access is log 106, the model's
choice. -/
def Obligations.MkchMakesPair : Prop :=
  ∀ (o : T2) (s : State) (i : Nat),
    let p := s.proc s.turn
    let c := coreOf s.turn
    let x := (p.r.getG o.b).toNat
    let ty : BitVec 16 := BitVec.ofNat 16 x
    let cap := x / 2 ^ 40 % 2 ^ 8
    let ring := x / 2 ^ 48 % 2 ^ 11
    let h (slot : Nat) := handleOf 0 s.modid c slot ty (s.ep c slot).gen
    let free (j : Nat) : Prop := (s.ep c (2 * j)).state = 0 ∧ (s.ep c (2 * j + 1)).state = 0
    let made (t : State) (slot flag : Nat) : Prop :=
      let e := t.ep c slot
      e.state = (if x / 2 ^ flag % 2 = 1 then 1 else 2) ∧ (e.state = 2 → e.owner = s.originWord s.turn) ∧ e.ty = ty ∧ e.cap = cap ∧ e.ring = ring ∧
        e.gen = (s.ep c slot).gen ∧ e.asid = p.asid
    let ws : List RegRef := [(0, o.a.toNat), (0, o.a.toNat + 1)]
    Safety.Clear { infoCH o 0 with gs := (infoCH o 0).gs ++ [o.a.toNat + 1], reads := [(0, o.b.toNat)], writes := ws } s →
      p.state = .running → s.held = [] → (∀ e ∈ p.outs, e.id ≠ s.nextId ∧ ∀ y ∈ e.older, y.1 ≠ s.nextId) → x / 2 ^ 59 = 0 → x / 2 ^ 34 % 2 ^ 6 = 0 → x / 2 ^ 16 % 2 ^ 16 = 0 → cap ≤ 64 → (cap = 0 → ring = 0) → tyGood ty = true →
      ring + cap * tySlotTiles ty ≤ 2048 → s.guestBar s.turn 1 (tileAddr c ring) (cap * tySlotTiles ty * 64) = none →
        (i < 256 → free i → (∀ j < i, ¬ free j) → (∀ j < cap * tySlotTiles ty, s.tag c (ring + j) = .empty ∨ s.tag c (ring + j) = .full) →
          ∃ t, exec (.mkch o) s = .next t ∧ made t (2 * i) 32 ∧ made t (2 * i + 1) 33 ∧ t.mem = s.mem ∧
            (∀ j < cap * tySlotTiles ty, t.tag c (ring + j) = .empty) ∧ (t.proc s.turn).pc = p.pc + 4 ∧ (t.proc s.turn).outs = (p.kill ws).pass.outs ∧
            (t.proc s.turn).r = (p.r.setG o.a (h (2 * i))).setG (o.a + 1) (h (2 * i + 1))) ∧
        ((∀ j < 256, ¬ free j) → ∃ t e, exec (.mkch o) s = .next t ∧ t.mem = s.mem ∧ (t.proc s.turn).pc = p.pc + 4 ∧ (t.proc s.turn).r = p.r ∧
          (t.proc s.turn).outs = (p.kill ws).pass.outs ++ [e] ∧ e.id = s.nextId ∧ e.l = o.l.toNat ∧ e.issued = 0 ∧ e.dest = .gg o.a (o.a + 1))

/-- R100, R147: PULL of one tile of this module: a VIA tile becomes PENDING and its lender is asked for its bytes; on a FULL tile it is answered at once. -/
def Obligations.PullOneTile : Prop :=
  ∀ (o : T2) (s : State) (pa : Nat) (u : Under) (c tile : Nat), Safety.Clear (infoT2 o 0) s →
    let p := s.proc s.turn
    let ea := p.r.getG o.a
    (p.r.getG o.b = 0 → exec (.pull o) s = .next (s.setProc s.turn p.pass)) ∧
    (p.r.getG o.b = 1 → p.guest = false → s.keyOf (s.originWord s.turn) = s.turn → s.moduleOf (s.originWord s.turn) = s.modid → s.held = [] → Safety.Reaches s .rd ea pa u → s.isHere pa = true →
      tagRange 7 1 pa = .ok (c, tile) → s.busyTo (.core (coreOf s.turn)) (s.originWord s.turn) (s.homeOf pa) = false →
      (s.tag c tile = .full → ∃ t, exec (.pull o) s = .next t ∧ t.tag c tile = .full ∧ ∃ m ∈ t.net, m.body = .answer s.turn s.nextId (.vals [])) ∧
      (∀ i m, s.tag c tile = .via → (s.core c).markOf tile = some (i, m) → ∃ t, exec (.pull o) s = .next t ∧ t.tag c tile = .pending ∧
        ∃ x ∈ t.net, x.dst = m.lender ∧ x.body = .pullRead m.lend (m.src + (tile - m.tile) * m.tsize) c tile (s.markHandle c i m)))

/-- R148: with its list read and nothing but deadlines in it, ALT takes the lowest guard whose deadline has passed and ALTF the first from its
start, and gb holds the count, the next start and the guard taken. -/
def Obligations.AltTakesReadyGuard : Prop :=
  ∀ (o : T2) (s : State) (n st i m : Nat),
    let p := s.proc s.turn
    let va := p.word.getG o.a
    let ws : List RegRef := [(0, o.b.toNat)]
    let took (i : Instr) (x : Nat) : Prop := ∃ t, exec i s = .next t ∧ t.mem = s.mem ∧ (t.proc s.turn).pc = p.pc + 4 ∧
      (t.proc s.turn).outs = (p.kill ws).pass.outs ∧ (t.proc s.turn).r = p.r.setG o.b (BitVec.ofNat 64 x)
    let due (j : Nat) : Prop := (p.buf.getD (2 * j + 1) 0).toNat ≤ s.dtime
    Safety.Going { infoCH o 0 with writes := ws } s → p.state = .running → (s.core (coreOf s.turn)).halted = false →
      (∀ e ∈ p.outs, e.id ≠ s.nextId ∧ ∀ y ∈ e.older, y.1 ≠ s.nextId) →
      0 < n → n ≤ 8 → st < n → (p.word.getG o.b).toNat % 2 ^ 8 = n + st * 16 → (p.word.getG o.b).toNat < 2 ^ 11 → va.toNat % 16 = 0 → inLocalStore va.toNat (16 * n) = true → p.buf.length = 2 * n →
      (∀ j < n, p.buf.getD (2 * j) 0 = 3) → m < n → i = (st + m) % n → due i → (∀ k < m, ¬ due ((st + k) % n)) →
      (st = 0 → took (.alt o) (n + i * 2 ^ 8)) ∧ took (.altf o) (n + (i + 1) % n * 2 ^ 4 + i * 2 ^ 8)

/-- R131, R133: the rendezvous of a word. A SEND that comes first waits in SW and its process is BLOCKED; a RECV that meets it takes the pair to XFER and
completes the sender; at the end the receiver's register holds the word and the pair is IDLE again. -/
def Obligations.RendezvousOfAWord : Prop :=
  (∀ (s : State) (id c slot : Nat) (o0 : ChanOp) (m : Msg),
    let o := m.op o0 s.dtime
    s.msg id = some m → m.body = .chanSend c o0 → s.isFirst m = true → s.sourceHeld m.src m.dst = false → hKind o.handle = 0 → hSlot o.handle = slot → o.form = 4 → s.chanCheck c o = none →
      o.bad = none → s.mustHold c slot 4 = false → s.ours o = true → (s.proc (s.keyOf o.who)).state = .running →
      (s.ep c slot).cap = 0 → (s.ep c slot).pair = .idle → (s.ep c (slot + 1)).state ≠ 0 → (s.ep c (slot + 1)).waiting = none →
      ∃ t, exec (.channelSendArrive id) s = .next t ∧ (t.ep c slot).pair = .sw ∧ (t.ep c slot).waiting = some o ∧
        (t.proc (s.keyOf o.who)).state = .blocked) ∧
  (∀ (s : State) (id c slot : Nat) (o0 q : ChanOp) (m : Msg),
    let o := m.op o0 s.dtime
    s.msg id = some m → m.body = .chanRecv c o0 → s.isFirst m = true → s.sourceHeld m.src m.dst = false → hKind o.handle = 0 → hSlot o.handle = slot + 1 → o.form = 5 → s.chanCheck c o = none → slot % 2 = 0 →
      s.mustHold c (slot + 1) 5 = false → c < 1536 → (s.ep c slot).cap = 0 → (s.ep c slot).state = 2 → (s.ep c slot).pair = .sw → (s.ep c slot).ty = 0 →
      (s.ep c slot).waiting = some q → q.form = 4 → q.stale = false → o.stale = false → q.bad = none → o.bad = none → s.ours q = true → (s.ep c (slot + 1)).ty = 0 →
      (s.ep c (slot + 1)).state = 2 → s.moduleOf (s.ep c (slot + 1)).owner = s.moduleOf q.who → (∃ e ∈ (s.proc (s.keyOf q.who)).outs, e.id = q.op) →
      (∀ e ∈ (s.proc (s.keyOf q.who)).outs, e.id = q.op → e.more = []) →
      (∀ x ∈ s.xfers, x.id ≠ s.nextId) →
      ∃ t x, exec (.channelReceiveArrive id) s = .next t ∧ (t.ep c slot).pair = .xfer ∧ t.xfers = s.xfers ++ [x] ∧ x.send = some q ∧
        x.recv = some o ∧ x.done = x.n ∧ (∀ e ∈ (t.proc (s.keyOf q.who)).outs, e.id ≠ q.op)) ∧
  (∀ (s : State) (x : Xfer) (o r : ChanOp) (c slot : Nat) (e : OutOp) (d : BitVec 6),
    s.xfers = [x] → x.core = c → x.slot = slot → slot % 2 = 0 → c < 1536 → x.n ≤ x.done → x.send = some o → x.recv = some r → x.ringSlot = none →
      o.eager = false → x.mark = none → (s.ep c slot).ty = 0 → (s.ep c slot).held = [] → s.ours r = true → s.held = [] →
      (s.proc (s.keyOf r.who)).outs = [e] → e.id = r.op → e.more = [] → e.got = [] → e.dest = .g d 8 false → e.live = true → d ≠ 0 →
      ∃ t, exec (.transferFinish c slot) s = .next t ∧ t.xfers = [] ∧ (t.ep c slot).pair = .idle ∧
        (t.proc (s.keyOf r.who)).r.getG d = o.val ∧ (t.proc (s.keyOf r.who)).outs = [])

/-- R46, R136, R139, R148, R297, R310: a channel operation that has waited its TIMEOUT is withdrawn and its process traps CHAN-TIMEOUT, with the registers that R46 names
as they stood at the word, and its control registers too, as the model reads it (log 30); a timer's RECV returns DTIME once its
deadline has passed; a due deadline guard wakes its process; an unbinding request unbinds an end that its owner still holds. -/
def Obligations.ChannelTimeRows : Prop :=
  (∀ (s : State) (c slot core pid : Nat) (e : Endpoint) (o : ChanOp) (k : Core) (x : OutOp),
    let pk := core * 256 + pid
    s.cores = [(c, k)] → k.eps = [(slot, e)] → e.waiting = some o → s.late pk o = true → e.cap = 0 → o.form = 4 →
      s.ours o = true → (s.proc pk).outs = [x] → x.id = o.op → (s.proc pk).state = .blocked →
      ∃ t, exec (.channelTimeoutExpire core pid) s = .next t ∧ (t.ep c slot).waiting = none ∧ (t.ep c (sendSlot slot)).pair = .idle ∧
        (t.proc pk).pend = some ⟨.chanTimeout, o.handle, 0, 0⟩ ∧ (t.proc pk).pc = x.pc ∧ (t.proc pk).r = x.snap ∧ (t.proc pk).state ≠ .blocked) ∧
  (∀ (s : State) (slot deadline : Nat) (o : ChanOp) (d : BitVec 6) (e : OutOp),
    (s.unit slot).unit = 10 → (s.unit slot).waiting = some o → (s.unit slot).deadline = some deadline → (s.unit slot).sender = none →
      deadline ≤ s.dtime → s.dtime < 2 ^ 64 → s.ours o = true → (s.proc (s.keyOf o.who)).outs = [e] → e.id = o.op → e.more = [] → e.got = [] →
      e.dest = .g d 8 false → e.live = true → d ≠ 0 → ∃ t, exec (.timerDeadlineExpire slot) s = .next t ∧ (t.unit slot).waiting = none ∧ (t.unit slot).deadline = none ∧
        (t.proc (s.keyOf o.who)).r.getG d = BitVec.ofNat 64 s.dtime) ∧
  (∀ (s : State) (core pid : Nat) (m : Multi),
    let p := s.proc (core * 256 + pid)
    let list := m.args.drop 1
    pid < 256 → (s.core core).halted = false → p.state = .blocked → p.why = 2 → p.multi = some m → m.form ≠ 0 →
      (∃ i, 2 * i + 1 < list.length ∧ list.getD (2 * i) 0 = 3 ∧ (list.getD (2 * i + 1) 0).toNat ≤ s.dtime) →
      ∃ t, exec (.altDeadlineExpire core pid) s = .next t ∧
        (t.proc (core * 256 + pid)).state = if (s.core core).slots.contains pid then .running else .ready) ∧
  (∀ (s : State) (id c slot who pk : Nat) (from_ : Src) (to_ : Home) (here : Bool),
    let m : Msg := ⟨id, from_, to_, .unbind c slot who pk, none, here⟩
    s.msg id = some m → s.isFirst m = true → c < 1536 → slot < 512 → (s.ep c (sendSlot slot)).held = [] → (s.ep c slot).state = 2 →
      (s.ep c slot).owner = who → ∃ t, exec (.unbindRequest id) s = .next t ∧ (t.ep c slot).state = 1 ∧ ∀ x ∈ t.net, x.id ≠ id)

/-- R139, R329: an AMOSWAP at IOEPNEW makes an IO endpoint or a timer in the first free unit slot and is answered with its handle; frames and host messages
go through the queues of an endpoint, and a frame without room is dropped and counted. The numbers 0 to 511 of the unit slots are the model's (log 37). -/
def Obligations.UnitRows : Prop :=
  (∀ (s : State) (id pa i : Nat) (v : Word) (e : Word) (r : Req) (from_ : Src) (to_ : Home) (here : Bool),
    let m : Msg := ⟨id, from_, to_, .req r, none, here⟩
    let x := v.toNat
    let ty : BitVec 16 := BitVec.ofNat 16 (x / 2 ^ 16)
    s.msg id = some m → s.isFirst m = true → r.rop = .amo pa 8 v e true → isIoepnew (paLocal pa) = true → tyGood ty = true → tyClass ty = 0 →
      x / 2 ^ 32 % 2 ^ 10 = 0 → x % 2 ^ 16 = 0 → i < 512 → (s.unit i).state = 0 → (∀ j < i, (s.unit j).state ≠ 0) → s.moduleOf r.who = s.modid → (∀ n, r.src = .core n →
      (x / 2 ^ 60 = 1 → x / 2 ^ 56 % 2 ^ 4 = 9 → x / 2 ^ 42 % 2 ^ 8 = 0 →
        ∃ t, exec (.ioepnewEndpoint id) s = .next t ∧ (t.unit i).kind = 1 ∧ (t.unit i).unit = 9 ∧ (t.unit i).state = 1 ∧
          (t.unit i).asid = x / 2 ^ 50 % 2 ^ 6 ∧ ∃ y ∈ t.net, ∃ pk, y.body = .answer pk r.op (.vals [(handleOf 1 s.modid 0 i ty (s.unit i).gen).setWidth 1024])) ∧
      (x / 2 ^ 60 = 2 → x / 2 ^ 56 % 2 ^ 4 = 10 → x / 2 ^ 42 % 2 ^ 8 = 0 →
        ∃ t, exec (.ioepnewTimer id) s = .next t ∧ (t.unit i).kind = 2 ∧ (t.unit i).unit = 10 ∧ (t.unit i).state = 1 ∧
          ∃ y ∈ t.net, ∃ pk, y.body = .answer pk r.op (.vals [(handleOf 2 s.modid 0 i ty (s.unit i).gen).setWidth 1024])))) ∧
  (∀ (s : State) (slot : Nat) (u : UnitSlot), s.units = [(slot, u)] → u.kind = 1 → u.state ≠ 0 → u.waiting = none → u.sender = none →
    (∀ msg, u.unit = 0 → u.inq.length < u.cap →
      ∃ t, exec (.hostQueueMessage slot (some msg)) s = .next t ∧ (t.unit slot).inq = u.inq ++ [msg]) ∧
    (u.unit = 0 → ∃ t, exec (.hostQueueMessage slot none) s = .next t ∧ (t.unit slot).outq = u.outq.drop 1) ∧
    (∀ port frame, port < 4 → u.unit = port + 1 → frame.length + 8 ≤ tyCount u.ty * tyTile u.ty → u.inq.length < u.cap →
      ∃ t, exec (.ethernetFrameReceive port frame) s = .next t ∧ (t.unit slot).inq = u.inq ++ [leBytes 8 frame.length ++ frame] ∧
        t.ethDropped = s.ethDropped) ∧
    (∀ port frame, port < 4 → u.unit = port + 1 → u.cap ≤ u.inq.length →
      exec (.ethernetFrameReceive port frame) s = .next { s with ethDropped := s.ethDropped + 1 }) ∧
    (∀ port, port < 4 → u.unit = port + 5 → ∃ t, exec (.ethernetFrameTransmit port) s = .next t ∧ (t.unit slot).outq = u.outq.drop 1))

/-- R42, R292 to R296, R298, R303: the system words that act on their process or its core alone. NOP passes; TRAP takes SOFT, with its immediate and the
next word's address; TRAPRET leaves a handler for TRAPPC; HALT halts its own core; YIELD gives its slot up to a ready process of its priority or above;
PRIO gives the old priority and sets a new one; SLEEP waits for DTIME; WHOAMI, PGET and PSET move process words, fields and predicates. -/
def Obligations.SystemWords : Prop :=
  ∀ (s : State),
    let p := s.proc s.turn
    let r := p.r
    let c := coreOf s.turn
    (∀ o : Guard,
      (Safety.Clear { word := 0, gu := o } s →
        exec (.nop o) s = Safety.computes s [] r ∧
        (r.ctl.inh = true → ∃ t, exec (.trapret o) s = .next t ∧ t.mem = s.mem ∧ (t.proc s.turn).pc = r.ctl.trappc ∧
          (t.proc s.turn).transferred = true ∧ (t.proc s.turn).r = { r with ctl := { r.ctl with inh := false } })) ∧
      (Safety.Clear { word := 0, gu := o, priv := true, ext := true } s →
        ∃ t, exec (.halt o) s = .next t ∧ ((t.core c).halted = true ∨ (t.core c).halting = true) ∧
          ((∀ pid ∈ (s.core c).slots, c * 256 + pid ≠ s.turn → (s.proc (c * 256 + pid)).ahead = none) →
            t.mem = s.mem ∧ t.proc s.turn = p.pass ∧ ∀ k, k ≠ c → t.core k = s.core k)) ∧
      (Safety.Clear { word := 0, gu := o, ext := true } s →
        (s.readyAbove c p.prio = false → exec (.yield o) s = .next (s.setProc s.turn p.pass)) ∧
        (s.readyAbove c p.prio = true → p.state = .running → ∃ t, exec (.yield o) s = .next t ∧ pidOf s.turn ∉ (t.core c).slots ∧
          ((t.proc s.turn).state = .ready ∨ (t.proc s.turn).state = .parked) ∧ (t.proc s.turn).pc = p.pc + 4 ∧ (t.proc s.turn).r = r))) ∧
    (∀ o : TR, Safety.Clear (infoTR o 0) s → r.ctl.inh = false → r.ctl.trapv ≠ 0 →
      ∃ t, exec (.trap o) s = .next t ∧ t.mem = s.mem ∧ (t.proc s.turn).pc = r.ctl.trapv ∧ (t.proc s.turn).transferred = true ∧
        (t.proc s.turn).r = { r with ctl := { r.ctl with
          code := 0x11, inh := true, nest := false, trappc := (p.pc + 4) &&& 0x00FFFFFFFFFFFFFC#64, trapinfo := o.imm.setWidth 64 } }) ∧
    (∀ o : RR, Safety.Clear { infoRR o 0 with ext := true } s → (r.getG o.a).toNat < 4 →
      (p.priv = true ∨ (r.getG o.a).toNat < 2 ∨ (r.getG o.a).toNat ≤ p.prio) →
      exec (.prio o) s = .next (s.setProc s.turn
        { (p.retire [(0, o.d.toNat)] (r.setG o.d (BitVec.ofNat 64 p.prio)) (p.pc + 4) false) with prio := (r.getG o.a).toNat })) ∧
    (∀ o : A1, Safety.Clear (infoA1 o 0) s →
      ((r.getG o.a).toNat ≤ s.dtime → exec (.sleep o) s = .next (s.setProc s.turn p.pass)) ∧
      (s.dtime < (r.getG o.a).toNat →
        exec (.sleep o) s = .next (s.setProc s.turn { p.pass with state := .sleeping, wait := r.getG o.a, since := s.dtime }))) ∧
    (∀ o : WH, Safety.Clear (infoWH o 0) s →
      let put (x : Word) := Safety.computes s [(0, o.d.toNat)] (r.setG o.d x)
      (o.sel = 0 → exec (.whoami o) s = put (BitVec.ofNat 64 (if p.guest then p.origin else s.word s.turn))) ∧
      (o.sel = 1 → exec (.whoami o) s = put (BitVec.ofNat 64 (s.word s.turn))) ∧
      (o.sel = 2 → exec (.whoami o) s = put (BitVec.ofNat 64 (p.prio + p.need * 2 ^ 2 + (s.core c).partition * 2 ^ 4 + p.asid * 2 ^ 6 +
        p.priv.toNat * 2 ^ 12 + p.guest.toNat * 2 ^ 13 + p.task.toNat * 2 ^ 14)))) ∧
    (∀ o : D1, Safety.Clear { infoD1 o 0 with ext := false } s →
      ∃ x : Word, exec (.pget o) s = Safety.computes s [(0, o.d.toNat)] (r.setG o.d x) ∧ x.toNat < 2 ^ 8 ∧
        ∀ i : BitVec 3, x.getLsbD i.toNat = r.getP i) ∧
    (∀ o : A1, Safety.Clear { infoA1 o 0 with ext := false } s →
      ∃ r', exec (.pset o) s = Safety.computes s [] r' ∧ r' = { r with p := r'.p } ∧
        ∀ i : BitVec 3, i ≠ 0 → r'.getP i = (r.getG o.a).getLsbD i.toNat)

/-- R36, R37, R86, R135, R227, R299, R304, R307: CTLR reads a control register, those from 0x040 on in a privileged process only, a number that names none as 0; CTLW writes one: read-only registers
keep their value, W1C flags clear, VCLEAN discards the vector state, DABS is privileged, PRIO sets the priority, and core and die registers are written
once the stores of the process on the module are acknowledged. The reserved numbers 0x012 to 0x03F trap ILLEGAL, and what is privileged traps PRIV in another process. A PGNOTE for a process that runs on another
module goes there: the message that takes it is the model's reading of R307 (log 36). -/
def Obligations.ControlRegisters : Prop :=
  ∀ (o : CR) (s : State),
    let p := s.proc s.turn
    let r := p.r
    let c := r.ctl
    let k := s.core (coreOf s.turn)
    let d := s.die (dieOfCore (coreOf s.turn))
    let n := o.c.toNat
    let v := r.getG o.r
    (Safety.Clear { infoCRR o 0 with ext := decide (0x012 ≤ n) } s →
      let read (x : Word) := exec (.ctlr o) s = Safety.computes s [(0, o.r.toNat)] (r.setG o.r x)
      (n = 0x000 → read (r.flags.setWidth 64)) ∧ (n = 0x002 → read (BitVec.ofNat 64 p.prio)) ∧ (n = 0x003 → read (BitVec.ofNat 64 s.dtime)) ∧
      (n = 0x004 → read c.trapv) ∧ (n = 0x005 → read c.trappc) ∧
      (n = 0x006 → read (BitVec.ofNat 64 (c.code.toNat + c.inh.toNat * 2 ^ 8 + c.nest.toNat * 2 ^ 9))) ∧ (n = 0x007 → read c.trapinfo) ∧
      (n = 0x008 → read (BitVec.ofNat 64 (0xF0000000000000 + 64 * p.save))) ∧ (n = 0x009 → read c.ckptv) ∧
      (n = 0x00A → read (BitVec.ofNat 64 (s.core (coreOf s.turn)).partition)) ∧ (n = 0x00B → read c.timeout) ∧ (n = 0x00C → read c.synclim) ∧
      (n = 0x00D → read c.dbias) ∧ (n = 0x00E → read c.dmult) ∧ (n = 0x00F → read c.dtable) ∧ (n = 0x010 → read c.dabs) ∧ (n = 0x011 → read c.dfmt) ∧
      (n = 0x001 → read (BitVec.ofNat 64 (s.originWord s.turn % 2 ^ 8))) ∧
      (0x012 ≤ n → n < 0x040 → exec (.ctlr o) s = .next (s.raise s.turn ⟨.illegal, BitVec.ofNat 64 (packCR 0x3E 4 o), 0, 0⟩)) ∧
      (0x040 ≤ n → p.priv = false → exec (.ctlr o) s = .next (s.raise s.turn ⟨.priv, BitVec.ofNat 64 (packCR 0x3E 4 o), 0, 0⟩)) ∧
      (0x040 ≤ n → p.priv = true → read (s.readCtl s.turn n) ∧
        (n = 0x040 → read (BitVec.ofNat 64 (k.taskCount * 2 ^ 11 + k.taskFirst))) ∧ (n = 0x041 → read k.spillMap) ∧
        (n = 0x047 → read (BitVec.ofNat 64 k.hold.toNat)) ∧ (n = 0x048 → read (BitVec.ofNat 64 (k.gsEn.toNat * 2 ^ 11 + k.gsFirst))) ∧
        (n = 0x110 → read (BitVec.ofNat 64 d.dlWait)) ∧ (n = 0x111 → read (BitVec.ofNat 64 d.tadmit)) ∧ (n = 0x121 → read (BitVec.ofNat 64 d.migBase0)) ∧
        (n = 0x130 → read (BitVec.ofNat 64 (s.phase * 2 ^ 18 + s.incarn.toNat * 2 ^ 10 + s.modid))) ∧ (n = 0x131 → read (BitVec.ofNat 64 s.stale)) ∧ (n = 0x132 → read s.partLo) ∧
        (n = 0x140 → read (BitVec.ofNat 64 s.rgnIdx)) ∧ (n = 0x143 → read (s.region s.rgnIdx).ctl) ∧ (n = 0x150 → read d.pgnote) ∧
        (∀ a < 64, (n = 0x180 + a → read (d.asroot.get 0 a)) ∧ (n = 0x1C0 + a → read ((s.askey.get 0 a).setWidth 64)) ∧ (n = 0x200 + a → read (d.asrate.get 0 a))) ∧
        (0x049 ≤ n → n < 0x100 → read 0) ∧ (0x240 ≤ n → read 0))) ∧
    (Safety.Clear { infoCRW o 0 with ext := decide (0x012 ≤ n ∨ n = 2) } s →
      let writes (x : Ctl) := exec (.ctlw o) s = Safety.computes s [] { r with ctl := x }
      (0x012 ≤ n → n < 0x040 → exec (.ctlw o) s = .next (s.raise s.turn ⟨.illegal, BitVec.ofNat 64 (packCR 0x3E 5 o), 0, 0⟩)) ∧
      (0x040 ≤ n ∨ n = 0x010 → p.priv = false → exec (.ctlw o) s = .next (s.raise s.turn ⟨.priv, BitVec.ofNat 64 (packCR 0x3E 5 o), 0, 0⟩)) ∧
      (n = 0x000 → ∃ r', exec (.ctlw o) s = Safety.computes s (ctlwRegs 0 v) r' ∧
        (∀ i < 6, r'.flags.getLsbD i = (r.flags.getLsbD i && !v.getLsbD i)) ∧ r'.flags.getLsbD 6 = (r.flags.getLsbD 6 || v.getLsbD 6) ∧
        r'.v = (if v.getLsbD 6 then Vector.replicate _ 0 else r.v) ∧ r'.q = (if v.getLsbD 6 then Vector.replicate _ 0 else r.q) ∧
        r'.g = r.g ∧ r'.p = r.p ∧ r'.sh = r.sh ∧ r'.ctl = c) ∧
      ((n = 0x001 ∨ n = 0x003 ∨ n = 0x008 ∨ n = 0x00A) → writes c) ∧
      (n = 0x002 → v.toNat < 4 → (p.priv = true ∨ v.toNat < 2 ∨ v.toNat ≤ p.prio) →
        exec (.ctlw o) s = .next (s.setProc s.turn { p.pass with prio := v.toNat })) ∧
      (n = 0x004 → writes { c with trapv := v &&& 0x00FFFFFFFFFFFFFC#64 }) ∧ (n = 0x005 → writes { c with trappc := v &&& 0x00FFFFFFFFFFFFFC#64 }) ∧
      (n = 0x006 → writes { c with code := v.setWidth 8 }) ∧ (n = 0x007 → writes { c with trapinfo := v }) ∧
      (n = 0x009 → writes { c with ckptv := v &&& 0x00FFFFFFFFFFFFFC#64 }) ∧
      (n = 0x00B → writes { c with timeout := BitVec.ofNat 64 (v.toNat % 2 ^ 40) }) ∧ (n = 0x00C → writes { c with synclim := BitVec.ofNat 64 (v.toNat % 2 ^ 32) }) ∧
      (n = 0x00D → writes { c with dbias := v }) ∧ (n = 0x00E → writes { c with dmult := v }) ∧ (n = 0x00F → writes { c with dtable := v }) ∧
      (n = 0x010 → p.priv = true → writes { c with dabs := v }) ∧ (n = 0x011 → writes { c with dfmt := v }) ∧
      (0x040 ≤ n → p.priv = true → p.clearHere = true →
        (n = 0x150 → s.noteTarget v = none) →
        let t := (s.setProc s.turn p.pass).writeReg (dieOfCore (coreOf s.turn)) (coreOf s.turn) n v
        let x := t.die (dieOfCore (coreOf s.turn))
        exec (.ctlw o) s = .next t ∧
          (n = 0x048 → (t.core (coreOf s.turn)).gsEn = v.getLsbD 11 ∧ (t.core (coreOf s.turn)).gsFirst = v.toNat % 2 ^ 11) ∧
          (n = 0x110 → x.dlWait = v.toNat % 2 ^ 32) ∧ (n = 0x131 → t.stale = v.toNat % 2 ^ 32) ∧ (n = 0x132 → t.partLo = v) ∧ (n = 0x140 → t.rgnIdx = v.toNat % 2 ^ 8) ∧
          (∀ a < 64, (n = 0x180 + a → x.asroot.get 0 a = v &&& 0xFFFFFFFFF0001#64) ∧ (n = 0x1C0 + a → t.askey.get 0 a = v.setWidth 32))) ∧
      (n = 0x150 → p.priv = true → p.clearHere = true → ∀ m, s.noteTarget v = some m →
        ∃ t, exec (.ctlw o) s = .next t ∧ ∃ y ∈ t.outbox, y.target = m ∧ y.body = .pgnote v (s.originWord s.turn) s.nextId))

/-- R267, R268, R277, R278, R290, R291, R297, R308, R313, R314, R318, R319: SPAWN asks its target core for a child; EXIT ends its process once what it did is
acknowledged; REPART moves the core one partition and cuts the registers; TLBINV starts a shoot-down and passes when it is complete; QARM arms or disarms a queue
from its control block; CKPT_SAVE stores its image and CKPT_RESTORE sets the registers of an image it has read; STREAMRES gives back 0 for a
stream that runs, 1 for a frozen one that it releases, and 2 where the request faults again. That CKPT_SAVE stores, and SPAWN and CKPT_RESTORE read, a dword a step is the model's pace (log 10). -/
def Obligations.ProcessWords : Prop :=
  ∀ (s : State),
    let p := s.proc s.turn
    let r := p.r
    let c := coreOf s.turn
    (∀ (o : RR) (k : Nat), Safety.Going { word := 0, gu := o.gu, gs := [o.d.toNat, o.a.toNat], reads := [(0, o.a.toNat)], writes := [(0, o.d.toNat)], ext := true } s →
      let va := p.word.getG o.a
      va.toNat % 64 = 0 → inLocalStore va.toNat 64 = true → p.buf.length = 8 → s.spawnCheck s.turn (packRR 0x3E 6 o) va p.buf = .ok k → p.clearHere = true →
        ∃ t n asid, exec (.spawn o) s = .next t ∧ t.mem = s.mem ∧ t.outbox = s.outbox ∧
          t.net = s.net ++ [⟨n, .core c, .core k, .spawn k p.buf s.turn s.nextId asid (decide (recPrio p.buf = 3)), none, false⟩] ∧
          ((p.buf.getD 1 0).getLsbD 38 = false → asid = p.asid) ∧
          t.proc s.turn = p.open_ s.nextId 0 true .sync (.g o.d 8 false) va 0 [(0, o.d.toNat)]) ∧
    (∀ o : Guard, Safety.Clear { word := 0, gu := o, ext := true } s → p.ending = 0 → s.held = [] →
      (∀ e ∈ (s.core c).tileq ++ (s.core c).tileWait, e.pk = s.turn → e.waits = 0) → ((∃ u, u ∈ p.unacked) → ∃ t, exec (.exit o) s = .next t ∧ t.proc s.turn = { p with ending := 1 } ∧ t.mem = s.mem) ∧
      (p.unacked = [] → p.outs = [] → p.savedOps = [] → (∀ e ∈ (s.core c).tileq ++ (s.core c).tileWait, e.pk ≠ s.turn) →
        (∀ k ∈ s.cores, ∀ m ∈ k.2.marks, m.2.state ≠ 0 → m.2.holder = s.originWord s.turn → m.2.pulling = []) →
        ((∀ m ∈ s.livePeers, s.awayWait s.turn (.remote m) = false) → ∃ t, exec (.exit o) s = .next t ∧ (t.proc s.turn).ending = 2) ∧
        (∀ m, p.state = .running → s.livePeers = [m] → (s.streamTo (s.originWord s.turn) m).frozen = true →
          ∃ t, exec (.exit o) s = .next t ∧ (t.proc s.turn).state = .blocked ∧ (t.proc s.turn).wait = edgeStream m))) ∧
    (∀ o : A1, Safety.Clear { infoA1 o 0 with priv := true } s →
      let v := (r.getG o.a).toNat
      v < 3 → (v = (s.core c).partition + 1 ∨ v + 1 = (s.core c).partition) → s.repartBusy s.turn v = false → (s.core c).parkMap = [] →
        ∃ t, exec (.repart o) s = .next t ∧ t.mem = s.mem ∧ t.core c = { s.core c with partition := v } ∧ (t.proc s.turn).pc = p.pc + 4 ∧
          (∀ i : BitVec 6, (t.proc s.turn).r.getG i = if i.toNat < gAllot (s.core c).partition ∧ i.toNat < gAllot v then r.getG i else 0) ∧
          (∀ i : BitVec 5, (t.proc s.turn).r.getV i = if i.toNat < vAllot (s.core c).partition ∧ i.toNat < vAllot v then r.getV i else 0) ∧
          (t.proc s.turn).r = { r with g := (t.proc s.turn).r.g, v := (t.proc s.turn).r.v }) ∧
    (∀ o : A1,
      let v := (p.word.getG o.a).toNat
      (v / 2 ^ 62 ≠ 3 → v % 2 ^ 16 = 0 →
        (Safety.Clear { infoA1 o 0 with priv := true } s → ∃ t d, exec (.tlbinv o) s = .next t ∧ t.mem = s.mem ∧ t.shoots = s.shoots ++ [d] ∧ d.mode = v / 2 ^ 62 ∧ d.asid = v / 2 ^ 56 % 2 ^ 6 ∧
          d.va = v / 2 ^ 16 % 2 ^ 40 * 2 ^ 16 ∧ d.complete = false ∧ d.acked = [] ∧ t.proc s.turn = p.going (d.id + 1)) ∧
        (∀ d, Safety.Going { infoA1 o 0 with priv := true } s → s.shoots = [d] → d.id + 1 = p.prog →
          (d.complete = false → exec (.tlbinv o) s = .next s) ∧
          (d.complete = true → exec (.tlbinv o) s = .next (({ s with shoots := [] } : State).setProc s.turn p.pass))))) ∧
    (∀ (o : RR) (pa : Nat) (u : Under) (d0 d1 : Word),
      let w : Issue := { word := 0, gu := o.gu, priv := true, gs := [o.d.toNat, o.a.toNat], reads := [(0, o.d.toNat), (0, o.a.toNat)], writes := [(0, o.d.toNat)], ext := true }
      let ea := p.word.getG o.a
      let q := (p.word.getG o.d).toNat % 256
      let logsize := d0.toNat % 2 ^ 5
      let base := d0.toNat / 2 ^ 12 % 2 ^ 40 * 2 ^ 12
      let result (t : State) (x : Word) := exec (.qarm o) s = .next t ∧ t.proc s.turn = p.retire [(0, o.d.toNat)] (r.setG o.d x) (p.pc + 4) false
      (s.queue q).inProgress = false →
        (Safety.Clear w s → ea.toNat % 64 = 0 → s.xlate (s.ctxOf s.turn) .rd ea.toNat = .ok pa u → s.isHere pa = true →
          (placeOf (paLocal pa) = .host ∨ placeOf (paLocal pa) = .hbm) → p.unacked = [] → p.acquires c (s.homeOf pa) = false →
          ∃ t, exec (.qarm o) s = .next t ∧ t.mem = s.mem ∧ Safety.asks s t s.turn s.nextId (.load pa 16 false false) ea pa) ∧
        (Safety.Going w s → p.buf = [d0, d1] → p.seen = [(pa, u)] → (logsize = 0 → ∃ t, result t 0 ∧ (t.queue q).armed = false) ∧
        (qcbReserved d0 d1 = false → 12 ≤ logsize → logsize ≤ 20 → (placeOf base = .host ∨ placeOf base = .hbm) → d1.toNat / 2 ^ 24 % 2 ^ 4 ≠ 0 →
          let tenant := d1.toNat / 2 ^ 8 % 2 ^ 6
          let owner := d1.toNat / 2 ^ 2 % 2 ^ 6
          ((owner = tenant ∨ (s.fltenq.get 0 owner).getLsbD tenant = true) →
            ∃ t, result t 1 ∧ t.queue q = { Queue.reset with
              armed := true, qcb := paLocal pa, base := base, logsize := logsize, tenant := tenant, owner := owner
              vec := d1.toNat / 2 ^ 32 % 2 ^ 8
              dies := d1.toNat / 2 ^ 24 % 2 ^ 4
              prioCap := d1.toNat / 2 ^ 14 % 2 ^ 2 }) ∧
          (owner ≠ tenant → (s.fltenq.get 0 owner).getLsbD tenant = false → ∃ t, result t 3 ∧ (t.queue q).armed = false)))) ∧
    (∀ (o : A1) (pa : Nat) (u : Under),
      let x := (p.word.getG o.a).toNat
      let img := ckptImage { p with r := p.word }
      let stored (q : Proc) (i pa : Nat) : Prop := s.awayWait s.turn (s.homeOf pa) = false → p.acquires c (s.homeOf pa) = false → p.storesFull = false →
        ∃ t, exec (.ckptSave o) s = .next t ∧ t.mem = s.mem ∧
          Safety.asks s t s.turn s.nextId (.store pa 8 (storeWrites (paLocal pa) 8 (img.getD i 0).toNat) false false) (BitVec.ofNat 64 (x + 8 * i)) pa ∧
          t.proc s.turn = (let q : Proc := { q with unacked := p.unacked ++ [⟨s.nextId, s.homeOf pa, false, pa⟩], fifth := none }
            if img.length ≤ i + 1 then q.pass else q.going (i + 1))
      (Safety.Clear { infoA1 o 0 with reads := (infoA1 o 0).reads ++ imageRegs (r.flags &&& fVCLEAN != 0) } s → x % 64 = 0 → s.ckptExtent s.turn .wr 1 (fun pa => storeCheck false pa 8) x (8 * img.length) = none → p.unacked = [] →
        s.incomplete s.turn 3 1 = false → s.xlate (s.ctxOf s.turn) .wr x = .ok pa u → stored { p with seen := s.ckptSeen s.turn .wr x (8 * img.length) } 0 pa) ∧
      (Safety.Going (infoA1 o 0) s → 0 < p.prog → (p.seen.drop (p.prog / 8)).head? = some (pa, u) → stored p p.prog (pa + p.prog % 8 * 8))) ∧
    (∀ o : A1, Safety.Going (infoA1 o 0) s →
      let x := (p.word.getG o.a).toNat
      let img (i : Nat) : Word := p.buf.getD (2 * i) 0
      let part := (s.core c).partition
      let len := if (img 0).getLsbD 2 then 128 else 640
      x % 64 = 0 → p.buf.length = 2 * len → (img 0).toNat < 8 → (img 0).toNat % 4 ≤ part →
        s.ckptExtent s.turn .rd 0 (fun pa => loadCheck p.priv pa 8) x (8 * len) = none →
        ∃ t, exec (.ckptRestore o) s = .next t ∧ t.mem = s.mem ∧ (t.proc s.turn).pc = img 1 &&& 0x00FFFFFFFFFFFFFC#64 ∧
          (∀ i : BitVec 6, i ≠ 0 → (t.proc s.turn).r.getG i = if i.toNat < gAllot part then img (32 + i.toNat) else 0) ∧
          (∀ i : BitVec 3, i ≠ 0 → (t.proc s.turn).r.getP i = (img 2).getLsbD i.toNat) ∧
          (t.proc s.turn).r.ctl.inh = false ∧ (t.proc s.turn).r.ctl.trapv = img 18 &&& 0x00FFFFFFFFFFFFFC#64 ∧ (t.proc s.turn).r.ctl.dfmt = img 29 ∧
          (p.priv = false → (t.proc s.turn).r.ctl.dabs = r.ctl.dabs)) ∧
    (∀ o : RR, Safety.Clear { infoRR o 0 with priv := true, ext := true } s →
      let v := (r.getG o.a).toNat
      let who := v % 2 ^ 26
      let x := s.streamIn who
      let released (f : Header) (q : State → Prop) := ∃ t, exec (.streamres o) s = .next t ∧ t.mem = s.mem ∧
        t.proc s.turn = p.retire [(0, o.d.toNat)] (r.setG o.d 1) (p.pc + 4) false ∧ (t.streamIn who).frozen = none ∧ q t ∧
        ∃ y ∈ t.outbox, y.target = f.m ∧ y.body = .resume who s.modid x.expect
      v < 2 ^ 27 →
        (x.frozen = none → exec (.streamres o) s = Safety.computes s [(0, o.d.toNat)] (r.setG o.d 0)) ∧
        (∀ m f q, x.frozen = some m → m.check = some f → f.m ≠ s.modid → m.body = .req q →
          (v < 2 ^ 26 → s.headerCheck f = .pass → released f (fun t => ∃ y ∈ t.net, y.body = .req q ∧ y.dst = q.home ∧ y.check = none)) ∧
          (∀ e, v < 2 ^ 26 → s.headerCheck f = .fault e →
            exec (.streamres o) s = .next ((s.notice f e).setProc s.turn (p.retire [(0, o.d.toNat)] (r.setG o.d 2) (p.pc + 4) false))) ∧
          (∀ k port pa n a b, q.src = .remote k port → q.rop = .load pa n a b →
            let refused (c : Cause) : Prop := released f (fun t => ∃ y ∈ t.outbox, y.target = k ∧ y.body = .answer q.who q.op (.trap ⟨c, q.va, 0, 0⟩))
            (v / 2 ^ 26 = 1 → refused .prot) ∧ (v < 2 ^ 26 → s.headerCheck f = .violation → refused .remoteKey))))

/-- R80, R82, R99 to R103, R114, R228, R233, R237, R238: with nothing held and no byte struck, a home performs a request whose tiles are FULL in one step: a load
is answered with its bytes, LDX empties the tile; a store writes its bytes and is acknowledged, STX fills an EMPTY tile; an AMO writes by the table of R237 and
answers the old value; an arrival claims its tile, and its data fills it; pulls, releases and relinks move a lend on; what a streamer reads leaves as a push, to another module by the port that its request came by. -/
def Obligations.HomesPerform : Prop :=
  ∀ (s : State) (id : Nat) (from_ : Src) (to_ : Home) (h : Bool), s.held = [] → s.struck = [] → s.lendsHbm = [] → s.migs = [] → (∀ d < 4, (s.die d).migEn = false) →
    let rest := s.net.filter (fun m => m.id != id)
    (∀ (r : Req) (k : Nat), s.inTurn id = some ⟨id, from_, to_, .req r, none, h⟩ → r.src = .core k → r.stale = false →
      r.home.isMmio = false → s.moduleOf r.who = s.modid →
      (∀ pa n ldx sync, r.rop = .load pa n ldx sync → 0 < n → n ≤ 128 → (∀ e ∈ touchedTiles (paLocal pa) n, s.tag e.1 e.2 = .full) →
        ∃ t m pk, exec (.loadPerform id) s = .next t ∧ t.mem = s.mem ∧ t.net = rest ++ [⟨m, r.home.src, .core (coreOf pk),
          .answer pk r.op (.vals [BitVec.ofNat 1024 (s.view (paLocal pa) n)]), none, false⟩] ∧
          ∀ e ∈ touchedTiles (paLocal pa) n, t.tag e.1 e.2 = if ldx then .empty else .full) ∧
      (∀ pa n ws stl, r.rop = .store pa n ws false stl → (stl = true → r.released = true) → (∀ e ∈ touchedTiles (paLocal pa) n, s.tag e.1 e.2 = .full) →
        ∃ t pk, exec (.storePerform id) s = .next t ∧ t.mem = s.mem.writeMasked ws ∧ ∃ m ∈ t.net, m.body = .ack pk r.op) ∧
      (∀ pa n ws c tile, r.rop = .store pa n ws true false → touchedTiles (paLocal pa) n = [(c, tile)] → s.tag c tile = .empty →
        ∃ t pk, exec (.storePerform id) s = .next t ∧ t.mem = s.mem.writeMasked ws ∧ t.tag c tile = .full ∧ ∃ m ∈ t.net, m.body = .ack pk r.op) ∧
      (∀ pa f v e ret, r.rop = .amo pa f v e ret → f ≤ 9 → (∀ e ∈ touchedTiles (paLocal pa) 8, s.tag e.1 e.2 = .full) →
        let old : Word := BitVec.ofNat 64 (s.view (paLocal pa) 8)
        let new : Word := match f with
          | 0 => old + v
          | 1 => if v.toInt < old.toInt then v else old
          | 2 => if old.toInt < v.toInt then v else old
          | 3 => if v.toNat < old.toNat then v else old
          | 4 => if old.toNat < v.toNat then v else old
          | 5 => old &&& v
          | 6 => old ||| v
          | 7 => old ^^^ v
          | 8 => v
          | _ => if old = e then v else old
        ∃ t pk, exec (.amoPerform id) s = .next t ∧ t.mem = (if f = 9 ∧ old ≠ e then s.mem else s.mem.writeMasked (storeWrites (paLocal pa) 8 new.toNat)) ∧
          ((f = 9 → ret = true) → ∃ m ∈ t.net, m.body = if ret then .answer pk r.op (.vals [old.setWidth 1024]) else .ack pk r.op)) ∧
      (∀ c tile n j cid idx, r.rop = .claim c tile (.piece n j cid idx) → (s.tag c tile = .empty ∨ s.tag c tile = .full) →
        ∃ t, exec (.arrivalClaim id) s = .next t ∧ t.mem = s.mem ∧ t.tag c tile = .pending)) ∧
    (∀ pa (v : Word) pk op core va pc dest u, s.inTurn id = some ⟨id, from_, to_, .absmax pa v pk op core va pc dest u, none, h⟩ → (∀ e ∈ touchedTiles (paLocal pa) 8, s.tag e.1 e.2 = .full) →
      let old : Word := BitVec.ofNat 64 (s.view (paLocal pa) 8)
      ∃ t, exec (.absmaxMerge id) s = .next t ∧ t.mem = s.mem.writeMasked (storeWrites (paLocal pa) 8 (if old.toInt < v.toInt then v else old).toNat)) ∧
    (∀ (r : Req) at_, s.msg id = some ⟨id, from_, to_, .retry r at_, none, h⟩ → (∀ n, r.home ≠ .remote n) → 64 ≤ s.cycles (dieOfCore (coreOf (s.keyOf r.who))) (s.dtime - at_) →
      exec (.parkRetry id) s = .next { s with net := rest ++ [⟨s.nextId, r.src, r.home, .req r, none, false⟩], nextId := s.nextId + 1 }) ∧
    (∀ core tile bytes lend, s.inTurn id = some ⟨id, from_, to_, .push core tile bytes (.pull lend), none, h⟩ → core < 1536 → s.tag core tile = .pending →
      ∃ t, exec (.arrivalComplete id) s = .next t ∧ t.mem = s.mem.writeBytes (tileAddr core tile) bytes ∧ t.tag core tile = .full) ∧
    (∀ lend a core tile (holder : Word) l k, s.inTurn id = some ⟨id, .core k, to_, .pullRead lend a core tile holder, none, h⟩ → s.lendOf lend = some l →
      l.holder = holder →
      exec (.pullRead id) s = .next { s with
        net := rest ++ [⟨s.nextId, to_.src, .core core, .push core tile (s.mem.bytes a (tileSize tile)) (.pull lend), none, false⟩], nextId := s.nextId + 1 }) ∧
    (∀ lend c n pull (l : Lend), s.inTurn id = some ⟨id, from_, to_, .lendRelease lend n pull, none, h⟩ → s.lendOf lend = some l → (s.core c).lends = [l] → l.id = lend → l.hbm = false →
      (n < l.outstanding → ∃ t, exec (.lendReleaseMessage id) s = .next t ∧ t.mem = s.mem ∧
        (t.core c).lends = [{ l with outstanding := l.outstanding - n, pristine := l.pristine && !pull }]) ∧
      (l.outstanding ≤ n → ∀ k tile, touchedTiles l.src l.len = [(k, tile)] → s.tag k tile = .lent →
        ∃ t, exec (.lendReleaseMessage id) s = .next t ∧ t.mem = s.mem ∧ (t.core c).lends = [] ∧ t.tag k tile = .full)) ∧
    (∀ lend c holder (l : Lend), s.inTurn id = some ⟨id, from_, to_, .relink lend holder, none, h⟩ → (s.core c).lends = [l] → l.id = lend →
      ∃ t, exec (.relink id) s = .next t ∧ t.mem = s.mem ∧ t.net = rest ∧ (t.core c).lends = [{ l with holder := holder }]) ∧
    (∀ (b : Bulk) n core cid idx k off, let m : Msg := ⟨id, from_, to_, .stream b, none, h⟩
      s.msg id = some m → b.who = .piece n core cid idx → s.useless b.who = false → s.isFirst m = true → s.pieceBefore m = false → b.sum = false → b.ldx = false →
      placeOf (paLocal b.src) ≠ .mmio → (∀ e ∈ touchedTiles (paLocal b.src) b.n, s.tag e.1 e.2 = .full) → placeOf (paLocal b.dst) = .scratch k off →
      let push : Body := .push k ((tileAt (inWindow off)).getD 0) (s.mem.bytes (paLocal b.src) b.n) b.who
      ∃ t, exec (.streamerRead id) s = .next t ∧ t.mem = s.mem ∧
        ((∀ j p, from_ = .remote j p → s.homeOf b.dst ≠ .remote j) → ∃ x ∈ t.net, x.dst = s.homeOf b.dst ∧ x.src = to_.streamer ∧ x.body = push) ∧
        (∀ j p, from_ = .remote j p → s.homeOf b.dst = .remote j → ∃ x ∈ t.outbox, x.target = j ∧ x.port = p ∧ x.body = push))

/-- R46, R47, R86, R87, R92, R168, R170, R235, R258: what reaches a core. The value of an operation is written to its destination; a trap takes the process back to
the operation (R46), and with the registers, predicates, masks and FLAGS that R46 names its control registers too, as the model reads it (log 30); an acknowledgement frees its store; a hold notice blocks; a wait past SYNCLIM is withdrawn and traps; a
watch event is set; a promotion is released once no earlier store to another module is unacknowledged, and then performed; a frozen stream stops until it resumes. -/
def Obligations.CoreReplies : Prop :=
  ∀ (s : State) (id : Nat) (from_ : Src) (to_ : Home) (h : Bool),
    let rest := s.net.filter (fun m => m.id != id)
    (∀ (pk op : Nat), (s.core (coreOf pk)).slots.contains (pidOf pk) = true →
      let p := s.proc pk
      (∀ (v : BitVec 1024) (e : OutOp) (d : BitVec 6) n sgn, s.inTurn id = some ⟨id, from_, to_, .answer pk op (.vals [v]), none, h⟩ → p.unacked = [] → p.outs = [e] → e.id = op →
        e.more = [] → e.got = [] → e.dest = .g d n sgn → e.live = true → d ≠ 0 →
        ∃ t, exec (.loadComplete id) s = .next t ∧ t.mem = s.mem ∧ (t.proc pk).outs = [] ∧ (t.proc pk).pc = p.pc ∧
          (t.proc pk).r = p.r.setG d (if sgn then (BitVec.ofNat (8 * n) (v.toNat % 2 ^ (8 * n))).signExtend 64 else BitVec.ofNat 64 (v.toNat % 2 ^ (8 * n)))) ∧
      (∀ (x : Trap) (e : OutOp), s.inTurn id = some ⟨id, from_, to_, .answer pk op (.trap x), none, h⟩ → p.unacked = [] → p.outs = [e] → e.id = op →
        ∃ t, exec (.loadComplete id) s = .next t ∧ t.mem = s.mem ∧ (t.proc pk).outs = [] ∧ (t.proc pk).pc = e.pc ∧ (t.proc pk).r = e.snap ∧
          (t.proc pk).pend = some { x with info := if e.kind = .load ∧ x.info = 0 then e.va else x.info }) ∧
      (s.inTurn id = some ⟨id, from_, to_, .ack pk op, none, h⟩ → (∃ u ∈ p.unacked, u.op = op) →
        ∃ t, exec (.storeAcknowledge id) s = .next t ∧ t.mem = s.mem ∧ (t.proc pk).unacked = p.unacked.filter (fun u => u.op != op) ∧ (t.proc pk).r = p.r) ∧
      (∀ edge, s.inTurn id = some ⟨id, from_, to_, .hold pk op edge, none, h⟩ → op ≠ 0 → p.state = .running → (∃ u ∈ p.unacked, u.op = op) →
        ∃ t, exec (.holdNotice id) s = .next t ∧ t.mem = s.mem ∧ (t.proc pk).state = .blocked ∧ (t.proc pk).wait = edge ∧ (t.proc pk).r = p.r)) ∧
    (∀ (r : Req) (k tm : Nat), s.held = [r] → r.src = .core k → r.arrived = some tm → r.home = .core k → s.moduleOf r.who = s.modid → (s.core (coreOf (s.keyOf r.who))).halted = false → r.limit ≠ 0 → r.limit ≤ s.cycles (dieOfCore k) (s.dtime - tm) →
      ∃ t, exec (.syncLimitExpire r.id) s = .next t ∧ t.mem = s.mem ∧ t.held = [] ∧
        ∃ m ∈ t.net, m.body = .answer (s.keyOf r.who) r.op (.trap ⟨.syncLimit, r.va, 0, 0⟩)) ∧
    (∀ who k, s.inTurn id = some ⟨id, from_, .core k, .watchEvent who, none, h⟩ → s.moduleOf who = s.modid →
      ∃ t, exec (.watchEventMessage id) s = .next t ∧ t.mem = s.mem ∧ (t.proc (s.keyOf who)).wev = true ∧ t.net = rest) ∧
    (∀ pk op o k, s.inTurn id = some ⟨id, .core k, to_, .promote pk op o, none, h⟩ →
      let us := (s.proc pk).unacked
      let released := exec (.promotionNotice id) s = .next { s with net := rest ++ [⟨s.nextId, .core (coreOf pk), .core k, .promoted o, none, false⟩], nextId := s.nextId + 1 }
      (∀ before u after, us = before ++ u :: after → u.op = op → (∀ x ∈ before, x.op ≠ op) →
        ((∀ x ∈ before, ∀ m, x.home ≠ .remote m) → released) ∧ ((∃ x ∈ before, ∃ m, x.home = .remote m) → exec (.promotionNotice id) s = .next (s.stay id))) ∧
      ((∀ u ∈ us, u.op ≠ op) → (∀ u ∈ us, u.op < op ∨ 2 ^ 64 ≤ u.op → ∀ m, u.home ≠ .remote m) → released)) ∧
    (∀ (r : Req) pa n ws k, s.inTurn id = some ⟨id, from_, to_, .promoted r.id, none, h⟩ → s.held = [r] → r.src = .core k → r.stale = false → r.rop = .store pa n ws false true →
      s.struck = [] → s.lendsHbm = [] → s.migs = [] → (∀ e ∈ touchedTiles (paLocal pa) n, s.tag e.1 e.2 = .full) →
      ∃ t, exec (.promotedRelease id) s = .next t ∧ t.held = [] ∧ t.mem = s.mem.writeMasked ws) ∧
    (∀ who target, s.inTurn id = some ⟨id, from_, to_, .frozenNotice who target, none, h⟩ →
      ∃ t, exec (.frozenNotice id) s = .next t ∧ t.mem = s.mem ∧ (t.streamTo who target).frozen = true ∧ (t.streamTo who target).next = (s.streamTo who target).next) ∧
    (∀ who target next, s.inTurn id = some ⟨id, from_, to_, .resume who target next, none, h⟩ →
      ∃ t, exec (.resumeMessage id) s = .next t ∧ t.mem = s.mem ∧ (t.streamTo who target).frozen = false ∧
        ∀ x ∈ s.sent, ∀ n, x.request = true → x.header.who = who → x.target = target → x.header.seq = some n → seqBefore n next = false → { x with left := 0 } ∈ t.outbox)

/-- R62, R65 to R71: a walk of four levels reads its entries by the fields of the address and gives the page of the leaf, with its permissions; PAGE_WALK puts what a
walk gives into the TLB, or keeps its failure for the access, or tells it to the process that asked, which is the model's way (log 23); a shoot-down leaves no covered entry in a core that acknowledges, and is complete with the last
acknowledgement; a migration copies its page, rewrites the leaf if it still holds what the request was translated by, shoots down what was translated by that leaf, as the model reads it (log 29), and then sends its end marker; old counts end. -/
def Obligations.TranslationRows : Prop :=
  (∀ (s : State) (c : Ctx) (va root t2 t1 t0 page fl : Nat),
    let a3 := root + va / 2 ^ 43 % 2 ^ 13 * 8
    let a2 := t2 + va / 2 ^ 30 % 2 ^ 13 * 8
    let a1 := t1 + va / 2 ^ 21 % 2 ^ 9 * 8
    let a0 := t0 + va / 2 ^ 16 % 2 ^ 5 * 8
    let table (x align : Nat) : Prop := x % align = 0 ∧ x < 2 ^ 52 ∧ s.malformed x = false
    s.struck = [] → s.migs = [] → s.rootOf c = some root → s.malformed root = false →
      (∀ a ∈ [a3, a2, a1, a0], s.isHere a = true ∧ ∀ e ∈ touchedTiles (paLocal a) 8, s.tag e.1 e.2 = .full) →
      table t2 65536 → table t1 4096 → table t0 256 → table page 65536 → fl % 4 = 1 → fl < 128 →
      s.view (paLocal a3) 8 = t2 + 3 → s.view (paLocal a2) 8 = t1 + 3 → s.view (paLocal a1) 8 = t0 + 3 → s.view (paLocal a0) 8 = page + fl →
      s.walk c va = .leaf ⟨c.asid, c.origin, decide (fl / 64 % 2 = 1), va / 65536 * 65536, 65536, page, decide (fl / 32 % 2 = 1), decide (fl / 16 % 2 = 1),
        decide (fl / 8 % 2 = 1), decide (fl / 4 % 2 = 1), a0, BitVec.ofNat 64 (page + fl)⟩) ∧
  (∀ (s : State) (w : Walk), s.walks = [w] → w.failed = none →
    let c : Ctx := ⟨w.core, w.asid, true, w.origin, [], w.root, none, none⟩
    (∀ e, s.walk c w.va = .leaf e → ∃ t, exec (.pageWalk w.id) s = .next t ∧ t.walks = [] ∧ e ∈ (t.core w.core).tlb ∧ t.mem = s.mem) ∧
    (∀ x l, s.walk c w.va = .fail x l →
      (w.by_ = none → exec (.pageWalk w.id) s = .next { s with walks := [{ w with failed := some (x, l) }] }) ∧
      (∀ pk, w.by_ = some pk → ∃ t, exec (.pageWalk w.id) s = .next t ∧ t.walks = [] ∧ t.mem = s.mem ∧ (t.proc pk).walked = some (w.va, x, l)))) ∧
  (∀ (s : State) (d : Shootdown) (core : Nat), s.shoots = [d] →
    (core < 1536 → core ∈ d.need → core ∉ d.acked → s.net = [] → s.held = [] → s.outbox = [] → s.sent = [] → s.streamsIn = [] → (s.core core).copyq = [] →
      s.xfers = [] → (∀ e ∈ s.procs, e.2.seen = [] ∧ ∀ o ∈ e.2.outs, o.more = [] ∧ o.kind ≠ .chan) →
      ∃ t, exec (.shootdownAcknowledge d.id core) s = .next t ∧ t.mem = s.mem ∧ t.shoots = [{ d with acked := d.acked ++ [core] }] ∧
        ∀ e ∈ (t.core core).tlb, d.covers e = false) ∧
    ((∀ k ∈ d.need, k ∈ d.acked) → d.reply = none →
      (d.migration = none → exec (.shootdownComplete d.id) s = .next { s with shoots := [{ d with complete := true }] }) ∧
      (∀ m, d.migration = some m.id → s.migs = [m] → ∃ t n, exec (.shootdownComplete d.id) s = .next t ∧ t.mem = s.mem ∧ t.shoots = [] ∧ t.migs = [{ m with stage := 2 }] ∧
        t.net = s.net ++ [⟨n, .scarab (scarabOf m.page), .scarab (scarabOf m.frame), .endMarker m.id, none, false⟩]))) ∧
  (∀ (s : State) (m : Migration), s.migs = [m] → s.held = [] → s.lendsHbm = [] → s.isHere m.leaf = true →
    let leaf := paLocal m.leaf
    (m.stage = 0 → s.mem.wf = true → m.page % 2 ^ 16 = 0 → m.frame % 2 ^ 16 = 0 → m.page ≠ m.frame → leaf / 2 ^ 16 ≠ m.frame / 2 ^ 16 → (leaf + 7) / 2 ^ 16 ≠ m.frame / 2 ^ 16 →
      BitVec.ofNat 64 (s.mem.readN leaf 8) = m.oldPte → m.frame < 2 ^ 45 → s.modid < 128 →
      ∃ t d, exec (.migrationCopyDone m.id) s = .next t ∧ t.migs = [{ m with stage := 1 }] ∧ t.shoots = s.shoots ++ [d] ∧ d.migration = some m.id ∧
        (∀ i < 2 ^ 16, t.mem.read (m.frame + i) = s.mem.read (m.page + i)) ∧
        t.mem.readN leaf 8 = m.oldPte.toNat / 2 ^ 52 * 2 ^ 52 + s.modid * 2 ^ 45 + m.frame + m.oldPte.toNat % 2 ^ 8) ∧
    (m.stage = 0 → BitVec.ofNat 64 (s.mem.readN leaf 8) ≠ m.oldPte → ∃ t, exec (.migrationCopyDone m.id) s = .next t ∧ t.migs = [] ∧ t.shoots = s.shoots) ∧
    (∀ id from_ to_ h, s.msg id = some ⟨id, from_, to_, .endMarker m.id, none, h⟩ →
      let d := s.die m.die
      ∃ t, exec (.endMarker id) s = .next t ∧ t.migs = [] ∧ (t.die m.die).relTail = (d.relTail + 1) % 8192 ∧
        t.mem = s.mem.writeN (paLocal d.relBase + d.relTail * 8) 8 (s.modid * 2 ^ 45 + m.page))) ∧
  (∀ (s : State) (page requester : Nat), ∃ t, exec (.migrationCountExpire page requester) s = .next t ∧ t.mem = s.mem ∧
    ∀ c, c ∈ t.counts ↔ c ∈ s.counts ∧
      ¬(c.page = page ∧ c.requester = requester ∧ c.times.headD s.dtime + (s.die (scarabOf page / 32)).migWindow < s.dtime))

/-- R266 to R268, R272, R274, R275, R279 to R282, R290, R291, R294, R310, R311: a process ends when its EXIT is answered, wakes when its deadline passes, and is made by SPAWN or from the
inbox with the registers that its record gives; the scheduler's choice puts the head of the queues into a slot and takes its victim out of it; HOLD makes
unprivileged residents leave; cores halt and go on. That those at a boundary leave with the write, the others by a later switch, and that none issues meanwhile, is the model's reading of R279 (log 33); that a task takes
the lowest free slot of the pool is its choice (log 105). -/
def Obligations.ProcessRows : Prop :=
  (∀ (s : State) (core pid : Nat), pid < 256 →
    let pk := core * 256 + pid
    let p := s.proc pk
    (p.ending = 2 → p.unacked = [] → s.unbinding (s.originWord pk) = false → s.lendTo (s.originWord pk) = none → p.guest = false → p.task = false → pid < 248 →
      ∃ t, exec (.exitComplete core pid) s = .next t ∧ t.mem = s.mem ∧ (t.proc pk).state = .free ∧ pid ∉ (t.core core).slots ∧
        (t.core core).freePids = (s.core core).freePids ++ [pid]) ∧
    ((s.core core).halted = false → p.state = .sleeping → p.wait.toNat ≤ s.dtime → ∃ t, exec (.sleepExpire core pid) s = .next t ∧ t.mem = s.mem ∧
      (t.proc pk).state = (if (s.core core).slots.contains pid then .running else .ready) ∧ (t.proc pk).r = p.r) ∧
    (∀ id from_ to_ r op pk2 asid priv here (e : OutOp) (d : BitVec 6), s.inTurn id = some ⟨id, from_, to_, .spawn core r pk2 op asid priv, none, here⟩ → recNeed r ≤ (s.core core).partition →
      (∀ l, (s.core core).freePids = pid :: l → pk2 ≠ pk → (s.proc pk2).outs = [e] → e.id = op → e.more = [] → e.got = [] → e.dest = .g d 8 false → e.live = true → d ≠ 0 →
        ∃ t, exec (.spawnChildCreate id) s = .next t ∧ (t.core core).freePids = l ∧ (t.proc pk).state = .ready ∧ (t.proc pk).pc = BitVec.ofNat 64 (recEntry r) ∧
          (t.proc pk).prio = recPrio r ∧ (t.proc pk).priv = priv ∧ (t.proc pk).need = recNeed r ∧ (t.proc pk).asid = asid ∧
          (∀ i < 6, (t.proc pk).r.getG (BitVec.ofNat 6 (i + 1)) = r.getD (2 + i) 0) ∧ (t.proc pk).r.getG 7 = BitVec.ofNat 64 (s.originWord pk2) ∧
          (t.proc pk2).r.getG d = BitVec.ofNat 64 (s.word pk)) ∧
      ((s.core core).freePids = [] → (s.proc pk2).state = .running →
        ∃ t, exec (.spawnChildCreate id) s = .next t ∧ (t.proc pk2).state = .blocked ∧ t.msg id = some ⟨id, from_, to_, .spawn core r pk2 op asid priv, none, true⟩)) ∧
    (∀ slot (b : Inbox) l i, (s.core core).inbox.find? (fun e => decide (e.1 = slot)) = some (slot, b) → (s.core core).halted = false → b.event = false → recBad b.record = false →
      s.startsFirst core = some slot → (s.core core).freePids = pid :: l → (s.core core).poolFree = some i →
      ∃ t, exec (.taskStart core slot) s = .next t ∧ (t.core core).inbox.find? (fun e => decide (e.1 = slot)) = none ∧ (t.proc pk).state = .ready ∧
        (t.proc pk).task = true ∧ (t.proc pk).pc = BitVec.ofNat 64 (recEntry b.record) ∧ (t.proc pk).prio = recPrio b.record ∧
        (t.proc pk).asid = recAsid b.record ∧ (t.proc pk).priv = decide (recPrio b.record = 3) ∧
        (t.proc pk).save = (s.core core).taskFirst + i * saveTiles (s.core core).partition ∧
        ∀ j < 7, (t.proc pk).r.getG (BitVec.ofNat 6 (j + 1)) = b.record.getD (j + 1) 0)) ∧
  (∀ (s : State) (core k v h : Nat), s.decision core = some (k, v, h) → coreOf v = core → coreOf h = core → s.struck = [] →
    let enters (i : Instr) := ∃ t, exec i s = .next t ∧ (t.proc h).state = .running ∧ pidOf h ∈ (t.core core).slots ∧ (k ≠ 1 → pidOf v ≠ pidOf h → pidOf v ∉ (t.core core).slots)
    ((k = 1 ∨ k = 2) → (s.core core).hold = false → enters (.contextSwitch core)) ∧ (k = 3 → enters (.blockedWaitLimit core)) ∧ (k = 4 → enters (.sliceRotation core))) ∧
  (∀ (s : State) (core : Nat) (v : Word), (∀ pid ∈ (s.core core).slots, pid < 256) →
    ∃ t, exec (.corectlHold core v) s = .next t ∧ (t.core core).hold = v.getLsbD 0 ∧
      (∀ pid ∈ (s.core core).slots, pid ∈ (t.core core).slots ↔
        v.getLsbD 0 = false ∨ (s.proc (core * 256 + pid)).priv = true ∨ (s.proc (core * 256 + pid)).atBoundary = false)) ∧
  (∀ (s : State) (core pid : Nat), (s.core core).hold = true → (s.core core).halted = false → (s.core core).slots = [pid] → pid < 256 →
    (s.proc (core * 256 + pid)).priv = false → (s.proc (core * 256 + pid)).atBoundary = true →
    s.mayRun (core * 256 + pid) = false ∧ ∃ t, exec (.contextSwitch core) s = .next t ∧ (t.core core).slots = []) ∧
  (∀ (s : State) (core : Nat), (s.core core).halting = true →
    ∃ t, exec (.coreHalted core) s = .next t ∧ t.mem = s.mem ∧ t.procs = s.procs ∧ (t.core core).halted = true ∧ (t.core core).halting = false) ∧
  (∀ (s : State) (die i : Nat) (v : Word), i < 384 → (v.getLsbD 11 = true ∨ v.toNat % 2 ^ 9 = i) →
    (v.getLsbD 10 = false → (∀ e ∈ s.procs, e.2.ahead = none) → ∃ t, exec (.haltCommand die v) s = .next t ∧ t.mem = s.mem ∧ t.procs = s.procs ∧
      ((t.core (die * 384 + i)).halted = true ∨ (t.core (die * 384 + i)).halting = true)) ∧
    (v.getLsbD 10 = true → ∃ t, exec (.resumeCommand die v) s = .next t ∧ t.mem = s.mem ∧ t.procs = s.procs ∧
      (t.core (die * 384 + i)).halted = false ∧ (t.core (die * 384 + i)).halting = false))

/-- R284, R285, R287, R288, R305 to R307: held records follow when the queue has room; the oldest record goes to inbox slot 7 of the die's core 0, or is discarded and counted where its
vector is 0; a die quiet for DLCTL.WAIT reports a process blocked on an object that leads to no process, once; what counts as quiet, and the process in the header of its record, are the model's reading (log 51). A
PAGE of an unprivileged process starts a run ahead from the next word, which collects the pages of further faults and ends with the batch record, the process BLOCKED on it; the model runs one word a turn (log 8). PGNOTE ends that wait: to execute
again, or to take PAGE or PROT when the process next issues. -/
def Obligations.EventRows : Prop :=
  (∀ (s : State) (die : Nat) (r : Record) (rest : List Record),
    let d := s.die die
    (d.posting = r :: rest → d.queue.length < 256 → exec (.eventRecordPost die) s = .next (s.setDie die { d with queue := d.queue ++ [r], posting := rest })) ∧
    (d.queue = r :: rest → d.evEn = true → d.evvec.get 0 ((r.getD 0 0).toNat / 2 ^ 56 % 2 ^ 8) = 0 → d.evDrop < 2 ^ 32 - 1 →
      exec (.eventRecordDeliver die) s = .next (s.setDie die { d with queue := rest, evDrop := d.evDrop + 1 })) ∧
    (d.queue = r :: rest → d.evEn = true → d.evvec.get 0 ((r.getD 0 0).toNat / 2 ^ 56 % 2 ^ 8) ≠ 0 → (∀ e ∈ (s.core (die * 384)).inbox, e.1 ≠ 7) →
      ∃ t b, exec (.eventRecordDeliver die) s = .next t ∧ t.mem = s.mem ∧ t.procs = s.procs ∧ (t.die die).queue = rest ∧
        (t.core (die * 384)).inbox.find? (fun e => decide (e.1 = 7)) = some (7, b) ∧ b.record = r ∧ b.event = true)) ∧
  (∀ (s : State) (die : Nat), (s.dtime < (s.die die).quietSince + (s.die die).dlWait ∨ (s.die die).dlWait = 0 ∨ s.quiet die = false) → exec (.deadlockProbe die) s = .next s) ∧
  (∀ (s : State) (pk : Nat) (p : Proc), s.procs = [(pk, p)] → p.state = .blocked → p.guest = false → p.away = none → pk < 1536 * 256 → s.modid < 128 →
    p.wait.toNat / 2 ^ 60 = 4 → p.asid < 2 ^ 6 →
    let die := dieOfCore (coreOf pk)
    let d := s.die die
    s.quiet die = true → s.quiet (p.wait.toNat / 2 ^ 8 % 4) = true → d.dlWait ≠ 0 → d.quietSince + d.dlWait ≤ s.dtime → d.reported = [] → d.queue = [] → d.posting = [] →
      ∃ t r, exec (.deadlockProbe die) s = .next t ∧ t.mem = s.mem ∧ t.procs = s.procs ∧ (t.die die).queue = [r] ∧
        r.getD 0 0 = BitVec.ofNat 64 (5 * 2 ^ 56 + d.seq.toNat * 2 ^ 48 + p.asid * 2 ^ 26 + s.word pk) ∧ r.getD 1 0 = BitVec.ofNat 64 (2 + 1 * 2 ^ 8) ∧
        r.getD 2 0 = BitVec.ofNat 64 (s.word pk + 4 * 2 ^ 28)) ∧
  (∀ (s : State) (die pk seq : Nat) (va v : Word),
    let p := s.proc pk
    let who := v.toNat % 2 ^ 26
    s.keyOf who = pk → s.moduleOf who = s.modid → wordModule who = s.modid → who ≠ 0 → v.toNat / 2 ^ 34 % 2 ^ 22 = 0 → p.state = .blocked → p.why = 5 → p.batch = some (seq, va) →
      v.toNat / 2 ^ 26 % 2 ^ 8 = seq → (s.core (coreOf pk)).slots.contains (pidOf pk) = true →
    let pends (i : Instr) (c : Cause) : Prop := ∃ t, exec i s = .next t ∧ t.mem = s.mem ∧ (t.proc pk).state = .running ∧ (t.proc pk).pend = some ⟨c, va, 0, 0⟩ ∧
      (t.proc pk).pc = p.pc ∧ (t.proc pk).r = p.r ∧ (t.proc pk).batch = p.batch
    (v.toNat / 2 ^ 62 = 0 → ∃ t, exec (.pgnoteResume die v) s = .next t ∧ t.mem = s.mem ∧ (t.proc pk).state = .running ∧ (t.proc pk).batch = none ∧
      (t.proc pk).pc = p.pc ∧ (t.proc pk).r = p.r) ∧
    (v.toNat / 2 ^ 62 = 1 → pends (.pgnoteDeliverPage die v) .page) ∧ (v.toNat / 2 ^ 62 = 2 → pends (.pgnoteDeliverProt die v) .prot)) ∧
  (∀ (s : State) (pk : Nat) (x : Trap),
    let p := s.proc pk
    ∃ a, (s.startAhead pk x).proc pk = { p.settled with pend := none, ahead := some a } ∧ (s.startAhead pk x).mem = s.mem ∧ a.trap = x ∧ a.pc = p.pc + 4 ∧ a.r = p.r ∧ a.pages = [] ∧
      a.words = 0) ∧
  (∀ (s : State) (pk : Nat) (a : Run) (x : AheadAccess), x.count = none → a.known [(0, x.base.toNat)] = true → (x.ea (a.r.getG x.base)).toNat % x.size = 0 →
    let va := (x.ea (a.r.getG x.base)).toNat
    (∀ l, s.xlate (s.ctxOf pk) x.access va = .fail .page l → ∃ b, s.aheadAccess pk a x = .go b ∧ b.pc = a.pc + 4 ∧ b.r = a.r ∧
      b.pages = (if a.first = va / 2 ^ 16 ∨ va / 2 ^ 16 ∈ a.pages then a.pages else a.pages ++ [va / 2 ^ 16])) ∧
    (∀ c l, c ≠ .page → s.xlate (s.ctxOf pk) x.access va = .fail c l → s.aheadAccess pk a x = .stop)) ∧
  (∀ (s : State) (pk : Nat) (a : Run),
    let p := s.proc pk
    let who := s.originWord pk
    let die := dieOfCore (coreOf (wordKey who))
    let d := s.die die
    p.ahead = some a → p.state = .running → wordModule who = s.modid → 7 ≤ a.pages.length ∨ 512 ≤ a.words → d.posting = [] → d.queue.length < 256 →
      let t := s.aheadGo pk a
      let q := t.proc pk
      t.mem = s.mem ∧ q.state = .blocked ∧ q.wait = BitVec.ofNat 64 (6 * 2 ^ 60 + d.seq.toNat) ∧ q.ahead = none ∧ q.batch = some (d.seq.toNat, a.trap.info) ∧ q.pc = p.pc ∧ q.r = p.r ∧
        ∃ f : Nat, (t.die die).queue = d.queue ++ [[BitVec.ofNat 64 (2 * 2 ^ 56 + d.seq.toNat * 2 ^ 48 + p.asid * 2 ^ 26 + who),
          BitVec.ofNat 64 (a.pages.length * 2 ^ 61 + a.trap.cls * 2 ^ 58 + a.trap.level * 2 ^ 56 + a.trap.info.toNat % 2 ^ 56), BitVec.ofNat 64 f, BitVec.ofNat 64 (f / 2 ^ 64),
          BitVec.ofNat 64 (f / 2 ^ 128), BitVec.ofNat 64 (f / 2 ^ 192), BitVec.ofNat 64 (f / 2 ^ 256), p.pc]] ∧
          ∀ j < a.pages.length, f / 2 ^ (40 * j) % 2 ^ 40 = a.pages.getD j 0 % 2 ^ 40)

/-- R38, R251, R252, R255 to R260, R263, R340: a request of another module passes to its home when its region's key and class allow it, is refused with REMOTE-KEY for a wrong
key, and otherwise freezes its stream; travelling processes are admitted and given up; links count, resend, retrain and lose peers; lasers, tokens and DTIME, which the time master itself does not adjust; and the quiesce of a
partition. The model's own readings in it: what is resent, and the retraining with the seventeenth failure (log 57), credits that come with flits and the choice of a laser (log 53), the one quiesce once the survivors are done (log 55), the lowest free
guest slot (log 105), and which module is the time master, as far as this one knows (log 121). -/
def Obligations.FabricRows : Prop :=
  (∀ (s : State) (id : Nat) (m : Msg) (f : Header) (r : Req) (k port pa n : Nat),
    let rest := s.net.filter (fun x => x.id != id)
    let x := s.streamIn f.who
    s.unchecked id = some m → m.check = some f → m.body = .req r → f.m ≠ s.modid → s.incarnOk f.m f.incarn = true → f.seq = some x.expect → x.frozen = none → x.early = [] →
      wordModule f.who ≠ s.modid → f.cls ≠ 6 → r.src = .remote k port → r.rop = .load pa n false false →
      (∀ g, s.regionOf f.pa f.len = some g → g.ctl.getLsbD 9 = false →
        (BitVec.ofNat 32 (g.ctl.toNat / 2 ^ 32) = f.key → g.ctl.getLsbD (3 + f.cls) = true →
          ∃ t, exec (.causewayRequestReceive id) s = .next t ∧ t.mem = s.mem ∧ t.net = rest ++ [{ m with dst := r.home, check := none }] ∧
            (t.streamIn f.who).expect = (x.expect + 1) % 2 ^ 16) ∧
        (BitVec.ofNat 32 (g.ctl.toNat / 2 ^ 32) ≠ f.key →
          ∃ t, exec (.causewayRequestReceive id) s = .next t ∧ t.mem = s.mem ∧ t.net = rest ∧ (t.streamIn f.who).frozen = none ∧
            ∃ y ∈ t.outbox, y.target = k ∧ y.body = .answer r.who r.op (.trap ⟨.remoteKey, r.va, 0, 0⟩))) ∧
      (s.regionOf f.pa f.len = none →
        ∃ t, exec (.causewayRequestReceive id) s = .next t ∧ t.mem = s.mem ∧ t.net = rest ∧ (t.streamIn f.who).frozen = some m)) ∧
  (∀ (s : State) (id c i : Nat) (m : Msg) (f : Header) (tr : Travel), s.unchecked id = some m → m.body = .travel tr → m.dst = .core c → m.check = some f →
    f.m ≠ s.modid → s.incarnOk f.m f.incarn = true → wordModule tr.who ≠ s.modid → s.headerCheck f = .pass → s.guestSlot c = some i → tr.need ≤ (s.core c).partition →
    let pk := c * 256 + 248 + i
    ∃ t x, exec (.travelAdmit id) s = .next t ∧ (t.proc pk).state = .ready ∧ (t.proc pk).guest = true ∧ (t.proc pk).origin = tr.who ∧ (t.proc pk).r = tr.r ∧
      (t.proc pk).pc = tr.pc ∧ (t.proc pk).priv = false ∧ t.outbox = s.outbox ++ [x] ∧ x.target = f.m ∧ x.body = .travelAck tr.who) ∧
  (∀ (s : State) (id m port who : Nat) (to_ : Home) (h : Bool), s.inTurn id = some ⟨id, .remote m port, to_, .travelAck who, none, h⟩ → (s.proc (s.keyOf who)).guest = false →
    ∃ t, exec (.travelAcknowledge id) s = .next t ∧ t.mem = s.mem ∧ (t.proc (s.keyOf who)).away = some m ∧
      (t.proc (s.keyOf who)).outs = [] ∧ pidOf (s.keyOf who) ∉ (t.core (coreOf (s.keyOf who))).slots) ∧
  (∀ (s : State) (l : Link) (good : Bool) (rq rp : Nat), s.links = [l] →
    (l.retraining = false → ∃ t, exec (.flitReceive l.port l.peer good rq rp) s = .next t ∧ t.mem = s.mem ∧
      (good = true → t.links = [{ l with fails := 0, received := l.received + 1, replay := [], reqCredit := l.reqCredit + rq, repCredit := l.repCredit + rp }] ∧
        ((s.peer l.peer).present = true → (t.peer l.peer).lastFlit = s.dtime)) ∧
      (good = false → (16 ≤ l.fails ∨ l.replay = []) → t.links = [{ l with fails := l.fails + 1, retraining := decide (16 ≤ l.fails) }]) ∧
      (∀ x k, good = false → l.fails < 16 → s.outbox = [] → s.sent = [x] → l.replay = [(x.id, k)] → t.sent = [] ∧ t.outbox = [{ x with left := x.left - k }])) ∧
    (l.retraining = true → (s.peer l.peer).present = true → (s.peer l.peer).lost = false →
      ∃ t, exec (.linkRetrainComplete l.port l.peer good) s = .next t ∧ t.mem = s.mem ∧ (t.peer l.peer).lost = !good ∧
        (good = true → l.replay = [] → t.links = [{ l with retraining := false, fails := 0 }]) ∧
        (∀ x k, good = true → s.outbox = [] → s.sent = [x] → l.replay = [(x.id, k)] → t.sent = [] ∧ t.outbox = [{ x with left := x.left - k }]))) ∧
  (∀ (s : State) (peer : Nat), (s.peer peer).present = true → (s.peer peer).lost = false →
    (∃ t, exec (.fireflyPeerDownReport peer) s = .next t ∧ t.mem = s.mem ∧ (t.peer peer).lost = true) ∧
    ((s.peer peer).lastFlit + 50000 ≤ s.dtime → ∃ t, exec (.linkSilenceTimeout peer) s = .next t ∧ t.mem = s.mem ∧ (t.peer peer).lost = true) ∧
    (s.dtime < (s.peer peer).lastFlit + 50000 → exec (.linkSilenceTimeout peer) s = .next s)) ∧
  (∀ (s : State) (peer pk : Nat) (p : Proc) (x : Peer), s.procs = [(pk, p)] → s.peers = [(peer, x)] → x.present = true → x.lost = true → p.state = .running →
    p.outs = [] → p.guest = false → p.away = none → s.xfers = [] → s.held = [] → (∀ k ∈ s.cores, k.2.copyq = [] ∧ k.2.eps = [] ∧ k.2.marks = [] ∧ k.2.lends = []) →
    ∃ t, exec (.partitionQuiesce peer) s = .next t ∧ t.phase = 3 ∧ t.quiesced = true ∧
      (t.peer peer).present = false ∧ (t.proc pk).pend = some ⟨.quiesce, BitVec.ofNat 64 peer, 0, 0⟩ ∧ ∀ y ∈ t.outbox, y.target ≠ peer) ∧
  (∀ (s : State) (port peer : Nat), s.wantsLaser port peer = true → (∀ x ∈ s.outbox, x.left = 0) →
    (s.links.filter (fun l => decide (l.port = port) && l.tuned)).length ≤ 8 →
    ∃ t, exec (.laserRetune port peer) s = .next t ∧ t.mem = s.mem ∧ (∃ l ∈ t.links, l.port = port ∧ l.peer = peer ∧ l.tuned = true) ∧
      (t.links.filter (fun l => decide (l.port = port) && l.tuned)).length ≤ 8) ∧
  (∀ (s : State) (stamp : Nat),
    (s.timeMaster = some s.modid → exec (.dtimeAlign stamp) s = .next s) ∧
    (s.modid ≠ 127 → s.timeMaster ≠ some s.modid →
      (s.phase = 0 → s.dtime < stamp → exec (.dtimeAlign stamp) s = .next { s with dtime := stamp, timeHold := 0, aligned := true }) ∧
      (s.phase = 0 → stamp ≤ s.dtime → exec (.dtimeAlign stamp) s = .next { s with timeHold := s.dtime - stamp, aligned := true }) ∧
      (s.phase ≠ 0 → exec (.dtimeAlign stamp) s = .next { s with drift := (stamp : Int) - s.dtime }))) ∧
  (∀ (s : State) (die asid : Nat),
    let d := s.die die
    let rate := (d.asrate.get 0 asid).toNat % 2 ^ 24
    let burst := (d.asrate.get 0 asid).toNat / 2 ^ 24 % 2 ^ 24
    rate ≠ 0 → d.refilled.get 0 asid + 1000 ≤ s.dtime →
      ∃ t, exec (.tokenBucketRefill die asid) s = .next t ∧ t.mem = s.mem ∧ (t.die die).tokens.get 0 asid = min burst (d.tokens.get 0 asid + rate) ∧
        (t.die die).refilled.get 0 asid = d.refilled.get 0 asid + 1000) ∧
  (∀ (s : State) (v : Word), ∃ t, exec (.rgnctlCommit v) s = .next t ∧ t.mem = s.mem ∧
    t.region s.rgnIdx = ⟨s.rgnBase, s.rgnSize, v &&& 0xFFFFFFFF0000FFF9#64⟩ ∧ ∀ i, i ≠ s.rgnIdx → t.region i = s.region i)

/-- R286, R317 to R326: the Launch Unit serves the packet whose queue has its turn and moves RPTR past it, in the queue and in its control block, modulo the ring: NOP and FETCHFENCE pass,
WAIT tests its word, RELEASE waits for the tasks of its queue and stores, INDIRECT and LOOP set the cursor, LAUNCH picks its core, and the record is written to a free inbox
slot with the queue's tenant as its address space, after a conflicting LAUNCH that the rotation reached before it; a bad packet halts its queue and raises its vector; doorbells read WPTR; an exit report ends a flight. That the
operand of LUARM below its queue number is the local address of the control block is the model's reading of R317 (log 58); so is that a LAUNCH which waits for its die keeps
the place that it took when the rotation reached it (log 102). -/
def Obligations.LaunchRows : Prop :=
  (∀ (s : State) (q : Nat) (h : Word),
    let v := s.queue q
    let arg (j : Nat) : Word := (s.packetDword v j).getD 0
    let next (n : Nat) : Nat := (v.rptr + n) % 2 ^ v.logsize
    let passes (t : State) (n : Nat) : Prop := t.mem = s.mem.writeN (v.qcb + 24) 8 (BitVec.ofNat 64 (next n)).toNat ∧ (t.queue q).rptr = next n ∧ (t.queue q).waiting = 0 ∧
      t.procs = s.procs ∧ t.luTurn = q + 1
    s.luNext = some q → v.frames = [] → v.loop = none →
      (∀ c, s.luTodo q = .halt c → ∃ t, exec (.nopPacket q) s = .next t ∧ (t.queue q).halted = true ∧ (t.queue q).code = c ∧ v.vec ∈ t.raised) ∧
      (s.luTodo q = .packet h →
        (pkOp h = 0 → ∃ t, exec (.nopPacket q) s = .next t ∧ passes t (8 * pkLen h)) ∧
        (pkOp h = 1 → ∀ c, (s.fetchPacket q (8 * pkLen h)).pickTarget q = .target c →
          ∃ t, exec (.launch q) s = .next t ∧ t.mem = s.mem ∧ (t.queue q).waiting = 3 ∧ (t.queue q).target = c ∧ (t.queue q).rptr = v.rptr) ∧
        (pkOp h = 2 → (arg 1).toNat % 8 = 0 → s.luAddr (arg 1).toNat = true → ∀ x, s.luDword (arg 1).toNat = some x →
          let y := (x &&& arg 3).toNat
          let holds : Prop := (h.toNat % 4 = 0 ∧ y = (arg 2).toNat) ∨ (h.toNat % 4 = 1 ∧ y ≠ (arg 2).toNat) ∨ (h.toNat % 4 = 2 ∧ (arg 2).toNat ≤ y) ∨ (h.toNat % 4 = 3 ∧ y < (arg 2).toNat)
          (holds → ∃ t, exec (.wait q) s = .next t ∧ passes t 32) ∧
          (¬ holds → ∃ t, exec (.wait q) s = .next t ∧ t.mem = s.mem ∧ (t.queue q).waiting = 1 ∧ (t.queue q).rptr = v.rptr)) ∧
        (pkOp h = 3 → (arg 1).toNat % 8 = 0 → s.luAddr (arg 1).toNat = true →
          ∃ t, exec (.release q) s = .next t ∧ t.mem = s.mem ∧ (t.queue q).waiting = 2 ∧ (t.queue q).rptr = v.rptr) ∧
        (pkOp h = 4 → (arg 1).toNat % 8 = 0 → s.luAddr (arg 1).toNat = true → (arg 2).toNat % 8 = 0 → arg 2 ≠ 0 →
          ∃ t, exec (.indirect q) s = .next t ∧ t.mem = s.mem ∧ (t.queue q).frames = [((arg 1).toNat, (arg 1).toNat + (arg 2).toNat)]) ∧
        (pkOp h = 5 → ∃ t, exec (.loop q) s = .next t ∧ (t.queue q).loop = some (0, next 8, h.toNat % 2 ^ 8, h.toNat % 2 ^ 8, h.toNat / 2 ^ 8 % 2 ^ 16) ∧ (t.queue q).rptr = next 8) ∧
        (pkOp h = 6 → ∃ t, exec (.fetchfence q) s = .next t ∧ passes t 8 ∧ (t.queue q).ahead = []))) ∧
  (∀ (s : State) (q : Nat),
    let v := s.queue q
    let arg (j : Nat) : Word := (s.packetDword v j).getD 0
    let next (n : Nat) : Nat := (v.rptr + n) % 2 ^ v.logsize
    v.frames = [] → v.loop = none →
      (v.waiting = 1 → ∀ x, s.luDword (arg 1).toNat = some x → (arg 0).toNat % 4 = 0 → x &&& arg 3 = arg 2 →
        ∃ t, exec (.waitPoll q) s = .next t ∧ t.mem = s.mem.writeN (v.qcb + 24) 8 (BitVec.ofNat 64 (next 32)).toNat ∧ (t.queue q).rptr = next 32 ∧ (t.queue q).waiting = 0) ∧
      (v.waiting = 2 → (∀ f ∈ s.flights, f.queue ≠ q) → s.migs = [] → s.lendsHbm = [] →
        ∃ t, exec (.releasePerform q) s = .next t ∧ (t.queue q).rptr = next 24 ∧ (t.queue q).waiting = 0 ∧
          t.mem = (s.mem.writeN (arg 1).toNat 8 (arg 2).toNat).writeN (v.qcb + 24) 8 (BitVec.ofNat 64 (next 24)).toNat) ∧
      (∀ i l, v.waiting = 3 → (s.core v.target).inboxFree v.target = i :: l → s.flights.length < 4096 →
        (∀ f ∈ s.flights, f.clashes v.tenant (recBytes (s.launchRecord q)) = false) → s.launchBefore q = false → (s.die (dieOfCore v.target)).inService = true →
        ∃ t f b, exec (.launchRecordWrite q) s = .next t ∧ t.flights = s.flights ++ [f] ∧ f.queue = q ∧ f.core = v.target ∧ f.asid = v.tenant ∧ (t.queue q).waiting = 0 ∧
          (t.core v.target).inbox.find? (fun e => decide (e.1 = i)) = some (i, b) ∧ b.event = false ∧ b.task = f.id ∧ b.record.length = 8 ∧
          (v.tenant < 2 ^ 6 → recAsid b.record = v.tenant) ∧ ∀ j < 7, b.record.getD (j + 1) 0 = arg (j + 2)) ∧
      (v.waiting = 3 → s.launchBefore q = true → exec (.launchRecordWrite q) s = .next s)) ∧
  (∀ (s : State) (q : Nat) (x : Word),
    let v := s.queue q
    v.armed = true → v.halted = false → s.luDword (v.qcb + 16) = some x → x.toNat < 2 ^ 32 →
      (x.toNat % 8 = 0 → x.toNat < 2 ^ v.logsize → v.waiting ≠ 1 → exec (.doorbell q) s = .next (s.setQueue q { v with wptr := x.toNat })) ∧
      ((x.toNat % 8 ≠ 0 ∨ 2 ^ v.logsize ≤ x.toNat) → ∃ t, exec (.doorbell q) s = .next t ∧ (t.queue q).halted = true ∧ (t.queue q).code = 7 ∧ v.vec ∈ t.raised)) ∧
  (∀ (s : State) (v d0 d1 : Word),
    let q := v.toNat / 2 ^ 56 % 2 ^ 8
    let qcb := v.toNat % 2 ^ 56
    (s.queue q).inProgress = false → qcb % 64 = 0 → s.luDword qcb = some d0 → s.luDword (qcb + 8) = some d1 →
      (d0.toNat % 2 ^ 5 = 0 → ∃ t, exec (.luarm v) s = .next t ∧ t.mem = s.mem ∧ t.luarm = 0 ∧ (t.queue q).armed = false) ∧
      (qcbReserved d0 d1 = false → 12 ≤ d0.toNat % 2 ^ 5 → d0.toNat % 2 ^ 5 ≤ 20 → (placeOf (d0.toNat / 2 ^ 12 % 2 ^ 40 * 2 ^ 12) = .host ∨ placeOf (d0.toNat / 2 ^ 12 % 2 ^ 40 * 2 ^ 12) = .hbm) →
        d1.toNat / 2 ^ 24 % 2 ^ 4 ≠ 0 →
        d1.toNat / 2 ^ 2 % 2 ^ 6 = d1.toNat / 2 ^ 8 % 2 ^ 6 →
        ∃ t, exec (.luarm v) s = .next t ∧ t.luarm = 1 ∧ (t.queue q).armed = true ∧ (t.queue q).qcb = qcb ∧ (t.queue q).base = d0.toNat / 2 ^ 12 % 2 ^ 40 * 2 ^ 12 ∧
          (t.queue q).logsize = d0.toNat % 2 ^ 5 ∧ (t.queue q).rptr = 0)) ∧
  (∀ (s : State) (v : Word) (i : Nat), (∀ e ∈ s.procs, e.2.ahead = none) → i < 384 → v.getLsbD 14 = false → (v.getLsbD 11 = true ∨ v.toNat % 2 ^ 9 = i) →
    let c := v.toNat / 2 ^ 12 % 2 ^ 2 * 384 + i
    ∃ t, exec (.lupreempt v) s = .next t ∧ t.mem = s.mem ∧ t.procs = s.procs ∧
      (if v.getLsbD 10 then (t.core c).halted = false ∧ (t.core c).halting = false else (t.core c).halted = true ∨ (t.core c).halting = true)) ∧
  (∀ (s : State) (id task : Nat) (from_ : Src) (to_ : Home) (h : Bool), s.inTurn id = some ⟨id, from_, to_, .exited task, none, h⟩ →
    exec (.taskExitReport id) s = .next { s with net := s.net.filter (fun m => m.id != id), flights := s.flights.filter (fun f => f.id != task) })

/-- R72, R250, R304, R315, R330 to R335: a mailbox command in progress completes with DONE, its RESULT and its TAG; boot stages are measured, and boot halts when both copies fail; dies enter
service, die 0 first, once boot has passed; full service raises the clock; reset and loss of power keep flash and take the next incarnation number; a register without a row of its own takes the
fields that a write gives it. The model's choices here: memory empty after a reset, and copy A tried first (logs 1 and 61), PHASE held at 0 until full service (log 27), any MODID and PHASE taken (log 34),
what counts as being in time with the master (log 121), and that the configuration record is verified, and then signed, at stage 1 (log 118). -/
def Obligations.FireflyRows : Prop :=
  (∀ (s : State),
    let done (t : State) (result : Nat) : Prop := t.mem = s.mem ∧ t.procs = s.procs ∧ t.cores = s.cores ∧ t.mbStat = BitVec.ofNat 64 (s.mbCmd.toNat / 2 ^ 48 * 2 ^ 48 + 2 ^ 16 + result * 2 ^ 8)
    let cmd := s.mbCmd.toNat % 2 ^ 16
    let a (i : Nat) : Word := s.mbArg.get 0 i
    s.mbStat.getLsbD 17 = true →
      (cmd = 1 → ∃ t, exec .evready s = .next t ∧ done t 0 ∧
        ∀ d < 4, (s.die d).inService = true → (t.die d).evEn = ((s.die d).evEn || (a 0).getLsbD d)) ∧
      (cmd = 2 → ∃ t, exec .sensors s = .next t ∧ done t 0 ∧ (t.mbArg.get 0 0).toNat ≤ 240) ∧
      (cmd = 3 → ∃ t, exec .errlog s = .next t ∧ done t 0 ∧ t.mbArg.get 0 0 = BitVec.ofNat 64 (min 120 (s.errlog.length - (a 0).toNat)) ∧
        t.mbArg.get 0 1 = BitVec.ofNat 64 s.errlog.length) ∧
      (cmd = 4 → (a 1).toNat ≤ 3840 → (a 2).getLsbD 0 = false → ∃ t, exec .update s = .next t ∧ done t 0 ∧
        t.unusedB = true ∧ ∀ i < (a 1).toNat, t.imageB.getD ((a 0).toNat + i) 0 = s.mbData.get 0 i) ∧
      (cmd = 4 → (a 1).toNat ≤ 3840 → (a 2).getLsbD 0 = true → ∃ t, exec .update s = .next t ∧ t.mem = s.mem ∧
        (∀ i < (a 1).toNat, t.imageB.getD ((a 0).toNat + i) 0 = s.mbData.get 0 i) ∧
        ((∀ k < 8, imageGood k t.imageB = true) → done t 0 ∧ t.updateOk = true ∧ t.unusedB = false) ∧
        ((∃ k < 8, imageGood k t.imageB = false) → done t 3 ∧ t.updateOk = false ∧ t.unusedB = true)) ∧
      (cmd = 4 → 3840 < (a 1).toNat → ∃ t, exec .update s = .next t ∧ done t 2 ∧ t.imageB = s.imageB) ∧
      (cmd = 5 → (a 0).toNat ≤ 3840 → ∃ t, exec .spdm s = .next t ∧ done t 0) ∧ (cmd = 5 → 3840 < (a 0).toNat → ∃ t, exec .spdm s = .next t ∧ done t 2) ∧
      (cmd = 6 → ∃ t, exec .measure s = .next t ∧ done t 0 ∧ t.mbArg.get 0 0 = BitVec.ofNat 64 (s.measures.length + 1)) ∧
      ((cmd = 0 ∨ 6 < cmd) → ∃ t, exec .mailboxUnknownCommand s = .next t ∧ done t 1)) ∧
  (∀ (s : State),
    let fresh (t : State) : Prop := t.mem = [] ∧ t.flash = s.flash ∧ t.procs = [] ∧ t.cores = [] ∧ t.dies = [] ∧ t.phase = 0 ∧ t.modid = 127 ∧ t.dtime = 0 ∧
      t.incarn = s.storedIncarn + 1 ∧ t.storedIncarn = s.storedIncarn + 1 ∧ t.fullService = false ∧ t.bootStage = 0
    (∃ t, exec .moduleReset s = .next t ∧ fresh t) ∧ (∃ t, exec .powerLoss s = .next t ∧ fresh t)) ∧
  (∀ (s : State) (stage : Nat), s.bootHalted = false → s.bootStage = stage →
    let good (x : List Byte) := imageGood stage x
    let first := if s.unusedB = false ∧ s.updateOk = true then s.imageB else s.imageA
    let second := if s.unusedB = false ∧ s.updateOk = true then s.imageA else s.imageB
    let halted := exec (.bootStage stage) s = .next { s with bootHalted := true, reports := s.reports ++ [stage] }
    let taken (x : List Byte) := exec (.bootStage stage) s = .next { s with
      measures := s.measures ++ [sha3 (Config.stageImage stage x)], bootStage := stage + 1, signer := if stage = 1 then .identity else s.signer }
    (stage = 1 → s.signer = .other → halted) ∧
    ((stage = 1 → s.signer ≠ .other) → (good first = true → taken first) ∧ (good first = false → s.unusedB = false → good second = true → taken second) ∧
      (good first = false → (s.unusedB = true ∨ good second = false) → halted))) ∧
  (∀ (s : State) (die : Nat), (s.bootHalted = true ∨ s.bootStage ≠ 8) → exec (.dieEnterService die) s = .next s ∧ exec .fullService s = .next s) ∧
  (∀ (s : State) (die : Nat), s.bootHalted = false → s.bootStage = 8 → (s.die die).inService = false →
    (die ≠ 0 → (s.die 0).inService = false → exec (.dieEnterService die) s = .next s) ∧
    ((die = 0 ∨ (s.die 0).inService = true) → ∃ t, exec (.dieEnterService die) s = .next t ∧ t.mem = s.mem ∧ (t.die die).inService = true ∧
      (t.die die).evEn = ((s.die die).evEn || decide (s.evready / 2 ^ die % 2 = 1)))) ∧
  (∀ (s : State), s.bootHalted = false → s.bootStage = 8 → s.fullService = false → (∀ d < 4, (s.die d).inService = true) → ∃ t, exec .fullService s = .next t ∧
    t.fullService = true ∧ t.mem = s.mem ∧ ((∀ e ∈ s.procs, e.2.ahead = none) → t.procs = s.procs)) ∧
  (∀ (s : State) (unit cause addr : Nat), exec (.correctedError unit cause addr) s = .next { s with errlog := s.errlog ++ [⟨unit, cause, addr, s.dtime⟩] }) ∧
  (∀ (s : State) (die core : Nat) (v : Word),
    let writes (n : Nat) (P : State → Prop) : Prop := ∃ t, exec (.controlRegisterWrite die core n v) s = .next t ∧ t.mem = s.mem ∧ t.procs = s.procs ∧ P t
    writes 0x040 (fun t => (t.core core).taskFirst = v.toNat % 2 ^ 11 ∧ (t.core core).taskCount = v.toNat / 2 ^ 11 % 2 ^ 8) ∧
    writes 0x048 (fun t => (t.core core).gsFirst = v.toNat % 2 ^ 11 ∧ (t.core core).gsEn = v.getLsbD 11) ∧
    writes 0x100 (fun t => (t.die die).evEn = v.getLsbD 0 ∧ (t.die die).evAsid = v.toNat / 2 % 2 ^ 6) ∧
    (∀ k, 1 ≤ k → k < 16 → writes (0x100 + k) (fun t => (t.die die).evvec.get 0 k = v)) ∧
    writes 0x110 (fun t => (t.die die).dlWait = v.toNat % 2 ^ 32) ∧ writes 0x111 (fun t => (t.die die).tadmit = v.toNat % 2 ^ 10) ∧
    writes 0x120 (fun t => (t.die die).migEn = v.getLsbD 0 ∧ (t.die die).migThresh = v.toNat / 2 ^ 8 % 2 ^ 8 ∧ (t.die die).migWindow = v.toNat / 2 ^ 16 % 2 ^ 32) ∧
    (∀ phase, phase = v.toNat / 2 ^ 18 % 2 ^ 2 → writes 0x130 (fun t => t.modid = (if s.phase = 0 then v.toNat % 2 ^ 7 else s.modid) ∧ t.phase = (if s.phase = 0 ∧ (s.fullService = false ∨ s.inTime (v.toNat % 2 ^ 7) = false) then 0 else phase) ∧
      (s.phase = 0 → phase ≠ 0 → s.fullService = true → s.inTime (v.toNat % 2 ^ 7) = true → t.timeHold = 0 ∧ t.drift = -(s.timeHold : Int)))) ∧
    writes 0x140 (fun t => t.rgnIdx = v.toNat % 2 ^ 8) ∧
    (∀ k < 64, writes (0x180 + k) (fun t => (t.die die).asroot.get 0 k = v &&& 0xFFFFFFFFF0001#64) ∧ writes (0x1C0 + k) (fun t => t.askey.get 0 k = v.setWidth 32) ∧
      writes (0x200 + k) (fun t => (t.die die).asrate.get 0 k = v &&& 0xFFFFFFFFFFFF#64)))

/-- R33, R36, R38, R64, R71, R79, R86, R121, R128, R212, R224, R227, R250, R255, R259, R267, R285, R286, R288, R299, R307, R328: what reset leaves, by the values that these rules give; and by the model's choice every dword of a descriptor 0, where the rules give STATUS alone (logs 1 and 3), and memory and flash in canonical form (log 1). -/
def Obligations.ResetState : Prop :=
  let s := State.reset
  (∀ c, (s.core c).partition = 1 ∧ (s.core c).hold = false ∧ (∀ i, s.tag c i = .empty ∧ (s.core c).holder i = none) ∧ (∀ a, (s.acc c a).tag = .empty ∧ (s.acc c a).ovf = false ∧
    (s.acc c a).mm = false ∧ (s.acc c a).ecce = false ∧ (s.acc c a).mmstep = 0 ∧ (s.acc c a).anchor = 0) ∧ (∀ i, (s.core c).tables.get 0 i = 0) ∧
    (∀ i, (s.ep c i).state = 0 ∧ (s.ep c i).gen = 1) ∧ (∀ i, ((s.core c).marks.get Mark.free i).gen = 1) ∧ (s.core c).tileq = [] ∧ (s.core c).queues = [[], [], [], []] ∧
    (s.core c).slots = [] ∧ (s.core c).tlb = []) ∧
  (∀ pk, (s.proc pk).state = .free ∧ (s.proc pk).desc = List.replicate 32 0 ∧ (s.proc pk).r.flags = 0x40 ∧ (s.proc pk).r.ctl.trapv = 0 ∧ (s.proc pk).r.ctl.ckptv = 0 ∧
    (s.proc pk).r.ctl.trappc = 0 ∧ (s.proc pk).r.ctl.trapinfo = 0 ∧ (s.proc pk).r.ctl.timeout = 0 ∧ (s.proc pk).r.ctl.synclim = 4096 ∧ (s.proc pk).r.ctl.dbias = 0 ∧
    (s.proc pk).r.ctl.dmult = 0 ∧ (s.proc pk).r.ctl.dtable = 0 ∧ (s.proc pk).r.ctl.dabs = 0 ∧ (s.proc pk).r.ctl.dfmt = 0) ∧
  (∀ d, (s.die d).evEn = false ∧ (s.die d).queue = [] ∧ (s.die d).dlWait = 1000000 ∧ (s.die d).tadmit = 0 ∧ (s.die d).migWindow = 1000000 ∧ (s.die d).migThresh = 64 ∧
    (s.die d).migEn = true ∧ (s.die d).pgnote = 0 ∧ (s.die d).haltReg = 0 ∧ (∀ i, (s.die d).asroot.get 0 i = 0 ∧ (s.die d).asrate.get 0 i = 0) ∧
    ∀ i, ((s.die d).groups.get Group.free i).state = 0) ∧
  s.dtime = 0 ∧ s.phase = 0 ∧ s.modid = 127 ∧ s.stale = 0 ∧ s.partLo = 0 ∧ s.partHi = 0 ∧ (∀ i, s.region i = ⟨0, 0, 0⟩ ∧ s.askey.get 0 i = 0) ∧
  (∀ i, s.fltenq.get 0 i = 0 ∧ s.fltchan.get 0 i = 0) ∧ s.net = [] ∧ s.held = [] ∧ s.mem.wf = true ∧ s.flash.wf = true

/-- The premise of `StepKeepsPortsClear` holds at reset (R251). -/
def Obligations.ResetPortsClear : Prop := Safety.portsClear State.reset

/-- R6: after every step, whatever it was, memory and flash are in their canonical form again, addresses strictly rising and no byte 0: equal contents are equal data
(the form is the model's, log 1) -/
def Obligations.StepKeepsMemoryForm : Prop :=
  ∀ s t : State, s.mem.wf = true → s.flash.wf = true → Safety.steps s t → t.mem.wf = true ∧ t.flash.wf = true

/-- R251: after every step, whatever it was, no message on the module's own net is addressed to another module: it stands at the ports, and leaves by them alone. -/
def Obligations.StepKeepsPortsClear : Prop :=
  ∀ s t : State, Safety.portsClear s → Safety.steps s t → Safety.portsClear t

/-- R5, R39, R41, R42, R166, R167, R249, R298, R305: a step that is a process's turn. The word at its pc is the one its core holds, or the four bytes at the translated address, or the word that it has begun; a word that decodes runs as exec
of that instruction, followed by what every step ends with; a pending trap is taken instead, a run ahead of a fault goes on, and so does an EXIT. The plan, the turn and the pace of a step are the model's own (log 4);
that a word in progress is not fetched again is its reading of R5 (log 123). -/
def Obligations.StepRunsDecoded : Prop :=
  ∀ (s : State) (pk : Nat) (rest : List Move), s.plan = .issue pk :: rest → pk < 1536 * 256 →
    let s0 : State := { s with plan := rest, turn := pk }
    let p := s0.proc pk
    s0.mayRun pk = true → p.multi = none →
      (∀ x, p.pend = some x → step s = .next ((if x.cause = .page ∧ p.priv = false ∧ p.batch = none then s0.startAhead pk x else s0.trap pk x p.pc).close s0.pace)) ∧
      (p.pend = none →
        (∀ a, p.ahead = some a → step s = .next ((s0.aheadGo pk a).close s0.pace)) ∧
        (p.ahead = none →
          (p.ending ≠ 0 → step s = .next (((s0.exitStep pk)).close s0.pace)) ∧
          (p.ending = 0 →
            let runs (s1 : State) (w : Word32) : Prop :=
              (∀ i, (guardOf w.toNat).never = false → decode w = .ok i → step s = (match exec i s1 with
                | .next t => .next (((t.afterWord pk w).multiBlock pk).close s0.pace)
                | .fault f => .fault f
                | .refused x => .refused x)) ∧
              ((guardOf w.toNat).never = true → p.mayIssue false false = true → s0.entering pk = false →
                step s = .next ((if p.transferred then (s1.count pk).trap pk ⟨.illegal, w.setWidth 64, 0, 0⟩ p.pc else s1.setProc pk p.pass).close s0.pace)) ∧
              (∀ e, (guardOf w.toNat).never = false → decode w = .error e → p.mayIssue false false = true → s0.entering pk = false →
                step s = .next (((s1.count pk).trap pk ⟨.illegal, w.setWidth 64, 0, 0⟩ p.pc).close s0.pace))
            (∀ w, p.begun = true → p.cur = some w → runs s0 w) ∧
            (∀ pa u, p.begun = false → s0.xlate (s0.ctxOf pk) .x p.pc.toNat = .ok pa u → (placeOf (paLocal pa) = .hbm ∨ placeOf (paLocal pa) = .host) →
              s0.isHere pa = true → s0.migrating (paLocal pa) = false → s0.hurt (paLocal pa) 4 = false →
              let w : Word32 := match (s0.core (coreOf pk)).ibuf.find? (fun e => decide (e.1 = pa)) with
                | some e => e.2
                | none => BitVec.ofNat 32 (s0.mem.readN (paLocal pa) 4)
              runs (s0.keepWord (coreOf pk) pa w) w))))

/-- The words that the spec writes out, one or more of every family, are the instructions that it says they are. -/
def Obligations.DecodeWords : Prop :=
  let g : Guard := ⟨false, 0⟩
  let is (w : Word32) (i : Instr) : Prop := decode w = .ok i
  is 0x00030420 (.add ⟨g, 3, 1, 2⟩) ∧ is 0x00431052 (.mulhu ⟨g, 3, 4, 5⟩) ∧ is 0x1008008F (.subs ⟨⟨false, 1⟩, 8, 0, 8⟩) ∧ is 0x01820D0C (.shri ⟨g, 2, 3, 12⟩) ∧
  is 0x01C500F0 (.imm ⟨g, 5, 0xF0⟩) ∧ is 0x02050040 (.immh ⟨g, 5, 0x40⟩) ∧ is 0x024A0C42 (.cmplt ⟨g, 1, 2, 3, 4⟩) ∧ is 0x028A2080 (.cmplti ⟨g, 1, 2, 8, 0⟩) ∧
  is 0x02E14C00 (.pandn ⟨g, 4, 1, 2⟩) ∧ is 0x030A0C45 (.fcmplt ⟨g, 1, 2, 3, 4, .f16⟩) ∧ is 0x03461C83 (.fma ⟨g, 6, 7, 8, .f32⟩) ∧ is 0x03C20C04 (.fcvtsi ⟨g, 2, 3⟩) ∧
  is 0x343FFFF9 (.br ⟨⟨false, 3⟩, 0x3FFFF9⟩) ∧ is 0x044F0002 (.jal ⟨g, 15, 2⟩) ∧ is 0x04803C00 (.jr ⟨g, 0, 15⟩) ∧ is 0xB5091083 (.ldh ⟨⟨true, 3⟩, 9, 4, 2, 3⟩) ∧
  is 0x060210FE (.ldhu ⟨g, 2, 4, 3, 0x3E⟩) ∧ is 0x0706240A (.stw ⟨g, 6, 9, 10⟩) ∧ is 0x07891008 (.ldx ⟨g, 9, 4, 0, 8⟩) ∧ is 0x08071008 (.stx ⟨g, 7, 4, 8⟩) ∧
  is 0x08461052 (.tqry ⟨g, 6, 4, 5⟩) ∧ is 0x084010A1 (.tfull ⟨g, 4, 10⟩) ∧ is 0x094A4600 (.vrsum ⟨g, 5, 4, .f16, 0⟩) ∧ is 0x09842810 (.vbcast ⟨g, 2, 5, .b16⟩) ∧
  is 0x098A3011 (.vext ⟨g, 5, 6, 0, .b16⟩) ∧ is 0x09C22194 (.vperm ⟨g, 1, 2, 3, 1, .b8⟩) ∧ is 0x0A194C00 (.qandn ⟨g, 3, 1, 2⟩) ∧ is 0x0A411100 (.fence ⟨g, 1, 4, .pkg⟩) ∧
  is 0x0C02218F (.vadds ⟨g, .b8, 1, 2, 3, 0⟩) ∧ is 0x0CC43210 (.vaddF16 ⟨g, 2, 3, 4, 1⟩) ∧ is 0x0D4E502D (.vrsqF32 ⟨g, 7, 5, 2⟩) ∧ is 0x0D8A192A (.vcmplt ⟨g, 1, 2, 3, 4, .f32⟩) ∧
  is 0x0DCC378A (.vcvt ⟨g, 6, 3, .e4m3, .f16, .rtz, 2⟩) ∧ is 0x0E022131 (.vld ⟨g, 1, 4, 2, 3, 1⟩) ∧ is 0x0E46493E (.vst ⟨g, 3, 9, .rtz, 1, 0x1E⟩) ∧
  is 0x0F041881 (.copy ⟨g, 4, 6, 2, 1⟩) ∧ is 0x0F021070 (.fetchin ⟨g, 2, 4, 1, 0⟩) ∧ is 0x0F440800 (.mkch ⟨g, 4, 2, 0⟩) ∧ is 0x0F451C0D (.probe ⟨g, 5, 7, 0⟩) ∧
  is 0x0F440001 (.close ⟨g, 4, 0⟩) ∧ is 0x0F851810 (.gopen ⟨g, 5, 6⟩) ∧ is 0x0F850011 (.gfree ⟨g, 5⟩) ∧ is 0x0F800007 (.exit g) ∧
  decode 0xFFFFFFFF = .error .reservedMajor

/-- R39, R48, R51: the word of every well-formed instruction decodes to it, with every operand at every value that its field admits; and a word that decodes is the word of its
instruction, so no bit of it is left out. -/
def Obligations.DecodeEncode : Prop :=
  (∀ (i : Instr) (w : Word32), i.wellFormed = true → encode i = some w → decode w = .ok i) ∧
  (∀ (i : Instr) (w : Word32), decode w = .ok i → i.wellFormed = true ∧ encode i = some w)

/-- R40, R41, R44, R315: the rules of issue. A word whose guard is false passes and does nothing else, unless its process may not run it or it names registers beyond the
allotment, or is a CTLR or CTLW of a reserved number, which trap whatever the guard; a privileged word traps PRIV in an unprivileged process; a closed window, or a fifth long-latency word, waits; a struck source traps ECC. -/
def Obligations.IssueRules : Prop :=
  (∀ (w : Word32) (i : Instr) (s : State),
    let p := s.proc s.turn
    let trapped (c : Cause) := exec i s = .next ((s.count s.turn).trap s.turn ⟨c, w.setWidth 64, 0, 0⟩ p.pc)
    decode w = .ok i → (guardOf w.toNat).never = false → p.r.guard (guardOf w.toNat) = false → p.mayIssue false false = true → s.entering s.turn = false → p.midWord = false →
      exec i s = .next (s.setProc s.turn p.pass) ∨ trapped .regallot ∨ (p.priv = false ∧ trapped .priv) ∨ (((∃ o, i = .ctlr o) ∨ ∃ o, i = .ctlw o) ∧ trapped .illegal)) ∧
  (∀ (w : Word32) (i : Instr) (s : State), (∃ o, i = .halt o) ∨ (∃ o, i = .tlbinv o) ∨ (∃ o, i = .repart o) ∨ (∃ o, i = .qarm o) ∨ (∃ o, i = .streamres o) ∨
      (∃ o, i = .flushout o) ∨ (∃ o, i = .fetchin o) →
    decode w = .ok i → (guardOf w.toNat).never = false → (s.proc s.turn).priv = false → (s.proc s.turn).outs = [] →
      s.entering s.turn = false → (s.proc s.turn).midWord = false →
      exec i s = .next ((s.count s.turn).trap s.turn ⟨.priv, w.setWidth 64, 0, 0⟩ (s.proc s.turn).pc)) ∧
  (∀ (o : RRR) (s : State),
    let p := s.proc s.turn
    let trapped (x : Trap) := exec (.add o) s = .next ((s.count s.turn).trap s.turn x p.pc)
    o.gu.never = false →
      ((∃ e ∈ p.outs, e.issued = e.l) → (s.core (coreOf s.turn)).tileq = [] → p.multi = none → exec (.add o) s = .next s) ∧
      (p.mayIssue false false = true → s.entering s.turn = false → p.midWord = false →
        (¬ Safety.Allotted (infoRRR o 0).gs [] (s.core (coreOf s.turn)).partition → ∀ w, encode (.add o) = some w → trapped ⟨.regallot, w.setWidth 64, 0, 0⟩) ∧
        (Safety.Allotted (infoRRR o 0).gs [] (s.core (coreOf s.turn)).partition → p.r.guard o.gu = true → (0, o.a.toNat) ∈ p.struck →
          trapped ⟨.ecc, BitVec.ofNat 64 (2 ^ 63 + o.a.toNat), 0, 0⟩))) ∧
  (∀ (o : LD) (s : State),
    let p := s.proc s.turn
    o.gu.never = false → p.r.guard o.gu = true → 4 ≤ p.outs.length → (s.core (coreOf s.turn)).tileq = [] → p.multi = none →
      exec (.ldd o) s = .next (if p.fifth = none ∧ (∀ e ∈ p.outs, e.issued ≠ e.l) then s.setProc s.turn { p with fifth := p.outs.head?.map (·.id) } else s))

/-- R298, R300, R301, R302: taking a trap writes the pc, the cause and its information and goes to TRAPV; QUIESCE goes to CKPTV and inside a handler sets NEST (that the word
at CKPTV counts as one that control was transferred to, as the one at TRAPV does, is the model's choice, log 70); a trap that is not delivered, inside a handler or
with no handler, ends the process with a record of KIND 9. -/
def Obligations.TrapEntry : Prop :=
  (∀ (s : State) (pk : Nat) (x : Trap) (pc : Word),
    let p := s.proc pk
    let c := p.r.ctl
    let d := dieOfCore (coreOf pk)
    let entered (v : Word) : Prop := (s.trap pk x pc).proc pk = { p with
      r := { p.r with ctl := { c with code := x.cause.code, inh := true, nest := c.inh, trappc := pc &&& 0x00FFFFFFFFFFFFFC#64, trapinfo := x.info } }
      pc := v, transferred := true, pend := none, batch := none, fifth := none, prog := 0, buf := [], polls := none, base := none, seen := [], walked := none, cur := none, ahead := none } ∧ (s.trap pk x pc).mem = s.mem ∧ ∀ k, k ≠ pk → (s.trap pk x pc).proc k = s.proc k
    let ended (reason : Nat) : Prop := ((s.trap pk x pc).proc pk).ending = 1 ∧ ((s.trap pk x pc).proc pk).r = p.r ∧ (s.trap pk x pc).mem = s.mem ∧
      ((s.die d).posting = [] → (s.die d).queue.length < 256 → ((s.trap pk x pc).die d).queue = (s.die d).queue ++
        [[BitVec.ofNat 64 (9 * 2 ^ 56 + (s.die d).seq.toNat * 2 ^ 48 + p.asid * 2 ^ 26 + s.originWord pk), BitVec.ofNat 64 (x.cause.code.toNat + reason * 2 ^ 8),
          pc &&& 0x00FFFFFFFFFFFFFC#64, x.info, 0, 0, 0, 0]])
    (x.cause ≠ .quiesce → c.inh = false → c.trapv ≠ 0 → entered c.trapv) ∧ (x.cause = .quiesce → c.ckptv ≠ 0 → entered c.ckptv) ∧
    (x.cause ≠ .quiesce → c.inh = true → ended 2) ∧ (x.cause ≠ .quiesce → c.inh = false → c.trapv = 0 → ended 1) ∧ (x.cause = .quiesce → c.ckptv = 0 → ended 1)) ∧
  ([Cause.illegal, .regallot, .priv, .misalign, .shapeAlign, .copyAlign, .page, .prot, .syncLimit, .tileMismatch, .groupBusy, .groupInvalid, .chanType, .chanTimeout, .handle, .ecc,
    .soft, .quiesce, .repartBusy, .remoteKey].map Cause.code = (List.range 20).map (fun i => BitVec.ofNat 8 (i + 1)))

/-- R32, R36, R43, R58, R169, R170, R190, R214: the frame of the words that hand their work to memory, to the tile queue or to the copy unit. Whatever happens at issue, a trap among it, no byte of memory or flash and no
other process changes; g, p, v, q and shape registers stay; so do the flags, but that VLD clears VCLEAN and a store through a conversion window raises its flags; and every control register but those that a
trap writes. -/
def Obligations.FrameOfHandingWords : Prop :=
  let frame (i : Instr) (flags : Flags → Flags → Prop) : Prop := ∀ s t : State, (s.proc s.turn).state = .running → exec i s = .next t →
    let r := (s.proc s.turn).r
    let x := (t.proc s.turn).r
    t.mem = s.mem ∧ t.flash = s.flash ∧ (∀ k, k ≠ s.turn → t.proc k = s.proc k) ∧ x.g = r.g ∧ x.p = r.p ∧ x.v = r.v ∧ x.q = r.q ∧ x.sh = r.sh ∧ flags r.flags x.flags ∧
      { x.ctl with code := r.ctl.code, inh := r.ctl.inh, nest := r.ctl.nest, trappc := r.ctl.trappc, trapinfo := r.ctl.trapinfo } = r.ctl
  let same (a b : Flags) : Prop := b = a
  let raised (a b : Flags) : Prop := ∀ i, a.getLsbD i = true → b.getLsbD i = true
  let cleared (a b : Flags) : Prop := b = a ∨ b = a &&& ~~~fVCLEAN
  (∀ o : LD, ∀ i ∈ [Instr.ldb o, .ldh o, .ldw o, .ldd o, .ldbu o, .ldhu o, .ldwu o, .ldx o, .ldp o], frame i same) ∧
  (∀ o : ST, ∀ i ∈ [Instr.stb o, .sth o, .stw o, .std o], frame i raised) ∧ (∀ o : ST, frame (.stx o) same) ∧
  (∀ o : LA, frame (.lda o) same) ∧ (∀ o : SL, frame (.stl o) same) ∧
  (∀ o : RRR, ∀ i ∈ [Instr.amoadd o, .amosmin o, .amosmax o, .amoumin o, .amoumax o, .amoand o, .amoor o, .amoxor o, .amoswap o, .amocas o], frame i same) ∧
  (∀ o : VL, frame (.vld o) cleared) ∧ (∀ o : VS, frame (.vst o) raised) ∧ (∀ o : MM, frame (.mma o) same) ∧ (∀ o : T1, frame (.acz o) same) ∧
  (∀ o : T2, ∀ i ∈ [Instr.drain o, .table o, .rowsum o, .colsum o, .pack o, .unpack o, .aread o], frame i same) ∧
  (∀ o : TC, ∀ i ∈ [Instr.copy o, .copys o, .copya o, .mcast o, .redg o], frame i same)
end

