-- ==== Sys2Proof/Laws/Memory.lean ====
section
/-! SUPPORT. Tables and memory: what a read gives after a write, and that every write keeps the canonical form of memory. -/
namespace Sys2Proof.Machine

/-! ## Tables -/

theorem Table.get_set_same {α : Type} (t : Table α) (d v : α) (k : Nat) : Table.get (Table.set t k v) d k = v := by
  induction t with
  | nil => simp [Table.set, Table.get]
  | cons e r ih =>
    obtain ⟨j, w⟩ := e
    simp only [Table.set]
    split
    · simp [Table.get]
    · split
      · simp [Table.get]
      · simp only [Table.get]
        rw [if_neg (by omega)]
        exact ih

theorem Table.get_set_other {α : Type} (t : Table α) (d v : α) {j k : Nat} (h : j ≠ k) :
    Table.get (Table.set t k v) d j = Table.get t d j := by
  induction t with
  | nil => simp [Table.set, Table.get, Ne.symm h]
  | cons e r ih =>
    obtain ⟨i, w⟩ := e
    simp only [Table.set]
    split
    · simp [Table.get, Ne.symm h]
    · split
      · rename_i h1 h2
        subst h2
        simp [Table.get, Ne.symm h]
      · simp only [Table.get]
        split
        · rfl
        · exact ih

/-! ## Memory -/

theorem Memory.wf_tail {c : Host.Cell} {m : Memory} (h : Memory.wf (c :: m) = true) : Memory.wf m = true := by
  cases m with
  | nil => rfl
  | cons d r => simp only [Memory.wf, Bool.and_eq_true] at h; exact h.2
theorem Memory.wf_head {c : Host.Cell} {m : Memory} (h : Memory.wf (c :: m) = true) : c.2 ≠ 0 := by
  cases m with
  | nil => simpa [Memory.wf] using h
  | cons d r => simp only [Memory.wf, Bool.and_eq_true, bne_iff_ne] at h; exact h.1.1
/-- Every address of the list but the first lies above the first. -/
theorem Memory.wf_above {c : Host.Cell} {m : Memory} (h : Memory.wf (c :: m) = true) : ∀ d ∈ m, c.1 < d.1 := by
  induction m generalizing c with
  | nil => simp
  | cons e r ih =>
    intro d hd
    have h1 : c.1 < e.1 := by simp only [Memory.wf, Bool.and_eq_true, decide_eq_true_eq] at h; exact h.1.2
    rcases List.mem_cons.mp hd with rfl | hd
    · exact h1
    · exact Nat.lt_trans h1 (ih (Memory.wf_tail h) d hd)
theorem Memory.wf_cons {c : Host.Cell} {m : Memory} (h0 : c.2 ≠ 0) (h1 : ∀ d ∈ m, c.1 < d.1) (h2 : Memory.wf m = true) :
    Memory.wf (c :: m) = true := by
  cases m with
  | nil => simpa [Memory.wf] using h0
  | cons d r => simp only [Memory.wf, Bool.and_eq_true, bne_iff_ne, decide_eq_true_eq]; exact ⟨⟨h0, h1 d (by simp)⟩, h2⟩

theorem Memory.mem_write {m : Memory} {a : Nat} {b : Byte} {d : Host.Cell} (h : d ∈ m.write a b) : d = (a, b) ∨ d ∈ m := by
  induction m with
  | nil => unfold Memory.write at h; split at h <;> simp_all
  | cons c r ih =>
    unfold Memory.write at h
    split at h
    · split at h <;> simp_all
    · split at h
      · split at h <;> simp_all; tauto
      · rcases List.mem_cons.mp h with rfl | h
        · simp
        · rcases ih h with h | h <;> simp [h]

/-- A write keeps the canonical form. -/
theorem Memory.wf_write {m : Memory} (h : m.wf = true) (a : Nat) (b : Byte) : (m.write a b).wf = true := by
  induction m with
  | nil =>
    unfold Memory.write
    split
    · rfl
    · rename_i hb; simpa [Memory.wf] using hb
  | cons c r ih =>
    have hr := Memory.wf_tail h
    unfold Memory.write
    split
    · split
      · exact h
      · rename_i h1 hb
        refine Memory.wf_cons hb ?_ h
        intro d hd
        rcases List.mem_cons.mp hd with rfl | hd
        · exact h1
        · exact Nat.lt_trans h1 (Memory.wf_above h d hd)
    · split
      · split
        · exact hr
        · rename_i h2 hb
          refine Memory.wf_cons hb ?_ hr
          intro d hd
          have := Memory.wf_above h d hd
          simp only [h2]; exact this
      · rename_i h1 h2
        refine Memory.wf_cons (Memory.wf_head h) ?_ (ih hr)
        intro d hd
        rcases Memory.mem_write hd with rfl | hd
        · show c.1 < a; omega
        · exact Memory.wf_above h d hd
theorem Memory.wf_writeBytes (bs : List Byte) {m : Memory} (h : m.wf = true) (a : Nat) : (m.writeBytes a bs).wf = true := by
  induction bs generalizing m a with
  | nil => exact h
  | cons b r ih => exact ih (Memory.wf_write h a b) (a + 1)
theorem Memory.wf_writeN {m : Memory} (h : m.wf = true) (a n x : Nat) : (m.writeN a n x).wf = true := Memory.wf_writeBytes _ h a
theorem Memory.wf_writeMasked (ws : List (Nat × Byte × Byte)) {m : Memory} (h : m.wf = true) : (m.writeMasked ws).wf = true := by
  induction ws generalizing m with
  | nil => exact h
  | cons e r ih => exact ih (Memory.wf_write h _ _)
theorem Memory.wf_reset : State.reset.mem.wf = true ∧ State.reset.flash.wf = true := by decide

/-- A byte other than the one written reads as before. -/
theorem Memory.read_write_other (m : Memory) {x a : Nat} (b : Byte) (h : x ≠ a) : (m.write a b).read x = m.read x := by
  induction m with
  | nil => unfold Memory.write; split <;> simp [Memory.read, Ne.symm h]
  | cons c r ih =>
    unfold Memory.write
    split
    · split
      · rfl
      · simp [Memory.read, Ne.symm h]
    · split
      · rename_i h2
        split <;> simp [Memory.read, ← h2, Ne.symm h]
      · simp only [Memory.read]
        split
        · rfl
        · exact ih
theorem Memory.read_above {m : Memory} {a : Nat} (h : ∀ d ∈ m, a < d.1) : m.read a = 0 := by
  induction m with
  | nil => rfl
  | cons c r ih =>
    simp only [Memory.read]
    rw [if_neg (by have := h c (by simp); omega)]
    exact ih (fun d hd => h d (by simp [hd]))
/-- The byte written reads back. -/
theorem Memory.read_write_same {m : Memory} (h : m.wf = true) (a : Nat) (b : Byte) : (m.write a b).read a = b := by
  induction m with
  | nil => unfold Memory.write; split <;> simp_all [Memory.read]
  | cons c r ih =>
    have above := Memory.wf_above h
    unfold Memory.write
    split
    · rename_i h1
      split
      · rename_i hb
        rw [hb]
        refine Memory.read_above ?_
        intro d hd
        rcases List.mem_cons.mp hd with rfl | hd
        · exact h1
        · exact Nat.lt_trans h1 (above d hd)
      · simp [Memory.read]
    · split
      · rename_i h2
        split
        · rename_i hb
          rw [hb]
          exact Memory.read_above (fun d hd => by rw [h2]; exact above d hd)
        · simp [Memory.read]
      · rename_i h1 h2
        simp only [Memory.read]
        rw [if_neg (by omega)]
        exact ih (Memory.wf_tail h)
/-- Bytes outside a run that is written read as before. -/
theorem Memory.read_writeBytes_other (bs : List Byte) (m : Memory) (a x : Nat) (h : x < a ∨ a + bs.length ≤ x) :
    (m.writeBytes a bs).read x = m.read x := by
  induction bs generalizing m a with
  | nil => rfl
  | cons b r ih =>
    simp only [List.length_cons] at h
    simp only [Memory.writeBytes]
    rw [ih _ _ (by omega), Memory.read_write_other _ _ (by omega)]
theorem Memory.read_writeMasked_other (ws : List (Nat × Byte × Byte)) (m : Memory) (x : Nat) (h : ∀ w ∈ ws, w.1 ≠ x) :
    (m.writeMasked ws).read x = m.read x := by
  induction ws generalizing m with
  | nil => rfl
  | cons e r ih =>
    obtain ⟨a, k, v⟩ := e
    simp only [Memory.writeMasked]
    rw [ih _ (fun w hw => h w (by simp [hw])), Memory.read_write_other _ _ (Ne.symm (h (a, k, v) (by simp)))]

end Sys2Proof.Machine
end

