-- ==== Sys2Proof/Laws/State.lean ====
section
/-! SUPPORT. What each update of the state leaves of each field, true by unfolding, so that no later proof unfolds a record update. -/
namespace Sys2Proof.Machine

/-! ## State.setCore -/

@[simp] theorem State.setCore_mem (s : State) (c : Nat) (v : Core) : (s.setCore c v).mem = s.mem := rfl
@[simp] theorem State.setCore_flash (s : State) (c : Nat) (v : Core) : (s.setCore c v).flash = s.flash := rfl
@[simp] theorem State.setCore_struck (s : State) (c : Nat) (v : Core) : (s.setCore c v).struck = s.struck := rfl
@[simp] theorem State.setCore_flashHurt (s : State) (c : Nat) (v : Core) : (s.setCore c v).flashHurt = s.flashHurt := rfl
@[simp] theorem State.setCore_dtime (s : State) (c : Nat) (v : Core) : (s.setCore c v).dtime = s.dtime := rfl
@[simp] theorem State.setCore_timeHold (s : State) (c : Nat) (v : Core) : (s.setCore c v).timeHold = s.timeHold := rfl
@[simp] theorem State.setCore_drift (s : State) (c : Nat) (v : Core) : (s.setCore c v).drift = s.drift := rfl
@[simp] theorem State.setCore_slew (s : State) (c : Nat) (v : Core) : (s.setCore c v).slew = s.slew := rfl
@[simp] theorem State.setCore_aligned (s : State) (c : Nat) (v : Core) : (s.setCore c v).aligned = s.aligned := rfl
@[simp] theorem State.setCore_phase (s : State) (c : Nat) (v : Core) : (s.setCore c v).phase = s.phase := rfl
@[simp] theorem State.setCore_incarn (s : State) (c : Nat) (v : Core) : (s.setCore c v).incarn = s.incarn := rfl
@[simp] theorem State.setCore_modid (s : State) (c : Nat) (v : Core) : (s.setCore c v).modid = s.modid := rfl
@[simp] theorem State.setCore_stale (s : State) (c : Nat) (v : Core) : (s.setCore c v).stale = s.stale := rfl
@[simp] theorem State.setCore_partLo (s : State) (c : Nat) (v : Core) : (s.setCore c v).partLo = s.partLo := rfl
@[simp] theorem State.setCore_partHi (s : State) (c : Nat) (v : Core) : (s.setCore c v).partHi = s.partHi := rfl
@[simp] theorem State.setCore_rgnIdx (s : State) (c : Nat) (v : Core) : (s.setCore c v).rgnIdx = s.rgnIdx := rfl
@[simp] theorem State.setCore_regions (s : State) (c : Nat) (v : Core) : (s.setCore c v).regions = s.regions := rfl
@[simp] theorem State.setCore_rgnBase (s : State) (c : Nat) (v : Core) : (s.setCore c v).rgnBase = s.rgnBase := rfl
@[simp] theorem State.setCore_rgnSize (s : State) (c : Nat) (v : Core) : (s.setCore c v).rgnSize = s.rgnSize := rfl
@[simp] theorem State.setCore_askey (s : State) (c : Nat) (v : Core) : (s.setCore c v).askey = s.askey := rfl
@[simp] theorem State.setCore_peers (s : State) (c : Nat) (v : Core) : (s.setCore c v).peers = s.peers := rfl
@[simp] theorem State.setCore_links (s : State) (c : Nat) (v : Core) : (s.setCore c v).links = s.links := rfl
@[simp] theorem State.setCore_streamsIn (s : State) (c : Nat) (v : Core) : (s.setCore c v).streamsIn = s.streamsIn := rfl
@[simp] theorem State.setCore_streamsOut (s : State) (c : Nat) (v : Core) : (s.setCore c v).streamsOut = s.streamsOut := rfl
@[simp] theorem State.setCore_replies (s : State) (c : Nat) (v : Core) : (s.setCore c v).replies = s.replies := rfl
@[simp] theorem State.setCore_outbox (s : State) (c : Nat) (v : Core) : (s.setCore c v).outbox = s.outbox := rfl
@[simp] theorem State.setCore_sent (s : State) (c : Nat) (v : Core) : (s.setCore c v).sent = s.sent := rfl
@[simp] theorem State.setCore_procs (s : State) (c : Nat) (v : Core) : (s.setCore c v).procs = s.procs := rfl
@[simp] theorem State.setCore_dies (s : State) (c : Nat) (v : Core) : (s.setCore c v).dies = s.dies := rfl
@[simp] theorem State.setCore_net (s : State) (c : Nat) (v : Core) : (s.setCore c v).net = s.net := rfl
@[simp] theorem State.setCore_hosts (s : State) (c : Nat) (v : Core) : (s.setCore c v).hosts = s.hosts := rfl
@[simp] theorem State.setCore_held (s : State) (c : Nat) (v : Core) : (s.setCore c v).held = s.held := rfl
@[simp] theorem State.setCore_xfers (s : State) (c : Nat) (v : Core) : (s.setCore c v).xfers = s.xfers := rfl
@[simp] theorem State.setCore_borer (s : State) (c : Nat) (v : Core) : (s.setCore c v).borer = s.borer := rfl
@[simp] theorem State.setCore_walks (s : State) (c : Nat) (v : Core) : (s.setCore c v).walks = s.walks := rfl
@[simp] theorem State.setCore_shoots (s : State) (c : Nat) (v : Core) : (s.setCore c v).shoots = s.shoots := rfl
@[simp] theorem State.setCore_recalls (s : State) (c : Nat) (v : Core) : (s.setCore c v).recalls = s.recalls := rfl
@[simp] theorem State.setCore_guards (s : State) (c : Nat) (v : Core) : (s.setCore c v).guards = s.guards := rfl
@[simp] theorem State.setCore_migs (s : State) (c : Nat) (v : Core) : (s.setCore c v).migs = s.migs := rfl
@[simp] theorem State.setCore_counts (s : State) (c : Nat) (v : Core) : (s.setCore c v).counts = s.counts := rfl
@[simp] theorem State.setCore_lendsHbm (s : State) (c : Nat) (v : Core) : (s.setCore c v).lendsHbm = s.lendsHbm := rfl
@[simp] theorem State.setCore_claims (s : State) (c : Nat) (v : Core) : (s.setCore c v).claims = s.claims := rfl
@[simp] theorem State.setCore_queues (s : State) (c : Nat) (v : Core) : (s.setCore c v).queues = s.queues := rfl
@[simp] theorem State.setCore_flights (s : State) (c : Nat) (v : Core) : (s.setCore c v).flights = s.flights := rfl
@[simp] theorem State.setCore_luTurn (s : State) (c : Nat) (v : Core) : (s.setCore c v).luTurn = s.luTurn := rfl
@[simp] theorem State.setCore_luarm (s : State) (c : Nat) (v : Core) : (s.setCore c v).luarm = s.luarm := rfl
@[simp] theorem State.setCore_fltenq (s : State) (c : Nat) (v : Core) : (s.setCore c v).fltenq = s.fltenq := rfl
@[simp] theorem State.setCore_fltchan (s : State) (c : Nat) (v : Core) : (s.setCore c v).fltchan = s.fltchan := rfl
@[simp] theorem State.setCore_units (s : State) (c : Nat) (v : Core) : (s.setCore c v).units = s.units := rfl
@[simp] theorem State.setCore_ethDropped (s : State) (c : Nat) (v : Core) : (s.setCore c v).ethDropped = s.ethDropped := rfl
@[simp] theorem State.setCore_fullService (s : State) (c : Nat) (v : Core) : (s.setCore c v).fullService = s.fullService := rfl
@[simp] theorem State.setCore_mbStat (s : State) (c : Nat) (v : Core) : (s.setCore c v).mbStat = s.mbStat := rfl
@[simp] theorem State.setCore_mbCmd (s : State) (c : Nat) (v : Core) : (s.setCore c v).mbCmd = s.mbCmd := rfl
@[simp] theorem State.setCore_mbArg (s : State) (c : Nat) (v : Core) : (s.setCore c v).mbArg = s.mbArg := rfl
@[simp] theorem State.setCore_mbData (s : State) (c : Nat) (v : Core) : (s.setCore c v).mbData = s.mbData := rfl
@[simp] theorem State.setCore_evready (s : State) (c : Nat) (v : Core) : (s.setCore c v).evready = s.evready := rfl
@[simp] theorem State.setCore_errlog (s : State) (c : Nat) (v : Core) : (s.setCore c v).errlog = s.errlog := rfl
@[simp] theorem State.setCore_measures (s : State) (c : Nat) (v : Core) : (s.setCore c v).measures = s.measures := rfl
@[simp] theorem State.setCore_bootStage (s : State) (c : Nat) (v : Core) : (s.setCore c v).bootStage = s.bootStage := rfl
@[simp] theorem State.setCore_bootHalted (s : State) (c : Nat) (v : Core) : (s.setCore c v).bootHalted = s.bootHalted := rfl
@[simp] theorem State.setCore_imageA (s : State) (c : Nat) (v : Core) : (s.setCore c v).imageA = s.imageA := rfl
@[simp] theorem State.setCore_imageB (s : State) (c : Nat) (v : Core) : (s.setCore c v).imageB = s.imageB := rfl
@[simp] theorem State.setCore_updateOk (s : State) (c : Nat) (v : Core) : (s.setCore c v).updateOk = s.updateOk := rfl
@[simp] theorem State.setCore_unusedB (s : State) (c : Nat) (v : Core) : (s.setCore c v).unusedB = s.unusedB := rfl
@[simp] theorem State.setCore_signer (s : State) (c : Nat) (v : Core) : (s.setCore c v).signer = s.signer := rfl
@[simp] theorem State.setCore_smbus (s : State) (c : Nat) (v : Core) : (s.setCore c v).smbus = s.smbus := rfl
@[simp] theorem State.setCore_reports (s : State) (c : Nat) (v : Core) : (s.setCore c v).reports = s.reports := rfl
@[simp] theorem State.setCore_spdm (s : State) (c : Nat) (v : Core) : (s.setCore c v).spdm = s.spdm := rfl
@[simp] theorem State.setCore_storedIncarn (s : State) (c : Nat) (v : Core) : (s.setCore c v).storedIncarn = s.storedIncarn := rfl
@[simp] theorem State.setCore_raised (s : State) (c : Nat) (v : Core) : (s.setCore c v).raised = s.raised := rfl
@[simp] theorem State.setCore_quiesced (s : State) (c : Nat) (v : Core) : (s.setCore c v).quiesced = s.quiesced := rfl
@[simp] theorem State.setCore_lostOps (s : State) (c : Nat) (v : Core) : (s.setCore c v).lostOps = s.lostOps := rfl
@[simp] theorem State.setCore_plan (s : State) (c : Nat) (v : Core) : (s.setCore c v).plan = s.plan := rfl
@[simp] theorem State.setCore_turn (s : State) (c : Nat) (v : Core) : (s.setCore c v).turn = s.turn := rfl
@[simp] theorem State.setCore_pace (s : State) (c : Nat) (v : Core) : (s.setCore c v).pace = s.pace := rfl
@[simp] theorem State.setCore_fresh (s : State) (c : Nat) (v : Core) : (s.setCore c v).fresh = s.fresh := rfl
@[simp] theorem State.setCore_nextId (s : State) (c : Nat) (v : Core) : (s.setCore c v).nextId = s.nextId := rfl

/-! ## State.setProc -/

@[simp] theorem State.setProc_mem (s : State) (c : Nat) (v : Proc) : (s.setProc c v).mem = s.mem := rfl
@[simp] theorem State.setProc_flash (s : State) (c : Nat) (v : Proc) : (s.setProc c v).flash = s.flash := rfl
@[simp] theorem State.setProc_struck (s : State) (c : Nat) (v : Proc) : (s.setProc c v).struck = s.struck := rfl
@[simp] theorem State.setProc_flashHurt (s : State) (c : Nat) (v : Proc) : (s.setProc c v).flashHurt = s.flashHurt := rfl
@[simp] theorem State.setProc_dtime (s : State) (c : Nat) (v : Proc) : (s.setProc c v).dtime = s.dtime := rfl
@[simp] theorem State.setProc_timeHold (s : State) (c : Nat) (v : Proc) : (s.setProc c v).timeHold = s.timeHold := rfl
@[simp] theorem State.setProc_drift (s : State) (c : Nat) (v : Proc) : (s.setProc c v).drift = s.drift := rfl
@[simp] theorem State.setProc_slew (s : State) (c : Nat) (v : Proc) : (s.setProc c v).slew = s.slew := rfl
@[simp] theorem State.setProc_aligned (s : State) (c : Nat) (v : Proc) : (s.setProc c v).aligned = s.aligned := rfl
@[simp] theorem State.setProc_phase (s : State) (c : Nat) (v : Proc) : (s.setProc c v).phase = s.phase := rfl
@[simp] theorem State.setProc_incarn (s : State) (c : Nat) (v : Proc) : (s.setProc c v).incarn = s.incarn := rfl
@[simp] theorem State.setProc_modid (s : State) (c : Nat) (v : Proc) : (s.setProc c v).modid = s.modid := rfl
@[simp] theorem State.setProc_stale (s : State) (c : Nat) (v : Proc) : (s.setProc c v).stale = s.stale := rfl
@[simp] theorem State.setProc_partLo (s : State) (c : Nat) (v : Proc) : (s.setProc c v).partLo = s.partLo := rfl
@[simp] theorem State.setProc_partHi (s : State) (c : Nat) (v : Proc) : (s.setProc c v).partHi = s.partHi := rfl
@[simp] theorem State.setProc_rgnIdx (s : State) (c : Nat) (v : Proc) : (s.setProc c v).rgnIdx = s.rgnIdx := rfl
@[simp] theorem State.setProc_regions (s : State) (c : Nat) (v : Proc) : (s.setProc c v).regions = s.regions := rfl
@[simp] theorem State.setProc_rgnBase (s : State) (c : Nat) (v : Proc) : (s.setProc c v).rgnBase = s.rgnBase := rfl
@[simp] theorem State.setProc_rgnSize (s : State) (c : Nat) (v : Proc) : (s.setProc c v).rgnSize = s.rgnSize := rfl
@[simp] theorem State.setProc_askey (s : State) (c : Nat) (v : Proc) : (s.setProc c v).askey = s.askey := rfl
@[simp] theorem State.setProc_peers (s : State) (c : Nat) (v : Proc) : (s.setProc c v).peers = s.peers := rfl
@[simp] theorem State.setProc_links (s : State) (c : Nat) (v : Proc) : (s.setProc c v).links = s.links := rfl
@[simp] theorem State.setProc_streamsIn (s : State) (c : Nat) (v : Proc) : (s.setProc c v).streamsIn = s.streamsIn := rfl
@[simp] theorem State.setProc_streamsOut (s : State) (c : Nat) (v : Proc) : (s.setProc c v).streamsOut = s.streamsOut := rfl
@[simp] theorem State.setProc_replies (s : State) (c : Nat) (v : Proc) : (s.setProc c v).replies = s.replies := rfl
@[simp] theorem State.setProc_outbox (s : State) (c : Nat) (v : Proc) : (s.setProc c v).outbox = s.outbox := rfl
@[simp] theorem State.setProc_sent (s : State) (c : Nat) (v : Proc) : (s.setProc c v).sent = s.sent := rfl
@[simp] theorem State.setProc_cores (s : State) (c : Nat) (v : Proc) : (s.setProc c v).cores = s.cores := rfl
@[simp] theorem State.setProc_dies (s : State) (c : Nat) (v : Proc) : (s.setProc c v).dies = s.dies := rfl
@[simp] theorem State.setProc_net (s : State) (c : Nat) (v : Proc) : (s.setProc c v).net = s.net := rfl
@[simp] theorem State.setProc_hosts (s : State) (c : Nat) (v : Proc) : (s.setProc c v).hosts = s.hosts := rfl
@[simp] theorem State.setProc_held (s : State) (c : Nat) (v : Proc) : (s.setProc c v).held = s.held := rfl
@[simp] theorem State.setProc_xfers (s : State) (c : Nat) (v : Proc) : (s.setProc c v).xfers = s.xfers := rfl
@[simp] theorem State.setProc_borer (s : State) (c : Nat) (v : Proc) : (s.setProc c v).borer = s.borer := rfl
@[simp] theorem State.setProc_walks (s : State) (c : Nat) (v : Proc) : (s.setProc c v).walks = s.walks := rfl
@[simp] theorem State.setProc_shoots (s : State) (c : Nat) (v : Proc) : (s.setProc c v).shoots = s.shoots := rfl
@[simp] theorem State.setProc_recalls (s : State) (c : Nat) (v : Proc) : (s.setProc c v).recalls = s.recalls := rfl
@[simp] theorem State.setProc_guards (s : State) (c : Nat) (v : Proc) : (s.setProc c v).guards = s.guards := rfl
@[simp] theorem State.setProc_migs (s : State) (c : Nat) (v : Proc) : (s.setProc c v).migs = s.migs := rfl
@[simp] theorem State.setProc_counts (s : State) (c : Nat) (v : Proc) : (s.setProc c v).counts = s.counts := rfl
@[simp] theorem State.setProc_lendsHbm (s : State) (c : Nat) (v : Proc) : (s.setProc c v).lendsHbm = s.lendsHbm := rfl
@[simp] theorem State.setProc_claims (s : State) (c : Nat) (v : Proc) : (s.setProc c v).claims = s.claims := rfl
@[simp] theorem State.setProc_queues (s : State) (c : Nat) (v : Proc) : (s.setProc c v).queues = s.queues := rfl
@[simp] theorem State.setProc_flights (s : State) (c : Nat) (v : Proc) : (s.setProc c v).flights = s.flights := rfl
@[simp] theorem State.setProc_luTurn (s : State) (c : Nat) (v : Proc) : (s.setProc c v).luTurn = s.luTurn := rfl
@[simp] theorem State.setProc_luarm (s : State) (c : Nat) (v : Proc) : (s.setProc c v).luarm = s.luarm := rfl
@[simp] theorem State.setProc_fltenq (s : State) (c : Nat) (v : Proc) : (s.setProc c v).fltenq = s.fltenq := rfl
@[simp] theorem State.setProc_fltchan (s : State) (c : Nat) (v : Proc) : (s.setProc c v).fltchan = s.fltchan := rfl
@[simp] theorem State.setProc_units (s : State) (c : Nat) (v : Proc) : (s.setProc c v).units = s.units := rfl
@[simp] theorem State.setProc_ethDropped (s : State) (c : Nat) (v : Proc) : (s.setProc c v).ethDropped = s.ethDropped := rfl
@[simp] theorem State.setProc_fullService (s : State) (c : Nat) (v : Proc) : (s.setProc c v).fullService = s.fullService := rfl
@[simp] theorem State.setProc_mbStat (s : State) (c : Nat) (v : Proc) : (s.setProc c v).mbStat = s.mbStat := rfl
@[simp] theorem State.setProc_mbCmd (s : State) (c : Nat) (v : Proc) : (s.setProc c v).mbCmd = s.mbCmd := rfl
@[simp] theorem State.setProc_mbArg (s : State) (c : Nat) (v : Proc) : (s.setProc c v).mbArg = s.mbArg := rfl
@[simp] theorem State.setProc_mbData (s : State) (c : Nat) (v : Proc) : (s.setProc c v).mbData = s.mbData := rfl
@[simp] theorem State.setProc_evready (s : State) (c : Nat) (v : Proc) : (s.setProc c v).evready = s.evready := rfl
@[simp] theorem State.setProc_errlog (s : State) (c : Nat) (v : Proc) : (s.setProc c v).errlog = s.errlog := rfl
@[simp] theorem State.setProc_measures (s : State) (c : Nat) (v : Proc) : (s.setProc c v).measures = s.measures := rfl
@[simp] theorem State.setProc_bootStage (s : State) (c : Nat) (v : Proc) : (s.setProc c v).bootStage = s.bootStage := rfl
@[simp] theorem State.setProc_bootHalted (s : State) (c : Nat) (v : Proc) : (s.setProc c v).bootHalted = s.bootHalted := rfl
@[simp] theorem State.setProc_imageA (s : State) (c : Nat) (v : Proc) : (s.setProc c v).imageA = s.imageA := rfl
@[simp] theorem State.setProc_imageB (s : State) (c : Nat) (v : Proc) : (s.setProc c v).imageB = s.imageB := rfl
@[simp] theorem State.setProc_updateOk (s : State) (c : Nat) (v : Proc) : (s.setProc c v).updateOk = s.updateOk := rfl
@[simp] theorem State.setProc_unusedB (s : State) (c : Nat) (v : Proc) : (s.setProc c v).unusedB = s.unusedB := rfl
@[simp] theorem State.setProc_signer (s : State) (c : Nat) (v : Proc) : (s.setProc c v).signer = s.signer := rfl
@[simp] theorem State.setProc_smbus (s : State) (c : Nat) (v : Proc) : (s.setProc c v).smbus = s.smbus := rfl
@[simp] theorem State.setProc_reports (s : State) (c : Nat) (v : Proc) : (s.setProc c v).reports = s.reports := rfl
@[simp] theorem State.setProc_spdm (s : State) (c : Nat) (v : Proc) : (s.setProc c v).spdm = s.spdm := rfl
@[simp] theorem State.setProc_storedIncarn (s : State) (c : Nat) (v : Proc) : (s.setProc c v).storedIncarn = s.storedIncarn := rfl
@[simp] theorem State.setProc_raised (s : State) (c : Nat) (v : Proc) : (s.setProc c v).raised = s.raised := rfl
@[simp] theorem State.setProc_quiesced (s : State) (c : Nat) (v : Proc) : (s.setProc c v).quiesced = s.quiesced := rfl
@[simp] theorem State.setProc_lostOps (s : State) (c : Nat) (v : Proc) : (s.setProc c v).lostOps = s.lostOps := rfl
@[simp] theorem State.setProc_plan (s : State) (c : Nat) (v : Proc) : (s.setProc c v).plan = s.plan := rfl
@[simp] theorem State.setProc_turn (s : State) (c : Nat) (v : Proc) : (s.setProc c v).turn = s.turn := rfl
@[simp] theorem State.setProc_pace (s : State) (c : Nat) (v : Proc) : (s.setProc c v).pace = s.pace := rfl
@[simp] theorem State.setProc_fresh (s : State) (c : Nat) (v : Proc) : (s.setProc c v).fresh = s.fresh := rfl
@[simp] theorem State.setProc_nextId (s : State) (c : Nat) (v : Proc) : (s.setProc c v).nextId = s.nextId := rfl

/-! ## State.setDie -/

@[simp] theorem State.setDie_mem (s : State) (c : Nat) (v : Die) : (s.setDie c v).mem = s.mem := rfl
@[simp] theorem State.setDie_flash (s : State) (c : Nat) (v : Die) : (s.setDie c v).flash = s.flash := rfl
@[simp] theorem State.setDie_struck (s : State) (c : Nat) (v : Die) : (s.setDie c v).struck = s.struck := rfl
@[simp] theorem State.setDie_flashHurt (s : State) (c : Nat) (v : Die) : (s.setDie c v).flashHurt = s.flashHurt := rfl
@[simp] theorem State.setDie_dtime (s : State) (c : Nat) (v : Die) : (s.setDie c v).dtime = s.dtime := rfl
@[simp] theorem State.setDie_timeHold (s : State) (c : Nat) (v : Die) : (s.setDie c v).timeHold = s.timeHold := rfl
@[simp] theorem State.setDie_drift (s : State) (c : Nat) (v : Die) : (s.setDie c v).drift = s.drift := rfl
@[simp] theorem State.setDie_slew (s : State) (c : Nat) (v : Die) : (s.setDie c v).slew = s.slew := rfl
@[simp] theorem State.setDie_aligned (s : State) (c : Nat) (v : Die) : (s.setDie c v).aligned = s.aligned := rfl
@[simp] theorem State.setDie_phase (s : State) (c : Nat) (v : Die) : (s.setDie c v).phase = s.phase := rfl
@[simp] theorem State.setDie_incarn (s : State) (c : Nat) (v : Die) : (s.setDie c v).incarn = s.incarn := rfl
@[simp] theorem State.setDie_modid (s : State) (c : Nat) (v : Die) : (s.setDie c v).modid = s.modid := rfl
@[simp] theorem State.setDie_stale (s : State) (c : Nat) (v : Die) : (s.setDie c v).stale = s.stale := rfl
@[simp] theorem State.setDie_partLo (s : State) (c : Nat) (v : Die) : (s.setDie c v).partLo = s.partLo := rfl
@[simp] theorem State.setDie_partHi (s : State) (c : Nat) (v : Die) : (s.setDie c v).partHi = s.partHi := rfl
@[simp] theorem State.setDie_rgnIdx (s : State) (c : Nat) (v : Die) : (s.setDie c v).rgnIdx = s.rgnIdx := rfl
@[simp] theorem State.setDie_regions (s : State) (c : Nat) (v : Die) : (s.setDie c v).regions = s.regions := rfl
@[simp] theorem State.setDie_rgnBase (s : State) (c : Nat) (v : Die) : (s.setDie c v).rgnBase = s.rgnBase := rfl
@[simp] theorem State.setDie_rgnSize (s : State) (c : Nat) (v : Die) : (s.setDie c v).rgnSize = s.rgnSize := rfl
@[simp] theorem State.setDie_askey (s : State) (c : Nat) (v : Die) : (s.setDie c v).askey = s.askey := rfl
@[simp] theorem State.setDie_peers (s : State) (c : Nat) (v : Die) : (s.setDie c v).peers = s.peers := rfl
@[simp] theorem State.setDie_links (s : State) (c : Nat) (v : Die) : (s.setDie c v).links = s.links := rfl
@[simp] theorem State.setDie_streamsIn (s : State) (c : Nat) (v : Die) : (s.setDie c v).streamsIn = s.streamsIn := rfl
@[simp] theorem State.setDie_streamsOut (s : State) (c : Nat) (v : Die) : (s.setDie c v).streamsOut = s.streamsOut := rfl
@[simp] theorem State.setDie_replies (s : State) (c : Nat) (v : Die) : (s.setDie c v).replies = s.replies := rfl
@[simp] theorem State.setDie_outbox (s : State) (c : Nat) (v : Die) : (s.setDie c v).outbox = s.outbox := rfl
@[simp] theorem State.setDie_sent (s : State) (c : Nat) (v : Die) : (s.setDie c v).sent = s.sent := rfl
@[simp] theorem State.setDie_cores (s : State) (c : Nat) (v : Die) : (s.setDie c v).cores = s.cores := rfl
@[simp] theorem State.setDie_procs (s : State) (c : Nat) (v : Die) : (s.setDie c v).procs = s.procs := rfl
@[simp] theorem State.setDie_net (s : State) (c : Nat) (v : Die) : (s.setDie c v).net = s.net := rfl
@[simp] theorem State.setDie_hosts (s : State) (c : Nat) (v : Die) : (s.setDie c v).hosts = s.hosts := rfl
@[simp] theorem State.setDie_held (s : State) (c : Nat) (v : Die) : (s.setDie c v).held = s.held := rfl
@[simp] theorem State.setDie_xfers (s : State) (c : Nat) (v : Die) : (s.setDie c v).xfers = s.xfers := rfl
@[simp] theorem State.setDie_borer (s : State) (c : Nat) (v : Die) : (s.setDie c v).borer = s.borer := rfl
@[simp] theorem State.setDie_walks (s : State) (c : Nat) (v : Die) : (s.setDie c v).walks = s.walks := rfl
@[simp] theorem State.setDie_shoots (s : State) (c : Nat) (v : Die) : (s.setDie c v).shoots = s.shoots := rfl
@[simp] theorem State.setDie_recalls (s : State) (c : Nat) (v : Die) : (s.setDie c v).recalls = s.recalls := rfl
@[simp] theorem State.setDie_guards (s : State) (c : Nat) (v : Die) : (s.setDie c v).guards = s.guards := rfl
@[simp] theorem State.setDie_migs (s : State) (c : Nat) (v : Die) : (s.setDie c v).migs = s.migs := rfl
@[simp] theorem State.setDie_counts (s : State) (c : Nat) (v : Die) : (s.setDie c v).counts = s.counts := rfl
@[simp] theorem State.setDie_lendsHbm (s : State) (c : Nat) (v : Die) : (s.setDie c v).lendsHbm = s.lendsHbm := rfl
@[simp] theorem State.setDie_claims (s : State) (c : Nat) (v : Die) : (s.setDie c v).claims = s.claims := rfl
@[simp] theorem State.setDie_queues (s : State) (c : Nat) (v : Die) : (s.setDie c v).queues = s.queues := rfl
@[simp] theorem State.setDie_flights (s : State) (c : Nat) (v : Die) : (s.setDie c v).flights = s.flights := rfl
@[simp] theorem State.setDie_luTurn (s : State) (c : Nat) (v : Die) : (s.setDie c v).luTurn = s.luTurn := rfl
@[simp] theorem State.setDie_luarm (s : State) (c : Nat) (v : Die) : (s.setDie c v).luarm = s.luarm := rfl
@[simp] theorem State.setDie_fltenq (s : State) (c : Nat) (v : Die) : (s.setDie c v).fltenq = s.fltenq := rfl
@[simp] theorem State.setDie_fltchan (s : State) (c : Nat) (v : Die) : (s.setDie c v).fltchan = s.fltchan := rfl
@[simp] theorem State.setDie_units (s : State) (c : Nat) (v : Die) : (s.setDie c v).units = s.units := rfl
@[simp] theorem State.setDie_ethDropped (s : State) (c : Nat) (v : Die) : (s.setDie c v).ethDropped = s.ethDropped := rfl
@[simp] theorem State.setDie_fullService (s : State) (c : Nat) (v : Die) : (s.setDie c v).fullService = s.fullService := rfl
@[simp] theorem State.setDie_mbStat (s : State) (c : Nat) (v : Die) : (s.setDie c v).mbStat = s.mbStat := rfl
@[simp] theorem State.setDie_mbCmd (s : State) (c : Nat) (v : Die) : (s.setDie c v).mbCmd = s.mbCmd := rfl
@[simp] theorem State.setDie_mbArg (s : State) (c : Nat) (v : Die) : (s.setDie c v).mbArg = s.mbArg := rfl
@[simp] theorem State.setDie_mbData (s : State) (c : Nat) (v : Die) : (s.setDie c v).mbData = s.mbData := rfl
@[simp] theorem State.setDie_evready (s : State) (c : Nat) (v : Die) : (s.setDie c v).evready = s.evready := rfl
@[simp] theorem State.setDie_errlog (s : State) (c : Nat) (v : Die) : (s.setDie c v).errlog = s.errlog := rfl
@[simp] theorem State.setDie_measures (s : State) (c : Nat) (v : Die) : (s.setDie c v).measures = s.measures := rfl
@[simp] theorem State.setDie_bootStage (s : State) (c : Nat) (v : Die) : (s.setDie c v).bootStage = s.bootStage := rfl
@[simp] theorem State.setDie_bootHalted (s : State) (c : Nat) (v : Die) : (s.setDie c v).bootHalted = s.bootHalted := rfl
@[simp] theorem State.setDie_imageA (s : State) (c : Nat) (v : Die) : (s.setDie c v).imageA = s.imageA := rfl
@[simp] theorem State.setDie_imageB (s : State) (c : Nat) (v : Die) : (s.setDie c v).imageB = s.imageB := rfl
@[simp] theorem State.setDie_updateOk (s : State) (c : Nat) (v : Die) : (s.setDie c v).updateOk = s.updateOk := rfl
@[simp] theorem State.setDie_unusedB (s : State) (c : Nat) (v : Die) : (s.setDie c v).unusedB = s.unusedB := rfl
@[simp] theorem State.setDie_signer (s : State) (c : Nat) (v : Die) : (s.setDie c v).signer = s.signer := rfl
@[simp] theorem State.setDie_smbus (s : State) (c : Nat) (v : Die) : (s.setDie c v).smbus = s.smbus := rfl
@[simp] theorem State.setDie_reports (s : State) (c : Nat) (v : Die) : (s.setDie c v).reports = s.reports := rfl
@[simp] theorem State.setDie_spdm (s : State) (c : Nat) (v : Die) : (s.setDie c v).spdm = s.spdm := rfl
@[simp] theorem State.setDie_storedIncarn (s : State) (c : Nat) (v : Die) : (s.setDie c v).storedIncarn = s.storedIncarn := rfl
@[simp] theorem State.setDie_raised (s : State) (c : Nat) (v : Die) : (s.setDie c v).raised = s.raised := rfl
@[simp] theorem State.setDie_quiesced (s : State) (c : Nat) (v : Die) : (s.setDie c v).quiesced = s.quiesced := rfl
@[simp] theorem State.setDie_lostOps (s : State) (c : Nat) (v : Die) : (s.setDie c v).lostOps = s.lostOps := rfl
@[simp] theorem State.setDie_plan (s : State) (c : Nat) (v : Die) : (s.setDie c v).plan = s.plan := rfl
@[simp] theorem State.setDie_turn (s : State) (c : Nat) (v : Die) : (s.setDie c v).turn = s.turn := rfl
@[simp] theorem State.setDie_pace (s : State) (c : Nat) (v : Die) : (s.setDie c v).pace = s.pace := rfl
@[simp] theorem State.setDie_fresh (s : State) (c : Nat) (v : Die) : (s.setDie c v).fresh = s.fresh := rfl
@[simp] theorem State.setDie_nextId (s : State) (c : Nat) (v : Die) : (s.setDie c v).nextId = s.nextId := rfl

/-! ## State.modCore -/

@[simp] theorem State.modCore_mem (s : State) (c : Nat) (f : Core → Core) : (s.modCore c f).mem = s.mem := rfl
@[simp] theorem State.modCore_flash (s : State) (c : Nat) (f : Core → Core) : (s.modCore c f).flash = s.flash := rfl
@[simp] theorem State.modCore_struck (s : State) (c : Nat) (f : Core → Core) : (s.modCore c f).struck = s.struck := rfl
@[simp] theorem State.modCore_flashHurt (s : State) (c : Nat) (f : Core → Core) : (s.modCore c f).flashHurt = s.flashHurt := rfl
@[simp] theorem State.modCore_dtime (s : State) (c : Nat) (f : Core → Core) : (s.modCore c f).dtime = s.dtime := rfl
@[simp] theorem State.modCore_timeHold (s : State) (c : Nat) (f : Core → Core) : (s.modCore c f).timeHold = s.timeHold := rfl
@[simp] theorem State.modCore_drift (s : State) (c : Nat) (f : Core → Core) : (s.modCore c f).drift = s.drift := rfl
@[simp] theorem State.modCore_slew (s : State) (c : Nat) (f : Core → Core) : (s.modCore c f).slew = s.slew := rfl
@[simp] theorem State.modCore_aligned (s : State) (c : Nat) (f : Core → Core) : (s.modCore c f).aligned = s.aligned := rfl
@[simp] theorem State.modCore_phase (s : State) (c : Nat) (f : Core → Core) : (s.modCore c f).phase = s.phase := rfl
@[simp] theorem State.modCore_incarn (s : State) (c : Nat) (f : Core → Core) : (s.modCore c f).incarn = s.incarn := rfl
@[simp] theorem State.modCore_modid (s : State) (c : Nat) (f : Core → Core) : (s.modCore c f).modid = s.modid := rfl
@[simp] theorem State.modCore_stale (s : State) (c : Nat) (f : Core → Core) : (s.modCore c f).stale = s.stale := rfl
@[simp] theorem State.modCore_partLo (s : State) (c : Nat) (f : Core → Core) : (s.modCore c f).partLo = s.partLo := rfl
@[simp] theorem State.modCore_partHi (s : State) (c : Nat) (f : Core → Core) : (s.modCore c f).partHi = s.partHi := rfl
@[simp] theorem State.modCore_rgnIdx (s : State) (c : Nat) (f : Core → Core) : (s.modCore c f).rgnIdx = s.rgnIdx := rfl
@[simp] theorem State.modCore_regions (s : State) (c : Nat) (f : Core → Core) : (s.modCore c f).regions = s.regions := rfl
@[simp] theorem State.modCore_rgnBase (s : State) (c : Nat) (f : Core → Core) : (s.modCore c f).rgnBase = s.rgnBase := rfl
@[simp] theorem State.modCore_rgnSize (s : State) (c : Nat) (f : Core → Core) : (s.modCore c f).rgnSize = s.rgnSize := rfl
@[simp] theorem State.modCore_askey (s : State) (c : Nat) (f : Core → Core) : (s.modCore c f).askey = s.askey := rfl
@[simp] theorem State.modCore_peers (s : State) (c : Nat) (f : Core → Core) : (s.modCore c f).peers = s.peers := rfl
@[simp] theorem State.modCore_links (s : State) (c : Nat) (f : Core → Core) : (s.modCore c f).links = s.links := rfl
@[simp] theorem State.modCore_streamsIn (s : State) (c : Nat) (f : Core → Core) : (s.modCore c f).streamsIn = s.streamsIn := rfl
@[simp] theorem State.modCore_streamsOut (s : State) (c : Nat) (f : Core → Core) : (s.modCore c f).streamsOut = s.streamsOut := rfl
@[simp] theorem State.modCore_replies (s : State) (c : Nat) (f : Core → Core) : (s.modCore c f).replies = s.replies := rfl
@[simp] theorem State.modCore_outbox (s : State) (c : Nat) (f : Core → Core) : (s.modCore c f).outbox = s.outbox := rfl
@[simp] theorem State.modCore_sent (s : State) (c : Nat) (f : Core → Core) : (s.modCore c f).sent = s.sent := rfl
@[simp] theorem State.modCore_procs (s : State) (c : Nat) (f : Core → Core) : (s.modCore c f).procs = s.procs := rfl
@[simp] theorem State.modCore_dies (s : State) (c : Nat) (f : Core → Core) : (s.modCore c f).dies = s.dies := rfl
@[simp] theorem State.modCore_net (s : State) (c : Nat) (f : Core → Core) : (s.modCore c f).net = s.net := rfl
@[simp] theorem State.modCore_hosts (s : State) (c : Nat) (f : Core → Core) : (s.modCore c f).hosts = s.hosts := rfl
@[simp] theorem State.modCore_held (s : State) (c : Nat) (f : Core → Core) : (s.modCore c f).held = s.held := rfl
@[simp] theorem State.modCore_xfers (s : State) (c : Nat) (f : Core → Core) : (s.modCore c f).xfers = s.xfers := rfl
@[simp] theorem State.modCore_borer (s : State) (c : Nat) (f : Core → Core) : (s.modCore c f).borer = s.borer := rfl
@[simp] theorem State.modCore_walks (s : State) (c : Nat) (f : Core → Core) : (s.modCore c f).walks = s.walks := rfl
@[simp] theorem State.modCore_shoots (s : State) (c : Nat) (f : Core → Core) : (s.modCore c f).shoots = s.shoots := rfl
@[simp] theorem State.modCore_recalls (s : State) (c : Nat) (f : Core → Core) : (s.modCore c f).recalls = s.recalls := rfl
@[simp] theorem State.modCore_guards (s : State) (c : Nat) (f : Core → Core) : (s.modCore c f).guards = s.guards := rfl
@[simp] theorem State.modCore_migs (s : State) (c : Nat) (f : Core → Core) : (s.modCore c f).migs = s.migs := rfl
@[simp] theorem State.modCore_counts (s : State) (c : Nat) (f : Core → Core) : (s.modCore c f).counts = s.counts := rfl
@[simp] theorem State.modCore_lendsHbm (s : State) (c : Nat) (f : Core → Core) : (s.modCore c f).lendsHbm = s.lendsHbm := rfl
@[simp] theorem State.modCore_claims (s : State) (c : Nat) (f : Core → Core) : (s.modCore c f).claims = s.claims := rfl
@[simp] theorem State.modCore_queues (s : State) (c : Nat) (f : Core → Core) : (s.modCore c f).queues = s.queues := rfl
@[simp] theorem State.modCore_flights (s : State) (c : Nat) (f : Core → Core) : (s.modCore c f).flights = s.flights := rfl
@[simp] theorem State.modCore_luTurn (s : State) (c : Nat) (f : Core → Core) : (s.modCore c f).luTurn = s.luTurn := rfl
@[simp] theorem State.modCore_luarm (s : State) (c : Nat) (f : Core → Core) : (s.modCore c f).luarm = s.luarm := rfl
@[simp] theorem State.modCore_fltenq (s : State) (c : Nat) (f : Core → Core) : (s.modCore c f).fltenq = s.fltenq := rfl
@[simp] theorem State.modCore_fltchan (s : State) (c : Nat) (f : Core → Core) : (s.modCore c f).fltchan = s.fltchan := rfl
@[simp] theorem State.modCore_units (s : State) (c : Nat) (f : Core → Core) : (s.modCore c f).units = s.units := rfl
@[simp] theorem State.modCore_ethDropped (s : State) (c : Nat) (f : Core → Core) : (s.modCore c f).ethDropped = s.ethDropped := rfl
@[simp] theorem State.modCore_fullService (s : State) (c : Nat) (f : Core → Core) : (s.modCore c f).fullService = s.fullService := rfl
@[simp] theorem State.modCore_mbStat (s : State) (c : Nat) (f : Core → Core) : (s.modCore c f).mbStat = s.mbStat := rfl
@[simp] theorem State.modCore_mbCmd (s : State) (c : Nat) (f : Core → Core) : (s.modCore c f).mbCmd = s.mbCmd := rfl
@[simp] theorem State.modCore_mbArg (s : State) (c : Nat) (f : Core → Core) : (s.modCore c f).mbArg = s.mbArg := rfl
@[simp] theorem State.modCore_mbData (s : State) (c : Nat) (f : Core → Core) : (s.modCore c f).mbData = s.mbData := rfl
@[simp] theorem State.modCore_evready (s : State) (c : Nat) (f : Core → Core) : (s.modCore c f).evready = s.evready := rfl
@[simp] theorem State.modCore_errlog (s : State) (c : Nat) (f : Core → Core) : (s.modCore c f).errlog = s.errlog := rfl
@[simp] theorem State.modCore_measures (s : State) (c : Nat) (f : Core → Core) : (s.modCore c f).measures = s.measures := rfl
@[simp] theorem State.modCore_bootStage (s : State) (c : Nat) (f : Core → Core) : (s.modCore c f).bootStage = s.bootStage := rfl
@[simp] theorem State.modCore_bootHalted (s : State) (c : Nat) (f : Core → Core) : (s.modCore c f).bootHalted = s.bootHalted := rfl
@[simp] theorem State.modCore_imageA (s : State) (c : Nat) (f : Core → Core) : (s.modCore c f).imageA = s.imageA := rfl
@[simp] theorem State.modCore_imageB (s : State) (c : Nat) (f : Core → Core) : (s.modCore c f).imageB = s.imageB := rfl
@[simp] theorem State.modCore_updateOk (s : State) (c : Nat) (f : Core → Core) : (s.modCore c f).updateOk = s.updateOk := rfl
@[simp] theorem State.modCore_unusedB (s : State) (c : Nat) (f : Core → Core) : (s.modCore c f).unusedB = s.unusedB := rfl
@[simp] theorem State.modCore_signer (s : State) (c : Nat) (f : Core → Core) : (s.modCore c f).signer = s.signer := rfl
@[simp] theorem State.modCore_smbus (s : State) (c : Nat) (f : Core → Core) : (s.modCore c f).smbus = s.smbus := rfl
@[simp] theorem State.modCore_reports (s : State) (c : Nat) (f : Core → Core) : (s.modCore c f).reports = s.reports := rfl
@[simp] theorem State.modCore_spdm (s : State) (c : Nat) (f : Core → Core) : (s.modCore c f).spdm = s.spdm := rfl
@[simp] theorem State.modCore_storedIncarn (s : State) (c : Nat) (f : Core → Core) : (s.modCore c f).storedIncarn = s.storedIncarn := rfl
@[simp] theorem State.modCore_raised (s : State) (c : Nat) (f : Core → Core) : (s.modCore c f).raised = s.raised := rfl
@[simp] theorem State.modCore_quiesced (s : State) (c : Nat) (f : Core → Core) : (s.modCore c f).quiesced = s.quiesced := rfl
@[simp] theorem State.modCore_lostOps (s : State) (c : Nat) (f : Core → Core) : (s.modCore c f).lostOps = s.lostOps := rfl
@[simp] theorem State.modCore_plan (s : State) (c : Nat) (f : Core → Core) : (s.modCore c f).plan = s.plan := rfl
@[simp] theorem State.modCore_turn (s : State) (c : Nat) (f : Core → Core) : (s.modCore c f).turn = s.turn := rfl
@[simp] theorem State.modCore_pace (s : State) (c : Nat) (f : Core → Core) : (s.modCore c f).pace = s.pace := rfl
@[simp] theorem State.modCore_fresh (s : State) (c : Nat) (f : Core → Core) : (s.modCore c f).fresh = s.fresh := rfl
@[simp] theorem State.modCore_nextId (s : State) (c : Nat) (f : Core → Core) : (s.modCore c f).nextId = s.nextId := rfl

/-! ## State.modProc -/

@[simp] theorem State.modProc_mem (s : State) (c : Nat) (f : Proc → Proc) : (s.modProc c f).mem = s.mem := rfl
@[simp] theorem State.modProc_flash (s : State) (c : Nat) (f : Proc → Proc) : (s.modProc c f).flash = s.flash := rfl
@[simp] theorem State.modProc_struck (s : State) (c : Nat) (f : Proc → Proc) : (s.modProc c f).struck = s.struck := rfl
@[simp] theorem State.modProc_flashHurt (s : State) (c : Nat) (f : Proc → Proc) : (s.modProc c f).flashHurt = s.flashHurt := rfl
@[simp] theorem State.modProc_dtime (s : State) (c : Nat) (f : Proc → Proc) : (s.modProc c f).dtime = s.dtime := rfl
@[simp] theorem State.modProc_timeHold (s : State) (c : Nat) (f : Proc → Proc) : (s.modProc c f).timeHold = s.timeHold := rfl
@[simp] theorem State.modProc_drift (s : State) (c : Nat) (f : Proc → Proc) : (s.modProc c f).drift = s.drift := rfl
@[simp] theorem State.modProc_slew (s : State) (c : Nat) (f : Proc → Proc) : (s.modProc c f).slew = s.slew := rfl
@[simp] theorem State.modProc_aligned (s : State) (c : Nat) (f : Proc → Proc) : (s.modProc c f).aligned = s.aligned := rfl
@[simp] theorem State.modProc_phase (s : State) (c : Nat) (f : Proc → Proc) : (s.modProc c f).phase = s.phase := rfl
@[simp] theorem State.modProc_incarn (s : State) (c : Nat) (f : Proc → Proc) : (s.modProc c f).incarn = s.incarn := rfl
@[simp] theorem State.modProc_modid (s : State) (c : Nat) (f : Proc → Proc) : (s.modProc c f).modid = s.modid := rfl
@[simp] theorem State.modProc_stale (s : State) (c : Nat) (f : Proc → Proc) : (s.modProc c f).stale = s.stale := rfl
@[simp] theorem State.modProc_partLo (s : State) (c : Nat) (f : Proc → Proc) : (s.modProc c f).partLo = s.partLo := rfl
@[simp] theorem State.modProc_partHi (s : State) (c : Nat) (f : Proc → Proc) : (s.modProc c f).partHi = s.partHi := rfl
@[simp] theorem State.modProc_rgnIdx (s : State) (c : Nat) (f : Proc → Proc) : (s.modProc c f).rgnIdx = s.rgnIdx := rfl
@[simp] theorem State.modProc_regions (s : State) (c : Nat) (f : Proc → Proc) : (s.modProc c f).regions = s.regions := rfl
@[simp] theorem State.modProc_rgnBase (s : State) (c : Nat) (f : Proc → Proc) : (s.modProc c f).rgnBase = s.rgnBase := rfl
@[simp] theorem State.modProc_rgnSize (s : State) (c : Nat) (f : Proc → Proc) : (s.modProc c f).rgnSize = s.rgnSize := rfl
@[simp] theorem State.modProc_askey (s : State) (c : Nat) (f : Proc → Proc) : (s.modProc c f).askey = s.askey := rfl
@[simp] theorem State.modProc_peers (s : State) (c : Nat) (f : Proc → Proc) : (s.modProc c f).peers = s.peers := rfl
@[simp] theorem State.modProc_links (s : State) (c : Nat) (f : Proc → Proc) : (s.modProc c f).links = s.links := rfl
@[simp] theorem State.modProc_streamsIn (s : State) (c : Nat) (f : Proc → Proc) : (s.modProc c f).streamsIn = s.streamsIn := rfl
@[simp] theorem State.modProc_streamsOut (s : State) (c : Nat) (f : Proc → Proc) : (s.modProc c f).streamsOut = s.streamsOut := rfl
@[simp] theorem State.modProc_replies (s : State) (c : Nat) (f : Proc → Proc) : (s.modProc c f).replies = s.replies := rfl
@[simp] theorem State.modProc_outbox (s : State) (c : Nat) (f : Proc → Proc) : (s.modProc c f).outbox = s.outbox := rfl
@[simp] theorem State.modProc_sent (s : State) (c : Nat) (f : Proc → Proc) : (s.modProc c f).sent = s.sent := rfl
@[simp] theorem State.modProc_cores (s : State) (c : Nat) (f : Proc → Proc) : (s.modProc c f).cores = s.cores := rfl
@[simp] theorem State.modProc_dies (s : State) (c : Nat) (f : Proc → Proc) : (s.modProc c f).dies = s.dies := rfl
@[simp] theorem State.modProc_net (s : State) (c : Nat) (f : Proc → Proc) : (s.modProc c f).net = s.net := rfl
@[simp] theorem State.modProc_hosts (s : State) (c : Nat) (f : Proc → Proc) : (s.modProc c f).hosts = s.hosts := rfl
@[simp] theorem State.modProc_held (s : State) (c : Nat) (f : Proc → Proc) : (s.modProc c f).held = s.held := rfl
@[simp] theorem State.modProc_xfers (s : State) (c : Nat) (f : Proc → Proc) : (s.modProc c f).xfers = s.xfers := rfl
@[simp] theorem State.modProc_borer (s : State) (c : Nat) (f : Proc → Proc) : (s.modProc c f).borer = s.borer := rfl
@[simp] theorem State.modProc_walks (s : State) (c : Nat) (f : Proc → Proc) : (s.modProc c f).walks = s.walks := rfl
@[simp] theorem State.modProc_shoots (s : State) (c : Nat) (f : Proc → Proc) : (s.modProc c f).shoots = s.shoots := rfl
@[simp] theorem State.modProc_recalls (s : State) (c : Nat) (f : Proc → Proc) : (s.modProc c f).recalls = s.recalls := rfl
@[simp] theorem State.modProc_guards (s : State) (c : Nat) (f : Proc → Proc) : (s.modProc c f).guards = s.guards := rfl
@[simp] theorem State.modProc_migs (s : State) (c : Nat) (f : Proc → Proc) : (s.modProc c f).migs = s.migs := rfl
@[simp] theorem State.modProc_counts (s : State) (c : Nat) (f : Proc → Proc) : (s.modProc c f).counts = s.counts := rfl
@[simp] theorem State.modProc_lendsHbm (s : State) (c : Nat) (f : Proc → Proc) : (s.modProc c f).lendsHbm = s.lendsHbm := rfl
@[simp] theorem State.modProc_claims (s : State) (c : Nat) (f : Proc → Proc) : (s.modProc c f).claims = s.claims := rfl
@[simp] theorem State.modProc_queues (s : State) (c : Nat) (f : Proc → Proc) : (s.modProc c f).queues = s.queues := rfl
@[simp] theorem State.modProc_flights (s : State) (c : Nat) (f : Proc → Proc) : (s.modProc c f).flights = s.flights := rfl
@[simp] theorem State.modProc_luTurn (s : State) (c : Nat) (f : Proc → Proc) : (s.modProc c f).luTurn = s.luTurn := rfl
@[simp] theorem State.modProc_luarm (s : State) (c : Nat) (f : Proc → Proc) : (s.modProc c f).luarm = s.luarm := rfl
@[simp] theorem State.modProc_fltenq (s : State) (c : Nat) (f : Proc → Proc) : (s.modProc c f).fltenq = s.fltenq := rfl
@[simp] theorem State.modProc_fltchan (s : State) (c : Nat) (f : Proc → Proc) : (s.modProc c f).fltchan = s.fltchan := rfl
@[simp] theorem State.modProc_units (s : State) (c : Nat) (f : Proc → Proc) : (s.modProc c f).units = s.units := rfl
@[simp] theorem State.modProc_ethDropped (s : State) (c : Nat) (f : Proc → Proc) : (s.modProc c f).ethDropped = s.ethDropped := rfl
@[simp] theorem State.modProc_fullService (s : State) (c : Nat) (f : Proc → Proc) : (s.modProc c f).fullService = s.fullService := rfl
@[simp] theorem State.modProc_mbStat (s : State) (c : Nat) (f : Proc → Proc) : (s.modProc c f).mbStat = s.mbStat := rfl
@[simp] theorem State.modProc_mbCmd (s : State) (c : Nat) (f : Proc → Proc) : (s.modProc c f).mbCmd = s.mbCmd := rfl
@[simp] theorem State.modProc_mbArg (s : State) (c : Nat) (f : Proc → Proc) : (s.modProc c f).mbArg = s.mbArg := rfl
@[simp] theorem State.modProc_mbData (s : State) (c : Nat) (f : Proc → Proc) : (s.modProc c f).mbData = s.mbData := rfl
@[simp] theorem State.modProc_evready (s : State) (c : Nat) (f : Proc → Proc) : (s.modProc c f).evready = s.evready := rfl
@[simp] theorem State.modProc_errlog (s : State) (c : Nat) (f : Proc → Proc) : (s.modProc c f).errlog = s.errlog := rfl
@[simp] theorem State.modProc_measures (s : State) (c : Nat) (f : Proc → Proc) : (s.modProc c f).measures = s.measures := rfl
@[simp] theorem State.modProc_bootStage (s : State) (c : Nat) (f : Proc → Proc) : (s.modProc c f).bootStage = s.bootStage := rfl
@[simp] theorem State.modProc_bootHalted (s : State) (c : Nat) (f : Proc → Proc) : (s.modProc c f).bootHalted = s.bootHalted := rfl
@[simp] theorem State.modProc_imageA (s : State) (c : Nat) (f : Proc → Proc) : (s.modProc c f).imageA = s.imageA := rfl
@[simp] theorem State.modProc_imageB (s : State) (c : Nat) (f : Proc → Proc) : (s.modProc c f).imageB = s.imageB := rfl
@[simp] theorem State.modProc_updateOk (s : State) (c : Nat) (f : Proc → Proc) : (s.modProc c f).updateOk = s.updateOk := rfl
@[simp] theorem State.modProc_unusedB (s : State) (c : Nat) (f : Proc → Proc) : (s.modProc c f).unusedB = s.unusedB := rfl
@[simp] theorem State.modProc_signer (s : State) (c : Nat) (f : Proc → Proc) : (s.modProc c f).signer = s.signer := rfl
@[simp] theorem State.modProc_smbus (s : State) (c : Nat) (f : Proc → Proc) : (s.modProc c f).smbus = s.smbus := rfl
@[simp] theorem State.modProc_reports (s : State) (c : Nat) (f : Proc → Proc) : (s.modProc c f).reports = s.reports := rfl
@[simp] theorem State.modProc_spdm (s : State) (c : Nat) (f : Proc → Proc) : (s.modProc c f).spdm = s.spdm := rfl
@[simp] theorem State.modProc_storedIncarn (s : State) (c : Nat) (f : Proc → Proc) : (s.modProc c f).storedIncarn = s.storedIncarn := rfl
@[simp] theorem State.modProc_raised (s : State) (c : Nat) (f : Proc → Proc) : (s.modProc c f).raised = s.raised := rfl
@[simp] theorem State.modProc_quiesced (s : State) (c : Nat) (f : Proc → Proc) : (s.modProc c f).quiesced = s.quiesced := rfl
@[simp] theorem State.modProc_lostOps (s : State) (c : Nat) (f : Proc → Proc) : (s.modProc c f).lostOps = s.lostOps := rfl
@[simp] theorem State.modProc_plan (s : State) (c : Nat) (f : Proc → Proc) : (s.modProc c f).plan = s.plan := rfl
@[simp] theorem State.modProc_turn (s : State) (c : Nat) (f : Proc → Proc) : (s.modProc c f).turn = s.turn := rfl
@[simp] theorem State.modProc_pace (s : State) (c : Nat) (f : Proc → Proc) : (s.modProc c f).pace = s.pace := rfl
@[simp] theorem State.modProc_fresh (s : State) (c : Nat) (f : Proc → Proc) : (s.modProc c f).fresh = s.fresh := rfl
@[simp] theorem State.modProc_nextId (s : State) (c : Nat) (f : Proc → Proc) : (s.modProc c f).nextId = s.nextId := rfl

/-! ## State.modDie -/

@[simp] theorem State.modDie_mem (s : State) (c : Nat) (f : Die → Die) : (s.modDie c f).mem = s.mem := rfl
@[simp] theorem State.modDie_flash (s : State) (c : Nat) (f : Die → Die) : (s.modDie c f).flash = s.flash := rfl
@[simp] theorem State.modDie_struck (s : State) (c : Nat) (f : Die → Die) : (s.modDie c f).struck = s.struck := rfl
@[simp] theorem State.modDie_flashHurt (s : State) (c : Nat) (f : Die → Die) : (s.modDie c f).flashHurt = s.flashHurt := rfl
@[simp] theorem State.modDie_dtime (s : State) (c : Nat) (f : Die → Die) : (s.modDie c f).dtime = s.dtime := rfl
@[simp] theorem State.modDie_timeHold (s : State) (c : Nat) (f : Die → Die) : (s.modDie c f).timeHold = s.timeHold := rfl
@[simp] theorem State.modDie_drift (s : State) (c : Nat) (f : Die → Die) : (s.modDie c f).drift = s.drift := rfl
@[simp] theorem State.modDie_slew (s : State) (c : Nat) (f : Die → Die) : (s.modDie c f).slew = s.slew := rfl
@[simp] theorem State.modDie_aligned (s : State) (c : Nat) (f : Die → Die) : (s.modDie c f).aligned = s.aligned := rfl
@[simp] theorem State.modDie_phase (s : State) (c : Nat) (f : Die → Die) : (s.modDie c f).phase = s.phase := rfl
@[simp] theorem State.modDie_incarn (s : State) (c : Nat) (f : Die → Die) : (s.modDie c f).incarn = s.incarn := rfl
@[simp] theorem State.modDie_modid (s : State) (c : Nat) (f : Die → Die) : (s.modDie c f).modid = s.modid := rfl
@[simp] theorem State.modDie_stale (s : State) (c : Nat) (f : Die → Die) : (s.modDie c f).stale = s.stale := rfl
@[simp] theorem State.modDie_partLo (s : State) (c : Nat) (f : Die → Die) : (s.modDie c f).partLo = s.partLo := rfl
@[simp] theorem State.modDie_partHi (s : State) (c : Nat) (f : Die → Die) : (s.modDie c f).partHi = s.partHi := rfl
@[simp] theorem State.modDie_rgnIdx (s : State) (c : Nat) (f : Die → Die) : (s.modDie c f).rgnIdx = s.rgnIdx := rfl
@[simp] theorem State.modDie_regions (s : State) (c : Nat) (f : Die → Die) : (s.modDie c f).regions = s.regions := rfl
@[simp] theorem State.modDie_rgnBase (s : State) (c : Nat) (f : Die → Die) : (s.modDie c f).rgnBase = s.rgnBase := rfl
@[simp] theorem State.modDie_rgnSize (s : State) (c : Nat) (f : Die → Die) : (s.modDie c f).rgnSize = s.rgnSize := rfl
@[simp] theorem State.modDie_askey (s : State) (c : Nat) (f : Die → Die) : (s.modDie c f).askey = s.askey := rfl
@[simp] theorem State.modDie_peers (s : State) (c : Nat) (f : Die → Die) : (s.modDie c f).peers = s.peers := rfl
@[simp] theorem State.modDie_links (s : State) (c : Nat) (f : Die → Die) : (s.modDie c f).links = s.links := rfl
@[simp] theorem State.modDie_streamsIn (s : State) (c : Nat) (f : Die → Die) : (s.modDie c f).streamsIn = s.streamsIn := rfl
@[simp] theorem State.modDie_streamsOut (s : State) (c : Nat) (f : Die → Die) : (s.modDie c f).streamsOut = s.streamsOut := rfl
@[simp] theorem State.modDie_replies (s : State) (c : Nat) (f : Die → Die) : (s.modDie c f).replies = s.replies := rfl
@[simp] theorem State.modDie_outbox (s : State) (c : Nat) (f : Die → Die) : (s.modDie c f).outbox = s.outbox := rfl
@[simp] theorem State.modDie_sent (s : State) (c : Nat) (f : Die → Die) : (s.modDie c f).sent = s.sent := rfl
@[simp] theorem State.modDie_cores (s : State) (c : Nat) (f : Die → Die) : (s.modDie c f).cores = s.cores := rfl
@[simp] theorem State.modDie_procs (s : State) (c : Nat) (f : Die → Die) : (s.modDie c f).procs = s.procs := rfl
@[simp] theorem State.modDie_net (s : State) (c : Nat) (f : Die → Die) : (s.modDie c f).net = s.net := rfl
@[simp] theorem State.modDie_hosts (s : State) (c : Nat) (f : Die → Die) : (s.modDie c f).hosts = s.hosts := rfl
@[simp] theorem State.modDie_held (s : State) (c : Nat) (f : Die → Die) : (s.modDie c f).held = s.held := rfl
@[simp] theorem State.modDie_xfers (s : State) (c : Nat) (f : Die → Die) : (s.modDie c f).xfers = s.xfers := rfl
@[simp] theorem State.modDie_borer (s : State) (c : Nat) (f : Die → Die) : (s.modDie c f).borer = s.borer := rfl
@[simp] theorem State.modDie_walks (s : State) (c : Nat) (f : Die → Die) : (s.modDie c f).walks = s.walks := rfl
@[simp] theorem State.modDie_shoots (s : State) (c : Nat) (f : Die → Die) : (s.modDie c f).shoots = s.shoots := rfl
@[simp] theorem State.modDie_recalls (s : State) (c : Nat) (f : Die → Die) : (s.modDie c f).recalls = s.recalls := rfl
@[simp] theorem State.modDie_guards (s : State) (c : Nat) (f : Die → Die) : (s.modDie c f).guards = s.guards := rfl
@[simp] theorem State.modDie_migs (s : State) (c : Nat) (f : Die → Die) : (s.modDie c f).migs = s.migs := rfl
@[simp] theorem State.modDie_counts (s : State) (c : Nat) (f : Die → Die) : (s.modDie c f).counts = s.counts := rfl
@[simp] theorem State.modDie_lendsHbm (s : State) (c : Nat) (f : Die → Die) : (s.modDie c f).lendsHbm = s.lendsHbm := rfl
@[simp] theorem State.modDie_claims (s : State) (c : Nat) (f : Die → Die) : (s.modDie c f).claims = s.claims := rfl
@[simp] theorem State.modDie_queues (s : State) (c : Nat) (f : Die → Die) : (s.modDie c f).queues = s.queues := rfl
@[simp] theorem State.modDie_flights (s : State) (c : Nat) (f : Die → Die) : (s.modDie c f).flights = s.flights := rfl
@[simp] theorem State.modDie_luTurn (s : State) (c : Nat) (f : Die → Die) : (s.modDie c f).luTurn = s.luTurn := rfl
@[simp] theorem State.modDie_luarm (s : State) (c : Nat) (f : Die → Die) : (s.modDie c f).luarm = s.luarm := rfl
@[simp] theorem State.modDie_fltenq (s : State) (c : Nat) (f : Die → Die) : (s.modDie c f).fltenq = s.fltenq := rfl
@[simp] theorem State.modDie_fltchan (s : State) (c : Nat) (f : Die → Die) : (s.modDie c f).fltchan = s.fltchan := rfl
@[simp] theorem State.modDie_units (s : State) (c : Nat) (f : Die → Die) : (s.modDie c f).units = s.units := rfl
@[simp] theorem State.modDie_ethDropped (s : State) (c : Nat) (f : Die → Die) : (s.modDie c f).ethDropped = s.ethDropped := rfl
@[simp] theorem State.modDie_fullService (s : State) (c : Nat) (f : Die → Die) : (s.modDie c f).fullService = s.fullService := rfl
@[simp] theorem State.modDie_mbStat (s : State) (c : Nat) (f : Die → Die) : (s.modDie c f).mbStat = s.mbStat := rfl
@[simp] theorem State.modDie_mbCmd (s : State) (c : Nat) (f : Die → Die) : (s.modDie c f).mbCmd = s.mbCmd := rfl
@[simp] theorem State.modDie_mbArg (s : State) (c : Nat) (f : Die → Die) : (s.modDie c f).mbArg = s.mbArg := rfl
@[simp] theorem State.modDie_mbData (s : State) (c : Nat) (f : Die → Die) : (s.modDie c f).mbData = s.mbData := rfl
@[simp] theorem State.modDie_evready (s : State) (c : Nat) (f : Die → Die) : (s.modDie c f).evready = s.evready := rfl
@[simp] theorem State.modDie_errlog (s : State) (c : Nat) (f : Die → Die) : (s.modDie c f).errlog = s.errlog := rfl
@[simp] theorem State.modDie_measures (s : State) (c : Nat) (f : Die → Die) : (s.modDie c f).measures = s.measures := rfl
@[simp] theorem State.modDie_bootStage (s : State) (c : Nat) (f : Die → Die) : (s.modDie c f).bootStage = s.bootStage := rfl
@[simp] theorem State.modDie_bootHalted (s : State) (c : Nat) (f : Die → Die) : (s.modDie c f).bootHalted = s.bootHalted := rfl
@[simp] theorem State.modDie_imageA (s : State) (c : Nat) (f : Die → Die) : (s.modDie c f).imageA = s.imageA := rfl
@[simp] theorem State.modDie_imageB (s : State) (c : Nat) (f : Die → Die) : (s.modDie c f).imageB = s.imageB := rfl
@[simp] theorem State.modDie_updateOk (s : State) (c : Nat) (f : Die → Die) : (s.modDie c f).updateOk = s.updateOk := rfl
@[simp] theorem State.modDie_unusedB (s : State) (c : Nat) (f : Die → Die) : (s.modDie c f).unusedB = s.unusedB := rfl
@[simp] theorem State.modDie_signer (s : State) (c : Nat) (f : Die → Die) : (s.modDie c f).signer = s.signer := rfl
@[simp] theorem State.modDie_smbus (s : State) (c : Nat) (f : Die → Die) : (s.modDie c f).smbus = s.smbus := rfl
@[simp] theorem State.modDie_reports (s : State) (c : Nat) (f : Die → Die) : (s.modDie c f).reports = s.reports := rfl
@[simp] theorem State.modDie_spdm (s : State) (c : Nat) (f : Die → Die) : (s.modDie c f).spdm = s.spdm := rfl
@[simp] theorem State.modDie_storedIncarn (s : State) (c : Nat) (f : Die → Die) : (s.modDie c f).storedIncarn = s.storedIncarn := rfl
@[simp] theorem State.modDie_raised (s : State) (c : Nat) (f : Die → Die) : (s.modDie c f).raised = s.raised := rfl
@[simp] theorem State.modDie_quiesced (s : State) (c : Nat) (f : Die → Die) : (s.modDie c f).quiesced = s.quiesced := rfl
@[simp] theorem State.modDie_lostOps (s : State) (c : Nat) (f : Die → Die) : (s.modDie c f).lostOps = s.lostOps := rfl
@[simp] theorem State.modDie_plan (s : State) (c : Nat) (f : Die → Die) : (s.modDie c f).plan = s.plan := rfl
@[simp] theorem State.modDie_turn (s : State) (c : Nat) (f : Die → Die) : (s.modDie c f).turn = s.turn := rfl
@[simp] theorem State.modDie_pace (s : State) (c : Nat) (f : Die → Die) : (s.modDie c f).pace = s.pace := rfl
@[simp] theorem State.modDie_fresh (s : State) (c : Nat) (f : Die → Die) : (s.modDie c f).fresh = s.fresh := rfl
@[simp] theorem State.modDie_nextId (s : State) (c : Nat) (f : Die → Die) : (s.modDie c f).nextId = s.nextId := rfl

/-! ## State.send -/

@[simp] theorem State.send_mem (s : State) (a : Src) (d : Home) (b : Body) : (s.send a d b).mem = s.mem := rfl
@[simp] theorem State.send_flash (s : State) (a : Src) (d : Home) (b : Body) : (s.send a d b).flash = s.flash := rfl
@[simp] theorem State.send_struck (s : State) (a : Src) (d : Home) (b : Body) : (s.send a d b).struck = s.struck := rfl
@[simp] theorem State.send_flashHurt (s : State) (a : Src) (d : Home) (b : Body) : (s.send a d b).flashHurt = s.flashHurt := rfl
@[simp] theorem State.send_dtime (s : State) (a : Src) (d : Home) (b : Body) : (s.send a d b).dtime = s.dtime := rfl
@[simp] theorem State.send_timeHold (s : State) (a : Src) (d : Home) (b : Body) : (s.send a d b).timeHold = s.timeHold := rfl
@[simp] theorem State.send_drift (s : State) (a : Src) (d : Home) (b : Body) : (s.send a d b).drift = s.drift := rfl
@[simp] theorem State.send_slew (s : State) (a : Src) (d : Home) (b : Body) : (s.send a d b).slew = s.slew := rfl
@[simp] theorem State.send_aligned (s : State) (a : Src) (d : Home) (b : Body) : (s.send a d b).aligned = s.aligned := rfl
@[simp] theorem State.send_phase (s : State) (a : Src) (d : Home) (b : Body) : (s.send a d b).phase = s.phase := rfl
@[simp] theorem State.send_incarn (s : State) (a : Src) (d : Home) (b : Body) : (s.send a d b).incarn = s.incarn := rfl
@[simp] theorem State.send_modid (s : State) (a : Src) (d : Home) (b : Body) : (s.send a d b).modid = s.modid := rfl
@[simp] theorem State.send_stale (s : State) (a : Src) (d : Home) (b : Body) : (s.send a d b).stale = s.stale := rfl
@[simp] theorem State.send_partLo (s : State) (a : Src) (d : Home) (b : Body) : (s.send a d b).partLo = s.partLo := rfl
@[simp] theorem State.send_partHi (s : State) (a : Src) (d : Home) (b : Body) : (s.send a d b).partHi = s.partHi := rfl
@[simp] theorem State.send_rgnIdx (s : State) (a : Src) (d : Home) (b : Body) : (s.send a d b).rgnIdx = s.rgnIdx := rfl
@[simp] theorem State.send_regions (s : State) (a : Src) (d : Home) (b : Body) : (s.send a d b).regions = s.regions := rfl
@[simp] theorem State.send_rgnBase (s : State) (a : Src) (d : Home) (b : Body) : (s.send a d b).rgnBase = s.rgnBase := rfl
@[simp] theorem State.send_rgnSize (s : State) (a : Src) (d : Home) (b : Body) : (s.send a d b).rgnSize = s.rgnSize := rfl
@[simp] theorem State.send_askey (s : State) (a : Src) (d : Home) (b : Body) : (s.send a d b).askey = s.askey := rfl
@[simp] theorem State.send_peers (s : State) (a : Src) (d : Home) (b : Body) : (s.send a d b).peers = s.peers := rfl
@[simp] theorem State.send_links (s : State) (a : Src) (d : Home) (b : Body) : (s.send a d b).links = s.links := rfl
@[simp] theorem State.send_streamsIn (s : State) (a : Src) (d : Home) (b : Body) : (s.send a d b).streamsIn = s.streamsIn := rfl
@[simp] theorem State.send_streamsOut (s : State) (a : Src) (d : Home) (b : Body) : (s.send a d b).streamsOut = s.streamsOut := rfl
@[simp] theorem State.send_replies (s : State) (a : Src) (d : Home) (b : Body) : (s.send a d b).replies = s.replies := rfl
@[simp] theorem State.send_outbox (s : State) (a : Src) (d : Home) (b : Body) : (s.send a d b).outbox = s.outbox := rfl
@[simp] theorem State.send_sent (s : State) (a : Src) (d : Home) (b : Body) : (s.send a d b).sent = s.sent := rfl
@[simp] theorem State.send_cores (s : State) (a : Src) (d : Home) (b : Body) : (s.send a d b).cores = s.cores := rfl
@[simp] theorem State.send_procs (s : State) (a : Src) (d : Home) (b : Body) : (s.send a d b).procs = s.procs := rfl
@[simp] theorem State.send_dies (s : State) (a : Src) (d : Home) (b : Body) : (s.send a d b).dies = s.dies := rfl
@[simp] theorem State.send_hosts (s : State) (a : Src) (d : Home) (b : Body) : (s.send a d b).hosts = s.hosts := rfl
@[simp] theorem State.send_held (s : State) (a : Src) (d : Home) (b : Body) : (s.send a d b).held = s.held := rfl
@[simp] theorem State.send_xfers (s : State) (a : Src) (d : Home) (b : Body) : (s.send a d b).xfers = s.xfers := rfl
@[simp] theorem State.send_borer (s : State) (a : Src) (d : Home) (b : Body) : (s.send a d b).borer = s.borer := rfl
@[simp] theorem State.send_walks (s : State) (a : Src) (d : Home) (b : Body) : (s.send a d b).walks = s.walks := rfl
@[simp] theorem State.send_shoots (s : State) (a : Src) (d : Home) (b : Body) : (s.send a d b).shoots = s.shoots := rfl
@[simp] theorem State.send_recalls (s : State) (a : Src) (d : Home) (b : Body) : (s.send a d b).recalls = s.recalls := rfl
@[simp] theorem State.send_guards (s : State) (a : Src) (d : Home) (b : Body) : (s.send a d b).guards = s.guards := rfl
@[simp] theorem State.send_migs (s : State) (a : Src) (d : Home) (b : Body) : (s.send a d b).migs = s.migs := rfl
@[simp] theorem State.send_counts (s : State) (a : Src) (d : Home) (b : Body) : (s.send a d b).counts = s.counts := rfl
@[simp] theorem State.send_lendsHbm (s : State) (a : Src) (d : Home) (b : Body) : (s.send a d b).lendsHbm = s.lendsHbm := rfl
@[simp] theorem State.send_claims (s : State) (a : Src) (d : Home) (b : Body) : (s.send a d b).claims = s.claims := rfl
@[simp] theorem State.send_queues (s : State) (a : Src) (d : Home) (b : Body) : (s.send a d b).queues = s.queues := rfl
@[simp] theorem State.send_flights (s : State) (a : Src) (d : Home) (b : Body) : (s.send a d b).flights = s.flights := rfl
@[simp] theorem State.send_luTurn (s : State) (a : Src) (d : Home) (b : Body) : (s.send a d b).luTurn = s.luTurn := rfl
@[simp] theorem State.send_luarm (s : State) (a : Src) (d : Home) (b : Body) : (s.send a d b).luarm = s.luarm := rfl
@[simp] theorem State.send_fltenq (s : State) (a : Src) (d : Home) (b : Body) : (s.send a d b).fltenq = s.fltenq := rfl
@[simp] theorem State.send_fltchan (s : State) (a : Src) (d : Home) (b : Body) : (s.send a d b).fltchan = s.fltchan := rfl
@[simp] theorem State.send_units (s : State) (a : Src) (d : Home) (b : Body) : (s.send a d b).units = s.units := rfl
@[simp] theorem State.send_ethDropped (s : State) (a : Src) (d : Home) (b : Body) : (s.send a d b).ethDropped = s.ethDropped := rfl
@[simp] theorem State.send_fullService (s : State) (a : Src) (d : Home) (b : Body) : (s.send a d b).fullService = s.fullService := rfl
@[simp] theorem State.send_mbStat (s : State) (a : Src) (d : Home) (b : Body) : (s.send a d b).mbStat = s.mbStat := rfl
@[simp] theorem State.send_mbCmd (s : State) (a : Src) (d : Home) (b : Body) : (s.send a d b).mbCmd = s.mbCmd := rfl
@[simp] theorem State.send_mbArg (s : State) (a : Src) (d : Home) (b : Body) : (s.send a d b).mbArg = s.mbArg := rfl
@[simp] theorem State.send_mbData (s : State) (a : Src) (d : Home) (b : Body) : (s.send a d b).mbData = s.mbData := rfl
@[simp] theorem State.send_evready (s : State) (a : Src) (d : Home) (b : Body) : (s.send a d b).evready = s.evready := rfl
@[simp] theorem State.send_errlog (s : State) (a : Src) (d : Home) (b : Body) : (s.send a d b).errlog = s.errlog := rfl
@[simp] theorem State.send_measures (s : State) (a : Src) (d : Home) (b : Body) : (s.send a d b).measures = s.measures := rfl
@[simp] theorem State.send_bootStage (s : State) (a : Src) (d : Home) (b : Body) : (s.send a d b).bootStage = s.bootStage := rfl
@[simp] theorem State.send_bootHalted (s : State) (a : Src) (d : Home) (b : Body) : (s.send a d b).bootHalted = s.bootHalted := rfl
@[simp] theorem State.send_imageA (s : State) (a : Src) (d : Home) (b : Body) : (s.send a d b).imageA = s.imageA := rfl
@[simp] theorem State.send_imageB (s : State) (a : Src) (d : Home) (b : Body) : (s.send a d b).imageB = s.imageB := rfl
@[simp] theorem State.send_updateOk (s : State) (a : Src) (d : Home) (b : Body) : (s.send a d b).updateOk = s.updateOk := rfl
@[simp] theorem State.send_unusedB (s : State) (a : Src) (d : Home) (b : Body) : (s.send a d b).unusedB = s.unusedB := rfl
@[simp] theorem State.send_signer (s : State) (a : Src) (d : Home) (b : Body) : (s.send a d b).signer = s.signer := rfl
@[simp] theorem State.send_smbus (s : State) (a : Src) (d : Home) (b : Body) : (s.send a d b).smbus = s.smbus := rfl
@[simp] theorem State.send_reports (s : State) (a : Src) (d : Home) (b : Body) : (s.send a d b).reports = s.reports := rfl
@[simp] theorem State.send_spdm (s : State) (a : Src) (d : Home) (b : Body) : (s.send a d b).spdm = s.spdm := rfl
@[simp] theorem State.send_storedIncarn (s : State) (a : Src) (d : Home) (b : Body) : (s.send a d b).storedIncarn = s.storedIncarn := rfl
@[simp] theorem State.send_raised (s : State) (a : Src) (d : Home) (b : Body) : (s.send a d b).raised = s.raised := rfl
@[simp] theorem State.send_quiesced (s : State) (a : Src) (d : Home) (b : Body) : (s.send a d b).quiesced = s.quiesced := rfl
@[simp] theorem State.send_lostOps (s : State) (a : Src) (d : Home) (b : Body) : (s.send a d b).lostOps = s.lostOps := rfl
@[simp] theorem State.send_plan (s : State) (a : Src) (d : Home) (b : Body) : (s.send a d b).plan = s.plan := rfl
@[simp] theorem State.send_turn (s : State) (a : Src) (d : Home) (b : Body) : (s.send a d b).turn = s.turn := rfl
@[simp] theorem State.send_pace (s : State) (a : Src) (d : Home) (b : Body) : (s.send a d b).pace = s.pace := rfl
@[simp] theorem State.send_fresh (s : State) (a : Src) (d : Home) (b : Body) : (s.send a d b).fresh = s.fresh := rfl

/-! ## State.take -/

@[simp] theorem State.take_mem (s : State) (i : Nat) : (s.take i).mem = s.mem := rfl
@[simp] theorem State.take_flash (s : State) (i : Nat) : (s.take i).flash = s.flash := rfl
@[simp] theorem State.take_struck (s : State) (i : Nat) : (s.take i).struck = s.struck := rfl
@[simp] theorem State.take_flashHurt (s : State) (i : Nat) : (s.take i).flashHurt = s.flashHurt := rfl
@[simp] theorem State.take_dtime (s : State) (i : Nat) : (s.take i).dtime = s.dtime := rfl
@[simp] theorem State.take_timeHold (s : State) (i : Nat) : (s.take i).timeHold = s.timeHold := rfl
@[simp] theorem State.take_drift (s : State) (i : Nat) : (s.take i).drift = s.drift := rfl
@[simp] theorem State.take_slew (s : State) (i : Nat) : (s.take i).slew = s.slew := rfl
@[simp] theorem State.take_aligned (s : State) (i : Nat) : (s.take i).aligned = s.aligned := rfl
@[simp] theorem State.take_phase (s : State) (i : Nat) : (s.take i).phase = s.phase := rfl
@[simp] theorem State.take_incarn (s : State) (i : Nat) : (s.take i).incarn = s.incarn := rfl
@[simp] theorem State.take_modid (s : State) (i : Nat) : (s.take i).modid = s.modid := rfl
@[simp] theorem State.take_stale (s : State) (i : Nat) : (s.take i).stale = s.stale := rfl
@[simp] theorem State.take_partLo (s : State) (i : Nat) : (s.take i).partLo = s.partLo := rfl
@[simp] theorem State.take_partHi (s : State) (i : Nat) : (s.take i).partHi = s.partHi := rfl
@[simp] theorem State.take_rgnIdx (s : State) (i : Nat) : (s.take i).rgnIdx = s.rgnIdx := rfl
@[simp] theorem State.take_regions (s : State) (i : Nat) : (s.take i).regions = s.regions := rfl
@[simp] theorem State.take_rgnBase (s : State) (i : Nat) : (s.take i).rgnBase = s.rgnBase := rfl
@[simp] theorem State.take_rgnSize (s : State) (i : Nat) : (s.take i).rgnSize = s.rgnSize := rfl
@[simp] theorem State.take_askey (s : State) (i : Nat) : (s.take i).askey = s.askey := rfl
@[simp] theorem State.take_peers (s : State) (i : Nat) : (s.take i).peers = s.peers := rfl
@[simp] theorem State.take_links (s : State) (i : Nat) : (s.take i).links = s.links := rfl
@[simp] theorem State.take_streamsIn (s : State) (i : Nat) : (s.take i).streamsIn = s.streamsIn := rfl
@[simp] theorem State.take_streamsOut (s : State) (i : Nat) : (s.take i).streamsOut = s.streamsOut := rfl
@[simp] theorem State.take_replies (s : State) (i : Nat) : (s.take i).replies = s.replies := rfl
@[simp] theorem State.take_outbox (s : State) (i : Nat) : (s.take i).outbox = s.outbox := rfl
@[simp] theorem State.take_sent (s : State) (i : Nat) : (s.take i).sent = s.sent := rfl
@[simp] theorem State.take_cores (s : State) (i : Nat) : (s.take i).cores = s.cores := rfl
@[simp] theorem State.take_procs (s : State) (i : Nat) : (s.take i).procs = s.procs := rfl
@[simp] theorem State.take_dies (s : State) (i : Nat) : (s.take i).dies = s.dies := rfl
@[simp] theorem State.take_hosts (s : State) (i : Nat) : (s.take i).hosts = s.hosts := rfl
@[simp] theorem State.take_held (s : State) (i : Nat) : (s.take i).held = s.held := rfl
@[simp] theorem State.take_xfers (s : State) (i : Nat) : (s.take i).xfers = s.xfers := rfl
@[simp] theorem State.take_borer (s : State) (i : Nat) : (s.take i).borer = s.borer := rfl
@[simp] theorem State.take_walks (s : State) (i : Nat) : (s.take i).walks = s.walks := rfl
@[simp] theorem State.take_shoots (s : State) (i : Nat) : (s.take i).shoots = s.shoots := rfl
@[simp] theorem State.take_recalls (s : State) (i : Nat) : (s.take i).recalls = s.recalls := rfl
@[simp] theorem State.take_guards (s : State) (i : Nat) : (s.take i).guards = s.guards := rfl
@[simp] theorem State.take_migs (s : State) (i : Nat) : (s.take i).migs = s.migs := rfl
@[simp] theorem State.take_counts (s : State) (i : Nat) : (s.take i).counts = s.counts := rfl
@[simp] theorem State.take_lendsHbm (s : State) (i : Nat) : (s.take i).lendsHbm = s.lendsHbm := rfl
@[simp] theorem State.take_claims (s : State) (i : Nat) : (s.take i).claims = s.claims := rfl
@[simp] theorem State.take_queues (s : State) (i : Nat) : (s.take i).queues = s.queues := rfl
@[simp] theorem State.take_flights (s : State) (i : Nat) : (s.take i).flights = s.flights := rfl
@[simp] theorem State.take_luTurn (s : State) (i : Nat) : (s.take i).luTurn = s.luTurn := rfl
@[simp] theorem State.take_luarm (s : State) (i : Nat) : (s.take i).luarm = s.luarm := rfl
@[simp] theorem State.take_fltenq (s : State) (i : Nat) : (s.take i).fltenq = s.fltenq := rfl
@[simp] theorem State.take_fltchan (s : State) (i : Nat) : (s.take i).fltchan = s.fltchan := rfl
@[simp] theorem State.take_units (s : State) (i : Nat) : (s.take i).units = s.units := rfl
@[simp] theorem State.take_ethDropped (s : State) (i : Nat) : (s.take i).ethDropped = s.ethDropped := rfl
@[simp] theorem State.take_fullService (s : State) (i : Nat) : (s.take i).fullService = s.fullService := rfl
@[simp] theorem State.take_mbStat (s : State) (i : Nat) : (s.take i).mbStat = s.mbStat := rfl
@[simp] theorem State.take_mbCmd (s : State) (i : Nat) : (s.take i).mbCmd = s.mbCmd := rfl
@[simp] theorem State.take_mbArg (s : State) (i : Nat) : (s.take i).mbArg = s.mbArg := rfl
@[simp] theorem State.take_mbData (s : State) (i : Nat) : (s.take i).mbData = s.mbData := rfl
@[simp] theorem State.take_evready (s : State) (i : Nat) : (s.take i).evready = s.evready := rfl
@[simp] theorem State.take_errlog (s : State) (i : Nat) : (s.take i).errlog = s.errlog := rfl
@[simp] theorem State.take_measures (s : State) (i : Nat) : (s.take i).measures = s.measures := rfl
@[simp] theorem State.take_bootStage (s : State) (i : Nat) : (s.take i).bootStage = s.bootStage := rfl
@[simp] theorem State.take_bootHalted (s : State) (i : Nat) : (s.take i).bootHalted = s.bootHalted := rfl
@[simp] theorem State.take_imageA (s : State) (i : Nat) : (s.take i).imageA = s.imageA := rfl
@[simp] theorem State.take_imageB (s : State) (i : Nat) : (s.take i).imageB = s.imageB := rfl
@[simp] theorem State.take_updateOk (s : State) (i : Nat) : (s.take i).updateOk = s.updateOk := rfl
@[simp] theorem State.take_unusedB (s : State) (i : Nat) : (s.take i).unusedB = s.unusedB := rfl
@[simp] theorem State.take_signer (s : State) (i : Nat) : (s.take i).signer = s.signer := rfl
@[simp] theorem State.take_smbus (s : State) (i : Nat) : (s.take i).smbus = s.smbus := rfl
@[simp] theorem State.take_reports (s : State) (i : Nat) : (s.take i).reports = s.reports := rfl
@[simp] theorem State.take_spdm (s : State) (i : Nat) : (s.take i).spdm = s.spdm := rfl
@[simp] theorem State.take_storedIncarn (s : State) (i : Nat) : (s.take i).storedIncarn = s.storedIncarn := rfl
@[simp] theorem State.take_raised (s : State) (i : Nat) : (s.take i).raised = s.raised := rfl
@[simp] theorem State.take_quiesced (s : State) (i : Nat) : (s.take i).quiesced = s.quiesced := rfl
@[simp] theorem State.take_lostOps (s : State) (i : Nat) : (s.take i).lostOps = s.lostOps := rfl
@[simp] theorem State.take_plan (s : State) (i : Nat) : (s.take i).plan = s.plan := rfl
@[simp] theorem State.take_turn (s : State) (i : Nat) : (s.take i).turn = s.turn := rfl
@[simp] theorem State.take_pace (s : State) (i : Nat) : (s.take i).pace = s.pace := rfl
@[simp] theorem State.take_fresh (s : State) (i : Nat) : (s.take i).fresh = s.fresh := rfl
@[simp] theorem State.take_nextId (s : State) (i : Nat) : (s.take i).nextId = s.nextId := rfl

/-! ## State.bump -/

@[simp] theorem State.bump_mem (s : State) (n : Nat) : (s.bump n).mem = s.mem := rfl
@[simp] theorem State.bump_flash (s : State) (n : Nat) : (s.bump n).flash = s.flash := rfl
@[simp] theorem State.bump_struck (s : State) (n : Nat) : (s.bump n).struck = s.struck := rfl
@[simp] theorem State.bump_flashHurt (s : State) (n : Nat) : (s.bump n).flashHurt = s.flashHurt := rfl
@[simp] theorem State.bump_dtime (s : State) (n : Nat) : (s.bump n).dtime = s.dtime := rfl
@[simp] theorem State.bump_timeHold (s : State) (n : Nat) : (s.bump n).timeHold = s.timeHold := rfl
@[simp] theorem State.bump_drift (s : State) (n : Nat) : (s.bump n).drift = s.drift := rfl
@[simp] theorem State.bump_slew (s : State) (n : Nat) : (s.bump n).slew = s.slew := rfl
@[simp] theorem State.bump_aligned (s : State) (n : Nat) : (s.bump n).aligned = s.aligned := rfl
@[simp] theorem State.bump_phase (s : State) (n : Nat) : (s.bump n).phase = s.phase := rfl
@[simp] theorem State.bump_incarn (s : State) (n : Nat) : (s.bump n).incarn = s.incarn := rfl
@[simp] theorem State.bump_modid (s : State) (n : Nat) : (s.bump n).modid = s.modid := rfl
@[simp] theorem State.bump_stale (s : State) (n : Nat) : (s.bump n).stale = s.stale := rfl
@[simp] theorem State.bump_partLo (s : State) (n : Nat) : (s.bump n).partLo = s.partLo := rfl
@[simp] theorem State.bump_partHi (s : State) (n : Nat) : (s.bump n).partHi = s.partHi := rfl
@[simp] theorem State.bump_rgnIdx (s : State) (n : Nat) : (s.bump n).rgnIdx = s.rgnIdx := rfl
@[simp] theorem State.bump_regions (s : State) (n : Nat) : (s.bump n).regions = s.regions := rfl
@[simp] theorem State.bump_rgnBase (s : State) (n : Nat) : (s.bump n).rgnBase = s.rgnBase := rfl
@[simp] theorem State.bump_rgnSize (s : State) (n : Nat) : (s.bump n).rgnSize = s.rgnSize := rfl
@[simp] theorem State.bump_askey (s : State) (n : Nat) : (s.bump n).askey = s.askey := rfl
@[simp] theorem State.bump_peers (s : State) (n : Nat) : (s.bump n).peers = s.peers := rfl
@[simp] theorem State.bump_links (s : State) (n : Nat) : (s.bump n).links = s.links := rfl
@[simp] theorem State.bump_streamsIn (s : State) (n : Nat) : (s.bump n).streamsIn = s.streamsIn := rfl
@[simp] theorem State.bump_streamsOut (s : State) (n : Nat) : (s.bump n).streamsOut = s.streamsOut := rfl
@[simp] theorem State.bump_replies (s : State) (n : Nat) : (s.bump n).replies = s.replies := rfl
@[simp] theorem State.bump_outbox (s : State) (n : Nat) : (s.bump n).outbox = s.outbox := rfl
@[simp] theorem State.bump_sent (s : State) (n : Nat) : (s.bump n).sent = s.sent := rfl
@[simp] theorem State.bump_cores (s : State) (n : Nat) : (s.bump n).cores = s.cores := rfl
@[simp] theorem State.bump_procs (s : State) (n : Nat) : (s.bump n).procs = s.procs := rfl
@[simp] theorem State.bump_dies (s : State) (n : Nat) : (s.bump n).dies = s.dies := rfl
@[simp] theorem State.bump_net (s : State) (n : Nat) : (s.bump n).net = s.net := rfl
@[simp] theorem State.bump_hosts (s : State) (n : Nat) : (s.bump n).hosts = s.hosts := rfl
@[simp] theorem State.bump_held (s : State) (n : Nat) : (s.bump n).held = s.held := rfl
@[simp] theorem State.bump_xfers (s : State) (n : Nat) : (s.bump n).xfers = s.xfers := rfl
@[simp] theorem State.bump_borer (s : State) (n : Nat) : (s.bump n).borer = s.borer := rfl
@[simp] theorem State.bump_walks (s : State) (n : Nat) : (s.bump n).walks = s.walks := rfl
@[simp] theorem State.bump_shoots (s : State) (n : Nat) : (s.bump n).shoots = s.shoots := rfl
@[simp] theorem State.bump_recalls (s : State) (n : Nat) : (s.bump n).recalls = s.recalls := rfl
@[simp] theorem State.bump_guards (s : State) (n : Nat) : (s.bump n).guards = s.guards := rfl
@[simp] theorem State.bump_migs (s : State) (n : Nat) : (s.bump n).migs = s.migs := rfl
@[simp] theorem State.bump_counts (s : State) (n : Nat) : (s.bump n).counts = s.counts := rfl
@[simp] theorem State.bump_lendsHbm (s : State) (n : Nat) : (s.bump n).lendsHbm = s.lendsHbm := rfl
@[simp] theorem State.bump_claims (s : State) (n : Nat) : (s.bump n).claims = s.claims := rfl
@[simp] theorem State.bump_queues (s : State) (n : Nat) : (s.bump n).queues = s.queues := rfl
@[simp] theorem State.bump_flights (s : State) (n : Nat) : (s.bump n).flights = s.flights := rfl
@[simp] theorem State.bump_luTurn (s : State) (n : Nat) : (s.bump n).luTurn = s.luTurn := rfl
@[simp] theorem State.bump_luarm (s : State) (n : Nat) : (s.bump n).luarm = s.luarm := rfl
@[simp] theorem State.bump_fltenq (s : State) (n : Nat) : (s.bump n).fltenq = s.fltenq := rfl
@[simp] theorem State.bump_fltchan (s : State) (n : Nat) : (s.bump n).fltchan = s.fltchan := rfl
@[simp] theorem State.bump_units (s : State) (n : Nat) : (s.bump n).units = s.units := rfl
@[simp] theorem State.bump_ethDropped (s : State) (n : Nat) : (s.bump n).ethDropped = s.ethDropped := rfl
@[simp] theorem State.bump_fullService (s : State) (n : Nat) : (s.bump n).fullService = s.fullService := rfl
@[simp] theorem State.bump_mbStat (s : State) (n : Nat) : (s.bump n).mbStat = s.mbStat := rfl
@[simp] theorem State.bump_mbCmd (s : State) (n : Nat) : (s.bump n).mbCmd = s.mbCmd := rfl
@[simp] theorem State.bump_mbArg (s : State) (n : Nat) : (s.bump n).mbArg = s.mbArg := rfl
@[simp] theorem State.bump_mbData (s : State) (n : Nat) : (s.bump n).mbData = s.mbData := rfl
@[simp] theorem State.bump_evready (s : State) (n : Nat) : (s.bump n).evready = s.evready := rfl
@[simp] theorem State.bump_errlog (s : State) (n : Nat) : (s.bump n).errlog = s.errlog := rfl
@[simp] theorem State.bump_measures (s : State) (n : Nat) : (s.bump n).measures = s.measures := rfl
@[simp] theorem State.bump_bootStage (s : State) (n : Nat) : (s.bump n).bootStage = s.bootStage := rfl
@[simp] theorem State.bump_bootHalted (s : State) (n : Nat) : (s.bump n).bootHalted = s.bootHalted := rfl
@[simp] theorem State.bump_imageA (s : State) (n : Nat) : (s.bump n).imageA = s.imageA := rfl
@[simp] theorem State.bump_imageB (s : State) (n : Nat) : (s.bump n).imageB = s.imageB := rfl
@[simp] theorem State.bump_updateOk (s : State) (n : Nat) : (s.bump n).updateOk = s.updateOk := rfl
@[simp] theorem State.bump_unusedB (s : State) (n : Nat) : (s.bump n).unusedB = s.unusedB := rfl
@[simp] theorem State.bump_signer (s : State) (n : Nat) : (s.bump n).signer = s.signer := rfl
@[simp] theorem State.bump_smbus (s : State) (n : Nat) : (s.bump n).smbus = s.smbus := rfl
@[simp] theorem State.bump_reports (s : State) (n : Nat) : (s.bump n).reports = s.reports := rfl
@[simp] theorem State.bump_spdm (s : State) (n : Nat) : (s.bump n).spdm = s.spdm := rfl
@[simp] theorem State.bump_storedIncarn (s : State) (n : Nat) : (s.bump n).storedIncarn = s.storedIncarn := rfl
@[simp] theorem State.bump_raised (s : State) (n : Nat) : (s.bump n).raised = s.raised := rfl
@[simp] theorem State.bump_quiesced (s : State) (n : Nat) : (s.bump n).quiesced = s.quiesced := rfl
@[simp] theorem State.bump_lostOps (s : State) (n : Nat) : (s.bump n).lostOps = s.lostOps := rfl
@[simp] theorem State.bump_plan (s : State) (n : Nat) : (s.bump n).plan = s.plan := rfl
@[simp] theorem State.bump_turn (s : State) (n : Nat) : (s.bump n).turn = s.turn := rfl
@[simp] theorem State.bump_pace (s : State) (n : Nat) : (s.bump n).pace = s.pace := rfl
@[simp] theorem State.bump_nextId (s : State) (n : Nat) : (s.bump n).nextId = s.nextId := rfl

/-! ## Parts after an update -/

@[simp] theorem State.proc_setProc_same (s : State) (k : Nat) (v : Proc) : (s.setProc k v).proc k = v := Table.get_set_same _ _ _ _
theorem State.proc_setProc_other (s : State) (v : Proc) {j k : Nat} (h : j ≠ k) : (s.setProc k v).proc j = s.proc j :=
  Table.get_set_other _ _ _ h
@[simp] theorem State.core_setCore_same (s : State) (k : Nat) (v : Core) : (s.setCore k v).core k = v := Table.get_set_same _ _ _ _
theorem State.core_setCore_other (s : State) (v : Core) {j k : Nat} (h : j ≠ k) : (s.setCore k v).core j = s.core j :=
  Table.get_set_other _ _ _ h
@[simp] theorem State.die_setDie_same (s : State) (k : Nat) (v : Die) : (s.setDie k v).die k = v := Table.get_set_same _ _ _ _
theorem State.die_setDie_other (s : State) (v : Die) {j k : Nat} (h : j ≠ k) : (s.setDie k v).die j = s.die j :=
  Table.get_set_other _ _ _ h
@[simp] theorem State.proc_modProc_same (s : State) (k : Nat) (f : Proc → Proc) : (s.modProc k f).proc k = f (s.proc k) :=
  Table.get_set_same _ _ _ _
theorem State.proc_modProc_other (s : State) (f : Proc → Proc) {j k : Nat} (h : j ≠ k) : (s.modProc k f).proc j = s.proc j :=
  Table.get_set_other _ _ _ h
@[simp] theorem State.core_modCore_same (s : State) (k : Nat) (f : Core → Core) : (s.modCore k f).core k = f (s.core k) :=
  Table.get_set_same _ _ _ _
theorem State.core_modCore_other (s : State) (f : Core → Core) {j k : Nat} (h : j ≠ k) : (s.modCore k f).core j = s.core j :=
  Table.get_set_other _ _ _ h
@[simp] theorem State.die_modDie_same (s : State) (k : Nat) (f : Die → Die) : (s.modDie k f).die k = f (s.die k) :=
  Table.get_set_same _ _ _ _
@[simp] theorem State.core_setProc (s : State) (k c : Nat) (v : Proc) : (s.setProc k v).core c = s.core c := rfl
@[simp] theorem State.core_modProc (s : State) (k c : Nat) (f : Proc → Proc) : (s.modProc k f).core c = s.core c := rfl
@[simp] theorem State.die_setProc (s : State) (k c : Nat) (v : Proc) : (s.setProc k v).die c = s.die c := rfl
@[simp] theorem State.die_modProc (s : State) (k c : Nat) (f : Proc → Proc) : (s.modProc k f).die c = s.die c := rfl
@[simp] theorem State.proc_setCore (s : State) (k c : Nat) (v : Core) : (s.setCore k v).proc c = s.proc c := rfl
@[simp] theorem State.proc_modCore (s : State) (k c : Nat) (f : Core → Core) : (s.modCore k f).proc c = s.proc c := rfl
@[simp] theorem State.proc_setDie (s : State) (k c : Nat) (v : Die) : (s.setDie k v).proc c = s.proc c := rfl
@[simp] theorem State.core_setDie (s : State) (k c : Nat) (v : Die) : (s.setDie k v).core c = s.core c := rfl
@[simp] theorem State.die_setCore (s : State) (k c : Nat) (v : Core) : (s.setCore k v).die c = s.die c := rfl
@[simp] theorem State.proc_send (s : State) (a : Src) (d : Home) (b : Body) (c : Nat) : (s.send a d b).proc c = s.proc c := rfl
@[simp] theorem State.core_send (s : State) (a : Src) (d : Home) (b : Body) (c : Nat) : (s.send a d b).core c = s.core c := rfl
@[simp] theorem State.die_send (s : State) (a : Src) (d : Home) (b : Body) (c : Nat) : (s.send a d b).die c = s.die c := rfl
@[simp] theorem State.net_send (s : State) (a : Src) (d : Home) (b : Body) : (s.send a d b).net = s.net ++ [⟨s.nextId, a, d, b, none, false⟩] := rfl
@[simp] theorem State.proc_take (s : State) (i c : Nat) : (s.take i).proc c = s.proc c := rfl
@[simp] theorem State.core_take (s : State) (i c : Nat) : (s.take i).core c = s.core c := rfl
@[simp] theorem State.die_take (s : State) (i c : Nat) : (s.take i).die c = s.die c := rfl
@[simp] theorem State.net_take (s : State) (i : Nat) : (s.take i).net = s.net.filter (fun m => m.id != i) := rfl

@[simp] theorem State.proc_tell (s : State) (m p w a : Nat) (b : Body) (c : Nat) : (s.tell m p w a b).proc c = s.proc c := rfl
@[simp] theorem State.core_tell (s : State) (m p w a : Nat) (b : Body) (c : Nat) : (s.tell m p w a b).core c = s.core c := rfl
@[simp] theorem State.mem_tell (s : State) (m p w a : Nat) (b : Body) : (s.tell m p w a b).mem = s.mem := rfl
@[simp] theorem State.net_tell (s : State) (m p w a : Nat) (b : Body) : (s.tell m p w a b).net = s.net := rfl

/-! ## Registers (R32) -/

/-- g0 reads as 0 and discards writes. -/
@[simp] theorem Regs.getG_zero (r : Regs) : r.getG 0 = 0 := rfl
@[simp] theorem Regs.setG_zero (r : Regs) (x : Word) : r.setG 0 x = r := rfl
theorem Regs.getG_setG_same (r : Regs) (d : BitVec 6) (x : Word) (h : d ≠ 0) : (r.setG d x).getG d = x := by
  unfold Regs.setG Regs.getG
  rw [if_neg h, if_neg h]
  exact Vector.getElem_set_self (xs := r.g) (i := d.toNat) d.isLt
theorem Regs.getG_setG_other (r : Regs) (x : Word) {d e : BitVec 6} (h : e ≠ d) : (r.setG d x).getG e = r.getG e := by
  have h2 : d.toNat ≠ e.toNat := fun hh => h (BitVec.eq_of_toNat_eq hh).symm
  unfold Regs.setG Regs.getG
  split
  · rfl
  · split
    · rfl
    · exact Vector.getElem_set_ne (xs := r.g) (i := d.toNat) (j := e.toNat) d.isLt e.isLt h2
/-- p0 reads as true and discards writes. -/
@[simp] theorem Regs.getP_zero (r : Regs) : r.getP 0 = true := rfl
@[simp] theorem Regs.setP_zero (r : Regs) (x : Bool) : r.setP 0 x = r := rfl
/-- q0 reads as all ones and discards writes. -/
@[simp] theorem Regs.getQ_zero (r : Regs) : r.getQ 0 = BitVec.allOnes 128 := rfl
@[simp] theorem Regs.setQ_zero (r : Regs) (x : Mask) : r.setQ 0 x = r := rfl
@[simp] theorem Regs.setP_g (r : Regs) (d : BitVec 3) (x : Bool) : (r.setP d x).g = r.g := by unfold Regs.setP; split <;> rfl
@[simp] theorem Regs.setV_g (r : Regs) (d : BitVec 5) (x : VReg) : (r.setV d x).g = r.g := rfl
@[simp] theorem Regs.setQ_g (r : Regs) (d : BitVec 3) (x : Mask) : (r.setQ d x).g = r.g := by unfold Regs.setQ; split <;> rfl
@[simp] theorem Regs.orFlags_g (r : Regs) (x : Flags) : (r.orFlags x).g = r.g := rfl
@[simp] theorem Regs.setG_p (r : Regs) (d : BitVec 6) (x : Word) : (r.setG d x).p = r.p := by unfold Regs.setG; split <;> rfl
@[simp] theorem Regs.setV_p (r : Regs) (d : BitVec 5) (x : VReg) : (r.setV d x).p = r.p := rfl
@[simp] theorem Regs.setQ_p (r : Regs) (d : BitVec 3) (x : Mask) : (r.setQ d x).p = r.p := by unfold Regs.setQ; split <;> rfl
@[simp] theorem Regs.orFlags_p (r : Regs) (x : Flags) : (r.orFlags x).p = r.p := rfl
@[simp] theorem Regs.setG_v (r : Regs) (d : BitVec 6) (x : Word) : (r.setG d x).v = r.v := by unfold Regs.setG; split <;> rfl
@[simp] theorem Regs.setP_v (r : Regs) (d : BitVec 3) (x : Bool) : (r.setP d x).v = r.v := by unfold Regs.setP; split <;> rfl
@[simp] theorem Regs.setQ_v (r : Regs) (d : BitVec 3) (x : Mask) : (r.setQ d x).v = r.v := by unfold Regs.setQ; split <;> rfl
@[simp] theorem Regs.orFlags_v (r : Regs) (x : Flags) : (r.orFlags x).v = r.v := rfl
@[simp] theorem Regs.setG_q (r : Regs) (d : BitVec 6) (x : Word) : (r.setG d x).q = r.q := by unfold Regs.setG; split <;> rfl
@[simp] theorem Regs.setP_q (r : Regs) (d : BitVec 3) (x : Bool) : (r.setP d x).q = r.q := by unfold Regs.setP; split <;> rfl
@[simp] theorem Regs.setV_q (r : Regs) (d : BitVec 5) (x : VReg) : (r.setV d x).q = r.q := rfl
@[simp] theorem Regs.orFlags_q (r : Regs) (x : Flags) : (r.orFlags x).q = r.q := rfl
@[simp] theorem Regs.setG_sh (r : Regs) (d : BitVec 6) (x : Word) : (r.setG d x).sh = r.sh := by unfold Regs.setG; split <;> rfl
@[simp] theorem Regs.setP_sh (r : Regs) (d : BitVec 3) (x : Bool) : (r.setP d x).sh = r.sh := by unfold Regs.setP; split <;> rfl
@[simp] theorem Regs.setV_sh (r : Regs) (d : BitVec 5) (x : VReg) : (r.setV d x).sh = r.sh := rfl
@[simp] theorem Regs.setQ_sh (r : Regs) (d : BitVec 3) (x : Mask) : (r.setQ d x).sh = r.sh := by unfold Regs.setQ; split <;> rfl
@[simp] theorem Regs.orFlags_sh (r : Regs) (x : Flags) : (r.orFlags x).sh = r.sh := rfl
@[simp] theorem Regs.setG_flags (r : Regs) (d : BitVec 6) (x : Word) : (r.setG d x).flags = r.flags := by unfold Regs.setG; split <;> rfl
@[simp] theorem Regs.setP_flags (r : Regs) (d : BitVec 3) (x : Bool) : (r.setP d x).flags = r.flags := by unfold Regs.setP; split <;> rfl
@[simp] theorem Regs.setG_ctl (r : Regs) (d : BitVec 6) (x : Word) : (r.setG d x).ctl = r.ctl := by unfold Regs.setG; split <;> rfl
@[simp] theorem Regs.setP_ctl (r : Regs) (d : BitVec 3) (x : Bool) : (r.setP d x).ctl = r.ctl := by unfold Regs.setP; split <;> rfl
@[simp] theorem Regs.setV_ctl (r : Regs) (d : BitVec 5) (x : VReg) : (r.setV d x).ctl = r.ctl := rfl
@[simp] theorem Regs.setQ_ctl (r : Regs) (d : BitVec 3) (x : Mask) : (r.setQ d x).ctl = r.ctl := by unfold Regs.setQ; split <;> rfl
@[simp] theorem Regs.orFlags_ctl (r : Regs) (x : Flags) : (r.orFlags x).ctl = r.ctl := rfl

end Sys2Proof.Machine
end

