-- ==== Sys2Proof/Laws/Issue.lean ====
section
/-! SUPPORT. What issuing a word can do: its effect where nothing keeps it back, and every other way it can end. -/
namespace Sys2Proof.Machine
open Sys2Proof.Safety

theorem Proc.mayIssue_iff (p : Proc) (long ext : Bool) : p.mayIssue long ext = true ↔ Open long ext p := by
  have hw : p.outs.all (fun o => decide (o.issued ≠ o.l)) = true ↔ ∀ o ∈ p.outs, o.issued ≠ o.l := by simp
  have hx : (!p.outs.any (fun o => !o.committed)) = true ↔ ∀ o ∈ p.outs, o.committed = true := by simp
  have hn : decide (4 ≤ p.outs.length) = false ↔ p.outs.length < 4 := by simp
  constructor
  · intro h
    simp only [Proc.mayIssue, Bool.and_eq_true, hw] at h
    obtain ⟨⟨h1, h2⟩, h3⟩ := h
    refine ⟨h1, fun hl => ?_, fun hl => ?_, fun he => hx.mp ?_⟩
    · subst hl; simp at h2; exact h2.1
    · subst hl; simp at h2; exact h2.2
    · subst he; simpa using h3
  · rintro ⟨h1, h2, h3, h4⟩
    simp only [Proc.mayIssue, Bool.and_eq_true, hw]
    refine ⟨⟨h1, ?_⟩, ?_⟩
    · cases long
      · rfl
      · simp [h2 rfl, h3 rfl]
    · cases ext
      · rfl
      · simpa using h4 rfl

theorem Issue.check_none_iff (w : Issue) (p : Proc) (n : Nat) :
    w.check p n = none ↔ w.illegal = false ∧ (w.priv = true → p.priv = true) ∧ Allotted w.gs w.vs n := by
  have hr : ¬ ((w.gs.any (fun i => decide (gAllot n ≤ i)) || w.vs.any (fun i => decide (vAllot n ≤ i))) = true) ↔ Allotted w.gs w.vs n := by
    simp only [Bool.or_eq_true, List.any_eq_true, decide_eq_true_eq, not_or, not_exists, not_and, Nat.not_le]
    exact ⟨fun h => ⟨h.1, h.2⟩, fun h => ⟨h.1, h.2⟩⟩
  have hp : ¬ ((w.priv && !p.priv) = true) ↔ (w.priv = true → p.priv = true) := by cases w.priv <;> cases p.priv <;> simp
  rw [← hr, ← hp]
  unfold Issue.check
  split
  · rename_i h; simp [h]
  · rename_i h
    split
    · rename_i h1; exact ⟨nofun, fun h2 => absurd h1 h2.2.1⟩
    · rename_i h1
      split
      · rename_i h2; exact ⟨nofun, fun h3 => absurd h2 h3.2.2⟩
      · rename_i h2; exact ⟨fun _ => ⟨by simpa using h, h1, h2⟩, fun _ => rfl⟩

/-- `Clear` as a question that can be computed. -/
def clearHere (w : Issue) (s : State) : Bool :=
  !w.gu.never && (s.proc s.turn).r.guard w.gu && (w.check (s.proc s.turn) (s.core (coreOf s.turn)).partition).isNone &&
    (s.proc s.turn).mayIssue w.long w.ext && !s.entering s.turn && !(s.proc s.turn).midWord && w.reads.all (fun r => !(s.proc s.turn).struck.contains r)
theorem clear_of {w : Issue} {s : State} (h : clearHere w s = true) : Clear w s := by
  simp only [clearHere, Bool.and_eq_true, Bool.not_eq_true', Option.isNone_iff_eq_none, List.all_eq_true] at h
  obtain ⟨⟨⟨⟨⟨⟨h1, h2⟩, h3⟩, h4⟩, h5⟩, h6⟩, h7⟩ := h
  have h8 := (Issue.check_none_iff _ _ _).mp h3
  refine ⟨h1, h2, h8.1, h8.2.1, h8.2.2, (Proc.mayIssue_iff _ _ _).mp h4, h5, h6, fun r hr hs => ?_⟩
  have h9 := h7 r hr
  simp [hs] at h9

/-- `Going` as a question that can be computed. -/
def goingHere (w : Issue) (s : State) : Bool :=
  !w.gu.never && (s.proc s.turn).midWord && (s.proc s.turn).mayIssue w.long w.ext && !s.entering s.turn
theorem going_of {w : Issue} {s : State} (h : goingHere w s = true) : Going w s := by
  simp only [goingHere, Bool.and_eq_true, Bool.not_eq_true'] at h
  exact ⟨h.1.1.1, h.1.1.2, (Proc.mayIssue_iff _ _ _).mp h.1.2, h.2⟩

/-- A word whose guard is true and that nothing keeps back has its effect. -/
theorem issue_clear {w : Issue} {s : State} (h : Clear w s) (body : Nat → State → State) : issue w body s = .next (body s.turn s) := by
  obtain ⟨h1, h2, h0, h3, h4, h5, hq, hs, h6⟩ := h
  have h7 := (Proc.mayIssue_iff _ _ _).mpr h5
  have h8 := (Issue.check_none_iff w (s.proc s.turn) (s.core (coreOf s.turn)).partition).mpr ⟨h0, h3, h4⟩
  have h9 : w.reads.find? (fun r => (s.proc s.turn).struck.contains r) = none := by
    rw [List.find?_eq_none]
    intro r hr hc
    exact h6 r hr (by simpa using hc)
  simp only [issue, h1, h2, h7, h8, h9, hq, hs, Bool.and_true, Bool.false_or, Bool.or_false, Bool.false_eq_true, if_false, Bool.not_true, Bool.not_false]

/-- A word that only computes on registers. -/
theorem issuePure_clear {w : Issue} {s : State} (h : Clear w s) (f : Regs → Regs) :
    issuePure w f s = computes s w.writes (f (s.proc s.turn).r) := by
  unfold issuePure computes retired
  rw [issue_clear h]
  rfl

/-- Every way that issuing a word can end: the word waits; the process passes it; it takes a trap that the issue rules raise; or the word has its
effect, from its start or where it is in progress. -/
theorem issue_cases {w : Issue} {body : Nat → State → State} {s t : State} (h : issue w body s = .next t) :
    (∃ long ext, t = s.stall s.turn long ext) ∨ t = s.setProc s.turn (s.proc s.turn).pass ∨
      (∃ x : Trap, t = (s.count s.turn).trap s.turn x (s.proc s.turn).pc) ∨
      ((Clear w s ∨ (s.proc s.turn).midWord = true) ∧ t = body s.turn s) := by
  unfold issue at h
  injection h with h
  subst h
  dsimp only
  split
  · exact .inl ⟨_, _, rfl⟩
  rename_i h2
  simp only [Bool.or_eq_true, Bool.not_eq_true', not_or, Bool.not_eq_false, Bool.not_eq_true] at h2
  split
  · split
    · exact .inr (.inr (.inl ⟨_, rfl⟩))
    · exact .inr (.inl rfl)
  rename_i h1
  split
  · rename_i hm; exact .inr (.inr (.inr ⟨.inr hm, rfl⟩))
  rename_i hm
  simp only [Bool.not_eq_true] at h1 hm
  split
  · exact .inr (.inr (.inl ⟨_, rfl⟩))
  rename_i h3
  split
  · exact .inr (.inl rfl)
  rename_i h4
  split
  · exact .inr (.inr (.inl ⟨_, rfl⟩))
  rename_i h5
  have hg : (s.proc s.turn).r.guard w.gu = true := by simpa [h1, hm] using h4
  have hi : Open w.long w.ext (s.proc s.turn) := (Proc.mayIssue_iff _ _ _).mp (by simpa [h1, hm, hg] using h2.1)
  have hc := (Issue.check_none_iff w (s.proc s.turn) (s.core (coreOf s.turn)).partition).mp h3
  refine .inr (.inr (.inr ⟨.inl ⟨h1, hg, hc.1, hc.2.1, hc.2.2, hi, h2.2, hm, ?_⟩, rfl⟩))
  intro r hr hs
  rw [List.find?_eq_none] at h5
  exact h5 r hr (by simpa using hs)

/-- Issuing a word always answers a next state. -/
theorem issue_next (w : Issue) (body : Nat → State → State) (s : State) : ∃ t, issue w body s = .next t := ⟨_, rfl⟩

end Sys2Proof.Machine
end

