-- ==== Sys2Proof/Laws/Words.lean ====
section
/-! SUPPORT. The words that the encoder makes have 32 bits (R39). -/
namespace Sys2Proof

/-- Fields laid side by side make a number of as many bits as their widths together. -/
theorem pack_lt (fs : List (Nat × Nat)) (h : ∀ f ∈ fs, f.1 < 2 ^ f.2) : pack fs < 2 ^ (fs.map (·.2)).sum := by
  have go : ∀ (fs : List (Nat × Nat)) (acc k : Nat), (∀ f ∈ fs, f.1 < 2 ^ f.2) → acc < 2 ^ k →
      fs.foldl (fun acc f => acc * 2 ^ f.2 + f.1) acc < 2 ^ (k + (fs.map (·.2)).sum) := by
    intro fs
    induction fs with
    | nil => intro acc k _ h; simpa using h
    | cons f r ih =>
      intro acc k hf ha
      have h1 : f.1 < 2 ^ f.2 := hf f (by simp)
      have h2 : acc * 2 ^ f.2 + f.1 < 2 ^ (k + f.2) := by
        rw [Nat.pow_add]
        calc acc * 2 ^ f.2 + f.1 < acc * 2 ^ f.2 + 2 ^ f.2 := by omega
          _ = (acc + 1) * 2 ^ f.2 := by rw [Nat.add_mul, Nat.one_mul]
          _ ≤ 2 ^ k * 2 ^ f.2 := Nat.mul_le_mul_right _ ha
      have h3 := ih (acc * 2 ^ f.2 + f.1) (k + f.2) (fun g hg => hf g (by simp [hg])) h2
      simpa [Nat.add_assoc] using h3
  simpa [pack] using go fs 0 0 h (by simp)

theorem Guard.code_lt (g : Guard) : g.code < 16 := by
  have := g.p.isLt
  unfold Guard.code
  split <;> omega
theorem Scope.code_lt (x : Scope) : x.code < 4 := by cases x <;> decide
theorem FFmt.code_lt (x : FFmt) : x.code < 4 := by cases x <;> decide
theorem VTy.code_lt (x : VTy) : x.code < 8 := by cases x <;> decide
theorem CTy.code_lt (x : CTy) : x.code < 8 := by cases x <;> decide
theorem LSize.code_lt (x : LSize) : x.code < 4 := by cases x <;> decide
theorem Rm.code_lt (x : Rm) : x.code < 8 := by cases x <;> decide

theorem packRRR_lt (maj f : Nat) (o : RRR) (hm : maj < 64) (hf : f < 16) : packRRR maj f o < 2 ^ 32 := by
  have h := pack_lt [(o.gu.code, 4), (maj, 6), (o.d.toNat, 6), (o.a.toNat, 6), (o.b.toNat, 6), (f, 4)] (by
    simp only [List.forall_mem_cons]
    exact ⟨Guard.code_lt o.gu, hm, o.d.isLt, o.a.isLt, o.b.isLt, hf, by simp⟩)
  exact h
theorem packRR_lt (maj f : Nat) (o : RR) (hm : maj < 64) (hf : f < 1024) : packRR maj f o < 2 ^ 32 := by
  have h := pack_lt [(o.gu.code, 4), (maj, 6), (o.d.toNat, 6), (o.a.toNat, 6), (f, 10)] (by
    simp only [List.forall_mem_cons]
    exact ⟨Guard.code_lt o.gu, hm, o.d.isLt, o.a.isLt, hf, by simp⟩)
  exact h
theorem packRRI_lt (maj : Nat) (o : RRI) (hm : maj < 64) : packRRI maj o < 2 ^ 32 := by
  have h := pack_lt [(o.gu.code, 4), (maj, 6), (o.d.toNat, 6), (o.a.toNat, 6), (o.imm.toNat, 10)] (by
    simp only [List.forall_mem_cons]
    exact ⟨Guard.code_lt o.gu, hm, o.d.isLt, o.a.isLt, o.imm.isLt, by simp⟩)
  exact h
theorem packSHI_lt (maj f : Nat) (o : SHI) (hm : maj < 64) (hf : f < 4) : packSHI maj f o < 2 ^ 32 := by
  have h := pack_lt [(o.gu.code, 4), (maj, 6), (o.d.toNat, 6), (o.a.toNat, 6), (f, 2), (0, 2), (o.amt.toNat, 6)] (by
    simp only [List.forall_mem_cons]
    exact ⟨Guard.code_lt o.gu, hm, o.d.isLt, o.a.isLt, hf, (by decide), o.amt.isLt, by simp⟩)
  exact h
theorem packRI_lt (maj : Nat) (o : RI) (hm : maj < 64) : packRI maj o < 2 ^ 32 := by
  have h := pack_lt [(o.gu.code, 4), (maj, 6), (o.d.toNat, 6), (o.imm.toNat, 16)] (by
    simp only [List.forall_mem_cons]
    exact ⟨Guard.code_lt o.gu, hm, o.d.isLt, o.imm.isLt, by simp⟩)
  exact h
theorem packCP_lt (maj f : Nat) (o : CP) (hm : maj < 64) (hf : f < 16) : packCP maj f o < 2 ^ 32 := by
  have h := pack_lt [(o.gu.code, 4), (maj, 6), (o.pT.toNat, 3), (o.pF.toNat, 3), (o.a.toNat, 6), (o.b.toNat, 6), (f, 4)] (by
    simp only [List.forall_mem_cons]
    exact ⟨Guard.code_lt o.gu, hm, o.pT.isLt, o.pF.isLt, o.a.isLt, o.b.isLt, hf, by simp⟩)
  exact h
theorem packCPI_lt (maj f : Nat) (o : CPI) (hm : maj < 64) (hf : f < 16) : packCPI maj f o < 2 ^ 32 := by
  have h := pack_lt [(o.gu.code, 4), (maj, 6), (o.pT.toNat, 3), (o.pF.toNat, 3), (o.a.toNat, 6), (f, 4), (o.imm.toNat, 6)] (by
    simp only [List.forall_mem_cons]
    exact ⟨Guard.code_lt o.gu, hm, o.pT.isLt, o.pF.isLt, o.a.isLt, hf, o.imm.isLt, by simp⟩)
  exact h
theorem packPL_lt (maj f : Nat) (o : PL) (hm : maj < 64) (hf : f < 8) : packPL maj f o < 2 ^ 32 := by
  have h := pack_lt [(o.gu.code, 4), (maj, 6), (o.d.toNat, 3), (o.a.toNat, 3), (o.b.toNat, 3), (f, 3), (0, 10)] (by
    simp only [List.forall_mem_cons]
    exact ⟨Guard.code_lt o.gu, hm, o.d.isLt, o.a.isLt, o.b.isLt, hf, (by decide), by simp⟩)
  exact h
theorem packFP_lt (maj f : Nat) (o : FP) (hm : maj < 64) (hf : f < 4) : packFP maj f o < 2 ^ 32 := by
  have h := pack_lt [(o.gu.code, 4), (maj, 6), (o.pT.toNat, 3), (o.pF.toNat, 3), (o.a.toNat, 6), (o.b.toNat, 6), (o.fmt.code, 2), (f, 2)] (by
    simp only [List.forall_mem_cons]
    exact ⟨Guard.code_lt o.gu, hm, o.pT.isLt, o.pF.isLt, o.a.isLt, o.b.isLt, FFmt.code_lt o.fmt, hf, by simp⟩)
  exact h
theorem packFR_lt (maj f : Nat) (o : FR) (hm : maj < 64) (hf : f < 4) : packFR maj f o < 2 ^ 32 := by
  have h := pack_lt [(o.gu.code, 4), (maj, 6), (o.d.toNat, 6), (o.a.toNat, 6), (o.b.toNat, 6), (o.fmt.code, 2), (f, 2)] (by
    simp only [List.forall_mem_cons]
    exact ⟨Guard.code_lt o.gu, hm, o.d.isLt, o.a.isLt, o.b.isLt, FFmt.code_lt o.fmt, hf, by simp⟩)
  exact h
theorem packFR1_lt (maj f : Nat) (o : FR1) (hm : maj < 64) (hf : f < 4) : packFR1 maj f o < 2 ^ 32 := by
  have h := pack_lt [(o.gu.code, 4), (maj, 6), (o.d.toNat, 6), (o.a.toNat, 6), (0, 6), (o.fmt.code, 2), (f, 2)] (by
    simp only [List.forall_mem_cons]
    exact ⟨Guard.code_lt o.gu, hm, o.d.isLt, o.a.isLt, (by decide), FFmt.code_lt o.fmt, hf, by simp⟩)
  exact h
theorem packBT_lt (maj : Nat) (o : BT) (hm : maj < 64) : packBT maj o < 2 ^ 32 := by
  have h := pack_lt [(o.gu.code, 4), (maj, 6), (o.disp.toNat, 22)] (by
    simp only [List.forall_mem_cons]
    exact ⟨Guard.code_lt o.gu, hm, o.disp.isLt, by simp⟩)
  exact h
theorem packLD_lt (maj : Nat) (o : LD) (hm : maj < 64) : packLD maj o < 2 ^ 32 := by
  have h := pack_lt [(o.gu.code, 4), (maj, 6), (o.d.toNat, 6), (o.a.toNat, 6), (o.l.toNat, 4), (o.disp.toNat, 6)] (by
    simp only [List.forall_mem_cons]
    exact ⟨Guard.code_lt o.gu, hm, o.d.isLt, o.a.isLt, o.l.isLt, o.disp.isLt, by simp⟩)
  exact h
theorem packST_lt (maj : Nat) (o : ST) (hm : maj < 64) : packST maj o < 2 ^ 32 := by
  have h := pack_lt [(o.gu.code, 4), (maj, 6), (o.s.toNat, 6), (o.a.toNat, 6), (o.disp.toNat, 10)] (by
    simp only [List.forall_mem_cons]
    exact ⟨Guard.code_lt o.gu, hm, o.s.isLt, o.a.isLt, o.disp.isLt, by simp⟩)
  exact h
theorem packTG_lt (maj f : Nat) (o : TG) (hm : maj < 64) (hf : f < 16) : packTG maj f o < 2 ^ 32 := by
  have h := pack_lt [(o.gu.code, 4), (maj, 6), (0, 6), (o.a.toNat, 6), (o.b.toNat, 6), (f, 4)] (by
    simp only [List.forall_mem_cons]
    exact ⟨Guard.code_lt o.gu, hm, (by decide), o.a.isLt, o.b.isLt, hf, by simp⟩)
  exact h
theorem packG0_lt (maj f : Nat) (o : Guard) (hm : maj < 64) (hf : f < 4194304) : packG0 maj f o < 2 ^ 32 := by
  have h := pack_lt [(o.code, 4), (maj, 6), (f, 22)] (by
    simp only [List.forall_mem_cons]
    exact ⟨Guard.code_lt o, hm, hf, by simp⟩)
  exact h
theorem packLA_lt (maj : Nat) (o : LA) (hm : maj < 64) : packLA maj o < 2 ^ 32 := by
  have h := pack_lt [(o.gu.code, 4), (maj, 6), (o.d.toNat, 6), (o.a.toNat, 6), (o.l.toNat, 4), (o.scope.code, 2), (o.disp.toNat, 4)] (by
    simp only [List.forall_mem_cons]
    exact ⟨Guard.code_lt o.gu, hm, o.d.isLt, o.a.isLt, o.l.isLt, Scope.code_lt o.scope, o.disp.isLt, by simp⟩)
  exact h
theorem packSL_lt (maj : Nat) (o : SL) (hm : maj < 64) : packSL maj o < 2 ^ 32 := by
  have h := pack_lt [(o.gu.code, 4), (maj, 6), (o.s.toNat, 6), (o.a.toNat, 6), (o.scope.code, 2), (o.disp.toNat, 8)] (by
    simp only [List.forall_mem_cons]
    exact ⟨Guard.code_lt o.gu, hm, o.s.isLt, o.a.isLt, Scope.code_lt o.scope, o.disp.isLt, by simp⟩)
  exact h
theorem packVR_lt (maj f : Nat) (o : VR) (hm : maj < 64) (hf : f < 4) : packVR maj f o < 2 ^ 32 := by
  have h := pack_lt [(o.gu.code, 4), (maj, 6), (o.vd.toNat, 5), (o.va.toNat, 5), (o.ty.code, 3), (o.q.toNat, 3), (f, 2), (0, 4)] (by
    simp only [List.forall_mem_cons]
    exact ⟨Guard.code_lt o.gu, hm, o.vd.isLt, o.va.isLt, VTy.code_lt o.ty, o.q.isLt, hf, (by decide), by simp⟩)
  exact h
theorem packVB_lt (maj f : Nat) (o : VB) (hm : maj < 64) (hf : f < 16) : packVB maj f o < 2 ^ 32 := by
  have h := pack_lt [(o.gu.code, 4), (maj, 6), (o.v.toNat, 5), (o.g.toNat, 6), (0, 5), (o.size.code, 2), (f, 4)] (by
    simp only [List.forall_mem_cons]
    exact ⟨Guard.code_lt o.gu, hm, o.v.isLt, o.g.isLt, (by decide), LSize.code_lt o.size, hf, by simp⟩)
  exact h
theorem packVM_lt (maj f : Nat) (o : VM) (hm : maj < 64) (hf : f < 16) : packVM maj f o < 2 ^ 32 := by
  have h := pack_lt [(o.gu.code, 4), (maj, 6), (o.v.toNat, 5), (o.g.toNat, 6), (o.lane.toNat, 5), (o.size.code, 2), (f, 4)] (by
    simp only [List.forall_mem_cons]
    exact ⟨Guard.code_lt o.gu, hm, o.v.isLt, o.g.isLt, o.lane.isLt, LSize.code_lt o.size, hf, by simp⟩)
  exact h
theorem packVX_lt (maj f : Nat) (o : VX) (hm : maj < 64) (hf : f < 4) : packVX maj f o < 2 ^ 32 := by
  have h := pack_lt [(o.gu.code, 4), (maj, 6), (o.vd.toNat, 5), (o.va.toNat, 5), (o.vb.toNat, 5), (o.q.toNat, 3), (f, 2), (o.size.code, 2)] (by
    simp only [List.forall_mem_cons]
    exact ⟨Guard.code_lt o.gu, hm, o.vd.isLt, o.va.isLt, o.vb.isLt, o.q.isLt, hf, LSize.code_lt o.size, by simp⟩)
  exact h
theorem packFN_lt (maj : Nat) (o : FN) (hm : maj < 64) : packFN maj o < 2 ^ 32 := by
  have h := pack_lt [(o.gu.code, 4), (maj, 6), (o.before.toNat, 6), (o.after.toNat, 6), (o.scope.code, 2), (0, 8)] (by
    simp only [List.forall_mem_cons]
    exact ⟨Guard.code_lt o.gu, hm, o.before.isLt, o.after.isLt, Scope.code_lt o.scope, (by decide), by simp⟩)
  exact h
theorem packVI_lt (maj f : Nat) (o : VI) (hm : maj < 64) (hf : f < 16) : packVI maj f o < 2 ^ 32 := by
  have h := pack_lt [(o.gu.code, 4), (maj, 6), (o.vd.toNat, 5), (o.va.toNat, 5), (o.vb.toNat, 5), (o.q.toNat, 3), (f, 4)] (by
    simp only [List.forall_mem_cons]
    exact ⟨Guard.code_lt o.gu, hm, o.vd.isLt, o.va.isLt, o.vb.isLt, o.q.isLt, hf, by simp⟩)
  exact h
theorem packVF_lt (maj f : Nat) (o : VF) (hm : maj < 64) (hf : f < 16) : packVF maj f o < 2 ^ 32 := by
  have h := pack_lt [(o.gu.code, 4), (maj, 6), (o.vd.toNat, 5), (o.va.toNat, 5), (o.vb.toNat, 5), (o.q.toNat, 3), (f, 4)] (by
    simp only [List.forall_mem_cons]
    exact ⟨Guard.code_lt o.gu, hm, o.vd.isLt, o.va.isLt, o.vb.isLt, o.q.isLt, hf, by simp⟩)
  exact h
theorem packVF1_lt (maj f : Nat) (o : VF1) (hm : maj < 64) (hf : f < 16) : packVF1 maj f o < 2 ^ 32 := by
  have h := pack_lt [(o.gu.code, 4), (maj, 6), (o.vd.toNat, 5), (o.va.toNat, 5), (0, 5), (o.q.toNat, 3), (f, 4)] (by
    simp only [List.forall_mem_cons]
    exact ⟨Guard.code_lt o.gu, hm, o.vd.isLt, o.va.isLt, (by decide), o.q.isLt, hf, by simp⟩)
  exact h
theorem packVC_lt (maj f : Nat) (o : VC) (hm : maj < 64) (hf : f < 8) : packVC maj f o < 2 ^ 32 := by
  have h := pack_lt [(o.gu.code, 4), (maj, 6), (o.qT.toNat, 3), (o.qF.toNat, 3), (o.va.toNat, 5), (o.vb.toNat, 5), (o.ty.code, 3), (f, 3)] (by
    simp only [List.forall_mem_cons]
    exact ⟨Guard.code_lt o.gu, hm, o.qT.isLt, o.qF.isLt, o.va.isLt, o.vb.isLt, VTy.code_lt o.ty, hf, by simp⟩)
  exact h
theorem packVV_lt (maj : Nat) (o : VV) (hm : maj < 64) : packVV maj o < 2 ^ 32 := by
  have h := pack_lt [(o.gu.code, 4), (maj, 6), (o.vd.toNat, 5), (o.va.toNat, 5), (o.src.code, 3), (o.dst.code, 3), (o.rm.code, 3), (o.q.toNat, 3)] (by
    simp only [List.forall_mem_cons]
    exact ⟨Guard.code_lt o.gu, hm, o.vd.isLt, o.va.isLt, CTy.code_lt o.src, CTy.code_lt o.dst, Rm.code_lt o.rm, o.q.isLt, by simp⟩)
  exact h
theorem packVL_lt (maj : Nat) (o : VL) (hm : maj < 64) : packVL maj o < 2 ^ 32 := by
  have h := pack_lt [(o.gu.code, 4), (maj, 6), (o.vd.toNat, 5), (o.a.toNat, 6), (o.l.toNat, 4), (o.q.toNat, 3), (o.disp.toNat, 4)] (by
    simp only [List.forall_mem_cons]
    exact ⟨Guard.code_lt o.gu, hm, o.vd.isLt, o.a.isLt, o.l.isLt, o.q.isLt, o.disp.isLt, by simp⟩)
  exact h
theorem packVS_lt (maj : Nat) (o : VS) (hm : maj < 64) : packVS maj o < 2 ^ 32 := by
  have h := pack_lt [(o.gu.code, 4), (maj, 6), (o.vs.toNat, 5), (o.a.toNat, 6), (o.rm.code, 3), (o.q.toNat, 3), (o.disp.toNat, 5)] (by
    simp only [List.forall_mem_cons]
    exact ⟨Guard.code_lt o.gu, hm, o.vs.isLt, o.a.isLt, Rm.code_lt o.rm, o.q.isLt, o.disp.isLt, by simp⟩)
  exact h
theorem packMM_lt (maj : Nat) (o : MM) (hm : maj < 64) : packMM maj o < 2 ^ 32 := by
  have h := pack_lt [(o.gu.code, 4), (maj, 6), (o.a.toNat, 6), (o.b.toNat, 6), (o.l.toNat, 4), (o.acc.toNat, 3), (o.pair.toNat, 2), (o.r.toNat, 1)] (by
    simp only [List.forall_mem_cons]
    exact ⟨Guard.code_lt o.gu, hm, o.a.isLt, o.b.isLt, o.l.isLt, o.acc.isLt, o.pair.isLt, Bool.toNat_lt o.r, by simp⟩)
  exact h
theorem packSH_lt (maj f : Nat) (o : SH) (hm : maj < 64) (hf : f < 16) : packSH maj f o < 2 ^ 32 := by
  have h := pack_lt [(o.gu.code, 4), (maj, 6), (o.a.toNat, 6), (0, 3), (o.n.toNat, 3), (0, 4), (f, 4), (0, 2)] (by
    simp only [List.forall_mem_cons]
    exact ⟨Guard.code_lt o.gu, hm, o.a.isLt, (by decide), o.n.isLt, (by decide), hf, (by decide), by simp⟩)
  exact h
theorem packT1_lt (maj f : Nat) (o : T1) (hm : maj < 64) (hf : f < 64) : packT1 maj f o < 2 ^ 32 := by
  have h := pack_lt [(o.gu.code, 4), (maj, 6), (o.a.toNat, 6), (0, 6), (o.l.toNat, 4), (f, 6)] (by
    simp only [List.forall_mem_cons]
    exact ⟨Guard.code_lt o.gu, hm, o.a.isLt, (by decide), o.l.isLt, hf, by simp⟩)
  exact h
theorem packT2_lt (maj f : Nat) (o : T2) (hm : maj < 64) (hf : f < 64) : packT2 maj f o < 2 ^ 32 := by
  have h := pack_lt [(o.gu.code, 4), (maj, 6), (o.a.toNat, 6), (o.b.toNat, 6), (o.l.toNat, 4), (f, 6)] (by
    simp only [List.forall_mem_cons]
    exact ⟨Guard.code_lt o.gu, hm, o.a.isLt, o.b.isLt, o.l.isLt, hf, by simp⟩)
  exact h
theorem packTC_lt (maj f : Nat) (o : TC) (hm : maj < 64) (hf : f < 8) : packTC maj f o < 2 ^ 32 := by
  have h := pack_lt [(o.gu.code, 4), (maj, 6), (o.a.toNat, 6), (o.b.toNat, 6), (o.l.toNat, 4), (f, 3), (o.sh.toNat, 3)] (by
    simp only [List.forall_mem_cons]
    exact ⟨Guard.code_lt o.gu, hm, o.a.isLt, o.b.isLt, o.l.isLt, hf, o.sh.isLt, by simp⟩)
  exact h
theorem packTR_lt (maj f : Nat) (o : TR) (hm : maj < 64) (hf : f < 64) : packTR maj f o < 2 ^ 32 := by
  have h := pack_lt [(o.gu.code, 4), (maj, 6), (0, 6), (o.imm.toNat, 10), (f, 6)] (by
    simp only [List.forall_mem_cons]
    exact ⟨Guard.code_lt o.gu, hm, (by decide), o.imm.isLt, hf, by simp⟩)
  exact h
theorem packCR_lt (maj f : Nat) (o : CR) (hm : maj < 64) (hf : f < 64) : packCR maj f o < 2 ^ 32 := by
  have h := pack_lt [(o.gu.code, 4), (maj, 6), (o.r.toNat, 6), (o.c.toNat, 10), (f, 6)] (by
    simp only [List.forall_mem_cons]
    exact ⟨Guard.code_lt o.gu, hm, o.r.isLt, o.c.isLt, hf, by simp⟩)
  exact h
theorem packA1_lt (maj f : Nat) (o : A1) (hm : maj < 64) (hf : f < 1024) : packA1 maj f o < 2 ^ 32 := by
  have h := pack_lt [(o.gu.code, 4), (maj, 6), (0, 6), (o.a.toNat, 6), (f, 10)] (by
    simp only [List.forall_mem_cons]
    exact ⟨Guard.code_lt o.gu, hm, (by decide), o.a.isLt, hf, by simp⟩)
  exact h
theorem packD1_lt (maj f : Nat) (o : D1) (hm : maj < 64) (hf : f < 1024) : packD1 maj f o < 2 ^ 32 := by
  have h := pack_lt [(o.gu.code, 4), (maj, 6), (o.d.toNat, 6), (0, 6), (f, 10)] (by
    simp only [List.forall_mem_cons]
    exact ⟨Guard.code_lt o.gu, hm, o.d.isLt, (by decide), hf, by simp⟩)
  exact h
theorem packWH_lt (maj f : Nat) (o : WH) (hm : maj < 64) (hf : f < 64) : packWH maj f o < 2 ^ 32 := by
  have h := pack_lt [(o.gu.code, 4), (maj, 6), (o.d.toNat, 6), (0, 8), (o.sel.toNat, 2), (f, 6)] (by
    simp only [List.forall_mem_cons]
    exact ⟨Guard.code_lt o.gu, hm, o.d.isLt, (by decide), o.sel.isLt, hf, by simp⟩)
  exact h

end Sys2Proof
end

