-- ==== Sys2Proof/Laws/PerInstr.lean ====
section
/-! SUPPORT. One statement about each instruction as syntax: the number of its word has 32 bits (R39), so that no bit is lost when it becomes a word. -/
namespace Sys2Proof.Laws

/-- The number that the encoder lays out for the instruction has 32 bits; a step of the device has none. -/
def Coded.Statement (i : Instr) : Prop := ∀ n, encodeNat i = some n → n < 2 ^ 32

theorem Coded.of_lt {i : Instr} {m : Nat} (h : encodeNat i = some m) (hm : m < 2 ^ 32) : Coded.Statement i := by
  intro n hn
  rw [h] at hn
  injection hn with hn
  omega

theorem Coded.of_none {i : Instr} (h : encodeNat i = none) : Coded.Statement i := by
  intro n hn
  rw [h] at hn
  cases hn

theorem Coded.add (o : RRR) : Coded.Statement (.add o) := Coded.of_lt rfl (packRRR_lt 0x00 0 o (by decide) (by decide))
theorem Coded.sub (o : RRR) : Coded.Statement (.sub o) := Coded.of_lt rfl (packRRR_lt 0x00 1 o (by decide) (by decide))
theorem Coded.and (o : RRR) : Coded.Statement (.and o) := Coded.of_lt rfl (packRRR_lt 0x00 2 o (by decide) (by decide))
theorem Coded.or (o : RRR) : Coded.Statement (.or o) := Coded.of_lt rfl (packRRR_lt 0x00 3 o (by decide) (by decide))
theorem Coded.xor (o : RRR) : Coded.Statement (.xor o) := Coded.of_lt rfl (packRRR_lt 0x00 4 o (by decide) (by decide))
theorem Coded.andn (o : RRR) : Coded.Statement (.andn o) := Coded.of_lt rfl (packRRR_lt 0x00 5 o (by decide) (by decide))
theorem Coded.shl (o : RRR) : Coded.Statement (.shl o) := Coded.of_lt rfl (packRRR_lt 0x00 6 o (by decide) (by decide))
theorem Coded.shr (o : RRR) : Coded.Statement (.shr o) := Coded.of_lt rfl (packRRR_lt 0x00 7 o (by decide) (by decide))
theorem Coded.sra (o : RRR) : Coded.Statement (.sra o) := Coded.of_lt rfl (packRRR_lt 0x00 8 o (by decide) (by decide))
theorem Coded.rol (o : RRR) : Coded.Statement (.rol o) := Coded.of_lt rfl (packRRR_lt 0x00 9 o (by decide) (by decide))
theorem Coded.min (o : RRR) : Coded.Statement (.min o) := Coded.of_lt rfl (packRRR_lt 0x00 10 o (by decide) (by decide))
theorem Coded.max (o : RRR) : Coded.Statement (.max o) := Coded.of_lt rfl (packRRR_lt 0x00 11 o (by decide) (by decide))
theorem Coded.minu (o : RRR) : Coded.Statement (.minu o) := Coded.of_lt rfl (packRRR_lt 0x00 12 o (by decide) (by decide))
theorem Coded.maxu (o : RRR) : Coded.Statement (.maxu o) := Coded.of_lt rfl (packRRR_lt 0x00 13 o (by decide) (by decide))
theorem Coded.adds (o : RRR) : Coded.Statement (.adds o) := Coded.of_lt rfl (packRRR_lt 0x00 14 o (by decide) (by decide))
theorem Coded.subs (o : RRR) : Coded.Statement (.subs o) := Coded.of_lt rfl (packRRR_lt 0x00 15 o (by decide) (by decide))
theorem Coded.mul (o : RRR) : Coded.Statement (.mul o) := Coded.of_lt rfl (packRRR_lt 0x01 0 o (by decide) (by decide))
theorem Coded.mulh (o : RRR) : Coded.Statement (.mulh o) := Coded.of_lt rfl (packRRR_lt 0x01 1 o (by decide) (by decide))
theorem Coded.mulhu (o : RRR) : Coded.Statement (.mulhu o) := Coded.of_lt rfl (packRRR_lt 0x01 2 o (by decide) (by decide))
theorem Coded.mulhsu (o : RRR) : Coded.Statement (.mulhsu o) := Coded.of_lt rfl (packRRR_lt 0x01 3 o (by decide) (by decide))
theorem Coded.div (o : RRR) : Coded.Statement (.div o) := Coded.of_lt rfl (packRRR_lt 0x01 4 o (by decide) (by decide))
theorem Coded.divu (o : RRR) : Coded.Statement (.divu o) := Coded.of_lt rfl (packRRR_lt 0x01 5 o (by decide) (by decide))
theorem Coded.rem (o : RRR) : Coded.Statement (.rem o) := Coded.of_lt rfl (packRRR_lt 0x01 6 o (by decide) (by decide))
theorem Coded.remu (o : RRR) : Coded.Statement (.remu o) := Coded.of_lt rfl (packRRR_lt 0x01 7 o (by decide) (by decide))
theorem Coded.clz (o : RR) : Coded.Statement (.clz o) := Coded.of_lt rfl (packRR_lt 0x01 8 o (by decide) (by decide))
theorem Coded.ctz (o : RR) : Coded.Statement (.ctz o) := Coded.of_lt rfl (packRR_lt 0x01 9 o (by decide) (by decide))
theorem Coded.popc (o : RR) : Coded.Statement (.popc o) := Coded.of_lt rfl (packRR_lt 0x01 10 o (by decide) (by decide))
theorem Coded.brev (o : RR) : Coded.Statement (.brev o) := Coded.of_lt rfl (packRR_lt 0x01 11 o (by decide) (by decide))
theorem Coded.bfx (o : RRR) : Coded.Statement (.bfx o) := Coded.of_lt rfl (packRRR_lt 0x01 12 o (by decide) (by decide))
theorem Coded.bfi (o : RRR) : Coded.Statement (.bfi o) := Coded.of_lt rfl (packRRR_lt 0x01 13 o (by decide) (by decide))
theorem Coded.addi (o : RRI) : Coded.Statement (.addi o) := Coded.of_lt rfl (packRRI_lt 0x02 o (by decide))
theorem Coded.andi (o : RRI) : Coded.Statement (.andi o) := Coded.of_lt rfl (packRRI_lt 0x03 o (by decide))
theorem Coded.ori (o : RRI) : Coded.Statement (.ori o) := Coded.of_lt rfl (packRRI_lt 0x04 o (by decide))
theorem Coded.xori (o : RRI) : Coded.Statement (.xori o) := Coded.of_lt rfl (packRRI_lt 0x05 o (by decide))
theorem Coded.shli (o : SHI) : Coded.Statement (.shli o) := Coded.of_lt rfl (packSHI_lt 0x06 0 o (by decide) (by decide))
theorem Coded.shri (o : SHI) : Coded.Statement (.shri o) := Coded.of_lt rfl (packSHI_lt 0x06 1 o (by decide) (by decide))
theorem Coded.srai (o : SHI) : Coded.Statement (.srai o) := Coded.of_lt rfl (packSHI_lt 0x06 2 o (by decide) (by decide))
theorem Coded.roli (o : SHI) : Coded.Statement (.roli o) := Coded.of_lt rfl (packSHI_lt 0x06 3 o (by decide) (by decide))
theorem Coded.imm (o : RI) : Coded.Statement (.imm o) := Coded.of_lt rfl (packRI_lt 0x07 o (by decide))
theorem Coded.immh (o : RI) : Coded.Statement (.immh o) := Coded.of_lt rfl (packRI_lt 0x08 o (by decide))
theorem Coded.cmpeq (o : CP) : Coded.Statement (.cmpeq o) := Coded.of_lt rfl (packCP_lt 0x09 0 o (by decide) (by decide))
theorem Coded.cmpne (o : CP) : Coded.Statement (.cmpne o) := Coded.of_lt rfl (packCP_lt 0x09 1 o (by decide) (by decide))
theorem Coded.cmplt (o : CP) : Coded.Statement (.cmplt o) := Coded.of_lt rfl (packCP_lt 0x09 2 o (by decide) (by decide))
theorem Coded.cmple (o : CP) : Coded.Statement (.cmple o) := Coded.of_lt rfl (packCP_lt 0x09 3 o (by decide) (by decide))
theorem Coded.cmpgt (o : CP) : Coded.Statement (.cmpgt o) := Coded.of_lt rfl (packCP_lt 0x09 4 o (by decide) (by decide))
theorem Coded.cmpge (o : CP) : Coded.Statement (.cmpge o) := Coded.of_lt rfl (packCP_lt 0x09 5 o (by decide) (by decide))
theorem Coded.cmpltu (o : CP) : Coded.Statement (.cmpltu o) := Coded.of_lt rfl (packCP_lt 0x09 6 o (by decide) (by decide))
theorem Coded.cmpleu (o : CP) : Coded.Statement (.cmpleu o) := Coded.of_lt rfl (packCP_lt 0x09 7 o (by decide) (by decide))
theorem Coded.cmpgtu (o : CP) : Coded.Statement (.cmpgtu o) := Coded.of_lt rfl (packCP_lt 0x09 8 o (by decide) (by decide))
theorem Coded.cmpgeu (o : CP) : Coded.Statement (.cmpgeu o) := Coded.of_lt rfl (packCP_lt 0x09 9 o (by decide) (by decide))
theorem Coded.cmpeqi (o : CPI) : Coded.Statement (.cmpeqi o) := Coded.of_lt rfl (packCPI_lt 0x0A 0 o (by decide) (by decide))
theorem Coded.cmpnei (o : CPI) : Coded.Statement (.cmpnei o) := Coded.of_lt rfl (packCPI_lt 0x0A 1 o (by decide) (by decide))
theorem Coded.cmplti (o : CPI) : Coded.Statement (.cmplti o) := Coded.of_lt rfl (packCPI_lt 0x0A 2 o (by decide) (by decide))
theorem Coded.cmplei (o : CPI) : Coded.Statement (.cmplei o) := Coded.of_lt rfl (packCPI_lt 0x0A 3 o (by decide) (by decide))
theorem Coded.cmpgti (o : CPI) : Coded.Statement (.cmpgti o) := Coded.of_lt rfl (packCPI_lt 0x0A 4 o (by decide) (by decide))
theorem Coded.cmpgei (o : CPI) : Coded.Statement (.cmpgei o) := Coded.of_lt rfl (packCPI_lt 0x0A 5 o (by decide) (by decide))
theorem Coded.cmpltui (o : CPI) : Coded.Statement (.cmpltui o) := Coded.of_lt rfl (packCPI_lt 0x0A 6 o (by decide) (by decide))
theorem Coded.cmpleui (o : CPI) : Coded.Statement (.cmpleui o) := Coded.of_lt rfl (packCPI_lt 0x0A 7 o (by decide) (by decide))
theorem Coded.cmpgtui (o : CPI) : Coded.Statement (.cmpgtui o) := Coded.of_lt rfl (packCPI_lt 0x0A 8 o (by decide) (by decide))
theorem Coded.cmpgeui (o : CPI) : Coded.Statement (.cmpgeui o) := Coded.of_lt rfl (packCPI_lt 0x0A 9 o (by decide) (by decide))
theorem Coded.pand (o : PL) : Coded.Statement (.pand o) := Coded.of_lt rfl (packPL_lt 0x0B 0 o (by decide) (by decide))
theorem Coded.por (o : PL) : Coded.Statement (.por o) := Coded.of_lt rfl (packPL_lt 0x0B 1 o (by decide) (by decide))
theorem Coded.pxor (o : PL) : Coded.Statement (.pxor o) := Coded.of_lt rfl (packPL_lt 0x0B 2 o (by decide) (by decide))
theorem Coded.pandn (o : PL) : Coded.Statement (.pandn o) := Coded.of_lt rfl (packPL_lt 0x0B 3 o (by decide) (by decide))
theorem Coded.porn (o : PL) : Coded.Statement (.porn o) := Coded.of_lt rfl (packPL_lt 0x0B 4 o (by decide) (by decide))
theorem Coded.pnand (o : PL) : Coded.Statement (.pnand o) := Coded.of_lt rfl (packPL_lt 0x0B 5 o (by decide) (by decide))
theorem Coded.pnor (o : PL) : Coded.Statement (.pnor o) := Coded.of_lt rfl (packPL_lt 0x0B 6 o (by decide) (by decide))
theorem Coded.pxnor (o : PL) : Coded.Statement (.pxnor o) := Coded.of_lt rfl (packPL_lt 0x0B 7 o (by decide) (by decide))
theorem Coded.fcmpeq (o : FP) : Coded.Statement (.fcmpeq o) := Coded.of_lt rfl (packFP_lt 0x0C 0 o (by decide) (by decide))
theorem Coded.fcmplt (o : FP) : Coded.Statement (.fcmplt o) := Coded.of_lt rfl (packFP_lt 0x0C 1 o (by decide) (by decide))
theorem Coded.fcmple (o : FP) : Coded.Statement (.fcmple o) := Coded.of_lt rfl (packFP_lt 0x0C 2 o (by decide) (by decide))
theorem Coded.fcmpun (o : FP) : Coded.Statement (.fcmpun o) := Coded.of_lt rfl (packFP_lt 0x0C 3 o (by decide) (by decide))
theorem Coded.fadd (o : FR) : Coded.Statement (.fadd o) := Coded.of_lt rfl (packFR_lt 0x0D 0 o (by decide) (by decide))
theorem Coded.fsub (o : FR) : Coded.Statement (.fsub o) := Coded.of_lt rfl (packFR_lt 0x0D 1 o (by decide) (by decide))
theorem Coded.fmul (o : FR) : Coded.Statement (.fmul o) := Coded.of_lt rfl (packFR_lt 0x0D 2 o (by decide) (by decide))
theorem Coded.fma (o : FR) : Coded.Statement (.fma o) := Coded.of_lt rfl (packFR_lt 0x0D 3 o (by decide) (by decide))
theorem Coded.fmin (o : FR) : Coded.Statement (.fmin o) := Coded.of_lt rfl (packFR_lt 0x0E 0 o (by decide) (by decide))
theorem Coded.fmax (o : FR) : Coded.Statement (.fmax o) := Coded.of_lt rfl (packFR_lt 0x0E 1 o (by decide) (by decide))
theorem Coded.fdiv (o : FR) : Coded.Statement (.fdiv o) := Coded.of_lt rfl (packFR_lt 0x0E 2 o (by decide) (by decide))
theorem Coded.fsqrt (o : FR1) : Coded.Statement (.fsqrt o) := Coded.of_lt rfl (packFR1_lt 0x0E 3 o (by decide) (by decide))
theorem Coded.fcvtsh (o : RR) : Coded.Statement (.fcvtsh o) := Coded.of_lt rfl (packRR_lt 0x0F 0 o (by decide) (by decide))
theorem Coded.fcvtsb (o : RR) : Coded.Statement (.fcvtsb o) := Coded.of_lt rfl (packRR_lt 0x0F 1 o (by decide) (by decide))
theorem Coded.fcvths (o : RR) : Coded.Statement (.fcvths o) := Coded.of_lt rfl (packRR_lt 0x0F 2 o (by decide) (by decide))
theorem Coded.fcvtbs (o : RR) : Coded.Statement (.fcvtbs o) := Coded.of_lt rfl (packRR_lt 0x0F 3 o (by decide) (by decide))
theorem Coded.fcvtsi (o : RR) : Coded.Statement (.fcvtsi o) := Coded.of_lt rfl (packRR_lt 0x0F 4 o (by decide) (by decide))
theorem Coded.fcvtis (o : RR) : Coded.Statement (.fcvtis o) := Coded.of_lt rfl (packRR_lt 0x0F 5 o (by decide) (by decide))
theorem Coded.fcvthi (o : RR) : Coded.Statement (.fcvthi o) := Coded.of_lt rfl (packRR_lt 0x0F 6 o (by decide) (by decide))
theorem Coded.fcvtih (o : RR) : Coded.Statement (.fcvtih o) := Coded.of_lt rfl (packRR_lt 0x0F 7 o (by decide) (by decide))
theorem Coded.fcvtsu (o : RR) : Coded.Statement (.fcvtsu o) := Coded.of_lt rfl (packRR_lt 0x0F 8 o (by decide) (by decide))
theorem Coded.fcvtus (o : RR) : Coded.Statement (.fcvtus o) := Coded.of_lt rfl (packRR_lt 0x0F 9 o (by decide) (by decide))
theorem Coded.fcvthb (o : RR) : Coded.Statement (.fcvthb o) := Coded.of_lt rfl (packRR_lt 0x0F 10 o (by decide) (by decide))
theorem Coded.fcvtbh (o : RR) : Coded.Statement (.fcvtbh o) := Coded.of_lt rfl (packRR_lt 0x0F 11 o (by decide) (by decide))
theorem Coded.br (o : BT) : Coded.Statement (.br o) := Coded.of_lt rfl (packBT_lt 0x10 o (by decide))
theorem Coded.jal (o : RI) : Coded.Statement (.jal o) := Coded.of_lt rfl (packRI_lt 0x11 o (by decide))
theorem Coded.jr (o : RR) : Coded.Statement (.jr o) := Coded.of_lt rfl (packRR_lt 0x12 0 o (by decide) (by decide))
theorem Coded.ldb (o : LD) : Coded.Statement (.ldb o) := Coded.of_lt rfl (packLD_lt 0x13 o (by decide))
theorem Coded.ldh (o : LD) : Coded.Statement (.ldh o) := Coded.of_lt rfl (packLD_lt 0x14 o (by decide))
theorem Coded.ldw (o : LD) : Coded.Statement (.ldw o) := Coded.of_lt rfl (packLD_lt 0x15 o (by decide))
theorem Coded.ldd (o : LD) : Coded.Statement (.ldd o) := Coded.of_lt rfl (packLD_lt 0x16 o (by decide))
theorem Coded.ldbu (o : LD) : Coded.Statement (.ldbu o) := Coded.of_lt rfl (packLD_lt 0x17 o (by decide))
theorem Coded.ldhu (o : LD) : Coded.Statement (.ldhu o) := Coded.of_lt rfl (packLD_lt 0x18 o (by decide))
theorem Coded.ldwu (o : LD) : Coded.Statement (.ldwu o) := Coded.of_lt rfl (packLD_lt 0x19 o (by decide))
theorem Coded.stb (o : ST) : Coded.Statement (.stb o) := Coded.of_lt rfl (packST_lt 0x1A o (by decide))
theorem Coded.sth (o : ST) : Coded.Statement (.sth o) := Coded.of_lt rfl (packST_lt 0x1B o (by decide))
theorem Coded.stw (o : ST) : Coded.Statement (.stw o) := Coded.of_lt rfl (packST_lt 0x1C o (by decide))
theorem Coded.std (o : ST) : Coded.Statement (.std o) := Coded.of_lt rfl (packST_lt 0x1D o (by decide))
theorem Coded.ldx (o : LD) : Coded.Statement (.ldx o) := Coded.of_lt rfl (packLD_lt 0x1E o (by decide))
theorem Coded.ldp (o : LD) : Coded.Statement (.ldp o) := Coded.of_lt rfl (packLD_lt 0x1F o (by decide))
theorem Coded.stx (o : ST) : Coded.Statement (.stx o) := Coded.of_lt rfl (packST_lt 0x20 o (by decide))
theorem Coded.tempty (o : TG) : Coded.Statement (.tempty o) := Coded.of_lt rfl (packTG_lt 0x21 0 o (by decide) (by decide))
theorem Coded.tfull (o : TG) : Coded.Statement (.tfull o) := Coded.of_lt rfl (packTG_lt 0x21 1 o (by decide) (by decide))
theorem Coded.tqry (o : RRR) : Coded.Statement (.tqry o) := Coded.of_lt rfl (packRRR_lt 0x21 2 o (by decide) (by decide))
theorem Coded.twaitf (o : TG) : Coded.Statement (.twaitf o) := Coded.of_lt rfl (packTG_lt 0x21 3 o (by decide) (by decide))
theorem Coded.twaite (o : TG) : Coded.Statement (.twaite o) := Coded.of_lt rfl (packTG_lt 0x21 4 o (by decide) (by decide))
theorem Coded.watch (o : TG) : Coded.Statement (.watch o) := Coded.of_lt rfl (packTG_lt 0x21 5 o (by decide) (by decide))
theorem Coded.unwatch (o : TG) : Coded.Statement (.unwatch o) := Coded.of_lt rfl (packTG_lt 0x21 6 o (by decide) (by decide))
theorem Coded.waitw (o : Guard) : Coded.Statement (.waitw o) := Coded.of_lt rfl (packG0_lt 0x21 7 o (by decide) (by decide))
theorem Coded.lda (o : LA) : Coded.Statement (.lda o) := Coded.of_lt rfl (packLA_lt 0x22 o (by decide))
theorem Coded.stl (o : SL) : Coded.Statement (.stl o) := Coded.of_lt rfl (packSL_lt 0x23 o (by decide))
theorem Coded.amoadd (o : RRR) : Coded.Statement (.amoadd o) := Coded.of_lt rfl (packRRR_lt 0x24 0 o (by decide) (by decide))
theorem Coded.amosmin (o : RRR) : Coded.Statement (.amosmin o) := Coded.of_lt rfl (packRRR_lt 0x24 1 o (by decide) (by decide))
theorem Coded.amosmax (o : RRR) : Coded.Statement (.amosmax o) := Coded.of_lt rfl (packRRR_lt 0x24 2 o (by decide) (by decide))
theorem Coded.amoumin (o : RRR) : Coded.Statement (.amoumin o) := Coded.of_lt rfl (packRRR_lt 0x24 3 o (by decide) (by decide))
theorem Coded.amoumax (o : RRR) : Coded.Statement (.amoumax o) := Coded.of_lt rfl (packRRR_lt 0x24 4 o (by decide) (by decide))
theorem Coded.amoand (o : RRR) : Coded.Statement (.amoand o) := Coded.of_lt rfl (packRRR_lt 0x24 5 o (by decide) (by decide))
theorem Coded.amoor (o : RRR) : Coded.Statement (.amoor o) := Coded.of_lt rfl (packRRR_lt 0x24 6 o (by decide) (by decide))
theorem Coded.amoxor (o : RRR) : Coded.Statement (.amoxor o) := Coded.of_lt rfl (packRRR_lt 0x24 7 o (by decide) (by decide))
theorem Coded.amoswap (o : RRR) : Coded.Statement (.amoswap o) := Coded.of_lt rfl (packRRR_lt 0x24 8 o (by decide) (by decide))
theorem Coded.amocas (o : RRR) : Coded.Statement (.amocas o) := Coded.of_lt rfl (packRRR_lt 0x24 9 o (by decide) (by decide))
theorem Coded.vrsum (o : VR) : Coded.Statement (.vrsum o) := Coded.of_lt rfl (packVR_lt 0x25 0 o (by decide) (by decide))
theorem Coded.vrmax (o : VR) : Coded.Statement (.vrmax o) := Coded.of_lt rfl (packVR_lt 0x25 1 o (by decide) (by decide))
theorem Coded.vrmin (o : VR) : Coded.Statement (.vrmin o) := Coded.of_lt rfl (packVR_lt 0x25 2 o (by decide) (by decide))
theorem Coded.vbcast (o : VB) : Coded.Statement (.vbcast o) := Coded.of_lt rfl (packVB_lt 0x26 0 o (by decide) (by decide))
theorem Coded.vext (o : VM) : Coded.Statement (.vext o) := Coded.of_lt rfl (packVM_lt 0x26 1 o (by decide) (by decide))
theorem Coded.vexts (o : VM) : Coded.Statement (.vexts o) := Coded.of_lt rfl (packVM_lt 0x26 2 o (by decide) (by decide))
theorem Coded.vins (o : VM) : Coded.Statement (.vins o) := Coded.of_lt rfl (packVM_lt 0x26 3 o (by decide) (by decide))
theorem Coded.vsel (o : VX) : Coded.Statement (.vsel o) := Coded.of_lt rfl (packVX_lt 0x27 0 o (by decide) (by decide))
theorem Coded.vperm (o : VX) : Coded.Statement (.vperm o) := Coded.of_lt rfl (packVX_lt 0x27 1 o (by decide) (by decide))
theorem Coded.vzip (o : VX) : Coded.Statement (.vzip o) := Coded.of_lt rfl (packVX_lt 0x27 2 o (by decide) (by decide))
theorem Coded.vunzip (o : VX) : Coded.Statement (.vunzip o) := Coded.of_lt rfl (packVX_lt 0x27 3 o (by decide) (by decide))
theorem Coded.qand (o : PL) : Coded.Statement (.qand o) := Coded.of_lt rfl (packPL_lt 0x28 0 o (by decide) (by decide))
theorem Coded.qor (o : PL) : Coded.Statement (.qor o) := Coded.of_lt rfl (packPL_lt 0x28 1 o (by decide) (by decide))
theorem Coded.qxor (o : PL) : Coded.Statement (.qxor o) := Coded.of_lt rfl (packPL_lt 0x28 2 o (by decide) (by decide))
theorem Coded.qandn (o : PL) : Coded.Statement (.qandn o) := Coded.of_lt rfl (packPL_lt 0x28 3 o (by decide) (by decide))
theorem Coded.qorn (o : PL) : Coded.Statement (.qorn o) := Coded.of_lt rfl (packPL_lt 0x28 4 o (by decide) (by decide))
theorem Coded.qnand (o : PL) : Coded.Statement (.qnand o) := Coded.of_lt rfl (packPL_lt 0x28 5 o (by decide) (by decide))
theorem Coded.qnor (o : PL) : Coded.Statement (.qnor o) := Coded.of_lt rfl (packPL_lt 0x28 6 o (by decide) (by decide))
theorem Coded.qxnor (o : PL) : Coded.Statement (.qxnor o) := Coded.of_lt rfl (packPL_lt 0x28 7 o (by decide) (by decide))
theorem Coded.fence (o : FN) : Coded.Statement (.fence o) := Coded.of_lt rfl (packFN_lt 0x29 o (by decide))
theorem Coded.vaddI (o : VI) : Coded.Statement (.vaddI o) := Coded.of_lt rfl (packVI_lt (0x30 + o.size.code) 0 o (by have := LSize.code_lt o.size; omega) (by decide))
theorem Coded.vsubI (o : VI) : Coded.Statement (.vsubI o) := Coded.of_lt rfl (packVI_lt (0x30 + o.size.code) 1 o (by have := LSize.code_lt o.size; omega) (by decide))
theorem Coded.vmulI (o : VI) : Coded.Statement (.vmulI o) := Coded.of_lt rfl (packVI_lt (0x30 + o.size.code) 2 o (by have := LSize.code_lt o.size; omega) (by decide))
theorem Coded.vmulhI (o : VI) : Coded.Statement (.vmulhI o) := Coded.of_lt rfl (packVI_lt (0x30 + o.size.code) 3 o (by have := LSize.code_lt o.size; omega) (by decide))
theorem Coded.vminI (o : VI) : Coded.Statement (.vminI o) := Coded.of_lt rfl (packVI_lt (0x30 + o.size.code) 4 o (by have := LSize.code_lt o.size; omega) (by decide))
theorem Coded.vmaxI (o : VI) : Coded.Statement (.vmaxI o) := Coded.of_lt rfl (packVI_lt (0x30 + o.size.code) 5 o (by have := LSize.code_lt o.size; omega) (by decide))
theorem Coded.vminu (o : VI) : Coded.Statement (.vminu o) := Coded.of_lt rfl (packVI_lt (0x30 + o.size.code) 6 o (by have := LSize.code_lt o.size; omega) (by decide))
theorem Coded.vmaxu (o : VI) : Coded.Statement (.vmaxu o) := Coded.of_lt rfl (packVI_lt (0x30 + o.size.code) 7 o (by have := LSize.code_lt o.size; omega) (by decide))
theorem Coded.vand (o : VI) : Coded.Statement (.vand o) := Coded.of_lt rfl (packVI_lt (0x30 + o.size.code) 8 o (by have := LSize.code_lt o.size; omega) (by decide))
theorem Coded.vor (o : VI) : Coded.Statement (.vor o) := Coded.of_lt rfl (packVI_lt (0x30 + o.size.code) 9 o (by have := LSize.code_lt o.size; omega) (by decide))
theorem Coded.vxor (o : VI) : Coded.Statement (.vxor o) := Coded.of_lt rfl (packVI_lt (0x30 + o.size.code) 10 o (by have := LSize.code_lt o.size; omega) (by decide))
theorem Coded.vandn (o : VI) : Coded.Statement (.vandn o) := Coded.of_lt rfl (packVI_lt (0x30 + o.size.code) 11 o (by have := LSize.code_lt o.size; omega) (by decide))
theorem Coded.vshl (o : VI) : Coded.Statement (.vshl o) := Coded.of_lt rfl (packVI_lt (0x30 + o.size.code) 12 o (by have := LSize.code_lt o.size; omega) (by decide))
theorem Coded.vshr (o : VI) : Coded.Statement (.vshr o) := Coded.of_lt rfl (packVI_lt (0x30 + o.size.code) 13 o (by have := LSize.code_lt o.size; omega) (by decide))
theorem Coded.vsra (o : VI) : Coded.Statement (.vsra o) := Coded.of_lt rfl (packVI_lt (0x30 + o.size.code) 14 o (by have := LSize.code_lt o.size; omega) (by decide))
theorem Coded.vadds (o : VI) : Coded.Statement (.vadds o) := Coded.of_lt rfl (packVI_lt (0x30 + o.size.code) 15 o (by have := LSize.code_lt o.size; omega) (by decide))
theorem Coded.vaddF16 (o : VF) : Coded.Statement (.vaddF16 o) := Coded.of_lt rfl (packVF_lt 0x33 0 o (by decide) (by decide))
theorem Coded.vsubF16 (o : VF) : Coded.Statement (.vsubF16 o) := Coded.of_lt rfl (packVF_lt 0x33 1 o (by decide) (by decide))
theorem Coded.vmulF16 (o : VF) : Coded.Statement (.vmulF16 o) := Coded.of_lt rfl (packVF_lt 0x33 2 o (by decide) (by decide))
theorem Coded.vfmaF16 (o : VF) : Coded.Statement (.vfmaF16 o) := Coded.of_lt rfl (packVF_lt 0x33 3 o (by decide) (by decide))
theorem Coded.vminF16 (o : VF) : Coded.Statement (.vminF16 o) := Coded.of_lt rfl (packVF_lt 0x33 4 o (by decide) (by decide))
theorem Coded.vmaxF16 (o : VF) : Coded.Statement (.vmaxF16 o) := Coded.of_lt rfl (packVF_lt 0x33 5 o (by decide) (by decide))
theorem Coded.vabsF16 (o : VF1) : Coded.Statement (.vabsF16 o) := Coded.of_lt rfl (packVF1_lt 0x33 6 o (by decide) (by decide))
theorem Coded.vnegF16 (o : VF1) : Coded.Statement (.vnegF16 o) := Coded.of_lt rfl (packVF1_lt 0x33 7 o (by decide) (by decide))
theorem Coded.vdivF16 (o : VF) : Coded.Statement (.vdivF16 o) := Coded.of_lt rfl (packVF_lt 0x33 8 o (by decide) (by decide))
theorem Coded.vsqrtF16 (o : VF1) : Coded.Statement (.vsqrtF16 o) := Coded.of_lt rfl (packVF1_lt 0x33 9 o (by decide) (by decide))
theorem Coded.vexp2F16 (o : VF1) : Coded.Statement (.vexp2F16 o) := Coded.of_lt rfl (packVF1_lt 0x33 10 o (by decide) (by decide))
theorem Coded.vlog2F16 (o : VF1) : Coded.Statement (.vlog2F16 o) := Coded.of_lt rfl (packVF1_lt 0x33 11 o (by decide) (by decide))
theorem Coded.vrcpF16 (o : VF1) : Coded.Statement (.vrcpF16 o) := Coded.of_lt rfl (packVF1_lt 0x33 12 o (by decide) (by decide))
theorem Coded.vrsqF16 (o : VF1) : Coded.Statement (.vrsqF16 o) := Coded.of_lt rfl (packVF1_lt 0x33 13 o (by decide) (by decide))
theorem Coded.vaddBf16 (o : VF) : Coded.Statement (.vaddBf16 o) := Coded.of_lt rfl (packVF_lt 0x34 0 o (by decide) (by decide))
theorem Coded.vsubBf16 (o : VF) : Coded.Statement (.vsubBf16 o) := Coded.of_lt rfl (packVF_lt 0x34 1 o (by decide) (by decide))
theorem Coded.vmulBf16 (o : VF) : Coded.Statement (.vmulBf16 o) := Coded.of_lt rfl (packVF_lt 0x34 2 o (by decide) (by decide))
theorem Coded.vfmaBf16 (o : VF) : Coded.Statement (.vfmaBf16 o) := Coded.of_lt rfl (packVF_lt 0x34 3 o (by decide) (by decide))
theorem Coded.vminBf16 (o : VF) : Coded.Statement (.vminBf16 o) := Coded.of_lt rfl (packVF_lt 0x34 4 o (by decide) (by decide))
theorem Coded.vmaxBf16 (o : VF) : Coded.Statement (.vmaxBf16 o) := Coded.of_lt rfl (packVF_lt 0x34 5 o (by decide) (by decide))
theorem Coded.vabsBf16 (o : VF1) : Coded.Statement (.vabsBf16 o) := Coded.of_lt rfl (packVF1_lt 0x34 6 o (by decide) (by decide))
theorem Coded.vnegBf16 (o : VF1) : Coded.Statement (.vnegBf16 o) := Coded.of_lt rfl (packVF1_lt 0x34 7 o (by decide) (by decide))
theorem Coded.vdivBf16 (o : VF) : Coded.Statement (.vdivBf16 o) := Coded.of_lt rfl (packVF_lt 0x34 8 o (by decide) (by decide))
theorem Coded.vsqrtBf16 (o : VF1) : Coded.Statement (.vsqrtBf16 o) := Coded.of_lt rfl (packVF1_lt 0x34 9 o (by decide) (by decide))
theorem Coded.vexp2Bf16 (o : VF1) : Coded.Statement (.vexp2Bf16 o) := Coded.of_lt rfl (packVF1_lt 0x34 10 o (by decide) (by decide))
theorem Coded.vlog2Bf16 (o : VF1) : Coded.Statement (.vlog2Bf16 o) := Coded.of_lt rfl (packVF1_lt 0x34 11 o (by decide) (by decide))
theorem Coded.vrcpBf16 (o : VF1) : Coded.Statement (.vrcpBf16 o) := Coded.of_lt rfl (packVF1_lt 0x34 12 o (by decide) (by decide))
theorem Coded.vrsqBf16 (o : VF1) : Coded.Statement (.vrsqBf16 o) := Coded.of_lt rfl (packVF1_lt 0x34 13 o (by decide) (by decide))
theorem Coded.vaddF32 (o : VF) : Coded.Statement (.vaddF32 o) := Coded.of_lt rfl (packVF_lt 0x35 0 o (by decide) (by decide))
theorem Coded.vsubF32 (o : VF) : Coded.Statement (.vsubF32 o) := Coded.of_lt rfl (packVF_lt 0x35 1 o (by decide) (by decide))
theorem Coded.vmulF32 (o : VF) : Coded.Statement (.vmulF32 o) := Coded.of_lt rfl (packVF_lt 0x35 2 o (by decide) (by decide))
theorem Coded.vfmaF32 (o : VF) : Coded.Statement (.vfmaF32 o) := Coded.of_lt rfl (packVF_lt 0x35 3 o (by decide) (by decide))
theorem Coded.vminF32 (o : VF) : Coded.Statement (.vminF32 o) := Coded.of_lt rfl (packVF_lt 0x35 4 o (by decide) (by decide))
theorem Coded.vmaxF32 (o : VF) : Coded.Statement (.vmaxF32 o) := Coded.of_lt rfl (packVF_lt 0x35 5 o (by decide) (by decide))
theorem Coded.vabsF32 (o : VF1) : Coded.Statement (.vabsF32 o) := Coded.of_lt rfl (packVF1_lt 0x35 6 o (by decide) (by decide))
theorem Coded.vnegF32 (o : VF1) : Coded.Statement (.vnegF32 o) := Coded.of_lt rfl (packVF1_lt 0x35 7 o (by decide) (by decide))
theorem Coded.vdivF32 (o : VF) : Coded.Statement (.vdivF32 o) := Coded.of_lt rfl (packVF_lt 0x35 8 o (by decide) (by decide))
theorem Coded.vsqrtF32 (o : VF1) : Coded.Statement (.vsqrtF32 o) := Coded.of_lt rfl (packVF1_lt 0x35 9 o (by decide) (by decide))
theorem Coded.vexp2F32 (o : VF1) : Coded.Statement (.vexp2F32 o) := Coded.of_lt rfl (packVF1_lt 0x35 10 o (by decide) (by decide))
theorem Coded.vlog2F32 (o : VF1) : Coded.Statement (.vlog2F32 o) := Coded.of_lt rfl (packVF1_lt 0x35 11 o (by decide) (by decide))
theorem Coded.vrcpF32 (o : VF1) : Coded.Statement (.vrcpF32 o) := Coded.of_lt rfl (packVF1_lt 0x35 12 o (by decide) (by decide))
theorem Coded.vrsqF32 (o : VF1) : Coded.Statement (.vrsqF32 o) := Coded.of_lt rfl (packVF1_lt 0x35 13 o (by decide) (by decide))
theorem Coded.vcmpeq (o : VC) : Coded.Statement (.vcmpeq o) := Coded.of_lt rfl (packVC_lt 0x36 0 o (by decide) (by decide))
theorem Coded.vcmpne (o : VC) : Coded.Statement (.vcmpne o) := Coded.of_lt rfl (packVC_lt 0x36 1 o (by decide) (by decide))
theorem Coded.vcmplt (o : VC) : Coded.Statement (.vcmplt o) := Coded.of_lt rfl (packVC_lt 0x36 2 o (by decide) (by decide))
theorem Coded.vcmple (o : VC) : Coded.Statement (.vcmple o) := Coded.of_lt rfl (packVC_lt 0x36 3 o (by decide) (by decide))
theorem Coded.vcmpltu (o : VC) : Coded.Statement (.vcmpltu o) := Coded.of_lt rfl (packVC_lt 0x36 4 o (by decide) (by decide))
theorem Coded.vcmpleu (o : VC) : Coded.Statement (.vcmpleu o) := Coded.of_lt rfl (packVC_lt 0x36 5 o (by decide) (by decide))
theorem Coded.vcmpun (o : VC) : Coded.Statement (.vcmpun o) := Coded.of_lt rfl (packVC_lt 0x36 6 o (by decide) (by decide))
theorem Coded.vcmpord (o : VC) : Coded.Statement (.vcmpord o) := Coded.of_lt rfl (packVC_lt 0x36 7 o (by decide) (by decide))
theorem Coded.vcvt (o : VV) : Coded.Statement (.vcvt o) := Coded.of_lt rfl (packVV_lt 0x37 o (by decide))
theorem Coded.vld (o : VL) : Coded.Statement (.vld o) := Coded.of_lt rfl (packVL_lt 0x38 o (by decide))
theorem Coded.vst (o : VS) : Coded.Statement (.vst o) := Coded.of_lt rfl (packVS_lt 0x39 o (by decide))
theorem Coded.mma (o : MM) : Coded.Statement (.mma o) := Coded.of_lt rfl (packMM_lt 0x3A o (by decide))
theorem Coded.shape (o : SH) : Coded.Statement (.shape o) := Coded.of_lt rfl (packSH_lt 0x3B 0 o (by decide) (by decide))
theorem Coded.acz (o : T1) : Coded.Statement (.acz o) := Coded.of_lt rfl (packT1_lt 0x3B 4 o (by decide) (by decide))
theorem Coded.drain (o : T2) : Coded.Statement (.drain o) := Coded.of_lt rfl (packT2_lt 0x3B 8 o (by decide) (by decide))
theorem Coded.table (o : T2) : Coded.Statement (.table o) := Coded.of_lt rfl (packT2_lt 0x3B 12 o (by decide) (by decide))
theorem Coded.rowsum (o : T2) : Coded.Statement (.rowsum o) := Coded.of_lt rfl (packT2_lt 0x3B 16 o (by decide) (by decide))
theorem Coded.colsum (o : T2) : Coded.Statement (.colsum o) := Coded.of_lt rfl (packT2_lt 0x3B 20 o (by decide) (by decide))
theorem Coded.pack (o : T2) : Coded.Statement (.pack o) := Coded.of_lt rfl (packT2_lt 0x3B 24 o (by decide) (by decide))
theorem Coded.unpack (o : T2) : Coded.Statement (.unpack o) := Coded.of_lt rfl (packT2_lt 0x3B 28 o (by decide) (by decide))
theorem Coded.aread (o : T2) : Coded.Statement (.aread o) := Coded.of_lt rfl (packT2_lt 0x3B 32 o (by decide) (by decide))
theorem Coded.copy (o : TC) : Coded.Statement (.copy o) := Coded.of_lt rfl (packTC_lt 0x3C 0 o (by decide) (by decide))
theorem Coded.copys (o : TC) : Coded.Statement (.copys o) := Coded.of_lt rfl (packTC_lt 0x3C 1 o (by decide) (by decide))
theorem Coded.copya (o : TC) : Coded.Statement (.copya o) := Coded.of_lt rfl (packTC_lt 0x3C 2 o (by decide) (by decide))
theorem Coded.mcast (o : TC) : Coded.Statement (.mcast o) := Coded.of_lt rfl (packTC_lt 0x3C 3 o (by decide) (by decide))
theorem Coded.redg (o : TC) : Coded.Statement (.redg o) := Coded.of_lt rfl (packTC_lt 0x3C 4 o (by decide) (by decide))
theorem Coded.flushout (o : T2) : Coded.Statement (.flushout o) := Coded.of_lt rfl (packT2_lt 0x3C 40 o (by decide) (by decide))
theorem Coded.fetchin (o : TC) : Coded.Statement (.fetchin o) := Coded.of_lt rfl (packTC_lt 0x3C 6 o (by decide) (by decide))
theorem Coded.mkch (o : T2) : Coded.Statement (.mkch o) := Coded.of_lt rfl (packT2_lt 0x3D 0 o (by decide) (by decide))
theorem Coded.close (o : T1) : Coded.Statement (.close o) := Coded.of_lt rfl (packT1_lt 0x3D 1 o (by decide) (by decide))
theorem Coded.bind (o : T1) : Coded.Statement (.bind o) := Coded.of_lt rfl (packT1_lt 0x3D 2 o (by decide) (by decide))
theorem Coded.rebind (o : T2) : Coded.Statement (.rebind o) := Coded.of_lt rfl (packT2_lt 0x3D 3 o (by decide) (by decide))
theorem Coded.send (o : T2) : Coded.Statement (.send o) := Coded.of_lt rfl (packT2_lt 0x3D 4 o (by decide) (by decide))
theorem Coded.recv (o : T2) : Coded.Statement (.recv o) := Coded.of_lt rfl (packT2_lt 0x3D 5 o (by decide) (by decide))
theorem Coded.sendt (o : T2) : Coded.Statement (.sendt o) := Coded.of_lt rfl (packT2_lt 0x3D 6 o (by decide) (by decide))
theorem Coded.recvt (o : T2) : Coded.Statement (.recvt o) := Coded.of_lt rfl (packT2_lt 0x3D 7 o (by decide) (by decide))
theorem Coded.sendd (o : T2) : Coded.Statement (.sendd o) := Coded.of_lt rfl (packT2_lt 0x3D 8 o (by decide) (by decide))
theorem Coded.pull (o : T2) : Coded.Statement (.pull o) := Coded.of_lt rfl (packT2_lt 0x3D 9 o (by decide) (by decide))
theorem Coded.dropw (o : T1) : Coded.Statement (.dropw o) := Coded.of_lt rfl (packT1_lt 0x3D 10 o (by decide) (by decide))
theorem Coded.alt (o : T2) : Coded.Statement (.alt o) := Coded.of_lt rfl (packT2_lt 0x3D 11 o (by decide) (by decide))
theorem Coded.altf (o : T2) : Coded.Statement (.altf o) := Coded.of_lt rfl (packT2_lt 0x3D 12 o (by decide) (by decide))
theorem Coded.probe (o : T2) : Coded.Statement (.probe o) := Coded.of_lt rfl (packT2_lt 0x3D 13 o (by decide) (by decide))
theorem Coded.nop (o : Guard) : Coded.Statement (.nop o) := Coded.of_lt rfl (packG0_lt 0x3E 0 o (by decide) (by decide))
theorem Coded.trap (o : TR) : Coded.Statement (.trap o) := Coded.of_lt rfl (packTR_lt 0x3E 1 o (by decide) (by decide))
theorem Coded.trapret (o : Guard) : Coded.Statement (.trapret o) := Coded.of_lt rfl (packG0_lt 0x3E 2 o (by decide) (by decide))
theorem Coded.halt (o : Guard) : Coded.Statement (.halt o) := Coded.of_lt rfl (packG0_lt 0x3E 3 o (by decide) (by decide))
theorem Coded.ctlr (o : CR) : Coded.Statement (.ctlr o) := Coded.of_lt rfl (packCR_lt 0x3E 4 o (by decide) (by decide))
theorem Coded.ctlw (o : CR) : Coded.Statement (.ctlw o) := Coded.of_lt rfl (packCR_lt 0x3E 5 o (by decide) (by decide))
theorem Coded.spawn (o : RR) : Coded.Statement (.spawn o) := Coded.of_lt rfl (packRR_lt 0x3E 6 o (by decide) (by decide))
theorem Coded.exit (o : Guard) : Coded.Statement (.exit o) := Coded.of_lt rfl (packG0_lt 0x3E 7 o (by decide) (by decide))
theorem Coded.yield (o : Guard) : Coded.Statement (.yield o) := Coded.of_lt rfl (packG0_lt 0x3E 8 o (by decide) (by decide))
theorem Coded.prio (o : RR) : Coded.Statement (.prio o) := Coded.of_lt rfl (packRR_lt 0x3E 9 o (by decide) (by decide))
theorem Coded.sleep (o : A1) : Coded.Statement (.sleep o) := Coded.of_lt rfl (packA1_lt 0x3E 10 o (by decide) (by decide))
theorem Coded.ifence (o : Guard) : Coded.Statement (.ifence o) := Coded.of_lt rfl (packG0_lt 0x3E 11 o (by decide) (by decide))
theorem Coded.tlbinv (o : A1) : Coded.Statement (.tlbinv o) := Coded.of_lt rfl (packA1_lt 0x3E 12 o (by decide) (by decide))
theorem Coded.repart (o : A1) : Coded.Statement (.repart o) := Coded.of_lt rfl (packA1_lt 0x3E 13 o (by decide) (by decide))
theorem Coded.qarm (o : RR) : Coded.Statement (.qarm o) := Coded.of_lt rfl (packRR_lt 0x3E 14 o (by decide) (by decide))
theorem Coded.ckptSave (o : A1) : Coded.Statement (.ckptSave o) := Coded.of_lt rfl (packA1_lt 0x3E 15 o (by decide) (by decide))
theorem Coded.ckptRestore (o : A1) : Coded.Statement (.ckptRestore o) := Coded.of_lt rfl (packA1_lt 0x3E 79 o (by decide) (by decide))
theorem Coded.gopen (o : RR) : Coded.Statement (.gopen o) := Coded.of_lt rfl (packRR_lt 0x3E 16 o (by decide) (by decide))
theorem Coded.gfree (o : D1) : Coded.Statement (.gfree o) := Coded.of_lt rfl (packD1_lt 0x3E 17 o (by decide) (by decide))
theorem Coded.whoami (o : WH) : Coded.Statement (.whoami o) := Coded.of_lt rfl (packWH_lt 0x3E 18 o (by decide) (by decide))
theorem Coded.pget (o : D1) : Coded.Statement (.pget o) := Coded.of_lt rfl (packD1_lt 0x3E 19 o (by decide) (by decide))
theorem Coded.pset (o : A1) : Coded.Statement (.pset o) := Coded.of_lt rfl (packA1_lt 0x3E 20 o (by decide) (by decide))
theorem Coded.streamres (o : RR) : Coded.Statement (.streamres o) := Coded.of_lt rfl (packRR_lt 0x3E 21 o (by decide) (by decide))
theorem Coded.loadPerform (id : Nat) : Coded.Statement (.loadPerform id) := Coded.of_none rfl
theorem Coded.loadComplete (id : Nat) : Coded.Statement (.loadComplete id) := Coded.of_none rfl
theorem Coded.storePerform (id : Nat) : Coded.Statement (.storePerform id) := Coded.of_none rfl
theorem Coded.storeAcknowledge (id : Nat) : Coded.Statement (.storeAcknowledge id) := Coded.of_none rfl
theorem Coded.holdNotice (id : Nat) : Coded.Statement (.holdNotice id) := Coded.of_none rfl
theorem Coded.amoPerform (id : Nat) : Coded.Statement (.amoPerform id) := Coded.of_none rfl
theorem Coded.absmaxMerge (id : Nat) : Coded.Statement (.absmaxMerge id) := Coded.of_none rfl
theorem Coded.parkRetry (id : Nat) : Coded.Statement (.parkRetry id) := Coded.of_none rfl
theorem Coded.syncLimitExpire (id : Nat) : Coded.Statement (.syncLimitExpire id) := Coded.of_none rfl
theorem Coded.watchEventMessage (id : Nat) : Coded.Statement (.watchEventMessage id) := Coded.of_none rfl
theorem Coded.arrivalClaim (id : Nat) : Coded.Statement (.arrivalClaim id) := Coded.of_none rfl
theorem Coded.arrivalComplete (id : Nat) : Coded.Statement (.arrivalComplete id) := Coded.of_none rfl
theorem Coded.copyAccept (core : Nat) : Coded.Statement (.copyAccept core) := Coded.of_none rfl
theorem Coded.pieceDispatch (core : Nat) : Coded.Statement (.pieceDispatch core) := Coded.of_none rfl
theorem Coded.streamerRead (id : Nat) : Coded.Statement (.streamerRead id) := Coded.of_none rfl
theorem Coded.completionTileSet (core copyId : Nat) : Coded.Statement (.completionTileSet core copyId) := Coded.of_none rfl
theorem Coded.copyaAccumulate (id : Nat) : Coded.Statement (.copyaAccumulate id) := Coded.of_none rfl
theorem Coded.groupDrainComplete (die group : Nat) : Coded.Statement (.groupDrainComplete die group) := Coded.of_none rfl
theorem Coded.borerRequest (id : Nat) : Coded.Statement (.borerRequest id) := Coded.of_none rfl
theorem Coded.fetchinComplete (id : Nat) : Coded.Statement (.fetchinComplete id) := Coded.of_none rfl
theorem Coded.flushoutComplete (id : Nat) : Coded.Statement (.flushoutComplete id) := Coded.of_none rfl
theorem Coded.migrationCopyDone (id : Nat) : Coded.Statement (.migrationCopyDone id) := Coded.of_none rfl
theorem Coded.endMarker (id : Nat) : Coded.Statement (.endMarker id) := Coded.of_none rfl
theorem Coded.migrationCountExpire (page requester : Nat) : Coded.Statement (.migrationCountExpire page requester) := Coded.of_none rfl
theorem Coded.pageWalk (id : Nat) : Coded.Statement (.pageWalk id) := Coded.of_none rfl
theorem Coded.shootdownAcknowledge (id core : Nat) : Coded.Statement (.shootdownAcknowledge id core) := Coded.of_none rfl
theorem Coded.shootdownComplete (id : Nat) : Coded.Statement (.shootdownComplete id) := Coded.of_none rfl
theorem Coded.pullRead (id : Nat) : Coded.Statement (.pullRead id) := Coded.of_none rfl
theorem Coded.lendReleaseMessage (id : Nat) : Coded.Statement (.lendReleaseMessage id) := Coded.of_none rfl
theorem Coded.relink (id : Nat) : Coded.Statement (.relink id) := Coded.of_none rfl
theorem Coded.channelSendArrive (id : Nat) : Coded.Statement (.channelSendArrive id) := Coded.of_none rfl
theorem Coded.channelReceiveArrive (id : Nat) : Coded.Statement (.channelReceiveArrive id) := Coded.of_none rfl
theorem Coded.transferFinish (core slot : Nat) : Coded.Statement (.transferFinish core slot) := Coded.of_none rfl
theorem Coded.channelTimeoutExpire (core pid : Nat) : Coded.Statement (.channelTimeoutExpire core pid) := Coded.of_none rfl
theorem Coded.timerDeadlineExpire (slot : Nat) : Coded.Statement (.timerDeadlineExpire slot) := Coded.of_none rfl
theorem Coded.altDeadlineExpire (core pid : Nat) : Coded.Statement (.altDeadlineExpire core pid) := Coded.of_none rfl
theorem Coded.unbindRequest (id : Nat) : Coded.Statement (.unbindRequest id) := Coded.of_none rfl
theorem Coded.exitComplete (core pid : Nat) : Coded.Statement (.exitComplete core pid) := Coded.of_none rfl
theorem Coded.promotionNotice (id : Nat) : Coded.Statement (.promotionNotice id) := Coded.of_none rfl
theorem Coded.promotedRelease (id : Nat) : Coded.Statement (.promotedRelease id) := Coded.of_none rfl
theorem Coded.sleepExpire (core pid : Nat) : Coded.Statement (.sleepExpire core pid) := Coded.of_none rfl
theorem Coded.spawnChildCreate (id : Nat) : Coded.Statement (.spawnChildCreate id) := Coded.of_none rfl
theorem Coded.taskStart (core slot : Nat) : Coded.Statement (.taskStart core slot) := Coded.of_none rfl
theorem Coded.eventRecordPost (die : Nat) : Coded.Statement (.eventRecordPost die) := Coded.of_none rfl
theorem Coded.eventRecordDeliver (die : Nat) : Coded.Statement (.eventRecordDeliver die) := Coded.of_none rfl
theorem Coded.contextSwitch (core : Nat) : Coded.Statement (.contextSwitch core) := Coded.of_none rfl
theorem Coded.sliceRotation (core : Nat) : Coded.Statement (.sliceRotation core) := Coded.of_none rfl
theorem Coded.blockedWaitLimit (core : Nat) : Coded.Statement (.blockedWaitLimit core) := Coded.of_none rfl
theorem Coded.deadlockProbe (die : Nat) : Coded.Statement (.deadlockProbe die) := Coded.of_none rfl
theorem Coded.macroOpStart (core : Nat) : Coded.Statement (.macroOpStart core) := Coded.of_none rfl
theorem Coded.macroStepComplete (core : Nat) : Coded.Statement (.macroStepComplete core) := Coded.of_none rfl
theorem Coded.causewayRequestReceive (id : Nat) : Coded.Statement (.causewayRequestReceive id) := Coded.of_none rfl
theorem Coded.frozenNotice (id : Nat) : Coded.Statement (.frozenNotice id) := Coded.of_none rfl
theorem Coded.resumeMessage (id : Nat) : Coded.Statement (.resumeMessage id) := Coded.of_none rfl
theorem Coded.flitReceive (port peer : Nat) (crcGood : Bool) (reqCredits repCredits : Nat) : Coded.Statement (.flitReceive port peer crcGood reqCredits repCredits) := Coded.of_none rfl
theorem Coded.linkRetrainComplete (port peer : Nat) (success : Bool) : Coded.Statement (.linkRetrainComplete port peer success) := Coded.of_none rfl
theorem Coded.linkSilenceTimeout (peer : Nat) : Coded.Statement (.linkSilenceTimeout peer) := Coded.of_none rfl
theorem Coded.partitionQuiesce (peer : Nat) : Coded.Statement (.partitionQuiesce peer) := Coded.of_none rfl
theorem Coded.laserRetune (port peer : Nat) : Coded.Statement (.laserRetune port peer) := Coded.of_none rfl
theorem Coded.dtimeAlign (stamp : Nat) : Coded.Statement (.dtimeAlign stamp) := Coded.of_none rfl
theorem Coded.travelAdmit (id : Nat) : Coded.Statement (.travelAdmit id) := Coded.of_none rfl
theorem Coded.travelAcknowledge (id : Nat) : Coded.Statement (.travelAcknowledge id) := Coded.of_none rfl
theorem Coded.doorbell (queue : Nat) : Coded.Statement (.doorbell queue) := Coded.of_none rfl
theorem Coded.luarm (value : BitVec 64) : Coded.Statement (.luarm value) := Coded.of_none rfl
theorem Coded.lupreempt (value : BitVec 64) : Coded.Statement (.lupreempt value) := Coded.of_none rfl
theorem Coded.nopPacket (queue : Nat) : Coded.Statement (.nopPacket queue) := Coded.of_none rfl
theorem Coded.launch (queue : Nat) : Coded.Statement (.launch queue) := Coded.of_none rfl
theorem Coded.launchRecordWrite (queue : Nat) : Coded.Statement (.launchRecordWrite queue) := Coded.of_none rfl
theorem Coded.wait (queue : Nat) : Coded.Statement (.wait queue) := Coded.of_none rfl
theorem Coded.waitPoll (queue : Nat) : Coded.Statement (.waitPoll queue) := Coded.of_none rfl
theorem Coded.release (queue : Nat) : Coded.Statement (.release queue) := Coded.of_none rfl
theorem Coded.releasePerform (queue : Nat) : Coded.Statement (.releasePerform queue) := Coded.of_none rfl
theorem Coded.indirect (queue : Nat) : Coded.Statement (.indirect queue) := Coded.of_none rfl
theorem Coded.loop (queue : Nat) : Coded.Statement (.loop queue) := Coded.of_none rfl
theorem Coded.fetchfence (queue : Nat) : Coded.Statement (.fetchfence queue) := Coded.of_none rfl
theorem Coded.taskExitReport (id : Nat) : Coded.Statement (.taskExitReport id) := Coded.of_none rfl
theorem Coded.haltCommand (die : Nat) (value : BitVec 64) : Coded.Statement (.haltCommand die value) := Coded.of_none rfl
theorem Coded.resumeCommand (die : Nat) (value : BitVec 64) : Coded.Statement (.resumeCommand die value) := Coded.of_none rfl
theorem Coded.coreHalted (core : Nat) : Coded.Statement (.coreHalted core) := Coded.of_none rfl
theorem Coded.pgnoteResume (die : Nat) (value : BitVec 64) : Coded.Statement (.pgnoteResume die value) := Coded.of_none rfl
theorem Coded.pgnoteDeliverPage (die : Nat) (value : BitVec 64) : Coded.Statement (.pgnoteDeliverPage die value) := Coded.of_none rfl
theorem Coded.pgnoteDeliverProt (die : Nat) (value : BitVec 64) : Coded.Statement (.pgnoteDeliverProt die value) := Coded.of_none rfl
theorem Coded.rgnctlCommit (value : BitVec 64) : Coded.Statement (.rgnctlCommit value) := Coded.of_none rfl
theorem Coded.corectlHold (core : Nat) (value : BitVec 64) : Coded.Statement (.corectlHold core value) := Coded.of_none rfl
theorem Coded.ioepnewEndpoint (id : Nat) : Coded.Statement (.ioepnewEndpoint id) := Coded.of_none rfl
theorem Coded.ioepnewTimer (id : Nat) : Coded.Statement (.ioepnewTimer id) := Coded.of_none rfl
theorem Coded.controlRegisterWrite (die core number : Nat) (value : BitVec 64) : Coded.Statement (.controlRegisterWrite die core number value) := Coded.of_none rfl
theorem Coded.evready : Coded.Statement (.evready) := Coded.of_none rfl
theorem Coded.sensors : Coded.Statement (.sensors) := Coded.of_none rfl
theorem Coded.errlog : Coded.Statement (.errlog) := Coded.of_none rfl
theorem Coded.update : Coded.Statement (.update) := Coded.of_none rfl
theorem Coded.spdm : Coded.Statement (.spdm) := Coded.of_none rfl
theorem Coded.measure : Coded.Statement (.measure) := Coded.of_none rfl
theorem Coded.mailboxUnknownCommand : Coded.Statement (.mailboxUnknownCommand) := Coded.of_none rfl
theorem Coded.moduleReset : Coded.Statement (.moduleReset) := Coded.of_none rfl
theorem Coded.bootStage (stage : Nat) : Coded.Statement (.bootStage stage) := Coded.of_none rfl
theorem Coded.dieEnterService (die : Nat) : Coded.Statement (.dieEnterService die) := Coded.of_none rfl
theorem Coded.fullService : Coded.Statement (.fullService) := Coded.of_none rfl
theorem Coded.correctedError (unit cause addr : Nat) : Coded.Statement (.correctedError unit cause addr) := Coded.of_none rfl
theorem Coded.ethernetFrameReceive (port : Nat) (frame : List (BitVec 8)) : Coded.Statement (.ethernetFrameReceive port frame) := Coded.of_none rfl
theorem Coded.tokenBucketRefill (die asid : Nat) : Coded.Statement (.tokenBucketRefill die asid) := Coded.of_none rfl
theorem Coded.fireflyPeerDownReport (peer : Nat) : Coded.Statement (.fireflyPeerDownReport peer) := Coded.of_none rfl
theorem Coded.ethernetFrameTransmit (port : Nat) : Coded.Statement (.ethernetFrameTransmit port) := Coded.of_none rfl
theorem Coded.hostQueueMessage (slot : Nat) (msg : Option (List Byte)) : Coded.Statement (.hostQueueMessage slot msg) := Coded.of_none rfl
theorem Coded.powerLoss : Coded.Statement (.powerLoss) := Coded.of_none rfl

end Sys2Proof.Laws
end

