-- ==== Sys2Proof/Tests/Slice0.lean ====
section
/-! SUPPORT. Tests of the model and witnesses for its statements. The expected value of a test comes from the rule of spec/ that it names.
A witness applies a statement of Obligations.lean to a small state on which all of its hypotheses hold together: the theorem says that the
instruction completes there, and its proof takes that from the statement, clause by clause. -/
set_option Elab.async false
namespace Sys2Proof.Tests
open Sys2Proof Sys2Proof.Machine Sys2Proof.Safety

/-! ## Small states -/

/-- Process 0 of core 0 has its turn: privileged, every register in its allotment, its page mapped at its pc. -/
def base (p : Proc → Proc) (k : Core → Core) : State :=
  ((State.reset.loadedAt 0).modProc 0 p).modCore 0 (fun c => k { c with partition := 2 })
/-- The same with g1 onwards as given. -/
def regs (gs : List Word) : State :=
  base (fun p => { p with r := gs.zipIdx.foldl (fun (r : Regs) (e : Word × Nat) => r.setG (BitVec.ofNat 6 (e.2 + 1)) e.1) p.r }) (fun k => k)
/-- The always guard. -/
def always : Guard := ⟨false, 0⟩
/-- The state that an outcome gives. -/
def after (o : Host.Outcome State Fault Refusal) : State := match o with | .next t => t | _ => State.reset
/-- The registers of the process that had its turn, after an instruction. -/
def regsAfter (i : Instr) (s : State) : Regs := ((after (exec i s)).proc s.turn).r

/-- A fact that the kernel evaluates. -/
theorem holds {p : Prop} (h : p := by decide +kernel) : p := h
/-- The value of a question that has one. -/
theorem value_of {α : Type} {x : Option α} (h : x.isSome = true) : x = some (x.get h) := (Option.some_get h).symm

/-! ## Words (R39, R48, R51): bits written out from the spec's encodings, by family -/

/-- Each word decodes to the instruction beside it and is its encoding. -/
noncomputable def bothWays (xs : List (Word32 × Instr)) : Bool := xs.all (fun e => decide (decode e.1 = .ok e.2 ∧ encode e.2 = some e.1))

-- the worked words of spec/03_encoding.md and of the chapters that follow it
theorem test_decode_scalar : bothWays [
    (0b00000000000000110000010000100000, .add ⟨always, 3, 1, 2⟩), (0x0005148E, .adds ⟨always, 5, 5, 8⟩), (0x00841008, .addi ⟨always, 4, 4, 8⟩),
    (0x01C500F0, .imm ⟨always, 5, 0xF0⟩), (0x02050040, .immh ⟨always, 5, 0x40⟩), (0x02980500, .cmpgti ⟨always, 3, 0, 1, 0⟩)] = true := by decide +kernel
theorem test_decode_memory : bothWays [
    (0b00000101000010000001000000000000, .ldh ⟨always, 8, 4, 0, 0⟩), (0x05881040, .ldd ⟨always, 8, 4, 1, 0⟩), (0x07C81008, .ldp ⟨always, 8, 4, 0, 8⟩),
    (0x07431400, .std ⟨always, 3, 5, 0⟩), (0x08401050, .tempty ⟨always, 4, 5⟩), (0x0A450A00, .fence ⟨always, 5, 2, .sys⟩)] = true := by decide +kernel
theorem test_decode_vector_copy_chan : bothWays [
    (0x0CC61102, .vmulF16 ⟨always, 3, 1, 2, 0⟩), (0x0F082813, .copya ⟨always, 8, 10, 0, 3⟩), (0x0F04184A, .copys ⟨always, 4, 6, 1, 2⟩),
    (0b00001111010001000001100000000100, .send ⟨always, 4, 6, 0⟩), (0x0F452005, .recv ⟨always, 5, 8, 0⟩), (0x0F410002, .bind ⟨always, 1, 0⟩)] = true := by
  decide +kernel
theorem test_decode_system : bothWays [
    (0b00001111100000000000000000000000, .nop always), (0x0F8001C1, .trap ⟨always, 7⟩), (0x0F800002, .trapret always), (0x0F800003, .halt always),
    (0x0F8A0184, .ctlr ⟨always, 10, 6⟩), (0x0F840105, .ctlw ⟨always, 4, 4⟩), (0x0F80100C, .tlbinv ⟨always, 4⟩), (0x0F80104F, .ckptRestore ⟨always, 4⟩),
    (0x0F820C15, .streamres ⟨always, 2, 3⟩), (0x0F80000B, .ifence always), (0x0F800007, .exit always)] = true := by decide +kernel
-- one word of every constructor that is an instruction word: the row's fixed bits with a number in each of its fields
theorem test_words_1 : bothWays [
    (0x1003B990, .add ⟨⟨false, 1⟩, 3, 46, 25⟩), (0xA0284FE1, .sub ⟨⟨true, 2⟩, 40, 19, 62⟩), (0x300DE232, .and ⟨⟨false, 3⟩, 13, 56, 35⟩),
    (0x40327483, .or ⟨⟨false, 4⟩, 50, 29, 8⟩), (0xD0170AD4, .xor ⟨⟨true, 5⟩, 23, 2, 45⟩), (0x603C9D25, .andn ⟨⟨false, 6⟩, 60, 39, 18⟩),
    (0x70213376, .shl ⟨⟨false, 7⟩, 33, 12, 55⟩), (0x9006C5C7, .shr ⟨⟨true, 1⟩, 6, 49, 28⟩), (0x202B5818, .sra ⟨⟨false, 2⟩, 43, 22, 1⟩),
    (0x3010EE69, .rol ⟨⟨false, 3⟩, 16, 59, 38⟩), (0xC03580BA, .min ⟨⟨true, 4⟩, 53, 32, 11⟩), (0x501A170B, .max ⟨⟨false, 5⟩, 26, 5, 48⟩),
    (0x603FA95C, .minu ⟨⟨false, 6⟩, 63, 42, 21⟩), (0xF0243FAD, .maxu ⟨⟨true, 7⟩, 36, 15, 58⟩), (0x1009D1FE, .adds ⟨⟨false, 1⟩, 9, 52, 31⟩),
    (0x202E644F, .subs ⟨⟨false, 2⟩, 46, 25, 4⟩), (0xB053FA90, .mul ⟨⟨true, 3⟩, 19, 62, 41⟩)] = true := by decide +kernel
theorem test_words_2 : bothWays [
    (0x40788CE1, .mulh ⟨⟨false, 4⟩, 56, 35, 14⟩), (0x505D2332, .mulhu ⟨⟨false, 5⟩, 29, 8, 51⟩), (0xE042B583, .mulhsu ⟨⟨true, 6⟩, 2, 45, 24⟩),
    (0x70674BD4, .div ⟨⟨false, 7⟩, 39, 18, 61⟩), (0x104CDE25, .divu ⟨⟨false, 1⟩, 12, 55, 34⟩), (0xA0717076, .rem ⟨⟨true, 2⟩, 49, 28, 7⟩),
    (0x305606C7, .remu ⟨⟨false, 3⟩, 22, 1, 44⟩), (0x407B9808, .clz ⟨⟨false, 4⟩, 59, 38⟩), (0xD0602C09, .ctz ⟨⟨true, 5⟩, 32, 11⟩),
    (0x6045C00A, .popc ⟨⟨false, 6⟩, 5, 48⟩), (0x706A540B, .brev ⟨⟨false, 7⟩, 42, 21⟩), (0x904FEA5C, .bfx ⟨⟨true, 1⟩, 15, 58, 37⟩),
    (0x20747CAD, .bfi ⟨⟨false, 2⟩, 52, 31, 10⟩), (0x309910AF, .addi ⟨⟨false, 3⟩, 25, 4, 175⟩), (0xC0FEA6B4, .andi ⟨⟨true, 4⟩, 62, 41, 692⟩),
    (0x512338B9, .ori ⟨⟨false, 5⟩, 35, 14, 185⟩), (0x6148CEBE, .xori ⟨⟨false, 6⟩, 8, 51, 702⟩)] = true := by decide +kernel
theorem test_words_3 : bothWays [
    (0xF1AD6003, .shli ⟨⟨true, 7⟩, 45, 24, 3⟩), (0x1192F528, .shri ⟨⟨false, 1⟩, 18, 61, 40⟩), (0x21B78A0D, .srai ⟨⟨false, 2⟩, 55, 34, 13⟩),
    (0xB19C1F32, .roli ⟨⟨true, 3⟩, 28, 7, 50⟩), (0x41C180CC, .imm ⟨⟨false, 4⟩, 1, 32972⟩), (0x522600D1, .immh ⟨⟨false, 5⟩, 38, 209⟩),
    (0xE25A84C0, .cmpeq ⟨⟨true, 6⟩, 3, 2, 33, 12⟩), (0x72631B11, .cmpne ⟨⟨false, 7⟩, 4, 3, 6, 49⟩), (0x126CAD62, .cmplt ⟨⟨false, 1⟩, 5, 4, 43, 22⟩),
    (0xA27543B3, .cmple ⟨⟨true, 2⟩, 6, 5, 16, 59⟩), (0x327ED604, .cmpgt ⟨⟨false, 3⟩, 7, 6, 53, 32⟩), (0x42476855, .cmpge ⟨⟨false, 4⟩, 0, 7, 26, 5⟩),
    (0xD248FEA6, .cmpltu ⟨⟨true, 5⟩, 1, 0, 63, 42⟩), (0x625190F7, .cmpleu ⟨⟨false, 6⟩, 2, 1, 36, 15⟩), (0x725A2748, .cmpgtu ⟨⟨false, 7⟩, 3, 2, 9, 52⟩),
    (0x9263B999, .cmpgeu ⟨⟨true, 1⟩, 4, 3, 46, 25⟩), (0x22AC4C3E, .cmpeqi ⟨⟨false, 2⟩, 5, 4, 19, 62⟩)] = true := by decide +kernel
theorem test_words_4 : bothWays [
    (0x32B5E063, .cmpnei ⟨⟨false, 3⟩, 6, 5, 56, 35⟩), (0xC2BE7488, .cmplti ⟨⟨true, 4⟩, 7, 6, 29, 8⟩), (0x528708ED, .cmplei ⟨⟨false, 5⟩, 0, 7, 2, 45⟩),
    (0x62889D12, .cmpgti ⟨⟨false, 6⟩, 1, 0, 39, 18⟩), (0xF2913177, .cmpgei ⟨⟨true, 7⟩, 2, 1, 12, 55⟩),
    (0x129AC59C, .cmpltui ⟨⟨false, 1⟩, 3, 2, 49, 28⟩), (0x22A359C1, .cmpleui ⟨⟨false, 2⟩, 4, 3, 22, 1⟩),
    (0xB2ACEE26, .cmpgtui ⟨⟨true, 3⟩, 5, 4, 59, 38⟩), (0x42B5824B, .cmpgeui ⟨⟨false, 4⟩, 6, 5, 32, 11⟩), (0x52FEA000, .pand ⟨⟨false, 5⟩, 7, 6, 5⟩),
    (0xE2C7C400, .por ⟨⟨true, 6⟩, 0, 7, 6⟩), (0x72C8E800, .pxor ⟨⟨false, 7⟩, 1, 0, 7⟩), (0x12D10C00, .pandn ⟨⟨false, 1⟩, 2, 1, 0⟩),
    (0xA2DA3000, .porn ⟨⟨true, 2⟩, 3, 2, 1⟩), (0x32E35400, .pnand ⟨⟨false, 3⟩, 4, 3, 2⟩), (0x42EC7800, .pnor ⟨⟨false, 4⟩, 5, 4, 3⟩),
    (0xD2F59C00, .pxnor ⟨⟨true, 5⟩, 6, 5, 4⟩)] = true := by decide +kernel
theorem test_words_5 : bothWays [
    (0x633EB580, .fcmpeq ⟨⟨false, 6⟩, 7, 6, 45, 24, .f32⟩), (0x73074BD9, .fcmplt ⟨⟨false, 7⟩, 0, 7, 18, 61, .bf16⟩),
    (0x9308DE26, .fcmple ⟨⟨true, 1⟩, 1, 0, 55, 34, .f16⟩), (0x23117073, .fcmpun ⟨⟨false, 2⟩, 2, 1, 28, 7, .f32⟩),
    (0x336B5818, .fadd ⟨⟨false, 3⟩, 43, 22, 1, .bf16⟩), (0xC350EE65, .fsub ⟨⟨true, 4⟩, 16, 59, 38, .f16⟩),
    (0x537580B2, .fmul ⟨⟨false, 5⟩, 53, 32, 11, .f32⟩), (0x635A1703, .fma ⟨⟨false, 6⟩, 26, 5, 48, .f32⟩),
    (0xF3BFA958, .fmin ⟨⟨true, 7⟩, 63, 42, 21, .bf16⟩), (0x13A43FA5, .fmax ⟨⟨false, 1⟩, 36, 15, 58, .f16⟩),
    (0x2389D1F2, .fdiv ⟨⟨false, 2⟩, 9, 52, 31, .f32⟩), (0xB3AE640B, .fsqrt ⟨⟨true, 3⟩, 46, 25, .bf16⟩), (0x43D3F800, .fcvtsh ⟨⟨false, 4⟩, 19, 62⟩),
    (0x53F88C01, .fcvtsb ⟨⟨false, 5⟩, 56, 35⟩), (0xE3DD2002, .fcvths ⟨⟨true, 6⟩, 29, 8⟩), (0x73C2B403, .fcvtbs ⟨⟨false, 7⟩, 2, 45⟩),
    (0x13E74804, .fcvtsi ⟨⟨false, 1⟩, 39, 18⟩)] = true := by decide +kernel
theorem test_words_6 : bothWays [
    (0xA3CCDC05, .fcvtis ⟨⟨true, 2⟩, 12, 55⟩), (0x33F17006, .fcvthi ⟨⟨false, 3⟩, 49, 28⟩), (0x43D60407, .fcvtih ⟨⟨false, 4⟩, 22, 1⟩),
    (0xD3FB9808, .fcvtsu ⟨⟨true, 5⟩, 59, 38⟩), (0x63E02C09, .fcvtus ⟨⟨false, 6⟩, 32, 11⟩), (0x73C5C00A, .fcvthb ⟨⟨false, 7⟩, 5, 48⟩),
    (0x93EA540B, .fcvtbh ⟨⟨true, 1⟩, 42, 21⟩), (0x240001CF, .br ⟨⟨false, 2⟩, 463⟩), (0x347401DF, .jal ⟨⟨false, 3⟩, 52, 479⟩),
    (0xC4991000, .jr ⟨⟨true, 4⟩, 25, 4⟩), (0x54FEA73F, .ldb ⟨⟨false, 5⟩, 62, 41, 12, 63⟩), (0x65233A64, .ldh ⟨⟨false, 6⟩, 35, 14, 9, 36⟩),
    (0xF548CD89, .ldw ⟨⟨true, 7⟩, 8, 51, 6, 9⟩), (0x15AD60EE, .ldd ⟨⟨false, 1⟩, 45, 24, 3, 46⟩), (0x25D2F413, .ldbu ⟨⟨false, 2⟩, 18, 61, 0, 19⟩),
    (0xB6378B78, .ldhu ⟨⟨true, 3⟩, 55, 34, 13, 56⟩), (0x465C1E9D, .ldwu ⟨⟨false, 4⟩, 28, 7, 10, 29⟩)] = true := by decide +kernel
theorem test_words_7 : bothWays [
    (0x5681B217, .stb ⟨⟨false, 5⟩, 1, 44, 535⟩), (0xE6E6441C, .sth ⟨⟨true, 6⟩, 38, 17, 28⟩), (0x770BDA21, .stw ⟨⟨false, 7⟩, 11, 54, 545⟩),
    (0x17706C26, .std ⟨⟨false, 1⟩, 48, 27, 38⟩), (0xA79502D6, .ldx ⟨⟨true, 2⟩, 21, 0, 11, 22⟩), (0x37FA963B, .ldp ⟨⟨false, 3⟩, 58, 37, 8, 59⟩),
    (0x481F2A35, .stx ⟨⟨false, 4⟩, 31, 10, 565⟩), (0xD84012F0, .tempty ⟨⟨true, 5⟩, 4, 47⟩), (0x6840A541, .tfull ⟨⟨false, 6⟩, 41, 20⟩),
    (0x784EE642, .tqry ⟨⟨false, 7⟩, 14, 57, 36⟩), (0x9840CDE3, .twaitf ⟨⟨true, 1⟩, 51, 30⟩), (0x28406034, .twaite ⟨⟨false, 2⟩, 24, 3⟩),
    (0x3840F685, .watch ⟨⟨false, 3⟩, 61, 40⟩), (0xC84088D6, .unwatch ⟨⟨true, 4⟩, 34, 13⟩), (0x58400007, .waitw ⟨false, 5⟩),
    (0x68AC5E90, .lda ⟨⟨false, 6⟩, 44, 23, 10, .pkg, 0⟩), (0xF8D1F3F2, .stl ⟨⟨true, 7⟩, 17, 60, .auto, 242⟩)] = true := by decide +kernel
theorem test_words_8 : bothWays [
    (0x193684C0, .amoadd ⟨⟨false, 1⟩, 54, 33, 12⟩), (0x291B1B11, .amosmin ⟨⟨false, 2⟩, 27, 6, 49⟩), (0xB900AD62, .amosmax ⟨⟨true, 3⟩, 0, 43, 22⟩),
    (0x492543B3, .amoumin ⟨⟨false, 4⟩, 37, 16, 59⟩), (0x590AD604, .amoumax ⟨⟨false, 5⟩, 10, 53, 32⟩), (0xE92F6855, .amoand ⟨⟨true, 6⟩, 47, 26, 5⟩),
    (0x7914FEA6, .amoor ⟨⟨false, 7⟩, 20, 63, 42⟩), (0x193990F7, .amoxor ⟨⟨false, 1⟩, 57, 36, 15⟩), (0xA91E2748, .amoswap ⟨⟨true, 2⟩, 30, 9, 52⟩),
    (0x3903B999, .amocas ⟨⟨false, 3⟩, 3, 46, 25⟩), (0x49713440, .vrsum ⟨⟨false, 4⟩, 24, 19, .i32, 1⟩), (0xD95A8690, .vrmax ⟨⟨true, 5⟩, 13, 8, .f16, 2⟩),
    (0x6945D8E0, .vrmin ⟨⟨false, 6⟩, 2, 29, .bf16, 3⟩), (0x79AE1010, .vbcast ⟨⟨false, 7⟩, 23, 2, .b16⟩),
    (0x99993891, .vext ⟨⟨true, 1⟩, 12, 39, 2, .b16⟩), (0x298265C2, .vexts ⟨⟨false, 2⟩, 1, 12, 23, .b8⟩),
    (0x39AD8B03, .vins ⟨⟨false, 3⟩, 22, 49, 12, .b8⟩)] = true := by decide +kernel
theorem test_words_9 : bothWays [
    (0xC9D66080, .vsel ⟨⟨true, 4⟩, 11, 6, 1, 0, .b8⟩), (0x59C1BB16, .vperm ⟨⟨false, 5⟩, 0, 27, 22, 1, .b32⟩),
    (0x69EB05A9, .vzip ⟨⟨false, 6⟩, 21, 16, 11, 2, .b16⟩), (0xF9D4503C, .vunzip ⟨⟨true, 7⟩, 10, 5, 0, 3, .b8⟩),
    (0x1A3EA000, .qand ⟨⟨false, 1⟩, 7, 6, 5⟩), (0x2A07C400, .qor ⟨⟨false, 2⟩, 0, 7, 6⟩), (0xBA08E800, .qxor ⟨⟨true, 3⟩, 1, 0, 7⟩),
    (0x4A110C00, .qandn ⟨⟨false, 4⟩, 2, 1, 0⟩), (0x5A1A3000, .qorn ⟨⟨false, 5⟩, 3, 2, 1⟩), (0xEA235400, .qnand ⟨⟨true, 6⟩, 4, 3, 2⟩),
    (0x7A2C7800, .qnor ⟨⟨false, 7⟩, 5, 4, 3⟩), (0x1A359C00, .qxnor ⟨⟨false, 1⟩, 6, 5, 4⟩), (0xAA674900, .fence ⟨⟨true, 2⟩, 39, 18, .pkg⟩),
    (0x3CAF26C0, .vaddI ⟨⟨false, 3⟩, .b32, 23, 18, 13, 4⟩), (0x4C587151, .vsubI ⟨⟨false, 4⟩, .b16, 12, 7, 2, 5⟩),
    (0xDC03CBE2, .vmulI ⟨⟨true, 5⟩, .b8, 1, 28, 23, 6⟩), (0x6C2D1673, .vmulhI ⟨⟨false, 6⟩, .b8, 22, 17, 12, 7⟩)] = true := by decide +kernel
theorem test_words_10 : bothWays [
    (0x7C966084, .vminI ⟨⟨false, 7⟩, .b32, 11, 6, 1, 0⟩), (0x9C41BB15, .vmaxI ⟨⟨true, 1⟩, .b16, 0, 27, 22, 1⟩),
    (0x2C2B05A6, .vminu ⟨⟨false, 2⟩, .b8, 21, 16, 11, 2⟩), (0x3C145037, .vmaxu ⟨⟨false, 3⟩, .b8, 10, 5, 0, 3⟩),
    (0xCCBFAAC8, .vand ⟨⟨true, 4⟩, .b32, 31, 26, 21, 4⟩), (0x5C68F559, .vor ⟨⟨false, 5⟩, .b16, 20, 15, 10, 5⟩),
    (0x6C124FEA, .vxor ⟨⟨false, 6⟩, .b8, 9, 4, 31, 6⟩), (0xFC3D9A7B, .vandn ⟨⟨true, 7⟩, .b8, 30, 25, 20, 7⟩),
    (0x1CA6E48C, .vshl ⟨⟨false, 1⟩, .b32, 19, 14, 9, 0⟩), (0x2C503F1D, .vshr ⟨⟨false, 2⟩, .b16, 8, 3, 30, 1⟩),
    (0xBC3B89AE, .vsra ⟨⟨true, 3⟩, .b8, 29, 24, 19, 2⟩), (0x4C24D43F, .vadds ⟨⟨false, 4⟩, .b8, 18, 13, 8, 3⟩),
    (0x5CD87150, .vaddF16 ⟨⟨false, 5⟩, 12, 7, 2, 5⟩), (0xECC3CBE1, .vsubF16 ⟨⟨true, 6⟩, 1, 28, 23, 6⟩),
    (0x7CED1672, .vmulF16 ⟨⟨false, 7⟩, 22, 17, 12, 7⟩), (0x1CD66083, .vfmaF16 ⟨⟨false, 1⟩, 11, 6, 1, 0⟩),
    (0xACC1BB14, .vminF16 ⟨⟨true, 2⟩, 0, 27, 22, 1⟩)] = true := by decide +kernel
theorem test_words_11 : bothWays [
    (0x3CEB05A5, .vmaxF16 ⟨⟨false, 3⟩, 21, 16, 11, 2⟩), (0x4CD45046, .vabsF16 ⟨⟨false, 4⟩, 10, 5, 4⟩), (0xDCFFA057, .vnegF16 ⟨⟨true, 5⟩, 31, 26, 5⟩),
    (0x6CE8F558, .vdivF16 ⟨⟨false, 6⟩, 20, 15, 10, 5⟩), (0x7CD24079, .vsqrtF16 ⟨⟨false, 7⟩, 9, 4, 7⟩), (0x9CFD900A, .vexp2F16 ⟨⟨true, 1⟩, 30, 25, 0⟩),
    (0x2CE6E01B, .vlog2F16 ⟨⟨false, 2⟩, 19, 14, 1⟩), (0x3CD0302C, .vrcpF16 ⟨⟨false, 3⟩, 8, 3, 2⟩), (0xCCFB803D, .vrsqF16 ⟨⟨true, 4⟩, 29, 24, 3⟩),
    (0x5D24D430, .vaddBf16 ⟨⟨false, 5⟩, 18, 13, 8, 3⟩), (0x6D0E2EC1, .vsubBf16 ⟨⟨false, 6⟩, 7, 2, 29, 4⟩),
    (0xFD397952, .vmulBf16 ⟨⟨true, 7⟩, 28, 23, 18, 5⟩), (0x1D22C3E3, .vfmaBf16 ⟨⟨false, 1⟩, 17, 12, 7, 6⟩),
    (0x2D0C1E74, .vminBf16 ⟨⟨false, 2⟩, 6, 1, 28, 7⟩), (0xBD376885, .vmaxBf16 ⟨⟨true, 3⟩, 27, 22, 17, 0⟩),
    (0x4D20B026, .vabsBf16 ⟨⟨false, 4⟩, 16, 11, 2⟩), (0x5D0A0037, .vnegBf16 ⟨⟨false, 5⟩, 5, 0, 3⟩)] = true := by decide +kernel
theorem test_words_12 : bothWays [
    (0xED355838, .vdivBf16 ⟨⟨true, 6⟩, 26, 21, 16, 3⟩), (0x7D1EA059, .vsqrtBf16 ⟨⟨false, 7⟩, 15, 10, 5⟩),
    (0x1D09F06A, .vexp2Bf16 ⟨⟨false, 1⟩, 4, 31, 6⟩), (0xAD33407B, .vlog2Bf16 ⟨⟨true, 2⟩, 25, 20, 7⟩), (0x3D1C900C, .vrcpBf16 ⟨⟨false, 3⟩, 14, 9, 0⟩),
    (0x4D07E01D, .vrsqBf16 ⟨⟨false, 4⟩, 3, 30, 1⟩), (0xDD713710, .vaddF32 ⟨⟨true, 5⟩, 24, 19, 14, 1⟩), (0x6D5A81A1, .vsubF32 ⟨⟨false, 6⟩, 13, 8, 3, 2⟩),
    (0x7D45DC32, .vmulF32 ⟨⟨false, 7⟩, 2, 29, 24, 3⟩), (0x9D6F26C3, .vfmaF32 ⟨⟨true, 1⟩, 23, 18, 13, 4⟩),
    (0x2D587154, .vminF32 ⟨⟨false, 2⟩, 12, 7, 2, 5⟩), (0x3D43CBE5, .vmaxF32 ⟨⟨false, 3⟩, 1, 28, 23, 6⟩), (0xCD6D1006, .vabsF32 ⟨⟨true, 4⟩, 22, 17, 0⟩),
    (0x5D566017, .vnegF32 ⟨⟨false, 5⟩, 11, 6, 1⟩), (0x6D41BB18, .vdivF32 ⟨⟨false, 6⟩, 0, 27, 22, 1⟩), (0xFD6B0039, .vsqrtF32 ⟨⟨true, 7⟩, 21, 16, 3⟩),
    (0x1D54504A, .vexp2F32 ⟨⟨false, 1⟩, 10, 5, 4⟩)] = true := by decide +kernel
theorem test_words_13 : bothWays [
    (0x2D7FA05B, .vlog2F32 ⟨⟨false, 2⟩, 31, 26, 5⟩), (0xBD68F06C, .vrcpF32 ⟨⟨true, 3⟩, 20, 15, 6⟩), (0x4D52407D, .vrsqF32 ⟨⟨false, 4⟩, 9, 4, 7⟩),
    (0x5D91A3C0, .vcmpeq ⟨⟨false, 5⟩, 2, 1, 20, 15, .i8⟩), (0xED9A4909, .vcmpne ⟨⟨true, 6⟩, 3, 2, 9, 4, .i16⟩),
    (0x7DA3F642, .vcmplt ⟨⟨false, 7⟩, 4, 3, 30, 25, .i8⟩), (0x1DAC9B8B, .vcmple ⟨⟨false, 1⟩, 5, 4, 19, 14, .i16⟩),
    (0xADB540D4, .vcmpltu ⟨⟨true, 2⟩, 6, 5, 8, 3, .i32⟩), (0x3DBEEE15, .vcmpleu ⟨⟨false, 3⟩, 7, 6, 29, 24, .i32⟩),
    (0x4D879366, .vcmpun ⟨⟨false, 4⟩, 0, 7, 18, 13, .bf16⟩), (0xDD8838A7, .vcmpord ⟨⟨true, 5⟩, 1, 0, 7, 2, .bf16⟩),
    (0x6DCC11CD, .vcvt ⟨⟨false, 6⟩, 6, 1, .i8, .e5m2, .rtz, 5⟩), (0x7E373087, .vld ⟨⟨false, 7⟩, 27, 38, 1, 0, 7⟩),
    (0x9E605A3C, .vst ⟨⟨true, 1⟩, 16, 11, .rup, 1, 28⟩), (0x2E85C2D3, .mma ⟨⟨false, 2⟩, 5, 48, 11, 2, 1, true⟩),
    (0x3EEA1400, .shape ⟨⟨false, 3⟩, 42, 5⟩), (0xCECF0084, .acz ⟨⟨true, 4⟩, 15, 2⟩)] = true := by decide +kernel
theorem test_words_14 : bothWays [
    (0x5EF47C88, .drain ⟨⟨false, 5⟩, 52, 31, 2⟩), (0x6ED913CC, .table ⟨⟨false, 6⟩, 25, 4, 15⟩), (0xFEFEA710, .rowsum ⟨⟨true, 7⟩, 62, 41, 12⟩),
    (0x1EE33A54, .colsum ⟨⟨false, 1⟩, 35, 14, 9⟩), (0x2EC8CD98, .pack ⟨⟨false, 2⟩, 8, 51, 6⟩), (0xBEED60DC, .unpack ⟨⟨true, 3⟩, 45, 24, 3⟩),
    (0x4ED2F420, .aread ⟨⟨false, 4⟩, 18, 61, 0⟩), (0x5F378B44, .copy ⟨⟨false, 5⟩, 55, 34, 13, 4⟩), (0xEF1C1E8D, .copys ⟨⟨true, 6⟩, 28, 7, 10, 5⟩),
    (0x7F01B1D6, .copya ⟨⟨false, 7⟩, 1, 44, 7, 6⟩), (0x1F26451F, .mcast ⟨⟨false, 1⟩, 38, 17, 4, 7⟩), (0xAF0BD860, .redg ⟨⟨true, 2⟩, 11, 54, 1, 0⟩),
    (0x3F306FA8, .flushout ⟨⟨false, 3⟩, 48, 27, 14⟩), (0x4F1502F2, .fetchin ⟨⟨false, 4⟩, 21, 0, 11, 2⟩), (0xDF7A9600, .mkch ⟨⟨true, 5⟩, 58, 37, 8⟩),
    (0x6F5F0081, .close ⟨⟨false, 6⟩, 31, 2⟩), (0x7F4403C2, .bind ⟨⟨false, 7⟩, 4, 15⟩)] = true := by decide +kernel
theorem test_words_15 : bothWays [
    (0x9F6953C3, .rebind ⟨⟨true, 1⟩, 41, 20, 15⟩), (0x2F4EE704, .send ⟨⟨false, 2⟩, 14, 57, 12⟩), (0x3F737A45, .recv ⟨⟨false, 3⟩, 51, 30, 9⟩),
    (0xCF580D86, .sendt ⟨⟨true, 4⟩, 24, 3, 6⟩), (0x5F7DA0C7, .recvt ⟨⟨false, 5⟩, 61, 40, 3⟩), (0x6F623408, .sendd ⟨⟨false, 6⟩, 34, 13, 0⟩),
    (0xFF47CB49, .pull ⟨⟨true, 7⟩, 7, 50, 13⟩), (0x1F6C01CA, .dropw ⟨⟨false, 1⟩, 44, 7⟩), (0x2F51F1CB, .alt ⟨⟨false, 2⟩, 17, 60, 7⟩),
    (0xBF76850C, .altf ⟨⟨true, 3⟩, 54, 33, 4⟩), (0x4F5B184D, .probe ⟨⟨false, 4⟩, 27, 6, 1⟩), (0x5F800000, .nop ⟨false, 5⟩),
    (0xEF803941, .trap ⟨⟨true, 6⟩, 229⟩), (0x7F800002, .trapret ⟨false, 7⟩), (0x1F800003, .halt ⟨false, 1⟩), (0xAF943FC4, .ctlr ⟨⟨true, 2⟩, 20, 255⟩),
    (0x3FB9C105, .ctlw ⟨⟨false, 3⟩, 57, 772⟩)] = true := by decide +kernel
theorem test_words_16 : bothWays [
    (0x4F9E2406, .spawn ⟨⟨false, 4⟩, 30, 9⟩), (0xDF800007, .exit ⟨true, 5⟩), (0x6F800008, .yield ⟨false, 6⟩), (0x7F8DE009, .prio ⟨⟨false, 7⟩, 13, 56⟩),
    (0x9F80C80A, .sleep ⟨⟨true, 1⟩, 50⟩), (0x2F80000B, .ifence ⟨false, 2⟩), (0x3F80F00C, .tlbinv ⟨⟨false, 3⟩, 60⟩),
    (0xCF80840D, .repart ⟨⟨true, 4⟩, 33⟩), (0x5F86C40E, .qarm ⟨⟨false, 5⟩, 6, 49⟩), (0x6F80AC0F, .ckptSave ⟨⟨false, 6⟩, 43⟩),
    (0xFF80404F, .ckptRestore ⟨⟨true, 7⟩, 16⟩), (0x1FB58010, .gopen ⟨⟨false, 1⟩, 53, 32⟩), (0x2F9A0011, .gfree ⟨⟨false, 2⟩, 26⟩),
    (0xBFBF0012, .whoami ⟨⟨true, 3⟩, 63, 0⟩), (0x4FA40013, .pget ⟨⟨false, 4⟩, 36⟩), (0x5F802414, .pset ⟨⟨false, 5⟩, 9⟩),
    (0xEFAE6415, .streamres ⟨⟨true, 6⟩, 46, 25⟩)] = true := by decide +kernel
-- words that are no instruction (R41, R48, R51): an erased word, a reserved major, a fmt of 11, a field drawn as zero, one p register twice
theorem test_decode_refuses : ((decode 0xFFFFFFFF, decode 0x0F80003F, decode 0x030A0C4D, decode 0x04800001, decode 0x02490C42) :
    Except DecodeError Instr × Except DecodeError Instr × Except DecodeError Instr × Except DecodeError Instr × Except DecodeError Instr) =
    (.error .reservedMajor, .error .unlistedSubOp, .error .reservedField, .error .nonzeroZeroField, .error .samePair) := by decide +kernel
/-- R39: bytes lie little-endian; a word cut short is refused. -/
theorem test_decode_bytes : decodeTableWord 32 0x00030420 = some (.add ⟨always, 3, 1, 2⟩) := by decide +kernel

/-! ## WellFormed: an ill-formed term for each check -/

theorem test_flaw_pair : (Instr.cmpeq ⟨always, 2, 2, 3, 4⟩).flaw = some .samePair ∧ (Instr.cmpeq ⟨always, 0, 0, 3, 4⟩).flaw = none ∧
    (Instr.cmplti ⟨always, 1, 1, 3, 4⟩).flaw = some .samePair ∧ (Instr.fcmpun ⟨always, 7, 7, 3, 4, .f16⟩).flaw = some .samePair ∧
    (Instr.vcmple ⟨always, 1, 1, 2, 3, .f32⟩).flaw = some .samePair := by decide
theorem test_flaw_types : (Instr.vcmpltu ⟨always, 1, 2, 3, 4, .f16⟩).flaw = some .reservedField ∧ (Instr.vcmpun ⟨always, 1, 2, 3, 4, .i8⟩).flaw = some .reservedField ∧
    (Instr.vcvt ⟨always, 1, 2, .f16, .f16, .rne, 0⟩).flaw = some .reservedField ∧ (Instr.whoami ⟨always, 1, 3⟩).flaw = some .reservedField := by decide
theorem test_flaw_fence : (Instr.fence ⟨always, 0, 1, .pkg⟩).flaw = some .reservedField ∧ (Instr.fence ⟨always, 1, 0, .pkg⟩).flaw = some .reservedField ∧
    (Instr.fence ⟨always, 1, 1, .auto⟩).flaw = some .reservedField := by decide
theorem test_flaw_part : (Instr.copyAccept 1536).flaw = some .noSuchPart ∧ (Instr.copyAccept 1535).flaw = none := by decide

/-! ## One instruction, one field of its result -/

/-- R152: a + b modulo 2^64. -/
theorem test_add_wraps : (regsAfter (.add ⟨always, 3, 1, 2⟩) (regs [0xFFFFFFFFFFFFFFFF, 2])).getG 3 = 1 := by decide +kernel
/-- R153: the sum saturates and SAT is set. -/
theorem test_adds_saturates : let r := regsAfter (.adds ⟨always, 3, 1, 1⟩) (regs [0x4000000000000000])
    r.getG 3 = 0x7FFFFFFFFFFFFFFF ∧ r.flags &&& fSAT = fSAT := by decide +kernel
/-- R155: a division by zero writes all ones and sets DZ; the one that overflows wraps. -/
theorem test_div_corners : (regsAfter (.div ⟨always, 3, 1, 0⟩) (regs [5])).getG 3 = 0xFFFFFFFFFFFFFFFF ∧
    (regsAfter (.div ⟨always, 3, 1, 2⟩) (regs [0x8000000000000000, 0xFFFFFFFFFFFFFFFF])).getG 3 = 0x8000000000000000 := by decide +kernel
/-- R152: shift amounts are b[5:0]. -/
theorem test_shift_amount : (regsAfter (.shl ⟨always, 3, 1, 2⟩) (regs [5, 64])).getG 3 = 5 ∧ (regsAfter (.sra ⟨always, 3, 1, 2⟩) (regs [-8, 1])).getG 3 = -4 := by
  decide +kernel
/-- R36: g0 reads as zero and discards writes. -/
theorem test_g0 : (regsAfter (.add ⟨always, 0, 1, 1⟩) (regs [7])).getG 0 = 0 := by decide +kernel
/-- R157: IMM writes the sign-extended immediate, IMMH shifts it up by 16 and puts the next one below. -/
theorem test_imm_immh : (regsAfter (.imm ⟨always, 1, 0x8000⟩) (regs [])).getG 1 = 0xFFFFFFFFFFFF8000 ∧
    (regsAfter (.immh ⟨always, 1, 0x8000⟩) (regs [0x1234])).getG 1 = 0x12348000 := by decide +kernel
/-- R158: the condition and its complement. -/
theorem test_cmp_pair : let r := regsAfter (.cmpltu ⟨always, 1, 2, 1, 2⟩) (regs [1, 0xFFFFFFFFFFFFFFFF])
    r.getP 1 = true ∧ r.getP 2 = false := by decide +kernel
/-- R162: 1 + 2^-11 in FP16 is a tie, rounded to even, and inexact. -/
theorem test_fadd_rounds : let r := regsAfter (.fadd ⟨always, 3, 1, 2, .f16⟩) (regs [0x3C00, 0x1000])
    r.getG 3 = 0x3C00 ∧ r.flags &&& fNX = fNX := by decide +kernel
/-- R166: a JR to an odd target traps MISALIGN at its own address, its target in TRAPINFO. -/
theorem test_jr_misaligned : let c := (regsAfter (.jr ⟨always, 3, 1⟩) ((regs [0x401]).modProc 0 (fun p => { p with r := { p.r with ctl := { p.r.ctl with trapv := 0x800 } } }))).ctl
    c.code = 0x04 ∧ c.trapinfo = 0x401 ∧ c.trappc = 0x10000 ∧ c.inh = true := by decide +kernel
/-- R40: a word whose guard is false only moves the pc on. -/
theorem test_guard_false : after (exec (.add ⟨⟨false, 1⟩, 3, 1, 2⟩) (regs [1, 2])) = (regs [1, 2]).modProc 0 (fun p => { p with pc := 0x10004, transferred := false, issuedRes := 1 }) := by
  decide +kernel
/-- R298, R303: TRAP takes its own trap: CODE 0x11, its immediate in TRAPINFO, the pc after it in TRAPPC, the pc at TRAPV. -/
theorem test_trap_takes : (let t := after (exec (.trap ⟨always, 7⟩) ((regs []).modProc 0 (fun p => { p with r := { p.r with ctl := { p.r.ctl with trapv := 0x800 } } })))
    ((t.proc 0).pc, (t.proc 0).r.ctl.code, (t.proc 0).r.ctl.trapinfo, (t.proc 0).r.ctl.trappc)) = (0x800, 0x11, 7, 0x10004) := by decide +kernel

/-- R15, R330, R335: SHA3-256 of the empty message (FIPS 202). -/
theorem test_sha3_empty : (digestBytes (sha3 [])).take 8 = [0xA7, 0xFF, 0xC6, 0xF8, 0xBF, 0x1E, 0xD7, 0x66] := by decide +kernel
/-- R335: GET_VERSION is answered by VERSION with the one entry 1.3 (DSP0274); a request of a secured session, KEY_EXCHANGE, by the error of an unsupported one. -/
theorem test_spdm_version : (spdmRespond State.reset [0x10, 0x84, 0, 0]).1 = [0x10, 0x04, 0, 0, 0, 1, 0, 0x13] ∧
    (spdmRespond State.reset [0x13, 0xE4, 0, 0]).1 = [0x13, 0x7F, 7, 0xE4] := by decide +kernel

/-! ## Witnesses -/

/-- A statement that gives a next state and more. -/
theorem goes {i : Instr} {s : State} {P : State → Prop} (h : ∃ t, exec i s = .next t ∧ P t) : goesOn (exec i s) := h.imp fun _ x => x.1


/-- Operands at the ends of their ranges: the most negative numbers, NaN and tie codes, a field of length 64. -/
def wA : State := regs [0x8000000000000003, 0xFFFFFFFFFFFFFFFD, 0, 0x40000000C0000000, 0xBF80000000003E00, 0x0000070400010203, 0x3FC0]
theorem witness_aluWritesResult (h : Obligations.AluWritesResult) : 
    goesOn (exec (.add ⟨always, 3, 1, 2⟩) (wA)) ∧
    goesOn (exec (.add ⟨always, 0, 4, 5⟩) (wA)) := by
  refine ⟨?_, ?_⟩
  · have c := h ⟨always, 3, 1, 2⟩ wA (clear_of holds)
    exact ⟨_, c.1⟩
  · have c := h ⟨always, 0, 4, 5⟩ wA (clear_of holds)
    exact ⟨_, c.1⟩
theorem witness_saturationAndDivision (h : Obligations.SaturationAndDivision) : 
    goesOn (exec (.adds ⟨always, 3, 1, 2⟩) (wA)) ∧
    goesOn (exec (.div ⟨always, 3, 1, 3⟩) (wA)) ∧
    goesOn (exec (.div ⟨always, 3, 1, 2⟩) (wA)) := by
  refine ⟨?_, ?_, ?_⟩
  · have c := h ⟨always, 3, 1, 2⟩ wA (clear_of holds)
    exact ⟨_, c.1⟩
  · have c := (h ⟨always, 3, 1, 3⟩ wA (clear_of holds)).2.2.1 holds
    exact ⟨_, c.1⟩
  · have c := (h ⟨always, 3, 1, 2⟩ wA (clear_of holds)).2.2.2 holds
    exact ⟨_, c.1⟩
theorem witness_bitCountsAndReversal (h : Obligations.BitCountsAndReversal) : goesOn (exec (.popc ⟨always, 3, 4⟩) (wA)) := by
  have c := (h ⟨always, 3, 4⟩ wA (clear_of holds)).2.2
  exact ⟨_, c.1⟩
theorem witness_bitFields (h : Obligations.BitFields) : 
    goesOn (exec (.bfx ⟨always, 2, 3, 4⟩) (wA)) ∧
    goesOn (exec (.bfi ⟨always, 2, 3, 7⟩) (wA)) := by
  refine ⟨?_, ?_⟩
  · have c := (h ⟨always, 2, 3, 4⟩ wA).1 (clear_of holds)
    exact let ⟨_, x, _⟩ := c; ⟨_, x⟩
  · have c := (h ⟨always, 2, 3, 7⟩ wA).2 (clear_of holds)
    exact let ⟨_, x, _⟩ := c; ⟨_, x⟩
theorem witness_immediatesWriteResult (h : Obligations.ImmediatesWriteResult) : 
    goesOn (exec (.addi ⟨always, 3, 1, 0x3F1⟩) (wA)) ∧
    goesOn (exec (.shli ⟨always, 3, 1, 63⟩) (wA)) ∧
    goesOn (exec (.imm ⟨always, 3, 0x8000⟩) (wA)) ∧
    goesOn (exec (.immh ⟨always, 1, 0x8000⟩) (wA)) := by
  refine ⟨?_, ?_, ?_, ?_⟩
  · have c := h.1 ⟨always, 3, 1, 0x3F1⟩ wA (clear_of holds)
    exact ⟨_, c.1⟩
  · have c := h.2.1 ⟨always, 3, 1, 63⟩ wA (clear_of holds)
    exact ⟨_, c.1⟩
  · have c := (h.2.2 ⟨always, 3, 0x8000⟩ wA).1 (clear_of holds)
    exact ⟨_, c⟩
  · have c := (h.2.2 ⟨always, 1, 0x8000⟩ wA).2 (clear_of holds)
    exact ⟨_, c⟩
theorem witness_comparesWritePair (h : Obligations.ComparesWritePair) : 
    goesOn (exec (.cmpeq ⟨always, 3, 1, 1, 2⟩) (wA)) ∧
    goesOn (exec (.cmpeqi ⟨always, 0, 5, 2, 0x3D⟩) (wA)) := by
  refine ⟨?_, ?_⟩
  · have c := h.1 ⟨always, 3, 1, 1, 2⟩ wA (clear_of holds)
    exact ⟨_, c.1⟩
  · have c := h.2 ⟨always, 0, 5, 2, 0x3D⟩ wA (clear_of holds)
    exact ⟨_, c.1⟩
theorem witness_predicateAndMaskLogic (h : Obligations.PredicateAndMaskLogic) : 
    goesOn (exec (.pand ⟨always, 3, 1, 2⟩) (wA)) ∧
    goesOn (exec (.qand ⟨always, 3, 0, 2⟩) (wA)) := by
  refine ⟨?_, ?_⟩
  · have c := h.1 ⟨always, 3, 1, 2⟩ wA (clear_of holds)
    exact ⟨_, c.1⟩
  · have c := h.2 ⟨always, 3, 0, 2⟩ wA (clear_of holds)
    exact ⟨_, c.1⟩
theorem witness_scalarFloat (h : Obligations.ScalarFloat) : 
    goesOn (exec (.fadd ⟨always, 3, 4, 5, .f32⟩) (wA)) ∧
    goesOn (exec (.fma ⟨always, 3, 4, 5, .f16⟩) (wA)) ∧
    goesOn (exec (.fsqrt ⟨always, 3, 5, .f16⟩) (wA)) ∧
    goesOn (exec (.fcmpeq ⟨always, 3, 5, 1, 2, .bf16⟩) (wA)) := by
  refine ⟨?_, ?_, ?_, ?_⟩
  · have c := h.1 ⟨always, 3, 4, 5, .f32⟩ wA (clear_of holds)
    exact ⟨_, c.1⟩
  · have c := (h.1 ⟨always, 3, 4, 5, .f16⟩ wA (clear_of holds)).2.2.2.2.2.2 holds
    exact ⟨_, c⟩
  · have c := h.2.1 ⟨always, 3, 5, .f16⟩ wA (clear_of holds)
    exact ⟨_, c⟩
  · have c := h.2.2 ⟨always, 3, 5, 1, 2, .bf16⟩ wA (clear_of holds)
    exact ⟨_, c.1⟩
theorem witness_scalarConversions (h : Obligations.ScalarConversions) : goesOn (exec (.fcvtsh ⟨always, 3, 4⟩) (wA)) := by
  have c := h ⟨always, 3, 4⟩ wA (clear_of holds)
  exact ⟨_, c.1⟩
theorem witness_branchesAndCalls (h : Obligations.BranchesAndCalls) : 
    goesOn (exec (.br ⟨always, 0x3FFFF9⟩) (wA)) ∧
    goesOn (exec (.jal ⟨always, 3, 0x8000⟩) (wA)) ∧
    goesOn (exec (.jr ⟨always, 3, 4⟩) (wA)) ∧
    goesOn (exec (.jr ⟨always, 3, 1⟩) (wA)) ∧
    goesOn (exec (.br ⟨⟨false, 1⟩, 5⟩) (wA)) := by
  refine ⟨?_, ?_, ?_, ?_, ?_⟩
  · have c := h.1 ⟨always, 0x3FFFF9⟩ wA (clear_of holds)
    exact ⟨_, c⟩
  · have c := h.2.1 ⟨always, 3, 0x8000⟩ wA (clear_of holds)
    exact ⟨_, c⟩
  · have c := (h.2.2.1 ⟨always, 3, 4⟩ wA (clear_of holds)).1 holds
    exact ⟨_, c⟩
  · have c := (h.2.2.1 ⟨always, 3, 1⟩ wA (clear_of holds)).2 holds
    exact ⟨_, c⟩
  · have c := h.2.2.2 (.br ⟨⟨false, 1⟩, 5⟩) _ wA (.inl ⟨_, rfl, rfl⟩) holds holds holds ⟨holds, holds⟩
    exact ⟨_, c⟩

/-- The translation of the page at 0x10000, and of module 5's. -/
def wHbm : Under := ⟨0, 0, 0x10000, 65536, 0, 127⟩
def wFar : Under := ⟨0, 0, 0x20000, 65536, 0, 3⟩
/-- Addresses in g1 (HBM), g4 (general store of core 0) and g5 (misaligned). -/
def wM : State := regs [0x10040, 0x1122334455667788, 0x10080, 0xF0000000000100, 0x10041]
/-- Module 3 knows module 5, a page of which is mapped at 0x20000. -/
def wRemote (priv : Bool) : State :=
  let s := ({ State.reset with modid := 3, peers := [(5, ⟨true, false, 1, 0, true, true⟩)] } : State).loadedAt 0
  (s.modProc 0 (fun p => { p with priv := priv, r := (p.r.setG 1 0x20040).setG 2 0x1122 })).modCore 0 (fun k => { k with
    partition := 2, tlb := k.tlb ++ [⟨0, 3, true, 0x20000, 65536, 5 * 2 ^ 45 + 0x20000, true, true, true, true, 0, 0⟩] })
/-- The same with a scratchpad page of module 5. -/
def wRemoteSp : State := (wRemote false).modCore 0 (fun k => { k with tlb := [⟨0, 3, true, 0x20000, 65536, 5 * 2 ^ 45 + scratchAddr 9 0, true, true, true, true, 0, 0⟩] })
theorem witness_plainLoadsAsk (h : Obligations.PlainLoadsAsk) : 
    goesOn (exec (.ldb ⟨always, 7, 1, 3, 0x3E⟩) (wM)) ∧
    goesOn (exec (.ldd ⟨always, 7, 1, 3, 0x3E⟩) (wM)) ∧
    goesOn (exec (.ldwu ⟨always, 7, 1, 3, 0⟩) (wRemote true)) := by
  refine ⟨?_, ?_, ?_⟩
  · have c := (h ⟨always, 7, 1, 3, 0x3E⟩ wM (wM.paOf 0x1003E) wHbm).1 (clear_of holds) holds ⟨holds, holds, holds⟩ holds holds
    exact let ⟨_, x, _⟩ := c; ⟨_, x⟩
  · have c := (h ⟨always, 7, 1, 3, 0x3E⟩ wM (wM.paOf 0x10030) wHbm).2.2.2.1 (clear_of holds) holds ⟨holds, holds, holds⟩ holds holds
    exact let ⟨_, x, _⟩ := c; ⟨_, x⟩
  · have c := (h ⟨always, 7, 1, 3, 0⟩ (wRemote true) (5 * 2 ^ 45 + 0x20040) wFar).2.2.2.2.2.2 (clear_of holds) holds ⟨holds, holds, holds⟩ holds holds
    exact let ⟨_, x, _⟩ := c; ⟨_, x⟩
theorem witness_synchronisingLoadsAsk (h : Obligations.SynchronisingLoadsAsk) : 
    goesOn (exec (.ldx ⟨always, 7, 4, 3, 0x3E⟩) (wM)) ∧
    goesOn (exec (.lda ⟨always, 7, 1, 3, .auto, 0xE⟩) (wM)) := by
  refine ⟨?_, ?_⟩
  · have c := (h.1 ⟨always, 7, 4, 3, 0x3E⟩ wM (wM.paOf (scratchAddr 0 0xF0)) (Under.plain 0 127) (clear_of holds) holds ⟨holds, holds, holds⟩ holds holds).1
    exact let ⟨_, x, _⟩ := c; ⟨_, x⟩
  · have c := h.2 ⟨always, 7, 1, 3, .auto, 0xE⟩ wM (wM.paOf 0x100B0) wHbm (clear_of holds) holds ⟨holds, holds, holds⟩ holds holds
    exact let ⟨_, x, _⟩ := c; ⟨_, x⟩
theorem witness_remoteLoadTravels (h : Obligations.RemoteLoadTravels) : 
    goesOn (exec (.ldd ⟨always, 7, 1, 3, 0⟩) (wRemote false)) ∧
    goesOn (exec (.ldx ⟨always, 7, 1, 3, 0⟩) (wRemoteSp)) ∧
    goesOn (exec (.lda ⟨always, 7, 1, 3, .pkg, 0⟩) (wRemote false)) := by
  refine ⟨?_, ?_, ?_⟩
  · have c := ((h (wRemote false) (5 * 2 ^ 45 + 0x20040) wFar).1 ⟨always, 7, 1, 3, 0⟩).2.2.2.1 (clear_of holds) holds ⟨holds, holds, holds⟩ holds holds
    exact let ⟨_, _, _, x, _⟩ := c; ⟨_, x⟩
  · have c := ((h wRemoteSp (5 * 2 ^ 45 + scratchAddr 9 0x40) wFar).1 ⟨always, 7, 1, 3, 0⟩).2.2.2.2.2.2.2.1 (clear_of holds) holds ⟨holds, holds, holds⟩ holds holds
    exact let ⟨_, _, _, x, _⟩ := c; ⟨_, x⟩
  · have c := (h (wRemote false) (5 * 2 ^ 45 + 0x20040) wFar).2 ⟨always, 7, 1, 3, .pkg, 0⟩ (clear_of holds) holds ⟨holds, holds, holds⟩ holds holds
    exact let ⟨_, _, _, x, _⟩ := c; ⟨_, x⟩
theorem witness_storesAsk (h : Obligations.StoresAsk) : 
    goesOn (exec (.std ⟨always, 2, 1, 0x3FE⟩) (wM)) ∧
    goesOn (exec (.sth ⟨always, 2, 1, 0⟩) (wRemote true)) ∧
    goesOn (exec (.stl ⟨always, 2, 1, .auto, 0xE⟩) (wM)) ∧
    goesOn (exec (.stx ⟨always, 2, 4, 0x3FE⟩) (wM)) := by
  refine ⟨?_, ?_, ?_, ?_⟩
  · have c := (h.1.1 ⟨always, 2, 1, 0x3FE⟩ wM (wM.paOf 0x10030) wHbm).2.2.2 (clear_of holds) holds ⟨holds, holds, holds⟩ holds holds
    exact let ⟨_, x, _⟩ := c; ⟨_, x⟩
  · have c := (h.1.1 ⟨always, 2, 1, 0⟩ (wRemote true) (5 * 2 ^ 45 + 0x20040) wFar).2.1 (clear_of holds) holds ⟨holds, holds, holds⟩ holds holds
    exact let ⟨_, x, _⟩ := c; ⟨_, x⟩
  · have c := h.1.2 ⟨always, 2, 1, .auto, 0xE⟩ wM (wM.paOf 0x100B0) wHbm (clear_of holds) holds ⟨holds, holds, holds⟩ holds holds holds
    exact let ⟨_, x, _⟩ := c; ⟨_, x⟩
  · have c := h.2 ⟨always, 2, 4, 0x3FE⟩ wM (wM.paOf (scratchAddr 0 0xF0)) (Under.plain 0 127) (clear_of holds) holds ⟨holds, holds, holds⟩ holds (fun u hu => by rw [show (wM.proc wM.turn).unacked = [] by decide +kernel] at hu; cases hu)
    exact let ⟨_, x, _⟩ := c; ⟨_, x⟩
theorem witness_vectorMemoryAsks (h : Obligations.VectorMemoryAsks) : 
    goesOn (exec (.vld ⟨always, 2, 3, 5, 1, 0xF⟩) (wM)) ∧
    goesOn (exec (.vst ⟨always, 2, 3, .rtz, 1, 0x1F⟩) (wM)) := by
  refine ⟨?_, ?_⟩
  · have c := h.1 ⟨always, 2, 3, 5, 1, 0xF⟩ wM (wM.paOf 0x10000) wHbm (clear_of holds) holds ⟨holds, holds, holds⟩ holds
    exact let ⟨_, x, _⟩ := c; ⟨_, x⟩
  · have c := h.2 ⟨always, 2, 3, .rtz, 1, 0x1F⟩ wM (wM.paOf 0x10000) wHbm (clear_of holds) holds ⟨holds, holds, holds⟩ holds holds
    exact let ⟨_, x, _⟩ := c; ⟨_, x⟩

/-- g1 is an address; a walk of the page at 0x40000 has failed at level 2. -/
def wBarred (a : Word) (priv : Bool) : State := (regs [a, 1]).modProc 0 (fun p => { p with priv := priv, walked := some (0x40000, .page, 2) })
/-- The physical address of an offset of core 0's scratchpad. -/
def wPaSp (off : Nat) : Nat := State.reset.paOf (scratchAddr 0 off)
/-- R56 to R58, R65: the checks at the ends of their ranges, and what is never translated. -/
theorem witness_accessChecks (h : Obligations.AccessTraps) : ldaCheck true (wPaSp 0x200000) = some .misalign ∧ storeCheck false (wPaSp 0xC5FFFF) 1 = some .misalign ∧
    storeCheck true (wPaSp 0xA5FFFF) 1 = some .misalign ∧ storeCheck true (wPaSp 0x60000) 128 = some .prot ∧ loadCheck false (wPaSp 0xE9FFF8) 8 = none ∧
    loadCheck true (wPaSp 0xBFFFF) 1 = some .prot ∧ loadCheck false (wPaSp 0xC0000) 8 = some .priv ∧ syncCheck false (wPaSp 0xA0000) = some .prot ∧
    wM.xlate (wM.ctxOf 0) .x (2 ^ 56) = .fail .prot 0 :=
  ⟨((h.2.1 true (wPaSp 0x200000) 8 0 0x200000 holds).1 holds).2.1, (h.2.1 true (wPaSp 0xC5FFFF) 1 0 0xC5FFFF holds).2.1 holds holds,
    (h.2.1 true (wPaSp 0xA5FFFF) 1 0 0xA5FFFF holds).2.2.1 holds holds true, (h.2.1 true (wPaSp 0x60000) 128 0 0x60000 holds).2.2.2.1 holds true,
    ((h.2.1 false (wPaSp 0xE9FFF8) 8 0 0xE9FFF8 holds).2.2.2.2.1 holds holds).1 holds, (h.2.1 true (wPaSp 0xBFFFF) 1 0 0xBFFFF holds).2.2.2.2.2.1 holds,
    ((h.2.1 false (wPaSp 0xC0000) 8 0 0xC0000 holds).2.2.2.2.2.2.1 holds holds holds).1, ((h.2.1 true (wPaSp 0xA0000) 8 0 0xA0000 holds).2.2.2.2.2.2.2 holds holds).2.2 holds,
    h.2.2 wM (wM.ctxOf 0) .x (2 ^ 56) (.inl holds)⟩
theorem witness_accessTraps_1 (h : Obligations.AccessTraps) : 
    goesOn (exec (.ldd ⟨always, 7, 5, 3, 0x3E⟩) (wM)) ∧
    goesOn (exec (.ldd ⟨always, 7, 1, 3, 0⟩) (wBarred 0x40000 true)) ∧
    goesOn (exec (.ldx ⟨always, 7, 1, 3, 0⟩) (wBarred 0x40000 false)) ∧
    goesOn (exec (.stx ⟨always, 2, 1, 0⟩) (wBarred 0xF0000000200000 true)) ∧
    goesOn (exec (.stb ⟨always, 2, 1, 0⟩) (wBarred 0xF0000000060000 true)) ∧
    goesOn (exec (.lda ⟨always, 7, 1, 3, .auto, 1⟩) (wBarred 0x40004 true)) := by
  refine ⟨?_, ?_, ?_, ?_, ?_, ?_⟩
  · have c := (((h.1 wM).1 ⟨always, 7, 5, 3, 0x3E⟩).2.2.2.1 (clear_of holds)).1 holds
    exact ⟨_, c⟩
  · have c := ((((h.1 (wBarred 0x40000 true)).1 ⟨always, 7, 1, 3, 0⟩).2.2.2.1 (clear_of holds)).2 holds).1 .page 2 holds (.inr holds)
    exact ⟨_, c⟩
  · have c := ((((h.1 (wBarred 0x40000 false)).1 ⟨always, 7, 1, 3, 0⟩).2.2.2.2.2.2.2.1 (clear_of holds)).2 holds).2.1 2 holds holds
    exact ⟨_, c⟩
  · have c := ((((h.1 (wBarred 0xF0000000200000 true)).2.1 ⟨always, 2, 1, 0⟩).2.2.2.2 (clear_of holds)).2 holds).2.2 (wPaSp 0x200000) (Under.plain 0 127) .misalign holds holds
    exact ⟨_, c⟩
  · have c := ((((h.1 (wBarred 0xF0000000060000 true)).2.1 ⟨always, 2, 1, 0⟩).1 (clear_of holds)).2 holds).2.2 (wPaSp 0x60000) (Under.plain 0 127) .prot holds holds
    exact ⟨_, c⟩
  · have c := ((h.1 (wBarred 0x40004 true)).2.2.1 ⟨always, 7, 1, 3, .auto, 1⟩ (clear_of holds)).1 holds
    exact ⟨_, c⟩
theorem witness_accessTraps_2 (h : Obligations.AccessTraps) : 
    goesOn (exec (.stl ⟨always, 7, 1, .auto, 1⟩) (wBarred 0xFFFFFFFFFFFFFFF0 false)) ∧
    goesOn (exec (.amocas ⟨always, 2, 1, 6⟩) (wBarred 0xF0000000060000 true)) ∧
    goesOn (exec (.vld ⟨always, 2, 1, 5, 1, 0⟩) (wBarred 0x40040 true)) ∧
    goesOn (exec (.vst ⟨always, 2, 1, .rtz, 1, 0⟩) (wBarred 0x40000 false)) ∧
    goesOn (exec (.tempty ⟨always, 1, 2⟩) (wBarred 0x40000 false)) ∧
    goesOn (exec (.tqry ⟨always, 7, 1, 2⟩) (wBarred 0xF0000000200000 true)) := by
  refine ⟨?_, ?_, ?_, ?_, ?_, ?_⟩
  · have c := (((h.1 (wBarred 0xFFFFFFFFFFFFFFF0 false)).2.2.2.1 ⟨always, 7, 1, .auto, 1⟩ (clear_of holds)).2 holds).1 .prot 0 holds (.inl holds)
    exact ⟨_, c⟩
  · have c := ((((h.1 (wBarred 0xF0000000060000 true)).2.2.2.2.1 ⟨always, 2, 1, 6⟩).2.2.2.2.2.2.2.2.2 (clear_of holds)).2 holds).2.2 (wPaSp 0x60000) (Under.plain 0 127) .prot holds holds
    exact ⟨_, c⟩
  · have c := ((h.1 (wBarred 0x40040 true)).2.2.2.2.2.1 ⟨always, 2, 1, 5, 1, 0⟩ (clear_of holds)).1 holds
    exact ⟨_, c⟩
  · have c := (((h.1 (wBarred 0x40000 false)).2.2.2.2.2.2.1 ⟨always, 2, 1, .rtz, 1, 0⟩ (clear_of holds)).2 holds).2.1 2 holds holds
    exact ⟨_, c⟩
  · have c := ((((h.1 (wBarred 0x40000 false)).2.2.2.2.2.2.2.1 ⟨always, 1, 2⟩ holds).1 (clear_of holds)).2 holds).2.1 2 holds holds
    exact ⟨_, c⟩
  · have c := (((h.1 (wBarred 0xF0000000200000 true)).2.2.2.2.2.2.2.2 ⟨always, 7, 1, 2⟩ holds (clear_of holds)).2 holds).2.2 (wPaSp 0x200000) (Under.plain 0 127) .misalign holds holds
    exact ⟨_, c⟩
theorem witness_atomicsAsk (h : Obligations.AtomicsAsk) : 
    goesOn (exec (.amoadd ⟨always, 7, 1, 2⟩) (wM)) ∧
    goesOn (exec (.amoadd ⟨always, 0, 1, 2⟩) (wM)) ∧
    goesOn (exec (.amocas ⟨always, 7, 1, 2⟩) (wRemote true)) := by
  refine ⟨?_, ?_, ?_⟩
  · have c := (h ⟨always, 7, 1, 2⟩ wM (wM.paOf 0x10040) wHbm).1 (clear_of holds) holds ⟨holds, holds, holds⟩ holds holds holds
    exact let ⟨_, x, _⟩ := c; ⟨_, x⟩
  · have c := (h ⟨always, 0, 1, 2⟩ wM (wM.paOf 0x10040) wHbm).1 (clear_of holds) holds ⟨holds, holds, holds⟩ holds holds holds
    exact let ⟨_, x, _⟩ := c; ⟨_, x⟩
  · have c := (h ⟨always, 7, 1, 2⟩ (wRemote true) (5 * 2 ^ 45 + 0x20040) wFar).2.2.2.2.2.2.2.2.2 (clear_of holds) holds ⟨holds, holds, holds⟩ holds holds holds
    exact let ⟨_, x, _⟩ := c; ⟨_, x⟩

/-- g1 names tile 16 of core 0's general store, g2 how many tiles. -/
def wTag (n : Word) (tags : Table Tag) (w : List (Nat × Nat)) (m : Table Mark) : State :=
  base (fun p => { p with r := (p.r.setG 1 0xF0000000000400).setG 2 n }) (fun k => { k with tags := tags, watches := w, marks := m })
/-- The physical address of that tile. -/
def wTagPa : Nat := State.reset.paOf (scratchAddr 0 0x400)
theorem witness_tagWordsTakeEffect_1 (h : Obligations.TagWordsTakeEffect) : 
    goesOn (exec (.tempty ⟨always, 1, 2⟩) (wTag 0 [] [] [])) ∧
    goesOn (exec (.tempty ⟨always, 1, 2⟩) (wTag 1 [(16, .full)] [] [])) ∧
    goesOn (exec (.tfull ⟨always, 1, 2⟩) (wTag 1 [] [] [])) ∧
    goesOn (exec (.twaitf ⟨always, 1, 2⟩) (wTag 1 [(16, .lent)] [] [])) ∧
    goesOn (exec (.twaite ⟨always, 1, 2⟩) (wTag 1 [] [] [])) ∧
    goesOn (exec (.watch ⟨always, 1, 2⟩) (wTag 1 [] [] [])) := by
  refine ⟨?_, ?_, ?_, ?_, ?_, ?_⟩
  · have c := (h ⟨always, 1, 2⟩ (wTag 0 [] [] []) wTagPa (Under.plain 0 127) 0 16 (clear_of holds)).1 holds _ (.head _)
    exact ⟨_, c⟩
  · have c := (h ⟨always, 1, 2⟩ (wTag 1 [(16, .full)] [] []) wTagPa (Under.plain 0 127) 0 16 (clear_of holds)).2.1 holds holds holds holds holds ⟨holds, holds, holds⟩ holds holds holds holds
    exact let ⟨_, x, _⟩ := c; ⟨_, x⟩
  · have c := (h ⟨always, 1, 2⟩ (wTag 1 [] [] []) wTagPa (Under.plain 0 127) 0 16 (clear_of holds)).2.2.1 holds holds holds holds holds ⟨holds, holds, holds⟩ holds holds holds holds
    exact let ⟨_, x, _⟩ := c; ⟨_, x⟩
  · have c := (h ⟨always, 1, 2⟩ (wTag 1 [(16, .lent)] [] []) wTagPa (Under.plain 0 127) 0 16 (clear_of holds)).2.2.2.1 holds holds holds holds holds ⟨holds, holds, holds⟩ holds holds holds holds
    exact let ⟨_, x, _⟩ := c; ⟨_, x⟩
  · have c := (h ⟨always, 1, 2⟩ (wTag 1 [] [] []) wTagPa (Under.plain 0 127) 0 16 (clear_of holds)).2.2.2.2.1 holds holds holds holds holds ⟨holds, holds, holds⟩ holds holds holds holds
    exact let ⟨_, x, _⟩ := c; ⟨_, x⟩
  · have c := (h ⟨always, 1, 2⟩ (wTag 1 [] [] []) wTagPa (Under.plain 0 127) 0 16 (clear_of holds)).2.2.2.2.2.1 holds holds holds holds holds ⟨holds, holds, holds⟩ holds holds holds holds
    exact let ⟨_, x, _⟩ := c; ⟨_, x⟩
theorem witness_tagWordsTakeEffect_2 (h : Obligations.TagWordsTakeEffect) : goesOn (exec (.unwatch ⟨always, 1, 2⟩) (wTag 1 [] [(16, 66584576)] [])) := by
  have c := (h ⟨always, 1, 2⟩ (wTag 1 [] [(16, 66584576)] []) wTagPa (Under.plain 0 127) 0 16 (clear_of holds)).2.2.2.2.2.2 holds holds holds holds holds ⟨holds, holds, holds⟩ holds holds holds holds
  exact let ⟨_, x, _⟩ := c; ⟨_, x⟩
theorem witness_tagQueriesAndFences (h : Obligations.TagQueriesAndFences) : 
    goesOn (exec (.tqry ⟨always, 7, 1, 0⟩) (wTag 1 [] [] [])) ∧
    goesOn (exec (.tqry ⟨always, 7, 1, 2⟩) (wTag 1 [(16, .via)] [(16, 5)] [])) ∧
    goesOn (exec (.waitw always) ((regs []).modProc 0 (fun p => { p with wev := true }))) ∧
    goesOn (exec (.fence ⟨always, 63, 63, .sys⟩) (regs [])) ∧
    goesOn (exec (.ifence always) (regs [])) := by
  refine ⟨?_, ?_, ?_, ?_, ?_⟩
  · have c := (h.1.1 ⟨always, 7, 1, 0⟩ (wTag 1 [] [] []) wTagPa (Under.plain 0 127) 0 16 (clear_of holds)).1 holds
    exact ⟨_, c⟩
  · have c := (h.1.1 ⟨always, 7, 1, 2⟩ (wTag 1 [(16, .via)] [(16, 5)] []) wTagPa (Under.plain 0 127) 0 16 (clear_of holds)).2 holds holds holds holds holds holds ⟨holds, holds, holds⟩ holds holds
    exact let ⟨_, _, x, _⟩ := c; ⟨_, x⟩
  · have c := h.1.2 always ((regs []).modProc 0 (fun p => { p with wev := true })) (clear_of holds) holds
    exact ⟨_, c⟩
  · have c := h.2.1 ⟨always, 63, 63, .sys⟩ (regs []) (clear_of holds) holds
    exact ⟨_, c⟩
  · have c := h.2.2 always (regs []) (clear_of holds) holds
    exact let ⟨_, x, _⟩ := c; ⟨_, x⟩

/-- Lanes with zeros, infinities, NaN codes and the most negative integers. -/
def wV : State := base (fun p => { p with r := { p.r with
  v := p.r.v.set 1 0x7FFF80003C00BC007C00FC00000180007E007D00000100003F800000BF8000007F800001FF800000#1024
  q := p.r.q.set 3 0xF0F0F0F0F0F0F0F0F0F3F#128 } }) (fun k => k)
theorem witness_vectorIntegerLanes (h : Obligations.VectorIntegerLanes) : 
    goesOn (exec (.vaddI ⟨always, .b8, 3, 1, 2, 3⟩) (wV)) ∧
    goesOn (exec (.vadds ⟨always, .b32, 3, 1, 1, 0⟩) (wV)) := by
  refine ⟨?_, ?_⟩
  · have c := (h ⟨always, .b8, 3, 1, 2, 3⟩ wV (clear_of holds)).1
    exact let ⟨_, _, x, _⟩ := c; ⟨_, x⟩
  · have c := (h ⟨always, .b32, 3, 1, 1, 0⟩ wV (clear_of holds)).2.2.2.2.2.2.2.2.2.2.2.2.2.2.2
    exact let ⟨_, _, x, _⟩ := c; ⟨_, x⟩
theorem witness_vectorFloatLanes (h : Obligations.VectorFloatLanes) : goesOn (exec (.vaddF16 ⟨always, 3, 1, 2, 3⟩) (wV)) := by
  have c := (h ⟨always, 3, 1, 2, 3⟩ wV (clear_of holds)).1.1
  exact let ⟨_, _, x, _⟩ := c; ⟨_, x⟩
theorem witness_vectorFloatOneSource (h : Obligations.VectorFloatOneSource) : goesOn (exec (.vabsF16 ⟨always, 3, 1, 3⟩) (wV)) := by
  have c := (h ⟨always, 3, 1, 3⟩ wV (clear_of holds)).1.1
  exact let ⟨_, _, x, _⟩ := c; ⟨_, x⟩
theorem witness_vectorComparesWritePair (h : Obligations.VectorComparesWritePair) : 
    goesOn (exec (.vcmpeq ⟨always, 1, 2, 2, 1, .i8⟩) (wV)) ∧
    goesOn (exec (.vcmpeq ⟨always, 3, 4, 1, 2, .f16⟩) (wV)) := by
  refine ⟨?_, ?_⟩
  · have c := ((h ⟨always, 1, 2, 2, 1, .i8⟩ wV (clear_of holds)).1 rfl).1
    exact let ⟨_, _, _, x, _⟩ := c; ⟨_, x⟩
  · have c := ((h ⟨always, 3, 4, 1, 2, .f16⟩ wV (clear_of holds)).2 rfl).1
    exact let ⟨_, _, _, x, _⟩ := c; ⟨_, x⟩
theorem witness_vectorConversionLanes (h : Obligations.VectorConversionLanes) : goesOn (exec (.vcvt ⟨always, 3, 1, .f16, .e4m3, .rtz, 0⟩) (wV)) := by
  have c := h ⟨always, 3, 1, .f16, .e4m3, .rtz, 0⟩ wV (clear_of holds)
  exact let ⟨_, _, x, _⟩ := c; ⟨_, x⟩
theorem witness_vectorReductions (h : Obligations.VectorReductions) : 
    goesOn (exec (.vrsum ⟨always, 3, 1, .i8, 3⟩) (wV)) ∧
    goesOn (exec (.vrsum ⟨always, 3, 1, .f16, 3⟩) (wV)) := by
  refine ⟨?_, ?_⟩
  · have c := ((h ⟨always, 3, 1, .i8, 3⟩ wV (clear_of holds)).1 rfl).1
    exact let ⟨_, x, _⟩ := c; ⟨_, x⟩
  · have c := ((h ⟨always, 3, 1, .f16, 3⟩ wV (clear_of holds)).2 rfl).1
    exact let ⟨_, x, _⟩ := c; ⟨_, x⟩
theorem witness_vectorMovesAndPermutations (h : Obligations.VectorMovesAndPermutations) : 
    goesOn (exec (.vbcast ⟨always, 2, 4, .b16⟩) (wV)) ∧
    goesOn (exec (.vext ⟨always, 2, 4, 31, .b16⟩) (wV)) ∧
    goesOn (exec (.vins ⟨always, 2, 4, 31, .b32⟩) (wV)) ∧
    goesOn (exec (.vsel ⟨always, 3, 1, 2, 3, .b8⟩) (wV)) ∧
    goesOn (exec (.vperm ⟨always, 3, 1, 2, 3, .b8⟩) (wV)) := by
  refine ⟨?_, ?_, ?_, ?_, ?_⟩
  · have c := h.1 ⟨always, 2, 4, .b16⟩ wV (clear_of holds)
    exact let ⟨_, x, _⟩ := c; ⟨_, x⟩
  · have c := (h.2.1 ⟨always, 2, 4, 31, .b16⟩ wV).1 (clear_of holds)
    exact ⟨_, c.1⟩
  · have c := (h.2.1 ⟨always, 2, 4, 31, .b32⟩ wV).2 (clear_of holds)
    exact let ⟨_, x, _⟩ := c; ⟨_, x⟩
  · have c := (h.2.2 ⟨always, 3, 1, 2, 3, .b8⟩ wV).1 (clear_of holds)
    exact let ⟨_, x, _⟩ := c; ⟨_, x⟩
  · have c := ((h.2.2 ⟨always, 3, 1, 2, 3, .b8⟩ wV).2 (clear_of holds)).1
    exact let ⟨_, _, x, _⟩ := c; ⟨_, x⟩

/-- Matrix operand records: 32 rows of A and a packed B, k = 64 (R206). -/
def wShA : BitVec 256 := BitVec.ofNat 256 (3 + 7 * 2 ^ 20 + 5 * 2 ^ 28 + 32 * 2 ^ 64)
def wShB : BitVec 256 := BitVec.ofNat 256 (3 + 1 * 2 ^ 8 + 7 * 2 ^ 20 + 5 * 2 ^ 28 + 32 * 2 ^ 64)
def wTile (gs : List Word) : State := (regs gs).modProc 0 (fun p => { p with r := (p.r.setSh 0 wShA).setSh 1 wShB })
def wShape (x : BitVec 256) : State := { wTile [0xF0000000000040] with mem := Memory.writeN [] (scratchAddr 0 0x40) 32 x.toNat }
theorem witness_tileWordsQueue_1 (h : Obligations.TileWordsQueue) : 
    goesOn (exec (.mma ⟨always, 1, 2, 3, 5, 0, true⟩) (wTile [0xF0000000020000, 0xF0000000060000])) ∧
    goesOn (exec (.acz ⟨always, 1, 3⟩) (wTile [0xF905])) ∧
    goesOn (exec (.drain ⟨always, 1, 2, 3⟩) (wTile [0x1377, 0xF0000000000040])) ∧
    goesOn (exec (.table ⟨always, 1, 2, 3⟩) (wTile [0xF0000000000040, 3])) ∧
    goesOn (exec (.rowsum ⟨always, 1, 2, 3⟩) (wTile [0xF0000000060000, 13])) ∧
    goesOn (exec (.colsum ⟨always, 1, 2, 3⟩) (wTile [0xF0000000000000, 5])) := by
  refine ⟨?_, ?_, ?_, ?_, ?_, ?_⟩
  · have c := ((h (wTile [0xF0000000020000, 0xF0000000060000]) holds holds).1 ⟨always, 1, 2, 3, 5, 0, true⟩ (clear_of holds) holds holds holds holds holds holds holds).1 holds
    exact let ⟨_, x, _⟩ := c; ⟨_, x⟩
  · have c := ((h (wTile [0xF905]) holds holds).2.1 ⟨always, 1, 3⟩ (clear_of holds) holds holds holds holds).1 holds
    exact let ⟨_, x, _⟩ := c; ⟨_, x⟩
  · have c := (((h (wTile [0x1377, 0xF0000000000040]) holds holds).2.2.1 ⟨always, 1, 2, 3⟩ (clear_of holds)).1 holds holds holds holds holds holds holds holds holds).1 holds
    exact let ⟨_, x, _⟩ := c; ⟨_, x⟩
  · have c := (((h (wTile [0xF0000000000040, 3]) holds holds).2.2.1 ⟨always, 1, 2, 3⟩ (clear_of holds)).2.1 holds holds).1 holds
    exact let ⟨_, x, _⟩ := c; ⟨_, x⟩
  · have c := (((h (wTile [0xF0000000060000, 13]) holds holds).2.2.1 ⟨always, 1, 2, 3⟩ (clear_of holds)).2.2.1 holds holds holds).1 holds
    exact let ⟨_, x, _⟩ := c; ⟨_, x⟩
  · have c := (((h (wTile [0xF0000000000000, 5]) holds holds).2.2.1 ⟨always, 1, 2, 3⟩ (clear_of holds)).2.2.2 holds holds holds).1 holds
    exact let ⟨_, x, _⟩ := c; ⟨_, x⟩
theorem witness_tileWordsQueue_2 (h : Obligations.TileWordsQueue) : 
    goesOn (exec (.pack ⟨always, 1, 2, 3⟩) (wTile [0xF0000000000000, 0xF0000000060000, 1])) ∧
    goesOn (exec (.unpack ⟨always, 1, 2, 3⟩) (wTile [0xF0000000060000, 0xF0000000000000, 1])) ∧
    goesOn (exec (.aread ⟨always, 1, 7, 3⟩) (wTile [0x4025])) := by
  refine ⟨?_, ?_, ?_⟩
  · have c := (((h (wTile [0xF0000000000000, 0xF0000000060000, 1]) holds holds).2.2.2.1 ⟨always, 1, 2, 3⟩ (clear_of holds) holds holds holds holds).1 holds holds).1 holds
    exact let ⟨_, x, _⟩ := c; ⟨_, x⟩
  · have c := (((h (wTile [0xF0000000060000, 0xF0000000000000, 1]) holds holds).2.2.2.1 ⟨always, 1, 2, 3⟩ (clear_of holds) holds holds holds holds).2 holds holds).1 holds
    exact let ⟨_, x, _⟩ := c; ⟨_, x⟩
  · have c := ((h (wTile [0x4025]) holds holds).2.2.2.2 ⟨always, 1, 7, 3⟩ (clear_of holds) holds holds).1 holds
    exact let ⟨_, x, _⟩ := c; ⟨_, x⟩
theorem witness_shapeLoadsRecord (h : Obligations.ShapeLoadsRecord) : 
    goesOn (exec (.shape ⟨always, 1, 5⟩) (wShape wShB)) ∧
    goesOn (exec (.shape ⟨always, 1, 5⟩) (wShape 15)) := by
  refine ⟨?_, ?_⟩
  · have c := (h ⟨always, 1, 5⟩ (wShape wShB) (clear_of holds) holds holds holds holds holds holds holds).1 holds
    exact ⟨_, c⟩
  · have c := (h ⟨always, 1, 5⟩ (wShape 15) (clear_of holds) holds holds holds holds holds holds holds).2 holds
    exact ⟨_, c⟩

/-- The tile queue of core 0 holds one entry; its accumulator tile has the tag given, every tile of its buffers is FULL. -/
def wSeq (e : TileOp) (t : Tag) : State :=
  base (fun p => p) (fun k => { k with tileq := [e], acc := [(e.acc, { Acc.reset with tag := t })], tags := (List.range 2560).map (fun i => (i, Tag.full)) })
def wMma : TileOp := { TileOp.blank with id := 3, sub := 15, acc := 2, shA := wShA, shB := wShB, a := 0xF0000000020000, b := 0xF0000000060000 }
/-- One of two k-blocks. -/
def wMma2 : TileOp := { wMma with
  shA := BitVec.ofNat 256 (3 + 7 * 2 ^ 20 + 5 * 2 ^ 28 + 1 * 2 ^ 40 + 64 * 2 ^ 64), shB := BitVec.ofNat 256 (3 + 1 * 2 ^ 8 + 7 * 2 ^ 20 + 5 * 2 ^ 28 + 1 * 2 ^ 40 + 32 * 2 ^ 64)
  running := true, taken := true }
def wAcz : TileOp := { TileOp.blank with id := 3, sub := 1, acc := 2, a := 0xF902, running := true }
theorem witness_sequencerRows (h : Obligations.SequencerRows) : 
    goesOn (exec (.macroOpStart 0) (wSeq wMma .full)) ∧
    goesOn (exec (.macroStepComplete 0) (wSeq wAcz .full)) ∧
    goesOn (exec (.macroStepComplete 0) (wSeq wMma2 .pending)) := by
  refine ⟨?_, ?_, ?_⟩
  · have c := h.1 (wSeq wMma .full) 0 wMma holds holds holds holds holds holds holds holds holds
    exact let ⟨_, x, _⟩ := c; ⟨_, x⟩
  · have c := (h.2 (wSeq wAcz .full) 0 wAcz holds holds holds).1 holds holds holds holds
    exact let ⟨_, x, _⟩ := c; ⟨_, x⟩
  · have c := (h.2 (wSeq wMma2 .pending) 0 wMma2 holds holds holds).2 holds holds holds holds holds holds holds holds
    exact let ⟨_, x, _⟩ := c; ⟨_, x⟩

/-- Copy records: a rectangle of rows, a slab, one accumulator tile (R109). -/
def wRec (kind p rows bytes ss ds hi : Nat) : BitVec 256 :=
  BitVec.ofNat 256 (kind + p * 2 ^ 6 + bytes * 2 ^ 24 + (rows - 1) * 2 ^ 48 + ss * 2 ^ 64 + ds * 2 ^ 96 + hi * 2 ^ 128)
def wRows : BitVec 256 := wRec 1 1 3 2048 4096 2048 0
def wCopy (gs : List Word) : State :=
  let s := (regs gs).modProc 0 (fun p => { p with r := ((p.r.setSh 0 wRows).setSh 1 (wRec 2 1 3 2048 4096 2048 (1 + 2 * 2 ^ 4 + 1 * 2 ^ 9 + 1 * 2 ^ 13 + 2 * 2 ^ 48))).setSh 2 (wRec 1 2 1 10240 0 0 0) })
  s.setDie 0 { s.die 0 with groups := [(5, ⟨1, 0, 127, [0xF0000000020000, 0x80000]⟩), (6, ⟨1, 0, 127, [0xF00000000A0000, 0xF00000000A2800]⟩)] }
def wFrame : Word := BitVec.ofNat 64 (State.reset.paOf 0x20000)
theorem witness_copyGroupHandsRequest_1 (h : Obligations.CopyGroupHandsRequest) : 
    goesOn (exec (.copy ⟨always, 1, 2, 3, 0⟩) (wCopy [0x10000, 0xF0000000020000, 0x800123])) ∧
    goesOn (exec (.copys ⟨always, 1, 2, 3, 1⟩) (wCopy [0x10000, 0x40000, 0x123])) ∧
    goesOn (exec (.copya ⟨always, 1, 2, 3, 2⟩) (wCopy [0xF00000000A0000, 0xF00000000A5000, 0x123])) ∧
    goesOn (exec (.mcast ⟨always, 1, 2, 3, 0⟩) (wCopy [0x10000, 0, 0x5000123])) ∧
    goesOn (exec (.redg ⟨always, 1, 2, 3, 2⟩) (wCopy [0, 0xF00000000A5000, 0x6000123])) ∧
    goesOn (exec (.flushout ⟨always, 1, 2, 3⟩) (wCopy [wFrame, 0x123, 0x800123])) := by
  refine ⟨?_, ?_, ?_, ?_, ?_, ?_⟩
  · have c := ((h.1 ⟨always, 1, 2, 3, 0⟩ (wCopy [0x10000, 0xF0000000020000, 0x800123]) (clear_of holds) holds).1 holds).1 holds holds
    exact let ⟨_, x, _⟩ := c; ⟨_, x⟩
  · have c := ((h.1 ⟨always, 1, 2, 3, 1⟩ (wCopy [0x10000, 0x40000, 0x123]) (clear_of holds) holds).1 holds).2.1 holds holds
    exact let ⟨_, x, _⟩ := c; ⟨_, x⟩
  · have c := ((h.1 ⟨always, 1, 2, 3, 2⟩ (wCopy [0xF00000000A0000, 0xF00000000A5000, 0x123]) (clear_of holds) holds).1 holds).2.2 holds holds
    exact let ⟨_, x, _⟩ := c; ⟨_, x⟩
  · have c := ((h.1 ⟨always, 1, 2, 3, 0⟩ (wCopy [0x10000, 0, 0x5000123]) (clear_of holds) holds).2 holds holds holds).1 holds holds
    exact let ⟨_, x, _⟩ := c; ⟨_, x⟩
  · have c := ((h.1 ⟨always, 1, 2, 3, 2⟩ (wCopy [0, 0xF00000000A5000, 0x6000123]) (clear_of holds) holds).2 holds holds holds).2 holds holds
    exact let ⟨_, x, _⟩ := c; ⟨_, x⟩
  · have c := h.2.1 ⟨always, 1, 2, 3⟩ (wCopy [wFrame, 0x123, 0x800123]) (clear_of holds) holds
    exact let ⟨_, x, _⟩ := c; ⟨_, x⟩
theorem witness_copyGroupHandsRequest_2 (h : Obligations.CopyGroupHandsRequest) : 
    goesOn (exec (.fetchin ⟨always, 1, 4, 3, 0⟩) (wCopy [0x123, 0x10000, 0, wFrame, 0x800123])) ∧
    goesOn (exec (.fetchin ⟨always, 1, 4, 3, 0⟩) (wCopy [0x1000000123, 0xF0000000020000, 0, wFrame, 0x800123])) := by
  refine ⟨?_, ?_⟩
  · have c := (h.2.2 ⟨always, 1, 4, 3, 0⟩ (wCopy [0x123, 0x10000, 0, wFrame, 0x800123]) (clear_of holds) holds).1 holds
    exact let ⟨_, x, _⟩ := c; ⟨_, x⟩
  · have c := (h.2.2 ⟨always, 1, 4, 3, 0⟩ (wCopy [0x1000000123, 0xF0000000020000, 0, wFrame, 0x800123]) (clear_of holds) holds).2 holds holds holds holds holds holds holds
    exact let ⟨_, x, _⟩ := c; ⟨_, x⟩

/-- Group 5 of die 0 in a state of R121; g1 names a table in general store, g4 the group. -/
def wGroup (st : Nat) (f : Proc → Proc) : State :=
  let s := base (fun p => f { p with r := (p.r.setG 1 0xF0000000000040).setG 4 0x105 }) (fun k => k)
  s.setDie 0 { s.die 0 with groups := [(5, ⟨st, 0, 127, [0xF0000000020000, 0x80000]⟩)] }
/-- The process waits for the group to be drained (R123). -/
def wDrains : State := wGroup 2 (fun p => { p with state := .blocked, why := 4, wait := edgeGroup 0 5 })
theorem witness_groupWords (h : Obligations.GroupWords) : 
    goesOn (exec (.gopen ⟨always, 4, 1⟩) (wGroup 0 (fun p => { p with buf := [2, 7, 0x400] }))) ∧
    goesOn (exec (.gfree ⟨always, 4⟩) (wGroup 1 (fun p => p))) ∧
    goesOn (exec (.groupDrainComplete 0 5) (wDrains)) := by
  refine ⟨?_, ?_, ?_⟩
  · have c := h.1 ⟨always, 4, 1⟩ (wGroup 0 (fun p => { p with buf := [2, 7, 0x400] })) 2 [7, 0x400] (going_of holds) holds holds holds holds holds holds holds (by simp)
    exact let ⟨_, x, _⟩ := c; ⟨_, x⟩
  · have c := h.2.1 ⟨always, 4⟩ (wGroup 1 (fun p => p)) (clear_of holds) holds holds holds holds
    exact let ⟨_, x, _⟩ := c; ⟨_, x⟩
  · have c := h.2.2 wDrains 0 5 0 holds holds holds holds holds
    exact let ⟨_, x, _⟩ := c; ⟨_, x⟩

/-- The process word of process 0 of core 0. -/
def wMe : Nat := 66584576
def wCpy : Copy := ⟨9, 0, 9, 0x10000, 0, 0, 0x10000, 0xF0000000020000, wRows, 0x800123, [], true, wMe, 127, 0, 0, 6, [], false⟩
def wOut (n : Nat) (d : Dest) : OutOp := ⟨n, 0x200, 3, 1, true, .load, d, true, { Regs.start with flags := 1 }, [], 0, 0, none, [], [], Under.none⟩
def wUnit (f : Core → Core) (outs : List OutOp) : State := base (fun p => { p with outs := outs }) f
def wSum : Acc := { Acc.reset with tag := .full, anchor := -3, cells := [(7, 5)] }
def wAccum : State := { base (fun p => p) (fun k => { k with acc := [(3, { Acc.reset with tag := .full, anchor := -5, cells := [(0, 99), (7, 123457)] })] }) with
  net := [⟨77, .core 0, .core 0, .accum 0 3 wSum (.piece 5 1 5 0), none, false⟩] }
def wFl (form stage : Nat) : Flash := ⟨9, 0, 0, 0, form, BitVec.ofNat 64 (4 + 2 ^ 34), 0x30000, 0, 0, 20, 0, wMe, 127, 0, stage, [1, 2, 3]⟩
def wBorer (f : Flash) : State := { base (fun p => p) (fun k => k) with borer := [f] }
theorem witness_copyUnitAndBorerRows_1 (h : Obligations.CopyUnitAndBorerRows) : 
    goesOn (exec (.copyAccept 0) (wUnit (fun k => { k with copyWait := [wCpy] }) [wOut 9 .none])) ∧
    goesOn (exec (.pieceDispatch 0) (wUnit (fun k => { k with copyq := [wCpy] }) [])) ∧
    goesOn (exec (.completionTileSet 0 9) (wUnit (fun k => { k with copyq := [{ wCpy with next := 6 }] }) [])) ∧
    goesOn (exec (.copyaAccumulate 77) (wAccum)) ∧
    goesOn (exec (.groupDrainComplete 0 5) (wGroup 2 (fun p => p))) ∧
    goesOn (exec (.borerRequest 9) (wBorer (wFl 5 0))) := by
  refine ⟨?_, ?_, ?_, ?_, ?_, ?_⟩
  · have c := h.1.1 (wUnit (fun k => { k with copyWait := [wCpy] }) [wOut 9 .none]) 0 wCpy [] holds holds holds holds holds
    exact let ⟨_, x, _⟩ := c; ⟨_, x⟩
  · have c := h.1.2.1 (wUnit (fun k => { k with copyq := [wCpy] }) []) 0 wCpy (State.reset.paOf (scratchAddr 0 0x20000)) (Under.plain 0 127) 0 0x20000 2048 holds holds holds holds holds holds holds holds holds holds holds
    exact let ⟨_, _, _, x, _⟩ := c; ⟨_, x⟩
  · have c := h.1.2.2.1 (wUnit (fun k => { k with copyq := [{ wCpy with next := 6 }] }) []) 0 9 { wCpy with next := 6 } holds holds holds holds holds holds holds holds holds
    exact let ⟨_, x, _⟩ := c; ⟨_, x⟩
  · have c := h.1.2.2.2.1 wAccum 77 3 0 ⟨77, .core 0, .core 0, .accum 0 3 wSum (.piece 5 1 5 0), none, false⟩ (.piece 5 1 5 0) wSum holds holds holds holds holds holds holds holds
    exact let ⟨_, x, _⟩ := c; ⟨_, x⟩
  · have c := h.1.2.2.2.2 (wGroup 2 (fun p => p)) 0 5 holds holds
    exact let ⟨_, x, _⟩ := c; ⟨_, x⟩
  · have c := (h.2.1 (wBorer (wFl 5 0)) (wFl 5 0) holds holds holds holds).1 holds holds
    exact let ⟨_, x, _⟩ := c; ⟨_, x⟩
theorem witness_copyUnitAndBorerRows_2 (h : Obligations.CopyUnitAndBorerRows) : 
    goesOn (exec (.borerRequest 9) (wBorer (wFl 6 0))) ∧
    goesOn (exec (.fetchinComplete 9) (wBorer (wFl 6 2))) ∧
    goesOn (exec (.flushoutComplete 9) (wBorer (wFl 5 1))) := by
  refine ⟨?_, ?_, ?_⟩
  · have c := (h.2.1 (wBorer (wFl 6 0)) (wFl 6 0) holds holds holds holds).2 holds holds holds
    exact let ⟨_, x, _⟩ := c; ⟨_, x⟩
  · have c := (h.2.2 (wBorer (wFl 6 2)) (wFl 6 2) holds holds holds holds holds).1 holds holds
    exact let ⟨_, x, _⟩ := c; ⟨_, x⟩
  · have c := (h.2.2 (wBorer (wFl 5 1)) (wFl 5 1) holds holds holds holds holds).2 holds holds
    exact let ⟨_, x, _⟩ := c; ⟨_, x⟩

/-- The handle of a slot of this module, generation 1 (R129). -/
def wH (kind c slot : Nat) : Word := handleOf kind 127 c slot 0 1
/-- g1 names a send end whose home is another module, which is there. -/
def wPeer (m : Nat) : State := { regs [handleOf 0 m 5 4 0 1, 0x1234] with peers := [(m, ⟨true, false, 1, 0, true, true⟩)] }
theorem witness_channelWordsLeave_1 (h : Obligations.ChannelWordsLeave) : 
    goesOn (exec (.bind ⟨always, 1, 3⟩) (regs [wH 0 5 4, 0x1234])) ∧
    goesOn (exec (.close ⟨always, 1, 3⟩) (regs [wH 1 0 4, 0x1234])) ∧
    goesOn (exec (.send ⟨always, 1, 2, 3⟩) (wPeer 5)) ∧
    goesOn (exec (.send ⟨always, 1, 2, 3⟩) (regs [wH 0 5 4, 0x1234])) ∧
    goesOn (exec (.recv ⟨always, 1, 2, 3⟩) (regs [wH 0 5 5, 0x1234])) ∧
    goesOn (exec (.recvt ⟨always, 1, 2, 3⟩) (regs [wH 0 5 5, 0x1234])) := by
  refine ⟨?_, ?_, ?_, ?_, ?_, ?_⟩
  · have c := let x := (((h (regs [wH 0 5 4, 0x1234])).1 ⟨always, 1, 3⟩).2.1 (clear_of holds) holds holds holds holds holds); x.2 _ (x.1 (by simp))
    exact let ⟨_, x, _⟩ := c; ⟨_, x⟩
  · have c := let x := (((h (regs [wH 1 0 4, 0x1234])).1 ⟨always, 1, 3⟩).1 (clear_of holds) holds holds holds holds holds); x.2 _ (x.1 (by simp))
    exact let ⟨_, x, _⟩ := c; ⟨_, x⟩
  · have c := let x := ((h (wPeer 5)).2 ⟨always, 1, 2, 3⟩).2.1 (clear_of holds) holds holds holds holds holds; x.2 _ (x.1 (by simp))
    exact let ⟨_, x, _⟩ := c; ⟨_, x⟩
  · have c := let x := (((h (regs [wH 0 5 4, 0x1234])).2 ⟨always, 1, 2, 3⟩).2.1 (clear_of holds) holds holds holds holds holds); x.2 _ (x.1 (by simp))
    exact let ⟨_, x, _⟩ := c; ⟨_, x⟩
  · have c := let x := (((h (regs [wH 0 5 5, 0x1234])).2 ⟨always, 1, 2, 3⟩).2.2.2.2.1 (clear_of holds) holds holds holds holds holds); x.2 _ (x.1 (by simp))
    exact let ⟨_, x, _⟩ := c; ⟨_, x⟩
  · have c := let x := (((h (regs [wH 0 5 5, 0x1234])).2 ⟨always, 1, 2, 3⟩).2.2.2.2.2.1 (clear_of holds) holds holds holds holds holds); x.2 _ (value_of holds)
    exact let ⟨_, x, _⟩ := c; ⟨_, x⟩
theorem witness_channelWordsLeave_2 (h : Obligations.ChannelWordsLeave) : goesOn (exec (.probe ⟨always, 1, 2, 3⟩) (regs [wH 0 5 5, 0x1234])) := by
  have c := let x := (((h (regs [wH 0 5 5, 0x1234])).2 ⟨always, 1, 2, 3⟩).2.2.2.2.2.2 (clear_of holds) holds holds holds holds holds); x.2 _ (x.1 (by simp))
  exact let ⟨_, x, _⟩ := c; ⟨_, x⟩

def wMkch : State :=
  base (fun p => { p with r := p.r.setG 2 (BitVec.ofNat 64 (0x2000 + 1 * 2 ^ 14 + 3 * 2 ^ 5 + 4 * 2 ^ 40 + 100 * 2 ^ 48 + 1 * 2 ^ 33)) })
    (fun k => { k with eps := [(0, { Endpoint.free with state := 1 }), (1, Endpoint.free)] })
def wFullTable : State := wMkch.modCore 0 (fun k => { k with eps := (List.range 512).map (fun i => (i, { Endpoint.free with state := 1 })) })
def wMark : Mark := { state := 1, gen := 1, holder := wMe, lend := 8, lender := .core 3, src := scratchAddr 3 0x800, tile := 15, n := 4, tsize := 64, ty := 0x4060,
                      pristine := true, spentAt := 0, va := 0xF00000000003C0, via := [15, 16], pending := 0, pulling := [] }
def wAlt (sel : Word) (buf : List Word) : State := { base (fun p => { p with buf := buf, r := (p.r.setG 1 0xF0000000000400).setG 2 sel }) (fun k => k) with dtime := 60 }
theorem witness_mkchMakesPair (h : Obligations.MkchMakesPair) : 
    goesOn (exec (.mkch ⟨always, 4, 2, 0⟩) (wMkch)) ∧
    goesOn (exec (.mkch ⟨always, 4, 2, 0⟩) (wFullTable)) := by
  refine ⟨?_, ?_⟩
  · have c := (h ⟨always, 4, 2, 0⟩ wMkch 1 (clear_of holds) holds holds holds holds holds holds holds holds holds holds holds).1 holds holds (by intro j hj; interval_cases j; decide +kernel) holds
    exact let ⟨_, x, _⟩ := c; ⟨_, x⟩
  · have c := (h ⟨always, 4, 2, 0⟩ wFullTable 0 (clear_of holds) holds holds holds holds holds holds holds holds holds holds holds).2 holds
    exact let ⟨_, _, x, _⟩ := c; ⟨_, x⟩
theorem witness_pullOneTile (h : Obligations.PullOneTile) : 
    goesOn (exec (.pull ⟨always, 1, 2, 0⟩) (wTag 0 [] [] [])) ∧
    goesOn (exec (.pull ⟨always, 1, 2, 0⟩) (wTag 1 [(16, .full)] [] [])) ∧
    goesOn (exec (.pull ⟨always, 1, 2, 0⟩) (wTag 1 [(16, .via)] [] [(2, wMark)])) := by
  refine ⟨?_, ?_, ?_⟩
  · have c := (h ⟨always, 1, 2, 0⟩ (wTag 0 [] [] []) wTagPa (Under.plain 0 127) 0 16 (clear_of holds)).1 holds
    exact ⟨_, c⟩
  · have c := ((h ⟨always, 1, 2, 0⟩ (wTag 1 [(16, .full)] [] []) wTagPa (Under.plain 0 127) 0 16 (clear_of holds)).2 holds holds holds holds holds ⟨holds, holds, holds⟩ holds holds holds).1 holds
    exact let ⟨_, x, _⟩ := c; ⟨_, x⟩
  · have c := ((h ⟨always, 1, 2, 0⟩ (wTag 1 [(16, .via)] [] [(2, wMark)]) wTagPa (Under.plain 0 127) 0 16 (clear_of holds)).2 holds holds holds holds holds ⟨holds, holds, holds⟩ holds holds holds).2 2 wMark holds holds
    exact let ⟨_, x, _⟩ := c; ⟨_, x⟩
theorem witness_altTakesReadyGuard (h : Obligations.AltTakesReadyGuard) : 
    goesOn (exec (.alt ⟨always, 1, 2, 0⟩) (wAlt 0x3 [3, 900, 3, 50, 3, 10])) ∧
    goesOn (exec (.altf ⟨always, 1, 2, 0⟩) (wAlt 0x23 [3, 900, 3, 50, 3, 100])) := by
  refine ⟨?_, ?_⟩
  · have c := (h ⟨always, 1, 2, 0⟩ (wAlt 0x3 [3, 900, 3, 50, 3, 10]) 3 0 1 1 (going_of holds) holds holds holds holds holds holds holds holds holds holds holds holds holds holds holds (by intro k hk; interval_cases k; decide +kernel)).1 holds
    exact let ⟨_, x, _⟩ := c; ⟨_, x⟩
  · have c := (h ⟨always, 1, 2, 0⟩ (wAlt 0x23 [3, 900, 3, 50, 3, 100]) 3 2 1 2 (going_of holds) holds holds holds holds holds holds holds holds holds holds holds holds holds holds holds (by intro k hk; interval_cases k <;> decide +kernel)).2
    exact let ⟨_, x, _⟩ := c; ⟨_, x⟩

def wOp : ChanOp := ⟨0, wMe, 0, 0, 0, 0, 0, Under.none, 0, true, none, .core 0, 0, none, false, false, [], false, 0, [], false⟩
def wSend : ChanOp := { wOp with id := 7, op := 7, form := 4, handle := wH 0 0 4, val := 0x1234 }
def wRecv : ChanOp := { wOp with id := 8, op := 8, form := 5, handle := wH 0 0 5 }
def wEnd : Endpoint := { Endpoint.free with state := 2, owner := wMe, maker := wMe }
/-- Slots 4 and 5 of core 0 are a bound pair. -/
def wPair (f : Endpoint → Endpoint) (outs : List OutOp) (net : List Msg) (xs : List Xfer) : State :=
  { base (fun p => { p with outs := outs }) (fun k => { k with eps := [(4, f wEnd), (5, wEnd)] }) with net := net, xfers := xs, nextId := 20 }
def wXfer : Xfer := { id := 12, core := 0, slot := 4, send := some wSend, recv := some wRecv, src := 0, dst := 0, n := 0, tile := 0, read := 0, done := 0, ringSlot := none,
                      mark := none, promoted := false, data := [], prior := [] }
/-- The message of a send and of a receive. -/
def wSendMsg (o : ChanOp) : Msg := ⟨30, .core 0, .core 0, .chanSend 0 o, none, false⟩
def wRecvMsg (o : ChanOp) : Msg := ⟨30, .core 0, .core 0, .chanRecv 0 o, none, false⟩
def wSendFirst : State := wPair id [wOut 7 .none] [wSendMsg wSend] []
def wRecvMeets : State := wPair (fun e => { e with pair := .sw, waiting := some wSend }) [wOut 7 .none, wOut 8 (.g 5 8 false)] [wRecvMsg wRecv] []
def wAtEnd : State := wPair (fun e => { e with pair := .xfer }) [wOut 8 (.g 5 8 false)] [] [wXfer]
theorem witness_rendezvousOfAWord (h : Obligations.RendezvousOfAWord) : 
    goesOn (exec (.channelSendArrive 30) (wSendFirst)) ∧
    goesOn (exec (.channelReceiveArrive 30) (wRecvMeets)) ∧
    goesOn (exec (.transferFinish 0 4) (wAtEnd)) := by
  refine ⟨?_, ?_, ?_⟩
  · have c := h.1 wSendFirst 30 0 4 wSend (wSendMsg wSend) holds holds holds holds holds holds holds holds holds holds holds holds holds holds holds holds
    exact let ⟨_, x, _⟩ := c; ⟨_, x⟩
  · have c := h.2.1 wRecvMeets 30 0 4 wRecv wSend (wRecvMsg wRecv) holds holds holds holds holds holds holds holds holds holds holds holds holds holds holds holds holds holds holds holds holds holds holds holds holds holds holds holds
    exact let ⟨_, _, x, _⟩ := c; ⟨_, x⟩
  · have c := h.2.2 wAtEnd wXfer wSend wRecv 0 4 (wOut 8 (.g 5 8 false)) 5 holds holds holds holds holds holds holds holds holds holds holds holds holds holds holds holds holds holds holds holds holds holds
    exact let ⟨_, x, _⟩ := c; ⟨_, x⟩

def wLate : ChanOp := { wSend with limit := 100, arrived := some 5 }
def wLateEnd : Endpoint := { wEnd with waiting := some wLate, pair := .sw }
def wLateCore : Core := { Core.reset with slots := [0], partition := 2, eps := [(4, wLateEnd)] }
def wTimeout : State := { State.reset with cores := [(0, wLateCore)], procs := [(0, { Proc.reset with outs := [wOut 7 .none], state := .blocked })], dtime := 200 }
def wTimerRecv : ChanOp := { wRecv with handle := handleOf 2 127 0 3 0 1 }
def wTimer : State := { base (fun p => { p with outs := [wOut 8 (.g 5 8 false)] }) id with
  dtime := 200, units := [(3, { UnitSlot.free with unit := 10, kind := 2, state := 2, deadline := some 150, waiting := some wTimerRecv })] }
/-- An ALT of two guards that waits in its window. -/
def wMulti : Multi := ⟨7, 1, 0, [2, 0, 0, 3, 150], 0, []⟩
def wAltWait (slots : List Nat) : State := { base (fun p => { p with state := .blocked, why := 2, multi := some wMulti, outs := [wOut 7 (.g 5 8 false)] }) (fun k => { k with slots := slots }) with dtime := 200 }
def wUnbind : State := { wPair id [] [⟨30, .core 0, .core 0, .unbind 0 4 wMe 0, none, false⟩] [] with nextId := 40 }
theorem witness_channelTimeRows (h : Obligations.ChannelTimeRows) : 
    goesOn (exec (.channelTimeoutExpire 0 0) (wTimeout)) ∧
    goesOn (exec (.timerDeadlineExpire 3) (wTimer)) ∧
    goesOn (exec (.altDeadlineExpire 0 0) (wAltWait [0])) ∧
    goesOn (exec (.altDeadlineExpire 0 0) (wAltWait [])) ∧
    goesOn (exec (.unbindRequest 30) (wUnbind)) := by
  refine ⟨?_, ?_, ?_, ?_, ?_⟩
  · have c := h.1 wTimeout 0 4 0 0 wLateEnd wLate wLateCore (wOut 7 .none) holds holds holds holds holds holds holds holds holds holds
    exact let ⟨_, x, _⟩ := c; ⟨_, x⟩
  · have c := h.2.1 wTimer 3 150 wTimerRecv 5 (wOut 8 (.g 5 8 false)) holds holds holds holds holds holds holds holds holds holds holds holds holds holds
    exact let ⟨_, x, _⟩ := c; ⟨_, x⟩
  · have c := h.2.2.1 (wAltWait [0]) 0 0 wMulti holds holds holds holds holds holds ⟨1, holds⟩
    exact let ⟨_, x, _⟩ := c; ⟨_, x⟩
  · have c := h.2.2.1 (wAltWait []) 0 0 wMulti holds holds holds holds holds holds ⟨1, holds⟩
    exact let ⟨_, x, _⟩ := c; ⟨_, x⟩
  · have c := h.2.2.2 wUnbind 30 0 4 wMe 0 (.core 0) (.core 0) false holds holds holds holds holds holds holds
    exact let ⟨_, x, _⟩ := c; ⟨_, x⟩

/-- An AMOSWAP at IOEPNEW: kind, unit and address space of the operand (R139). -/
def wIoVal (k u : Nat) : Word := BitVec.ofNat 64 (k * 2 ^ 60 + u * 2 ^ 56 + 4 * 2 ^ 50)
def wIoReq (k u : Nat) : Req := ⟨30, .core 0, wMe, 9, .mmio 1, .amo (127 * 2 ^ 45 + 0x18000010000) 8 (wIoVal k u) 0 true, 0, Under.none, false, false, none, 0, 0, false, false⟩
def wIo (k u : Nat) : State := { base id id with net := [⟨30, .core 0, .mmio 1, .req (wIoReq k u), none, false⟩], units := [(0, { UnitSlot.free with state := 1 })], nextId := 40 }
def wEp (n cap : Nat) (ty : BitVec 16) : UnitSlot := { UnitSlot.free with unit := n, kind := 1, state := 2, cap := cap, ty := ty, inq := [[1, 2]], outq := [[3], [4]] }
def wUnits (u : UnitSlot) : State := { base id id with units := [(3, u)] }
theorem witness_unitRows_1 (h : Obligations.UnitRows) : 
    goesOn (exec (.ioepnewEndpoint 30) (wIo 1 9)) ∧
    goesOn (exec (.ioepnewTimer 30) (wIo 2 10)) ∧
    goesOn (exec (.hostQueueMessage 3 (some [5, 6])) (wUnits (wEp 0 2 0))) ∧
    goesOn (exec (.hostQueueMessage 3 none) (wUnits (wEp 0 2 0))) ∧
    goesOn (exec (.ethernetFrameReceive 1 [5, 6]) (wUnits (wEp 2 2 0x4000))) ∧
    goesOn (exec (.ethernetFrameReceive 1 [5, 6]) (wUnits (wEp 2 1 0x4000))) := by
  refine ⟨?_, ?_, ?_, ?_, ?_, ?_⟩
  · have c := (h.1 (wIo 1 9) 30 (127 * 2 ^ 45 + 0x18000010000) 1 (wIoVal 1 9) 0 (wIoReq 1 9) (.core 0) (.mmio 1) false holds holds holds holds holds holds holds holds holds holds (by intro j hj; interval_cases j; decide +kernel) holds 0 rfl).1 holds holds holds
    exact let ⟨_, x, _⟩ := c; ⟨_, x⟩
  · have c := (h.1 (wIo 2 10) 30 (127 * 2 ^ 45 + 0x18000010000) 1 (wIoVal 2 10) 0 (wIoReq 2 10) (.core 0) (.mmio 1) false holds holds holds holds holds holds holds holds holds holds (by intro j hj; interval_cases j; decide +kernel) holds 0 rfl).2 holds holds holds
    exact let ⟨_, x, _⟩ := c; ⟨_, x⟩
  · have c := (h.2 (wUnits (wEp 0 2 0)) 3 (wEp 0 2 0) holds holds holds holds holds).1 [5, 6] holds holds
    exact let ⟨_, x, _⟩ := c; ⟨_, x⟩
  · have c := (h.2 (wUnits (wEp 0 2 0)) 3 (wEp 0 2 0) holds holds holds holds holds).2.1 holds
    exact let ⟨_, x, _⟩ := c; ⟨_, x⟩
  · have c := (h.2 (wUnits (wEp 2 2 0x4000)) 3 (wEp 2 2 0x4000) holds holds holds holds holds).2.2.1 1 [5, 6] holds holds holds holds
    exact let ⟨_, x, _⟩ := c; ⟨_, x⟩
  · have c := (h.2 (wUnits (wEp 2 1 0x4000)) 3 (wEp 2 1 0x4000) holds holds holds holds holds).2.2.2.1 1 [5, 6] holds holds holds
    exact ⟨_, c⟩
theorem witness_unitRows_2 (h : Obligations.UnitRows) : goesOn (exec (.ethernetFrameTransmit 1) (wUnits (wEp 6 1 0x4000))) := by
  have c := (h.2 (wUnits (wEp 6 1 0x4000)) 3 (wEp 6 1 0x4000) holds holds holds holds holds).2.2.2.2 1 holds holds
  exact let ⟨_, x, _⟩ := c; ⟨_, x⟩

/-- The control registers of process 0 as given. -/
def wCtl (f : Ctl → Ctl) : State := base (fun p => { p with r := { p.r with ctl := f p.r.ctl } }) id
theorem witness_systemWords_1 (h : Obligations.SystemWords) : 
    goesOn (exec (.nop always) (regs [])) ∧
    goesOn (exec (.trapret always) (wCtl (fun c => { c with inh := true, trappc := 0x444 }))) ∧
    goesOn (exec (.halt always) (regs [])) ∧
    goesOn (exec (.yield always) (regs [])) ∧
    goesOn (exec (.yield always) (base id (fun k => { k with queues := [[], [4], [], []] }))) ∧
    goesOn (exec (.trap ⟨always, 7⟩) (wCtl (fun c => { c with trapv := 0x888 }))) := by
  refine ⟨?_, ?_, ?_, ?_, ?_, ?_⟩
  · have c := ((h (regs [])).1 always).1 (clear_of holds)
    exact ⟨_, c.1⟩
  · have c := (((h (wCtl (fun c => { c with inh := true, trappc := 0x444 }))).1 always).1 (clear_of holds)).2 holds
    exact let ⟨_, x, _⟩ := c; ⟨_, x⟩
  · have c := ((h (regs [])).1 always).2.1 (clear_of holds)
    exact let ⟨_, x, _⟩ := c; ⟨_, x⟩
  · have c := (((h (regs [])).1 always).2.2 (clear_of holds)).1 holds
    exact ⟨_, c⟩
  · have c := (((h (base id (fun k => { k with queues := [[], [4], [], []] }))).1 always).2.2 (clear_of holds)).2 holds holds
    exact let ⟨_, x, _⟩ := c; ⟨_, x⟩
  · have c := (h (wCtl (fun c => { c with trapv := 0x888 }))).2.1 ⟨always, 7⟩ (clear_of holds) holds holds
    exact let ⟨_, x, _⟩ := c; ⟨_, x⟩
theorem witness_systemWords_2 (h : Obligations.SystemWords) : 
    goesOn (exec (.prio ⟨always, 4, 1⟩) (regs [3])) ∧
    goesOn (exec (.sleep ⟨always, 1⟩) (regs [0])) ∧
    goesOn (exec (.sleep ⟨always, 1⟩) (regs [3])) ∧
    goesOn (exec (.whoami ⟨always, 1, 0⟩) (regs [])) ∧
    goesOn (exec (.whoami ⟨always, 1, 1⟩) (regs [])) ∧
    goesOn (exec (.whoami ⟨always, 1, 2⟩) (regs [])) := by
  refine ⟨?_, ?_, ?_, ?_, ?_, ?_⟩
  · have c := (h (regs [3])).2.2.1 ⟨always, 4, 1⟩ (clear_of holds) holds holds
    exact ⟨_, c⟩
  · have c := ((h (regs [0])).2.2.2.1 ⟨always, 1⟩ (clear_of holds)).1 holds
    exact ⟨_, c⟩
  · have c := ((h (regs [3])).2.2.2.1 ⟨always, 1⟩ (clear_of holds)).2 holds
    exact ⟨_, c⟩
  · have c := ((h (regs [])).2.2.2.2.1 ⟨always, 1, 0⟩ (clear_of holds)).1 holds
    exact ⟨_, c⟩
  · have c := ((h (regs [])).2.2.2.2.1 ⟨always, 1, 1⟩ (clear_of holds)).2.1 holds
    exact ⟨_, c⟩
  · have c := ((h (regs [])).2.2.2.2.1 ⟨always, 1, 2⟩ (clear_of holds)).2.2 holds
    exact ⟨_, c⟩
theorem witness_systemWords_3 (h : Obligations.SystemWords) : 
    goesOn (exec (.pget ⟨always, 4⟩) (regs [])) ∧
    goesOn (exec (.pset ⟨always, 1⟩) (regs [0x1234A5])) := by
  refine ⟨?_, ?_⟩
  · have c := (h (regs [])).2.2.2.2.2.1 ⟨always, 4⟩ (clear_of holds)
    exact let ⟨_, x, _⟩ := c; ⟨_, x⟩
  · have c := (h (regs [0x1234A5])).2.2.2.2.2.2 ⟨always, 1⟩ (clear_of holds)
    exact let ⟨_, x, _⟩ := c; ⟨_, x⟩

/-- g1 names a process of module 5, for PGNOTE. -/
def wNoted : State := { wPeer 5 with procs := (regs [BitVec.ofNat 64 (5 * 2 ^ 19 + 3)]).procs }
def wUser0 : State := (regs [1, 2, 3]).modProc 0 (fun p => { p with priv := false })
theorem witness_controlRegisters_1 (h : Obligations.ControlRegisters) : 
    goesOn (exec (.ctlr ⟨always, 1, 0⟩) (regs [3])) ∧
    goesOn (exec (.ctlr ⟨always, 1, 1⟩) (regs [3])) ∧
    goesOn (exec (.ctlr ⟨always, 1, 0x3F⟩) (regs [3])) ∧
    goesOn (exec (.ctlr ⟨always, 1, 0x40⟩) (wUser0)) ∧
    goesOn (exec (.ctlr ⟨always, 1, 0x134⟩) (regs [3])) ∧
    goesOn (exec (.ctlr ⟨always, 1, 0x1BF⟩) (regs [3])) := by
  refine ⟨?_, ?_, ?_, ?_, ?_, ?_⟩
  · have c := ((h ⟨always, 1, 0⟩ (regs [3])).1 (clear_of holds)).1 holds
    exact ⟨_, c⟩
  · have c := ((h ⟨always, 1, 1⟩ (regs [3])).1 (clear_of holds)).2.2.2.2.2.2.2.2.2.2.2.2.2.2.2.2.2.1 holds
    exact ⟨_, c⟩
  · have c := ((h ⟨always, 1, 0x3F⟩ (regs [3])).1 (clear_of holds)).2.2.2.2.2.2.2.2.2.2.2.2.2.2.2.2.2.2.1 holds holds
    exact ⟨_, c⟩
  · have c := ((h ⟨always, 1, 0x40⟩ (wUser0)).1 (clear_of holds)).2.2.2.2.2.2.2.2.2.2.2.2.2.2.2.2.2.2.2.1 holds holds
    exact ⟨_, c⟩
  · have c := (((h ⟨always, 1, 0x134⟩ (regs [3])).1 (clear_of holds)).2.2.2.2.2.2.2.2.2.2.2.2.2.2.2.2.2.2.2.2 holds holds).1
    exact ⟨_, c⟩
  · have c := (((h ⟨always, 1, 0x1BF⟩ (regs [3])).1 (clear_of holds)).2.2.2.2.2.2.2.2.2.2.2.2.2.2.2.2.2.2.2.2 holds holds).2.2.2.2.2.2.2.2.2.2.2.2.2.2.1 63 holds |>.1 holds
    exact ⟨_, c⟩
theorem witness_controlRegisters_2 (h : Obligations.ControlRegisters) : 
    goesOn (exec (.ctlw ⟨always, 1, 0x12⟩) (regs [0x63])) ∧
    goesOn (exec (.ctlw ⟨always, 1, 0x10⟩) (wUser0)) ∧
    goesOn (exec (.ctlw ⟨always, 1, 0⟩) (regs [0x63])) ∧
    goesOn (exec (.ctlw ⟨always, 1, 8⟩) (regs [0x63])) ∧
    goesOn (exec (.ctlw ⟨always, 1, 2⟩) (regs [3])) ∧
    goesOn (exec (.ctlw ⟨always, 1, 4⟩) (regs [3])) := by
  refine ⟨?_, ?_, ?_, ?_, ?_, ?_⟩
  · have c := ((h ⟨always, 1, 0x12⟩ (regs [0x63])).2 (clear_of holds)).1 holds holds
    exact ⟨_, c⟩
  · have c := ((h ⟨always, 1, 0x10⟩ (wUser0)).2 (clear_of holds)).2.1 holds holds
    exact ⟨_, c⟩
  · have c := ((h ⟨always, 1, 0⟩ (regs [0x63])).2 (clear_of holds)).2.2.1 holds
    exact let ⟨_, x, _⟩ := c; ⟨_, x⟩
  · have c := ((h ⟨always, 1, 8⟩ (regs [0x63])).2 (clear_of holds)).2.2.2.1 holds
    exact ⟨_, c⟩
  · have c := ((h ⟨always, 1, 2⟩ (regs [3])).2 (clear_of holds)).2.2.2.2.1 holds holds holds
    exact ⟨_, c⟩
  · have c := ((h ⟨always, 1, 4⟩ (regs [3])).2 (clear_of holds)).2.2.2.2.2.1 holds
    exact ⟨_, c⟩
theorem witness_controlRegisters_3 (h : Obligations.ControlRegisters) : 
    goesOn (exec (.ctlw ⟨always, 1, 0x10⟩) (regs [3])) ∧
    goesOn (exec (.ctlw ⟨always, 1, 0x110⟩) (regs [3])) ∧
    goesOn (exec (.ctlw ⟨always, 1, 0x23F⟩) (regs [3])) ∧
    goesOn (exec (.ctlw ⟨always, 1, 0x150⟩) (wNoted)) := by
  refine ⟨?_, ?_, ?_, ?_⟩
  · have c := ((h ⟨always, 1, 0x10⟩ (regs [3])).2 (clear_of holds)).2.2.2.2.2.2.2.2.2.2.2.2.2.2.2.1 holds holds
    exact ⟨_, c⟩
  · have c := (((h ⟨always, 1, 0x110⟩ (regs [3])).2 (clear_of holds)).2.2.2.2.2.2.2.2.2.2.2.2.2.2.2.2.2.1 holds holds holds holds).1
    exact ⟨_, c⟩
  · have c := (((h ⟨always, 1, 0x23F⟩ (regs [3])).2 (clear_of holds)).2.2.2.2.2.2.2.2.2.2.2.2.2.2.2.2.2.1 holds holds holds holds).1
    exact ⟨_, c⟩
  · have c := ((h ⟨always, 1, 0x150⟩ (wNoted)).2 (clear_of holds)).2.2.2.2.2.2.2.2.2.2.2.2.2.2.2.2.2.2 holds holds holds 5 holds
    exact let ⟨_, x, _⟩ := c; ⟨_, x⟩

/-- The physical address of an HBM address of the module after reset. -/
def wPa (la : Nat) : Nat := 127 * 2 ^ 45 + la
/-- A child's record: NEED 0, its own core (R280, R290). -/
def wRecord : List Word := [0x100 + 1 * 2 ^ 62, 2 ^ 26, 11, 12, 13, 14, 15, 16]
def wSpawn : State := (regs [0xF0000000000040, 2]).modProc 0 (fun p => { p with buf := wRecord })
def wExit : State := (regs []).modProc 0 (fun p => { p with unacked := [⟨3, .host, false, 0⟩] })
def wRepart : State := (regs [1, 5]).modProc 0 (fun p => { p with r := { p.r with g := p.r.g.set 40 9 } })
/-- g1 asks for the invalidation of one address space. -/
def wInv : State := regs [2 ^ 62 + 5 * 2 ^ 56 + 0x20000]
def wShoot (b : Bool) : Shootdown := ⟨8, 1, 5, 0x20000, [], [], none, b, 127, none, 0⟩
def wInv2 (b : Bool) : State := { wInv.modProc 0 (fun p => { p with prog := 9 }) with shoots := [wShoot b] }
def wQ0 (logsize : Nat) : Word := BitVec.ofNat 64 (logsize + 0x5000)
def wQ1 (owner : Nat) : Word := BitVec.ofNat 64 (7 * 2 ^ 32 + 3 * 2 ^ 24 + 2 * 2 ^ 14 + 9 * 2 ^ 8 + owner * 2 ^ 2)
def wQarm (logsize owner : Nat) : State := (regs [0x10040, 5]).modProc 0 (fun p => { p with buf := [wQ0 logsize, wQ1 owner], seen := [(wPa 0x10040, wHbm)] })
def wCkpt (prog : Nat) (seen : List (Nat × Under)) : State := (regs [0x10040]).modProc 0 (fun p => { p with prog := prog, seen := seen })
/-- The translation of each 64 bytes of the image, of which the last is looked at. -/
def wSeen : List (Nat × Under) := List.replicate 15 (0, Under.none) ++ [(wPa (0x10040 + 8 * 120), wHbm)]
def wRestore : State := (regs [0x10040]).modProc 0 (fun p => { p with
  priv := false, buf := (List.range 128).flatMap (fun i => [if i = 0 then 5 else BitVec.ofNat 64 (0x1000 + i), 0]) })
/-- The request of process word 33 of module 5 that a stream is frozen at. -/
def wAsks : Req := { wIoReq 1 9 with who := 33, src := .remote 5 1, rop := .load 0x10000 8 false false }
def wHead : Header := ⟨5, 0, 1, 33, some 2, 77, 0, 0x20000, 8, 0, 0⟩
def wFrozen : Msg := ⟨3, .remote 5 1, .mmio 0, .req wAsks, some wHead, false⟩
/-- A region of guests' key 77. -/
def wRegion (base : Nat) : Region := ⟨BitVec.ofNat 64 base, 0x1000000, BitVec.ofNat 64 (77 * 2 ^ 32 + 0x109)⟩
def wStream (v : Nat) (f : Option Msg) : State :=
  { regs [BitVec.ofNat 64 v, 5] with streamsIn := [⟨33, 3, [], f, true⟩], regions := [(0, wRegion 0x20000)], peers := [(5, ⟨true, false, 1, 0, true, true⟩)] }
/-- Module 5 is there, and the stream of the process to it is frozen. -/
def wFrost : State := { wPeer 5 with streamsOut := [⟨wMe, 5, 0, true⟩] }
/-- No region for the request, or one of another key. -/
def wKeyless : State := { wStream 33 (some wFrozen) with regions := [(0, wRegion 0x30000)] }
def wWrongKey : State := { wStream 33 (some wFrozen) with regions := [(0, ⟨0x20000, 0x1000000, BitVec.ofNat 64 (78 * 2 ^ 32 + 0x109)⟩)] }
theorem witness_processWords_1 (h : Obligations.ProcessWords) : 
    goesOn (exec (.spawn ⟨always, 3, 1⟩) (wSpawn)) ∧
    goesOn (exec (.exit always) (wExit)) ∧
    goesOn (exec (.exit always) (regs [])) ∧
    goesOn (exec (.exit always) (wFrost)) ∧
    goesOn (exec (.repart ⟨always, 1⟩) (wRepart)) ∧
    goesOn (exec (.tlbinv ⟨always, 1⟩) (wInv)) := by
  refine ⟨?_, ?_, ?_, ?_, ?_, ?_⟩
  · have c := (h wSpawn).1 ⟨always, 3, 1⟩ 0 (going_of holds) holds holds holds holds holds
    exact let ⟨_, _, _, x, _⟩ := c; ⟨_, x⟩
  · have c := ((h wExit).2.1 always (clear_of holds) holds holds holds).1 ⟨_, List.mem_singleton.2 rfl⟩
    exact let ⟨_, x, _⟩ := c; ⟨_, x⟩
  · have c := (((h (regs [])).2.1 always (clear_of holds) holds holds holds).2 holds holds holds holds holds).1 holds
    exact let ⟨_, x, _⟩ := c; ⟨_, x⟩
  · have c := (((h wFrost).2.1 always (clear_of holds) holds holds holds).2 holds holds holds holds holds).2 5 holds holds holds
    exact let ⟨_, x, _⟩ := c; ⟨_, x⟩
  · have c := (h wRepart).2.2.1 ⟨always, 1⟩ (clear_of holds) holds holds holds holds
    exact let ⟨_, x, _⟩ := c; ⟨_, x⟩
  · have c := ((h wInv).2.2.2.1 ⟨always, 1⟩ holds holds).1 (clear_of holds)
    exact let ⟨_, _, x, _⟩ := c; ⟨_, x⟩
theorem witness_processWords_2 (h : Obligations.ProcessWords) : 
    goesOn (exec (.tlbinv ⟨always, 1⟩) (wInv2 false)) ∧
    goesOn (exec (.tlbinv ⟨always, 1⟩) (wInv2 true)) ∧
    goesOn (exec (.qarm ⟨always, 2, 1⟩) (regs [0x10040, 5])) ∧
    goesOn (exec (.qarm ⟨always, 2, 1⟩) (wQarm 0 9)) ∧
    goesOn (exec (.qarm ⟨always, 2, 1⟩) (wQarm 12 9)) ∧
    goesOn (exec (.qarm ⟨always, 2, 1⟩) (wQarm 20 8)) := by
  refine ⟨?_, ?_, ?_, ?_, ?_, ?_⟩
  · have c := (((h (wInv2 false)).2.2.2.1 ⟨always, 1⟩ holds holds).2 (wShoot false) (going_of holds) rfl holds).1 rfl
    exact ⟨_, c⟩
  · have c := (((h (wInv2 true)).2.2.2.1 ⟨always, 1⟩ holds holds).2 (wShoot true) (going_of holds) rfl holds).2 rfl
    exact ⟨_, c⟩
  · have c := ((h (regs [0x10040, 5])).2.2.2.2.1 ⟨always, 2, 1⟩ (wPa 0x10040) wHbm 0 0 holds).1 (clear_of holds) holds holds holds holds holds holds
    exact let ⟨_, x, _⟩ := c; ⟨_, x⟩
  · have c := (((h (wQarm 0 9)).2.2.2.2.1 ⟨always, 2, 1⟩ (wPa 0x10040) wHbm (wQ0 0) (wQ1 9) holds).2 (going_of holds) holds holds).1 holds
    exact let ⟨_, x, _⟩ := c; ⟨_, x.1⟩
  · have c := (((h (wQarm 12 9)).2.2.2.2.1 ⟨always, 2, 1⟩ (wPa 0x10040) wHbm (wQ0 12) (wQ1 9) holds).2 (going_of holds) holds holds).2 holds holds holds holds holds |>.1 holds
    exact let ⟨_, x, _⟩ := c; ⟨_, x.1⟩
  · have c := (((h (wQarm 20 8)).2.2.2.2.1 ⟨always, 2, 1⟩ (wPa 0x10040) wHbm (wQ0 20) (wQ1 8) holds).2 (going_of holds) holds holds).2 holds holds holds holds holds |>.2 holds holds
    exact let ⟨_, x, _⟩ := c; ⟨_, x.1⟩
theorem witness_processWords_3 (h : Obligations.ProcessWords) : 
    goesOn (exec (.ckptSave ⟨always, 1⟩) (wCkpt 0 [])) ∧
    goesOn (exec (.ckptSave ⟨always, 1⟩) (wCkpt 127 wSeen)) ∧
    goesOn (exec (.ckptRestore ⟨always, 1⟩) (wRestore)) ∧
    goesOn (exec (.streamres ⟨always, 2, 1⟩) (wStream 33 none)) ∧
    goesOn (exec (.streamres ⟨always, 2, 1⟩) (wStream 33 (some wFrozen))) ∧
    goesOn (exec (.streamres ⟨always, 2, 1⟩) (wStream (33 + 2 ^ 26) (some wFrozen))) := by
  refine ⟨?_, ?_, ?_, ?_, ?_, ?_⟩
  · have c := ((h (wCkpt 0 [])).2.2.2.2.2.1 ⟨always, 1⟩ (wPa 0x10040) wHbm).1 (clear_of holds) holds holds holds holds holds holds holds holds
    exact let ⟨_, x, _⟩ := c; ⟨_, x⟩
  · have c := ((h (wCkpt 127 wSeen)).2.2.2.2.2.1 ⟨always, 1⟩ (wPa (0x10040 + 8 * 120)) wHbm).2 (going_of holds) holds holds holds holds holds
    exact let ⟨_, x, _⟩ := c; ⟨_, x⟩
  · have c := (h wRestore).2.2.2.2.2.2.1 ⟨always, 1⟩ (going_of holds) holds holds holds holds holds
    exact let ⟨_, x, _⟩ := c; ⟨_, x⟩
  · have c := ((h (wStream 33 none)).2.2.2.2.2.2.2 ⟨always, 2, 1⟩ (clear_of holds) holds).1 holds
    exact ⟨_, c⟩
  · have c := ((h (wStream 33 (some wFrozen))).2.2.2.2.2.2.2 ⟨always, 2, 1⟩ (clear_of holds) holds).2 wFrozen wHead wAsks holds holds holds holds |>.1 holds holds
    exact let ⟨_, x, _⟩ := c; ⟨_, x⟩
  · have c := ((h (wStream (33 + 2 ^ 26) (some wFrozen))).2.2.2.2.2.2.2 ⟨always, 2, 1⟩ (clear_of holds) holds).2 wFrozen wHead wAsks holds holds holds holds |>.2.2 5 1 0x10000 8 false false holds holds |>.1 holds
    exact let ⟨_, x, _⟩ := c; ⟨_, x⟩
theorem witness_processWords_4 (h : Obligations.ProcessWords) : 
    goesOn (exec (.streamres ⟨always, 2, 1⟩) (wKeyless)) ∧
    goesOn (exec (.streamres ⟨always, 2, 1⟩) (wWrongKey)) := by
  refine ⟨?_, ?_⟩
  · have c := ((h wKeyless).2.2.2.2.2.2.2 ⟨always, 2, 1⟩ (clear_of holds) holds).2 wFrozen wHead wAsks holds holds holds holds |>.2.1 .page holds holds
    exact ⟨_, c⟩
  · have c := ((h wWrongKey).2.2.2.2.2.2.2 ⟨always, 2, 1⟩ (clear_of holds) holds).2 wFrozen wHead wAsks holds holds holds holds |>.2.2 5 1 0x10000 8 false false holds holds |>.2 holds holds
    exact let ⟨_, x, _⟩ := c; ⟨_, x⟩

/-- Tile 16 of core 3. -/
def wSa : Nat := scratchAddr 3 0x400
/-- One message, number 7; migration is off; core 3 has the tags given. -/
def wHome (from_ : Src) (to_ : Home) (b : Body) (tags : Table Tag) : State :=
  { State.reset with
    net := [⟨7, from_, to_, b, none, false⟩], nextId := 50, dies := (List.range 4).map (fun d => (d, { Die.reset with migEn := false }))
    cores := [(0, { Core.reset with slots := [0] }), (3, { Core.reset with tags := tags })], mem := [⟨wSa, 0x85⟩, ⟨wSa + 7, 0x95⟩] }
def wReq (home : Home) (rop : ROp) (released : Bool) : Req := ⟨7, .core 0, wMe, 7, home, rop, 0, Under.none, false, false, none, 0, 0, released, false⟩
def wAsk (rop : ROp) (released : Bool) (tags : Table Tag) : State := wHome (.core 0) (.core 3) (.req (wReq (.core 3) rop released)) tags
def wLoad : ROp := .load (wPa (wSa + 32)) 64 true true
def wStore (stx stl : Bool) : ROp := .store (wPa wSa) 8 (storeWrites wSa 8 0x1122334455667788) stx stl
def wAmo (f : Nat) (ret : Bool) : ROp := .amo (wPa wSa) f 5 0 ret
def wClaim : ROp := .claim 3 16 (.piece 127 0 1 2)
def wRetry : State := { wHome (.core 3) (.core 0) (.retry (wReq (.core 3) wClaim false) 0) [] with dtime := 10000 }
def wPush : State := wHome (.core 3) (.core 0) (.push 3 16 (List.replicate 64 5) (.pull 8)) [(16, .pending)]
def wLend (out : Nat) : Lend := ⟨8, wMe, wSa, 64, 9, out, true, false⟩
def wLends (b : Body) (tag : Tag) (out : Nat) : State := (wHome (.core 1) (.core 3) b [(16, tag)]).modCore 3 (fun c => { c with lends := [wLend out] })
def wBulk : Bulk := ⟨.piece 127 0 4 2, wPa wSa, 64, wPa (scratchAddr 3 0x800), false, false, Under.none⟩
def wPiece : Piece := ⟨2, 0, 0, 0, 0, 3, wBulk.dst, wBulk.src, Under.none, Under.none, .empty, false⟩
def wCopy3 : Copy := ⟨4, 0, 1, 0, 0, 3, 0, 0, 0, 0, [], true, wMe, 127, 0, 3, 3, [wPiece], false⟩
/-- A merge of 9 for DRAIN operation 5 of process 0. -/
def wMerge : Body := .absmax (wPa wSa) 9 0 5 6 7 8 9 Under.none
def wStreamer : State := (wHome (.core 0) (.core 3) (.stream wBulk) [(16, .full)]).modCore 0 (fun c => { c with copyq := [wCopy3] })
theorem witness_homesPerform_1 (h : Obligations.HomesPerform) : 
    goesOn (exec (.loadPerform 7) (wAsk wLoad false [(16, .full), (17, .full)])) ∧
    goesOn (exec (.storePerform 7) (wAsk (wStore false true) true [(16, .full)])) ∧
    goesOn (exec (.storePerform 7) (wAsk (wStore true false) false [])) ∧
    goesOn (exec (.amoPerform 7) (wAsk (wAmo 0 true) false [(16, .full)])) ∧
    goesOn (exec (.amoPerform 7) (wAsk (wAmo 9 false) false [(16, .full)])) ∧
    goesOn (exec (.arrivalClaim 7) (wAsk wClaim false [])) := by
  refine ⟨?_, ?_, ?_, ?_, ?_, ?_⟩
  · have c := ((h (wAsk wLoad false [(16, .full), (17, .full)]) 7 (.core 0) (.core 3) false holds holds holds holds holds).1 (wReq (.core 3) wLoad false) 0 holds holds holds holds holds).1 _ _ _ _ rfl holds holds holds
    exact let ⟨_, _, _, x, _⟩ := c; ⟨_, x⟩
  · have c := ((h (wAsk (wStore false true) true [(16, .full)]) 7 (.core 0) (.core 3) false holds holds holds holds holds).1 (wReq (.core 3) (wStore false true) true) 0 holds holds holds holds holds).2.1 _ _ _ _ rfl holds holds
    exact let ⟨_, _, x, _⟩ := c; ⟨_, x⟩
  · have c := ((h (wAsk (wStore true false) false []) 7 (.core 0) (.core 3) false holds holds holds holds holds).1 (wReq (.core 3) (wStore true false) false) 0 holds holds holds holds holds).2.2.1 _ _ _ 3 16 rfl holds holds
    exact let ⟨_, _, x, _⟩ := c; ⟨_, x⟩
  · have c := ((h (wAsk (wAmo 0 true) false [(16, .full)]) 7 (.core 0) (.core 3) false holds holds holds holds holds).1 (wReq (.core 3) (wAmo 0 true) false) 0 holds holds holds holds holds).2.2.2.1 _ _ _ _ _ rfl holds holds
    exact let ⟨_, _, x, _⟩ := c; ⟨_, x⟩
  · have c := ((h (wAsk (wAmo 9 false) false [(16, .full)]) 7 (.core 0) (.core 3) false holds holds holds holds holds).1 (wReq (.core 3) (wAmo 9 false) false) 0 holds holds holds holds holds).2.2.2.1 _ _ _ _ _ rfl holds holds
    exact let ⟨_, _, x, _⟩ := c; ⟨_, x⟩
  · have c := ((h (wAsk wClaim false []) 7 (.core 0) (.core 3) false holds holds holds holds holds).1 (wReq (.core 3) wClaim false) 0 holds holds holds holds holds).2.2.2.2 3 16 127 0 1 2 rfl holds
    exact let ⟨_, x, _⟩ := c; ⟨_, x⟩
theorem witness_homesPerform_2 (h : Obligations.HomesPerform) : 
    goesOn (exec (.absmaxMerge 7) (wHome (.core 0) (.core 3) wMerge [(16, .full)])) ∧
    goesOn (exec (.parkRetry 7) (wRetry)) ∧
    goesOn (exec (.arrivalComplete 7) (wPush)) ∧
    goesOn (exec (.pullRead 7) (wLends (.pullRead 8 wSa 1 20 9) .full 1)) ∧
    goesOn (exec (.lendReleaseMessage 7) (wLends (.lendRelease 8 1 true) .lent 2)) ∧
    goesOn (exec (.lendReleaseMessage 7) (wLends (.lendRelease 8 2 true) .lent 2)) := by
  refine ⟨?_, ?_, ?_, ?_, ?_, ?_⟩
  · have c := (h (wHome (.core 0) (.core 3) wMerge [(16, .full)]) 7 (.core 0) (.core 3) false holds holds holds holds holds).2.1 (wPa wSa) 9 0 5 6 7 8 9 Under.none holds holds
    exact let ⟨_, x, _⟩ := c; ⟨_, x⟩
  · have c := (h wRetry 7 (.core 3) (.core 0) false holds holds holds holds holds).2.2.1 (wReq (.core 3) wClaim false) 0 rfl (fun _ => nofun) holds
    exact ⟨_, c⟩
  · have c := (h wPush 7 (.core 3) (.core 0) false holds holds holds holds holds).2.2.2.1 3 16 _ 8 rfl holds holds
    exact let ⟨_, x, _⟩ := c; ⟨_, x⟩
  · have c := (h (wLends (.pullRead 8 wSa 1 20 9) .full 1) 7 (.core 1) (.core 3) false holds holds holds holds holds).2.2.2.2.1 8 _ 1 20 9 (wLend 1) 1 rfl holds holds
    exact ⟨_, c⟩
  · have c := ((h (wLends (.lendRelease 8 1 true) .lent 2) 7 (.core 1) (.core 3) false holds holds holds holds holds).2.2.2.2.2.1 8 3 1 true (wLend 2) rfl holds holds holds holds).1 holds
    exact let ⟨_, x, _⟩ := c; ⟨_, x⟩
  · have c := ((h (wLends (.lendRelease 8 2 true) .lent 2) 7 (.core 1) (.core 3) false holds holds holds holds holds).2.2.2.2.2.1 8 3 2 true (wLend 2) rfl holds holds holds holds).2 holds 3 16 holds holds
    exact let ⟨_, x, _⟩ := c; ⟨_, x⟩
theorem witness_homesPerform_3 (h : Obligations.HomesPerform) : 
    goesOn (exec (.relink 7) (wLends (.relink 8 12) .lent 1)) ∧
    goesOn (exec (.streamerRead 7) (wStreamer)) := by
  refine ⟨?_, ?_⟩
  · have c := (h (wLends (.relink 8 12) .lent 1) 7 (.core 1) (.core 3) false holds holds holds holds holds).2.2.2.2.2.2.1 8 3 12 (wLend 1) rfl holds holds
    exact let ⟨_, x, _⟩ := c; ⟨_, x⟩
  · have c := (h wStreamer 7 (.core 0) (.core 3) false holds holds holds holds holds).2.2.2.2.2.2.2 wBulk 127 0 4 2 3 0x800 holds holds holds holds holds holds holds holds holds holds
    exact let ⟨_, x, _⟩ := c; ⟨_, x⟩

/-- Message 7 for core 0, where process 0 runs. -/
def wReply (b : Body) (p : Proc → Proc) : State :=
  { ({ State.reset with cores := [(0, { Core.reset with slots := [0] })] } : State).modProc 0 (fun q => p { q with state := .running, pc := 0x300 }) with
    net := [⟨7, .core 3, .core 0, b, none, false⟩], nextId := 50 }
def wVals : State := wReply (.answer 0 5 (.vals [0xF0F1F2F3F4F5F6F7F8F9FAFBFCFDFEFF])) (fun p => { p with outs := [wOut 5 (.g 9 1 true)] })
def wTrapped : State := wReply (.answer 0 5 (.trap ⟨.page, 5, 0, 2⟩)) (fun p => { p with outs := [wOut 5 (.g 9 8 false)] })
def wAcked (b : Body) : State := wReply b (fun p => { p with unacked := [⟨4, .host, false, 0⟩, ⟨5, .core 3, false, wSa⟩] })
/-- An older store of the process is for another module. -/
def wAway : State := wReply (.promote 0 5 33) (fun p => { p with unacked := [⟨4, .remote 9, false, 0⟩, ⟨5, .core 3, false, wSa⟩] })
def wWaits : Req := ⟨7, .core 0, wMe, 5, .core 0, .load (wPa wSa) 8 false true, 0x123, Under.none, false, false, some 0, 0, 100, false, false⟩
def wLimit : State := { wReply (.ack 0 5) (fun p => { p with outs := [wOut 5 (.g 9 8 false)] }) with net := [], held := [wWaits], dtime := 10000000 }
def wStl : Req := { wWaits with id := 9, home := .core 3, rop := wStore false true }
def wPromoted : State :=
  { wAcked (.promoted 9) with held := [wStl], cores := [(0, { Core.reset with slots := [0] }), (3, { Core.reset with tags := [(16, .full)] })] }
def wFroze : State := { wReply (.frozenNotice wMe 5) id with streamsOut := [⟨wMe, 5, 8, false⟩] }
def wPacket (seq : Nat) : Packet := ⟨3, 5, true, 0, 2, 2, 0, ⟨3, 0, 1, wMe, some seq, 0, 0, 0, 0, 0, 0⟩, .ack 0 0⟩
def wResume : State := { wReply (.resume wMe 5 6) id with streamsOut := [⟨wMe, 5, 8, true⟩], sent := [wPacket 5, wPacket 6] }
theorem witness_coreReplies_1 (h : Obligations.CoreReplies) : 
    goesOn (exec (.loadComplete 7) (wVals)) ∧
    goesOn (exec (.loadComplete 7) (wTrapped)) ∧
    goesOn (exec (.storeAcknowledge 7) (wAcked (.ack 0 5))) ∧
    goesOn (exec (.holdNotice 7) (wAcked (.hold 0 5 77))) ∧
    goesOn (exec (.syncLimitExpire 7) (wLimit)) ∧
    goesOn (exec (.watchEventMessage 7) (wReply (.watchEvent wMe) id)) := by
  refine ⟨?_, ?_, ?_, ?_, ?_, ?_⟩
  · have c := ((h wVals 7 (.core 3) (.core 0) false).1 0 5 holds).1 0xF0F1F2F3F4F5F6F7F8F9FAFBFCFDFEFF (wOut 5 (.g 9 1 true)) 9 1 true holds holds holds holds holds holds holds holds holds
    exact let ⟨_, x, _⟩ := c; ⟨_, x⟩
  · have c := ((h wTrapped 7 (.core 3) (.core 0) false).1 0 5 holds).2.1 ⟨.page, 5, 0, 2⟩ (wOut 5 (.g 9 8 false)) holds holds holds holds
    exact let ⟨_, x, _⟩ := c; ⟨_, x⟩
  · have c := ((h (wAcked (.ack 0 5)) 7 (.core 3) (.core 0) false).1 0 5 holds).2.2.1 holds holds
    exact let ⟨_, x, _⟩ := c; ⟨_, x⟩
  · have c := ((h (wAcked (.hold 0 5 77)) 7 (.core 3) (.core 0) false).1 0 5 holds).2.2.2 77 holds holds holds holds
    exact let ⟨_, x, _⟩ := c; ⟨_, x⟩
  · have c := (h wLimit 7 (.core 3) (.core 0) false).2.1 wWaits 0 0 holds holds holds holds holds holds holds holds
    exact let ⟨_, x, _⟩ := c; ⟨_, x⟩
  · have c := (h (wReply (.watchEvent wMe) id) 7 (.core 3) (.core 0) false).2.2.1 wMe 0 holds holds
    exact let ⟨_, x, _⟩ := c; ⟨_, x⟩
theorem witness_coreReplies_2 (h : Obligations.CoreReplies) : 
    goesOn (exec (.promotionNotice 7) (wReply (.promote 0 5 33) id)) ∧
    goesOn (exec (.promotionNotice 7) (wAcked (.promote 0 5 33))) ∧
    goesOn (exec (.promotionNotice 7) (wAway)) ∧
    goesOn (exec (.promotedRelease 7) (wPromoted)) ∧
    goesOn (exec (.frozenNotice 7) (wFroze)) ∧
    goesOn (exec (.resumeMessage 7) (wResume)) := by
  refine ⟨?_, ?_, ?_, ?_, ?_, ?_⟩
  · have c := ((h (wReply (.promote 0 5 33) id) 7 (.core 3) (.core 0) false).2.2.2.1 0 5 33 3 holds).2 (fun u hu => by rw [show ((wReply (.promote 0 5 33) id).proc 0).unacked = [] by decide +kernel] at hu; cases hu) (fun u hu => by rw [show ((wReply (.promote 0 5 33) id).proc 0).unacked = [] by decide +kernel] at hu; cases hu)
    exact ⟨_, c⟩
  · have c := (((h (wAcked (.promote 0 5 33)) 7 (.core 3) (.core 0) false).2.2.2.1 0 5 33 3 holds).1 [⟨4, .host, false, 0⟩] ⟨5, .core 3, false, wSa⟩ [] holds holds holds).1 (fun x hx m => by cases List.mem_singleton.1 hx; exact nofun)
    exact ⟨_, c⟩
  · have c := (((h wAway 7 (.core 3) (.core 0) false).2.2.2.1 0 5 33 3 holds).1 [⟨4, .remote 9, false, 0⟩] ⟨5, .core 3, false, wSa⟩ [] holds holds holds).2 ⟨_, List.mem_singleton.2 rfl, 9, rfl⟩
    exact ⟨_, c⟩
  · have c := (h wPromoted 7 (.core 3) (.core 0) false).2.2.2.2.1 wStl (wPa wSa) 8 (storeWrites wSa 8 0x1122334455667788) 0 holds holds holds holds holds holds holds holds holds
    exact let ⟨_, x, _⟩ := c; ⟨_, x⟩
  · have c := (h wFroze 7 (.core 3) (.core 0) false).2.2.2.2.2.1 wMe 5 holds
    exact let ⟨_, x, _⟩ := c; ⟨_, x⟩
  · have c := (h wResume 7 (.core 3) (.core 0) false).2.2.2.2.2.2 wMe 5 6 holds
    exact let ⟨_, x, _⟩ := c; ⟨_, x⟩

/-- Tables of four levels for one page of address space 3 (R62). -/
def wVa : Nat := 5 * 2 ^ 43 + 6 * 2 ^ 30 + 7 * 2 ^ 21 + 8 * 2 ^ 16 + 0x123
def wTables (fl : Nat) : Memory :=
  (((Memory.writeN [] (0x100000 + 5 * 8) 8 (wPa 0x200000 + 3)).writeN (0x200000 + 6 * 8) 8 (wPa 0x301000 + 3)).writeN (0x301000 + 7 * 8) 8 (wPa 0x302100 + 3)).writeN
    (0x302100 + 8 * 8) 8 (wPa 0x500000 + fl)
def wLook : Walk := ⟨9, 2, 3, 127, 0, none, wVa, none⟩
def wWalk (fl : Nat) : State :=
  { State.reset with mem := wTables fl, dies := [(0, { Die.reset with asroot := [(3, BitVec.ofNat 64 (wPa 0x100000 + 1))] })], walks := [wLook] }
def wCtx : Ctx := ⟨2, 3, true, 127, [], 0, none, none⟩
def wSd (acked : List Nat) : Shootdown := ⟨9, 0, 3, 0x20000, acked, [0, 2], none, false, 127, none, 0⟩
def wTlb (va : Nat) : TlbEntry := ⟨3, 127, false, va, 65536, wPa 0, true, true, true, true, 0, 0⟩
def wShoots (acked : List Nat) : State :=
  { State.reset with shoots := [wSd acked], cores := [(0, { Core.reset with tlb := [wTlb 0x20000, wTlb 0x30000] }), (2, Core.reset)] }
def wMig (stage : Nat) : Migration := ⟨8, 0x500000, 0x600000, 1, 2, wPa 0x302140, BitVec.ofNat 64 (wPa 0x500000 + 189), stage⟩
def wMigs (stage fl : Nat) (net : List Msg) : State := { State.reset with mem := wTables fl, migs := [wMig stage], net := net, nextId := 40 }
def wEndMark : List Msg := [⟨7, .scarab 0, .scarab 5, .endMarker 8, none, false⟩]
/-- The walk that process 515 asked for. -/
def wAsked : State := { wWalk 0 with walks := [{ wLook with by_ := some 515 }] }
/-- The same for a migration whose leaf has been rewritten. -/
def wMigrates : State := { wMigs 1 189 [] with shoots := [{ wSd [2, 0] with migration := some 8 }] }
theorem witness_translationRows_1 (h : Obligations.TranslationRows) : 
    goesOn (exec (.pageWalk 9) (wWalk 61)) ∧
    goesOn (exec (.pageWalk 9) (wWalk 0)) ∧
    goesOn (exec (.pageWalk 9) (wAsked)) ∧
    goesOn (exec (.shootdownAcknowledge 9 0) (wShoots [])) ∧
    goesOn (exec (.shootdownComplete 9) (wShoots [2, 0])) ∧
    goesOn (exec (.shootdownComplete 9) (wMigrates)) := by
  refine ⟨?_, ?_, ?_, ?_, ?_, ?_⟩
  · have c := (h.2.1 (wWalk 61) wLook holds holds).1 _ (h.1 (wWalk 61) wCtx wVa (wPa 0x100000) (wPa 0x200000) (wPa 0x301000) (wPa 0x302100) (wPa 0x500000) 61 holds holds holds holds holds holds holds holds holds holds holds holds holds holds holds)
    exact let ⟨_, x, _⟩ := c; ⟨_, x⟩
  · have c := ((h.2.1 (wWalk 0) wLook holds holds).2 .page 0 holds).1 holds
    exact ⟨_, c⟩
  · have c := ((h.2.1 wAsked { wLook with by_ := some 515 } holds holds).2 .page 0 holds).2 515 holds
    exact let ⟨_, x, _⟩ := c; ⟨_, x⟩
  · have c := (h.2.2.1 (wShoots []) (wSd []) 0 holds).1 holds holds holds holds holds holds holds holds holds holds holds
    exact let ⟨_, x, _⟩ := c; ⟨_, x⟩
  · have c := ((h.2.2.1 (wShoots [2, 0]) (wSd [2, 0]) 0 holds).2 holds holds).1 holds
    exact ⟨_, c⟩
  · have c := ((h.2.2.1 wMigrates { wSd [2, 0] with migration := some 8 } 0 holds).2 holds holds).2 (wMig 1) holds holds
    exact let ⟨_, _, x, _⟩ := c; ⟨_, x⟩
theorem witness_translationRows_2 (h : Obligations.TranslationRows) : 
    goesOn (exec (.migrationCopyDone 8) (wMigs 0 189 [])) ∧
    goesOn (exec (.migrationCopyDone 8) (wMigs 0 188 [])) ∧
    goesOn (exec (.endMarker 7) (wMigs 2 189 wEndMark)) := by
  refine ⟨?_, ?_, ?_⟩
  · have c := (h.2.2.2.1 (wMigs 0 189 []) (wMig 0) holds holds holds holds).1 holds holds holds holds holds holds holds holds holds holds
    exact let ⟨_, _, x, _⟩ := c; ⟨_, x⟩
  · have c := (h.2.2.2.1 (wMigs 0 188 []) (wMig 0) holds holds holds holds).2.1 holds holds
    exact let ⟨_, x, _⟩ := c; ⟨_, x⟩
  · have c := (h.2.2.2.1 (wMigs 2 189 wEndMark) (wMig 2) holds holds holds holds).2.2 7 (.scarab 0) (.scarab 5) false holds
    exact let ⟨_, x, _⟩ := c; ⟨_, x⟩

/-- Core 2 with the processes given, at DTIME 100,000. -/
def wCore (f : Core → Core) (ps : Table Proc) : State := { State.reset with cores := [(2, f Core.reset)], procs := ps, nextId := 50, dtime := 100000 }
def wRun (f : Proc → Proc) : Proc := f { Proc.reset with state := .running }
def wEnds : State := wCore (fun c => { c with slots := [5], freePids := [1, 2] }) [(517, wRun (fun p => { p with ending := 2 }))]
def wSleeps : State := wCore (fun c => { c with slots := [5] }) [(517, wRun (fun p => { p with state := .sleeping, wait := 500 }))]
def wChild (free : List Nat) : State :=
  { wCore (fun c => { c with slots := [4], freePids := free }) [(516, wRun (fun p => { p with outs := [wOut 5 (.g 9 8 false)] }))] with
    net := [⟨7, .core 2, .core 2, .spawn 2 wRecord 516 5 3 false, none, false⟩] }
def wInbox : Inbox := ⟨wRecord, false, 1, 33, []⟩
def wTask : State := wCore (fun c => { c with inbox := [(3, wInbox)], freePids := [5, 6], taskFirst := 100, taskCount := 4, pool := [0] }) []
/-- Process 5 waits in queue 1; n slots are taken by processes in a state, of a priority, with words issued. -/
def wSlots (n issued : Nat) (st : PState) (prio : Nat) : State :=
  wCore (fun c => { c with partition := 2, slots := (List.range n).map (· + 10), queues := [[], [5], [], []] })
    ([(517, wRun (fun p => { p with state := .ready, prio := 1, save := 80 }))] ++
      (List.range n).map (fun i => (522 + i, wRun (fun p => { p with state := st, prio := prio, issuedRes := issued, save := 160 + 80 * i, since := i, resSince := i }))))
def wHold : State := wCore (fun c => { c with slots := [3, 4] }) [(515, wRun (fun p => { p with priv := true })), (516, wRun id)]
/-- CORECTL.HOLD is set and a process without privilege is resident. -/
def wPutOut : State := wCore (fun c => { c with slots := [4], hold := true }) [(516, wRun id)]
def wHalts (b : Bool) : State := { wCore id [] with cores := [(387, { Core.reset with halting := b, halted := !b })] }
theorem witness_processRows_1 (h : Obligations.ProcessRows) : 
    goesOn (exec (.exitComplete 2 5) (wEnds)) ∧
    goesOn (exec (.sleepExpire 2 5) (wSleeps)) ∧
    goesOn (exec (.spawnChildCreate 7) (wChild [5, 6])) ∧
    goesOn (exec (.spawnChildCreate 7) (wChild [])) ∧
    goesOn (exec (.taskStart 2 3) (wTask)) ∧
    goesOn (exec (.contextSwitch 2) (wSlots 2 0 .running 0)) := by
  refine ⟨?_, ?_, ?_, ?_, ?_, ?_⟩
  · have c := (h.1 wEnds 2 5 holds).1 holds holds holds holds holds holds holds
    exact let ⟨_, x, _⟩ := c; ⟨_, x⟩
  · have c := (h.1 wSleeps 2 5 holds).2.1 holds holds holds
    exact let ⟨_, x, _⟩ := c; ⟨_, x⟩
  · have c := ((h.1 (wChild [5, 6]) 2 5 holds).2.2.1 7 (.core 2) (.core 2) wRecord 5 516 3 false false (wOut 5 (.g 9 8 false)) 9 holds holds).1 [6] holds holds holds holds holds holds holds holds holds
    exact let ⟨_, x, _⟩ := c; ⟨_, x⟩
  · have c := ((h.1 (wChild []) 2 5 holds).2.2.1 7 (.core 2) (.core 2) wRecord 5 516 3 false false (wOut 5 (.g 9 8 false)) 9 holds holds).2 holds holds
    exact let ⟨_, x, _⟩ := c; ⟨_, x⟩
  · have c := (h.1 wTask 2 5 holds).2.2.2 3 wInbox [6] 1 holds holds holds holds holds holds holds
    exact let ⟨_, x, _⟩ := c; ⟨_, x⟩
  · have c := (h.2.1 (wSlots 2 0 .running 0) 2 1 517 517 holds holds holds holds).1 holds holds
    exact let ⟨_, x, _⟩ := c; ⟨_, x⟩
theorem witness_processRows_2 (h : Obligations.ProcessRows) : 
    goesOn (exec (.contextSwitch 2) (wSlots 8 0 .running 0)) ∧
    goesOn (exec (.blockedWaitLimit 2) (wSlots 8 0 .blocked 1)) ∧
    goesOn (exec (.sliceRotation 2) (wSlots 8 4096 .running 1)) ∧
    goesOn (exec (.corectlHold 2 1) (wHold)) ∧
    goesOn (exec (.contextSwitch 2) (wPutOut)) ∧
    goesOn (exec (.coreHalted 387) (wHalts true)) := by
  refine ⟨?_, ?_, ?_, ?_, ?_, ?_⟩
  · have c := (h.2.1 (wSlots 8 0 .running 0) 2 2 522 517 holds holds holds holds).1 holds holds
    exact let ⟨_, x, _⟩ := c; ⟨_, x⟩
  · have c := (h.2.1 (wSlots 8 0 .blocked 1) 2 3 522 517 holds holds holds holds).2.1 holds
    exact let ⟨_, x, _⟩ := c; ⟨_, x⟩
  · have c := (h.2.1 (wSlots 8 4096 .running 1) 2 4 522 517 holds holds holds holds).2.2 holds
    exact let ⟨_, x, _⟩ := c; ⟨_, x⟩
  · have c := h.2.2.1 wHold 2 1 holds
    exact let ⟨_, x, _⟩ := c; ⟨_, x⟩
  · have c := (h.2.2.2.1 wPutOut 2 4 holds holds holds holds holds holds).2
    exact let ⟨_, x, _⟩ := c; ⟨_, x⟩
  · have c := h.2.2.2.2.1 (wHalts true) 387 holds
    exact let ⟨_, x, _⟩ := c; ⟨_, x⟩
theorem witness_processRows_3 (h : Obligations.ProcessRows) : 
    goesOn (exec (.haltCommand 1 0x800) (wHalts true)) ∧
    goesOn (exec (.resumeCommand 1 0x403) (wHalts false)) := by
  refine ⟨?_, ?_⟩
  · have c := (h.2.2.2.2.2 (wHalts true) 1 3 0x800 holds holds).1 holds holds
    exact let ⟨_, x, _⟩ := c; ⟨_, x⟩
  · have c := (h.2.2.2.2.2 (wHalts false) 1 3 0x403 holds holds).2 holds
    exact let ⟨_, x, _⟩ := c; ⟨_, x⟩

/-- Die 1 as given, at DTIME 5 ms. -/
def wDie (f : Die → Die) : State := { State.reset with dies := [(1, f Die.reset)], nextId := 40, dtime := 5000000 }
def wRec5 : Record := [5 * 2 ^ 56, 1, 2, 3]
def wPost : State := wDie (fun d => { d with posting := [wRec5, [1]], queue := [[3]] })
def wDeliver (vec : Table Word) : State := wDie (fun d => { d with evEn := true, queue := [wRec5, [1]], evvec := vec })
def wStuck : Proc := { Proc.reset with state := .blocked, asid := 3, wait := BitVec.ofNat 64 (4 * 2 ^ 60 + 5), r := { Regs.start with ctl := { Ctl.start with trapv := 0x800 } } }
def wProbe : State := { wDie id with procs := [(102405, wStuck)], modid := 3 }
def wBatch : State :=
  { wDie id with procs := [(102405, { wStuck with why := 5, pc := 0x104, batch := some (0x33, 0x5678) })], modid := 3, cores := [(400, { Core.reset with slots := [5] })] }
/-- PGNOTE for that process and SEQ 0x33. -/
def wNote (a : Nat) : Word := BitVec.ofNat 64 (a * 2 ^ 62 + 0x33 * 2 ^ 26 + wProbe.originWord 102405)
theorem witness_eventRows_1 (h : Obligations.EventRows) : 
    goesOn (exec (.eventRecordPost 1) (wPost)) ∧
    goesOn (exec (.eventRecordDeliver 1) (wDeliver [])) ∧
    goesOn (exec (.eventRecordDeliver 1) (wDeliver [(5, 0x400)])) ∧
    goesOn (exec (.deadlockProbe 1) (wDie (fun d => { d with dlWait := 0 }))) ∧
    goesOn (exec (.deadlockProbe 1) (wProbe)) ∧
    goesOn (exec (.pgnoteResume 1 (wNote 0)) (wBatch)) := by
  refine ⟨?_, ?_, ?_, ?_, ?_, ?_⟩
  · have c := (h.1 wPost 1 wRec5 [[1]]).1 holds holds
    exact ⟨_, c⟩
  · have c := (h.1 (wDeliver []) 1 wRec5 [[1]]).2.1 holds holds holds holds
    exact ⟨_, c⟩
  · have c := (h.1 (wDeliver [(5, 0x400)]) 1 wRec5 [[1]]).2.2 holds holds holds holds
    exact let ⟨_, _, x, _⟩ := c; ⟨_, x⟩
  · have c := h.2.1 (wDie (fun d => { d with dlWait := 0 })) 1 holds
    exact ⟨_, c⟩
  · have c := h.2.2.1 wProbe 102405 wStuck holds holds holds holds holds holds holds holds holds holds holds holds holds holds holds
    exact let ⟨_, _, x, _⟩ := c; ⟨_, x⟩
  · have c := (h.2.2.2.1 wBatch 1 102405 0x33 0x5678 (wNote 0) holds holds holds holds holds holds holds holds holds holds).1 holds
    exact let ⟨_, x, _⟩ := c; ⟨_, x⟩
theorem witness_eventRows_2 (h : Obligations.EventRows) : 
    goesOn (exec (.pgnoteDeliverPage 1 (wNote 1)) (wBatch)) ∧
    goesOn (exec (.pgnoteDeliverProt 1 (wNote 2)) (wBatch)) := by
  refine ⟨?_, ?_⟩
  · have c := (h.2.2.2.1 wBatch 1 102405 0x33 0x5678 (wNote 1) holds holds holds holds holds holds holds holds holds holds).2.1 holds
    exact let ⟨_, x, _⟩ := c; ⟨_, x⟩
  · have c := (h.2.2.2.1 wBatch 1 102405 0x33 0x5678 (wNote 2) holds holds holds holds holds holds holds holds holds holds).2.2 holds
    exact let ⟨_, x, _⟩ := c; ⟨_, x⟩

/-- A request of module 5 for HBM of module 3, with a key. -/
def wGuestWord : Nat := 5 * 2 ^ 19 + 0x123
def wFetch : Req := ⟨3, .remote 5 0, wGuestWord, 44, .scarab 2, .load (3 * 2 ^ 45 + 0x20000) 8 false false, 0x9999, Under.none, false, false, none, 0, 0, false, false⟩
def wHeader (key : Nat) : Header := ⟨5, 0, 1, wGuestWord, some 0, BitVec.ofNat 32 key, 0, 0x20000, 8, 0, 0⟩
def wForeign (key : Nat) : Msg := ⟨7, .remote 5 0, .mmio 0, .req wFetch, some (wHeader key), false⟩
def wFabric (net : List Msg) (base : Nat) : State :=
  { State.reset with modid := 3, phase := 3, peers := [(5, ⟨true, false, 1, 0, true, true⟩)], regions := [(0, wRegion base)], net := net, nextId := 40, dtime := 100000
                     cores := [(2, { Core.reset with gsEn := true, slots := [3] })] }
def wIn (key base : Nat) : State := wFabric [wForeign key] base
def wTraveller : Travel := ⟨wGuestWord, 44, wGuestWord, 5, 0x800, 1, 0, 3, 0x1000000, false, false, Regs.start, [], [], [], 3 * 2 ^ 45 + scratchAddr 2 0x40⟩
def wTravHead : Header := { wHeader 77 with cls := 5, pa := scratchAddr 2 0x40 }
def wTravel : Msg := ⟨7, .remote 5 0, .core 2, .travel wTraveller, some wTravHead, false⟩
def wAdmit : State := wFabric [wTravel] (scratchAddr 2 0)
/-- The process word of process 3 of core 2 on module 3. -/
def wGone : Nat := ({ State.reset with modid := 3 } : State).originWord 515
def wGave : State := { wFabric [⟨7, .remote 5 0, .core 2, .travelAck wGone, none, false⟩] 0 with procs := [(515, { Proc.reset with state := .blocked, outs := [wOut 5 .none] })] }
def wLink (retraining : Bool) (fails : Nat) : Link := ⟨2, 5, true, 0, 0, fails, retraining, [(3, 1)], 10, 4, 5⟩
def wLinks (retraining : Bool) (fails : Nat) : State := { wFabric [] 0 with links := [wLink retraining fails] }
def wLost : Peer := ⟨true, true, 1, 0, true, true⟩
def wQuiesce : State := { wFabric [] 0 with peers := [(5, wLost)], procs := [(515, { Proc.reset with state := .running })], outbox := [wPacket 0, { wPacket 0 with target := 6 }] }
def wLaser (n : Nat) : State :=
  { wFabric [] 0 with outbox := [{ wPacket 0 with left := 0, port := 2 }], links := (List.range 9).map (fun i => { wLink false 0 with peer := i, tuned := decide (i < n ∧ i ≠ 5), used := i }) }
/-- Module 3 joins, or has joined, module 2; it is itself the time master of module 5. -/
def wJoined : State := { wFabric [] 0 with peers := [(2, ⟨true, false, 1, 0, true, true⟩)] }
def wStart : State := { wJoined with phase := 0 }
def wMaster : State := { wFabric [] 0 with phase := 1 }
/-- A packet of one flit that the last flit on the link carried. -/
def wResends : State := { wFabric [] 0 with links := [{ wLink false 3 with replay := [(3, 1)] }], sent := [{ wPacket 0 with left := 0 }] }
def wTokens : State :=
  { State.reset with dtime := 100000, dies := [(1, { Die.reset with asrate := [(3, BitVec.ofNat 64 (20 * 2 ^ 24 + 7))], tokens := [(3, 15)], refilled := [(3, 90000)] })] }
theorem witness_fabricRows_1 (h : Obligations.FabricRows) : 
    goesOn (exec (.causewayRequestReceive 7) (wIn 77 0x20000)) ∧
    goesOn (exec (.causewayRequestReceive 7) (wIn 78 0x20000)) ∧
    goesOn (exec (.causewayRequestReceive 7) (wIn 77 0x30000)) ∧
    goesOn (exec (.travelAdmit 7) (wAdmit)) ∧
    goesOn (exec (.travelAcknowledge 7) (wGave)) ∧
    goesOn (exec (.flitReceive 2 5 true 2 1) (wLinks false 3)) := by
  refine ⟨?_, ?_, ?_, ?_, ?_, ?_⟩
  · have c := ((h.1 (wIn 77 0x20000) 7 (wForeign 77) (wHeader 77) wFetch 5 0 (3 * 2 ^ 45 + 0x20000) 8 holds holds holds holds holds holds holds holds holds holds holds holds).1 (wRegion 0x20000) holds holds).1 holds holds
    exact let ⟨_, x, _⟩ := c; ⟨_, x⟩
  · have c := ((h.1 (wIn 78 0x20000) 7 (wForeign 78) (wHeader 78) wFetch 5 0 (3 * 2 ^ 45 + 0x20000) 8 holds holds holds holds holds holds holds holds holds holds holds holds).1 (wRegion 0x20000) holds holds).2 holds
    exact let ⟨_, x, _⟩ := c; ⟨_, x⟩
  · have c := (h.1 (wIn 77 0x30000) 7 (wForeign 77) (wHeader 77) wFetch 5 0 (3 * 2 ^ 45 + 0x20000) 8 holds holds holds holds holds holds holds holds holds holds holds holds).2 holds
    exact let ⟨_, x, _⟩ := c; ⟨_, x⟩
  · have c := h.2.1 wAdmit 7 2 0 wTravel wTravHead wTraveller holds holds holds holds holds holds holds holds holds holds
    exact let ⟨_, _, x, _⟩ := c; ⟨_, x⟩
  · have c := h.2.2.1 wGave 7 5 0 wGone (.core 2) false holds holds
    exact let ⟨_, x, _⟩ := c; ⟨_, x⟩
  · have c := (h.2.2.2.1 (wLinks false 3) (wLink false 3) true 2 1 holds).1 holds
    exact let ⟨_, x, _⟩ := c; ⟨_, x⟩
theorem witness_fabricRows_2 (h : Obligations.FabricRows) : 
    goesOn (exec (.flitReceive 2 5 false 2 1) (wLinks false 16)) ∧
    goesOn (exec (.flitReceive 2 5 false 2 1) (wResends)) ∧
    goesOn (exec (.linkRetrainComplete 2 5 true) (wLinks true 16)) ∧
    goesOn (exec (.fireflyPeerDownReport 5) (wLinks false 0)) ∧
    goesOn (exec (.linkSilenceTimeout 5) (wLinks false 0)) ∧
    goesOn (exec (.linkSilenceTimeout 5) ({ wLinks false 0 with dtime := 49999 })) := by
  refine ⟨?_, ?_, ?_, ?_, ?_, ?_⟩
  · have c := (h.2.2.2.1 (wLinks false 16) (wLink false 16) false 2 1 holds).1 holds
    exact let ⟨_, x, _⟩ := c; ⟨_, x⟩
  · have c := (h.2.2.2.1 wResends { wLink false 3 with replay := [(3, 1)] } false 2 1 holds).1 holds
    exact let ⟨_, x, _⟩ := c; ⟨_, x⟩
  · have c := (h.2.2.2.1 (wLinks true 16) (wLink true 16) true 2 1 holds).2 holds holds holds
    exact let ⟨_, x, _⟩ := c; ⟨_, x⟩
  · have c := (h.2.2.2.2.1 (wLinks false 0) 5 holds holds).1
    exact let ⟨_, x, _⟩ := c; ⟨_, x⟩
  · have c := (h.2.2.2.2.1 (wLinks false 0) 5 holds holds).2.1 holds
    exact let ⟨_, x, _⟩ := c; ⟨_, x⟩
  · have c := (h.2.2.2.2.1 { wLinks false 0 with dtime := 49999 } 5 holds holds).2.2 holds
    exact ⟨_, c⟩
theorem witness_fabricRows_3 (h : Obligations.FabricRows) : 
    goesOn (exec (.partitionQuiesce 5) (wQuiesce)) ∧
    goesOn (exec (.laserRetune 2 5) (wLaser 9)) ∧
    goesOn (exec (.laserRetune 2 5) (wLaser 3)) ∧
    goesOn (exec (.dtimeAlign 200000) (wMaster)) ∧
    goesOn (exec (.dtimeAlign 200000) (wStart)) ∧
    goesOn (exec (.dtimeAlign 100000) (wStart)) := by
  refine ⟨?_, ?_, ?_, ?_, ?_, ?_⟩
  · have c := h.2.2.2.2.2.1 wQuiesce 5 515 { Proc.reset with state := .running } wLost holds holds holds holds holds holds holds holds holds holds holds
    exact let ⟨_, x, _⟩ := c; ⟨_, x⟩
  · have c := h.2.2.2.2.2.2.1 (wLaser 9) 2 5 holds holds holds
    exact let ⟨_, x, _⟩ := c; ⟨_, x⟩
  · have c := h.2.2.2.2.2.2.1 (wLaser 3) 2 5 holds holds holds
    exact let ⟨_, x, _⟩ := c; ⟨_, x⟩
  · have c := (h.2.2.2.2.2.2.2.1 wMaster 200000).1 holds
    exact ⟨_, c⟩
  · have c := ((h.2.2.2.2.2.2.2.1 wStart 200000).2 holds holds).1 holds holds
    exact ⟨_, c⟩
  · have c := ((h.2.2.2.2.2.2.2.1 wStart 100000).2 holds holds).2.1 holds holds
    exact ⟨_, c⟩
theorem witness_fabricRows_4 (h : Obligations.FabricRows) : 
    goesOn (exec (.dtimeAlign 100000) (wJoined)) ∧
    goesOn (exec (.tokenBucketRefill 1 3) (wTokens)) ∧
    goesOn (exec (.rgnctlCommit 0x1234567890ABCDEF) (wFabric [] 0)) := by
  refine ⟨?_, ?_, ?_⟩
  · have c := ((h.2.2.2.2.2.2.2.1 wJoined 100000).2 holds holds).2.2 holds
    exact ⟨_, c⟩
  · have c := h.2.2.2.2.2.2.2.2.1 wTokens 1 3 holds holds
    exact let ⟨_, x, _⟩ := c; ⟨_, x⟩
  · have c := h.2.2.2.2.2.2.2.2.2 (wFabric [] 0) 0x1234567890ABCDEF
    exact let ⟨_, x, _⟩ := c; ⟨_, x⟩

/-- Queue 2 holds the dwords given at the end of its ring, which wraps (R318, R320). -/
def wQueue (wptr waiting : Nat) : Queue :=
  { Queue.reset with armed := true, qcb := 0x1000, base := 0x10000, logsize := 12, vec := 7, dies := 3, prioCap := 3, tenant := 9, owner := 9, rptr := 4088, wptr := wptr
                     waiting := waiting, target := 5 }
def wRing (ws : List Nat) : Memory := ws.zipIdx.foldl (fun (m : Memory) (e : Nat × Nat) => m.writeN (0x10000 + (4088 + 8 * e.2) % 4096) 8 e.1) []
def wHd (op len x : Nat) : Nat := op * 2 ^ 56 + len * 2 ^ 48 + x
def wHw (op len x : Nat) : Word := BitVec.ofNat 64 (wHd op len x)
def wLu (waiting : Nat) (ws : List Nat) : State :=
  { State.reset with mem := (wRing ws).writeN 0x20000 8 0x35, queues := [(2, wQueue ((4088 + 8 * ws.length) % 4096) waiting)], dies := [(0, { Die.reset with inService := true })], nextId := 40 }
def wLaunch : List Nat := [wHd 1 9 5, 1 * 2 ^ 62 + 3 * 2 ^ 50 + 0x400, 1, 2, 3, 4, 5, 6, 7]
def wWait (cond v : Nat) : List Nat := [wHd 2 4 cond, 0x20000, v, 0xFF]
def wBell (x : Nat) : State := { wLu 0 [] with mem := Memory.writeN [] 0x1010 8 x }
def wArm (d0 d1 : Word) : State := { State.reset with mem := (Memory.writeN [] 0x2000 8 d0.toNat).writeN 0x2008 8 d1.toNat }
def wReport : State := { State.reset with net := [⟨7, .core 0, .mmio 0, .exited 40, none, false⟩], flights := [⟨40, 0, 0, 0, [], none⟩, ⟨41, 0, 0, 0, [], none⟩] }
/-- Two LAUNCHes of one tenant that write the same 64 bytes: the one of queue 1 began to wait earlier. -/
def wAfter : State :=
  let s := wLu 3 [wHd 1 9 5, 1 * 2 ^ 62 + 1 * 2 ^ 57 + 0x400, 1, 2, 3, 4, 5, 6, 2 * 2 ^ 62 + 0x20000]
  { s with queues := [(1, { s.queue 2 with stamp := 4 }), (2, { s.queue 2 with stamp := 5 })] }
theorem witness_launchRows_1 (h : Obligations.LaunchRows) : 
    goesOn (exec (.nopPacket 2) (wLu 0 [wHd 9 2 0, 1])) ∧
    goesOn (exec (.nopPacket 2) (wLu 0 [wHd 0 2 0, 1])) ∧
    goesOn (exec (.launch 2) (wLu 0 wLaunch)) ∧
    goesOn (exec (.wait 2) (wLu 0 (wWait 2 0x35))) ∧
    goesOn (exec (.wait 2) (wLu 0 (wWait 3 0x35))) ∧
    goesOn (exec (.release 2) (wLu 0 [wHd 3 3 1, 0x20000, 77])) := by
  refine ⟨?_, ?_, ?_, ?_, ?_, ?_⟩
  · have c := (h.1 (wLu 0 [wHd 9 2 0, 1]) 2 0 holds holds holds).1 1 holds
    exact let ⟨_, x, _⟩ := c; ⟨_, x⟩
  · have c := ((h.1 (wLu 0 [wHd 0 2 0, 1]) 2 (wHw 0 2 0) holds holds holds).2 holds).1 holds
    exact let ⟨_, x, _⟩ := c; ⟨_, x⟩
  · have c := ((h.1 (wLu 0 wLaunch) 2 (wHw 1 9 5) holds holds holds).2 holds).2.1 holds 5 holds
    exact let ⟨_, x, _⟩ := c; ⟨_, x⟩
  · have c := (((h.1 (wLu 0 (wWait 2 0x35)) 2 (wHw 2 4 2) holds holds holds).2 holds).2.2.1 holds holds holds 0x35 holds).1 holds
    exact let ⟨_, x, _⟩ := c; ⟨_, x⟩
  · have c := (((h.1 (wLu 0 (wWait 3 0x35)) 2 (wHw 2 4 3) holds holds holds).2 holds).2.2.1 holds holds holds 0x35 holds).2 holds
    exact let ⟨_, x, _⟩ := c; ⟨_, x⟩
  · have c := ((h.1 (wLu 0 [wHd 3 3 1, 0x20000, 77]) 2 (wHw 3 3 1) holds holds holds).2 holds).2.2.2.1 holds holds holds
    exact let ⟨_, x, _⟩ := c; ⟨_, x⟩
theorem witness_launchRows_2 (h : Obligations.LaunchRows) : 
    goesOn (exec (.indirect 2) (wLu 0 [wHd 4 3 0, 0x20000, 80])) ∧
    goesOn (exec (.loop 2) (wLu 0 [wHd 5 1 0x302])) ∧
    goesOn (exec (.fetchfence 2) (wLu 0 [wHd 6 1 0])) ∧
    goesOn (exec (.waitPoll 2) (wLu 1 (wWait 0 0x35))) ∧
    goesOn (exec (.releasePerform 2) (wLu 2 [wHd 3 3 0, 0x20000, 77])) ∧
    goesOn (exec (.launchRecordWrite 2) (wLu 3 wLaunch)) := by
  refine ⟨?_, ?_, ?_, ?_, ?_, ?_⟩
  · have c := ((h.1 (wLu 0 [wHd 4 3 0, 0x20000, 80]) 2 (wHw 4 3 0) holds holds holds).2 holds).2.2.2.2.1 holds holds holds holds holds
    exact let ⟨_, x, _⟩ := c; ⟨_, x⟩
  · have c := ((h.1 (wLu 0 [wHd 5 1 0x302]) 2 (wHw 5 1 0x302) holds holds holds).2 holds).2.2.2.2.2.1 holds
    exact let ⟨_, x, _⟩ := c; ⟨_, x⟩
  · have c := ((h.1 (wLu 0 [wHd 6 1 0]) 2 (wHw 6 1 0) holds holds holds).2 holds).2.2.2.2.2.2 holds
    exact let ⟨_, x, _⟩ := c; ⟨_, x⟩
  · have c := (h.2.1 (wLu 1 (wWait 0 0x35)) 2 holds holds).1 holds 0x35 holds holds holds
    exact let ⟨_, x, _⟩ := c; ⟨_, x⟩
  · have c := (h.2.1 (wLu 2 [wHd 3 3 0, 0x20000, 77]) 2 holds holds).2.1 holds holds holds holds
    exact let ⟨_, x, _⟩ := c; ⟨_, x⟩
  · have c := (h.2.1 (wLu 3 wLaunch) 2 holds holds).2.2.1 0 [1, 2, 3, 4, 5, 6, 7] holds holds holds holds holds holds
    exact let ⟨_, _, _, x, _⟩ := c; ⟨_, x⟩
theorem witness_launchRows_3 (h : Obligations.LaunchRows) : 
    goesOn (exec (.launchRecordWrite 2) (wAfter)) ∧
    goesOn (exec (.doorbell 2) (wBell 4088)) ∧
    goesOn (exec (.doorbell 2) (wBell 4096)) ∧
    goesOn (exec (.luarm 0x0200000000002000) (wArm (wQ0 0) (wQ1 9))) ∧
    goesOn (exec (.luarm 0x0200000000002000) (wArm (wQ0 12) (wQ1 9))) ∧
    goesOn (exec (.lupreempt 0x1003) (wReport)) := by
  refine ⟨?_, ?_, ?_, ?_, ?_, ?_⟩
  · have c := (h.2.1 wAfter 2 holds holds).2.2.2 holds holds
    exact ⟨_, c⟩
  · have c := (h.2.2.1 (wBell 4088) 2 4088 holds holds holds holds).1 holds holds holds
    exact ⟨_, c⟩
  · have c := (h.2.2.1 (wBell 4096) 2 4096 holds holds holds holds).2 holds
    exact let ⟨_, x, _⟩ := c; ⟨_, x⟩
  · have c := (h.2.2.2.1 (wArm (wQ0 0) (wQ1 9)) 0x0200000000002000 (wQ0 0) (wQ1 9) holds holds holds holds).1 holds
    exact let ⟨_, x, _⟩ := c; ⟨_, x⟩
  · have c := (h.2.2.2.1 (wArm (wQ0 12) (wQ1 9)) 0x0200000000002000 (wQ0 12) (wQ1 9) holds holds holds holds).2 holds holds holds holds holds holds
    exact let ⟨_, x, _⟩ := c; ⟨_, x⟩
  · have c := h.2.2.2.2.1 wReport 0x1003 3 holds holds holds holds
    exact let ⟨_, x, _⟩ := c; ⟨_, x⟩
theorem witness_launchRows_4 (h : Obligations.LaunchRows) : goesOn (exec (.taskExitReport 7) (wReport)) := by
  have c := h.2.2.2.2.2 wReport 7 40 (.core 0) (.mmio 0) false holds
  exact ⟨_, c⟩

/-- A mailbox command in progress with its arguments (R334). -/
def wBox (cmd a0 a1 a2 : Nat) : State :=
  { State.reset with mbStat := BitVec.ofNat 64 (2 ^ 17), mbCmd := BitVec.ofNat 64 (0x1234 * 2 ^ 48 + cmd), mbArg := [(0, BitVec.ofNat 64 a0), (1, BitVec.ofNat 64 a1), (2, BitVec.ofNat 64 a2)]
                     bootStage := 8, dies := [(0, { Die.reset with inService := true })], errlog := [⟨1, 2, 3, 4⟩, ⟨5, 6, 7, 8⟩] }
def wServed : State := { State.reset with bootStage := 8, dies := (List.range 4).map (fun i => (i, { Die.reset with inService := true })) }
def wFull : State := { wServed with fullService := true }
def wBooted : State := { State.reset with bootStage := 8 }
/-- R330: whatever the images are, one clause gives what a stage does, and each clause speaks of the state in its case. -/
theorem witness_bootStage (h : Obligations.FireflyRows) : goesOn (exec (.bootStage 0) State.reset) ∧ goesOn (exec (.bootStage 1) { State.reset with bootStage := 1, signer := .other }) ∧
    goesOn (exec (.bootStage 1) { State.reset with bootStage := 1, unusedB := true }) := by
  refine ⟨?_, ⟨_, (h.2.2.1 { State.reset with bootStage := 1, signer := .other } 1 holds holds).1 holds holds⟩, ?_⟩
  · have c := (h.2.2.1 State.reset 0 holds holds).2 holds
    rcases Bool.eq_false_or_eq_true (imageGood 0 State.reset.imageA) with a | a
    · exact ⟨_, c.1 a⟩
    · rcases Bool.eq_false_or_eq_true (imageGood 0 State.reset.imageB) with b | b
      · exact ⟨_, c.2.1 a holds b⟩
      · exact ⟨_, c.2.2 a (.inr b)⟩
  · have c := (h.2.2.1 { State.reset with bootStage := 1, unusedB := true } 1 holds holds).2 holds
    rcases Bool.eq_false_or_eq_true (imageGood 1 ({ State.reset with bootStage := 1, unusedB := true } : State).imageA) with a | a
    · exact ⟨_, c.1 a⟩
    · exact ⟨_, c.2.2 a (.inl holds)⟩
theorem witness_fireflyRows_1 (h : Obligations.FireflyRows) : 
    goesOn (exec (.evready) (wBox 1 5 0 0)) ∧
    goesOn (exec (.sensors) (wBox 2 5 0 0)) ∧
    goesOn (exec (.errlog) (wBox 3 7 0 0)) ∧
    goesOn (exec (.update) (wBox 4 10 3840 0)) ∧
    goesOn (exec (.update) (wBox 4 10 3841 0)) ∧
    goesOn (exec (.update) (wBox 4 10 100 1)) := by
  refine ⟨?_, ?_, ?_, ?_, ?_, ?_⟩
  · have c := (h.1 (wBox 1 5 0 0) holds).1 holds
    exact let ⟨_, x, _⟩ := c; ⟨_, x⟩
  · have c := (h.1 (wBox 2 5 0 0) holds).2.1 holds
    exact let ⟨_, x, _⟩ := c; ⟨_, x⟩
  · have c := (h.1 (wBox 3 7 0 0) holds).2.2.1 holds
    exact let ⟨_, x, _⟩ := c; ⟨_, x⟩
  · have c := (h.1 (wBox 4 10 3840 0) holds).2.2.2.1 holds holds holds
    exact let ⟨_, x, _⟩ := c; ⟨_, x⟩
  · have c := (h.1 (wBox 4 10 3841 0) holds).2.2.2.2.2.1 holds holds
    exact let ⟨_, x, _⟩ := c; ⟨_, x⟩
  · have c := (h.1 (wBox 4 10 100 1) holds).2.2.2.2.1 holds holds holds
    exact let ⟨_, x, _⟩ := c; ⟨_, x⟩
theorem witness_fireflyRows_2 (h : Obligations.FireflyRows) : 
    goesOn (exec (.spdm) (wBox 5 3841 0 0)) ∧
    goesOn (exec (.spdm) (wBox 5 3840 0 0)) ∧
    goesOn (exec (.measure) (wBox 6 0 0 0)) ∧
    goesOn (exec (.mailboxUnknownCommand) (wBox 7 0 0 0)) ∧
    goesOn (exec (.moduleReset) (wServed)) ∧
    goesOn (exec (.powerLoss) (wServed)) := by
  refine ⟨?_, ?_, ?_, ?_, ?_, ?_⟩
  · have c := (h.1 (wBox 5 3841 0 0) holds).2.2.2.2.2.2.2.1 holds holds
    exact let ⟨_, x, _⟩ := c; ⟨_, x⟩
  · have c := (h.1 (wBox 5 3840 0 0) holds).2.2.2.2.2.2.1 holds holds
    exact let ⟨_, x, _⟩ := c; ⟨_, x⟩
  · have c := (h.1 (wBox 6 0 0 0) holds).2.2.2.2.2.2.2.2.1 holds
    exact let ⟨_, x, _⟩ := c; ⟨_, x⟩
  · have c := (h.1 (wBox 7 0 0 0) holds).2.2.2.2.2.2.2.2.2 holds
    exact let ⟨_, x, _⟩ := c; ⟨_, x⟩
  · have c := (h.2.1 wServed).1
    exact let ⟨_, x, _⟩ := c; ⟨_, x⟩
  · have c := (h.2.1 wServed).2
    exact let ⟨_, x, _⟩ := c; ⟨_, x⟩
theorem witness_fireflyRows_3 (h : Obligations.FireflyRows) : 
    goesOn (exec (.dieEnterService 0) (State.reset)) ∧
    goesOn (exec (.fullService) (State.reset)) ∧
    goesOn (exec (.dieEnterService 2) (wBooted)) ∧
    goesOn (exec (.dieEnterService 0) (wBooted)) ∧
    goesOn (exec (.dieEnterService 2) (wBox 0 0 0 0)) ∧
    goesOn (exec (.fullService) (wServed)) := by
  refine ⟨?_, ?_, ?_, ?_, ?_, ?_⟩
  · have c := (h.2.2.2.1 State.reset 0 holds).1
    exact ⟨_, c⟩
  · have c := (h.2.2.2.1 State.reset 0 holds).2
    exact ⟨_, c⟩
  · have c := (h.2.2.2.2.1 wBooted 2 holds holds holds).1 holds holds
    exact ⟨_, c⟩
  · have c := (h.2.2.2.2.1 wBooted 0 holds holds holds).2 holds
    exact let ⟨_, x, _⟩ := c; ⟨_, x⟩
  · have c := (h.2.2.2.2.1 (wBox 0 0 0 0) 2 holds holds holds).2 holds
    exact let ⟨_, x, _⟩ := c; ⟨_, x⟩
  · have c := h.2.2.2.2.2.1 wServed holds holds holds holds
    exact let ⟨_, x, _⟩ := c; ⟨_, x⟩
theorem witness_fireflyRows_4 (h : Obligations.FireflyRows) : 
    goesOn (exec (.correctedError 3 4 5) (wServed)) ∧
    goesOn (exec (.controlRegisterWrite 1 400 0x040 7) (wServed)) ∧
    goesOn (exec (.controlRegisterWrite 1 400 0x10F 7) (wServed)) ∧
    goesOn (exec (.controlRegisterWrite 1 400 0x130 0x40005) (wFull)) := by
  refine ⟨?_, ?_, ?_, ?_⟩
  · have c := h.2.2.2.2.2.2.1 wServed 3 4 5
    exact ⟨_, c⟩
  · have c := (h.2.2.2.2.2.2.2 wServed 1 400 7).1
    exact let ⟨_, x, _⟩ := c; ⟨_, x⟩
  · have c := (h.2.2.2.2.2.2.2 wServed 1 400 7).2.2.2.1 15 holds holds
    exact let ⟨_, x, _⟩ := c; ⟨_, x⟩
  · have c := (h.2.2.2.2.2.2.2 wFull 1 400 0x40005).2.2.2.2.2.2.2.1 1 holds
    exact let ⟨_, x, _⟩ := c; ⟨_, x⟩

/-- A process without privilege, with a handler. -/
def wUser : State := (regs [1, 2, 3]).modProc 0 (fun p => { p with priv := false, r := { p.r with ctl := { p.r.ctl with trapv := 0x800 } } })
/-- A partition that is not defined: the minimum allotment. -/
def wSmall : State := wUser.modCore 0 (fun k => { k with partition := 0 })
/-- A long-latency load of the process whose window is closed, or one of four. -/
def wLongLoad (issued : Nat) : OutOp := ⟨5, 0x200, 3, 3, true, .load, .none, true, { Regs.start with flags := 1 }, [], issued, 0, none, [], [], Under.none⟩
def wClosed : State := wUser.modProc 0 (fun p => { p with outs := [wLongLoad 3] })
def wFour : State := wUser.modProc 0 (fun p => { p with outs := List.replicate 4 (wLongLoad 1) })
def wStruck : State := wUser.modProc 0 (fun p => { p with struck := [(0, 2)] })
/-- The guard p3, which is false. -/
def notNow : Guard := ⟨false, 3⟩
/-- What a word whose guard is false can do: pass, or take one of three traps. -/
theorem passes_or {o : Host.Outcome State Fault Refusal} {p q : Prop} {r x y z : State} (h : o = .next r ∨ o = .next x ∨ (p ∧ o = .next y) ∨ (q ∧ o = .next z)) : goesOn o := by
  rcases h with c | c | c | c
  · exact ⟨_, c⟩
  · exact ⟨_, c⟩
  · exact ⟨_, c.2⟩
  · exact ⟨_, c.2⟩
/-- R40, R41: a false guard passes, or the registers trap, or the privilege does, or a reserved control register: one state for each. -/
theorem witness_issueGuard (h : Obligations.IssueRules) : goesOn (exec (.add ⟨notNow, 1, 2, 3⟩) wUser) ∧ goesOn (exec (.add ⟨notNow, 1, 2, 63⟩) wSmall) ∧
    goesOn (exec (.halt notNow) wUser) ∧ goesOn (exec (.ctlr ⟨notNow, 1, 0x12⟩) wUser) :=
  ⟨passes_or (h.1 ((encode (.add ⟨notNow, 1, 2, 3⟩)).getD 0) _ wUser holds holds holds holds holds holds), passes_or (h.1 ((encode (.add ⟨notNow, 1, 2, 63⟩)).getD 0) _ wSmall holds holds holds holds holds holds),
    passes_or (h.1 ((encode (.halt notNow)).getD 0) _ wUser holds holds holds holds holds holds), passes_or (h.1 ((encode (.ctlr ⟨notNow, 1, 0x12⟩)).getD 0) _ wUser holds holds holds holds holds holds)⟩
/-- R41: PRIV, also of a word whose guard is false. -/
theorem witness_issuePrivilege (h : Obligations.IssueRules) : goesOn (exec (.halt notNow) wUser) ∧ goesOn (exec (.qarm ⟨always, 1, 2⟩) wUser) ∧
    goesOn (exec (.tlbinv ⟨always, 1⟩) wUser) ∧ goesOn (exec (.streamres ⟨always, 1, 2⟩) wUser) ∧ goesOn (exec (.repart ⟨always, 2⟩) wUser) ∧
    goesOn (exec (.fetchin ⟨always, 2, 4, 1, 0⟩) wSmall) :=
  have goes (i : Instr) (s : State) (w : Word32) ha hb hc hd he hf hg := (⟨_, h.2.1 w i s ha hb hc hd he hf hg⟩ : goesOn (exec i s))
  ⟨goes _ wUser ((encode (.halt notNow)).getD 0) (by simp) holds holds holds holds holds holds, goes _ wUser ((encode (.qarm ⟨always, 1, 2⟩)).getD 0) (by simp) holds holds holds holds holds holds,
    goes _ wUser ((encode (.tlbinv ⟨always, 1⟩)).getD 0) (by simp) holds holds holds holds holds holds, goes _ wUser ((encode (.streamres ⟨always, 1, 2⟩)).getD 0) (by simp) holds holds holds holds holds holds,
    goes _ wUser ((encode (.repart ⟨always, 2⟩)).getD 0) (by simp) holds holds holds holds holds holds, goes _ wSmall 0x0F021070 (by simp) holds holds holds holds holds holds⟩
/-- R44: a closed window and a fifth word wait; a register beyond the allotment and a struck source trap. -/
theorem witness_issueWaits (h : Obligations.IssueRules) : exec (.add ⟨always, 1, 2, 3⟩) wClosed = .next wClosed ∧ goesOn (exec (.ldd ⟨always, 1, 2, 0, 0⟩) wFour) ∧
    goesOn (exec (.add ⟨always, 1, 2, 63⟩) wSmall) ∧ goesOn (exec (.add ⟨always, 1, 2, 3⟩) wStruck) :=
  ⟨(h.2.2.1 ⟨always, 1, 2, 3⟩ wClosed holds).1 holds holds holds, ⟨_, h.2.2.2 ⟨always, 1, 2, 0, 0⟩ wFour holds holds holds holds holds⟩,
    ⟨_, ((h.2.2.1 ⟨always, 1, 2, 63⟩ wSmall holds).2 holds holds holds).1 (fun a => absurd (a.g 63 holds) holds) 0x00010BF0 holds⟩,
    ⟨_, ((h.2.2.1 ⟨always, 1, 2, 3⟩ wStruck holds).2 holds holds holds).2 ⟨holds, holds⟩ holds holds⟩⟩

/-- A process with the two vectors and INH as given, and a trap. -/
def wHandler (trapv ckptv : Word) (inh : Bool) : State :=
  (regs [1, 2, 3]).modProc 0 (fun p => { p with asid := 5, r := { p.r with ctl := { p.r.ctl with trapv := trapv, ckptv := ckptv, inh := inh } } })
def wTrap (c : Cause) : Trap := ⟨c, 0x77, 0, 0⟩
/-- R298, R302: a handler entered, QUIESCE inside a handler, and the three ways to end. -/
theorem witness_trapEntry (h : Obligations.TrapEntry) : (((wHandler 0x800 0 false).trap 0 (wTrap .prot) 0x1235).proc 0).pc = 0x800 ∧
    (((wHandler 0x800 0x900 true).trap 0 (wTrap .quiesce) 0x1235).proc 0).pc = 0x900 ∧ (((wHandler 0x800 0x900 true).trap 0 (wTrap .prot) 0x1235).proc 0).ending = 1 ∧
    (((wHandler 0 0x900 false).trap 0 (wTrap .prot) 0x1235).proc 0).ending = 1 ∧ (((wHandler 0x800 0 false).trap 0 (wTrap .quiesce) 0x1235).proc 0).ending = 1 := by
  refine ⟨?_, ?_, ?_, ?_, ?_⟩
  · have c := (h.1 (wHandler 0x800 0 false) 0 (wTrap .prot) 0x1235).1 holds holds holds
    rw [c.1]; rfl
  · have c := (h.1 (wHandler 0x800 0x900 true) 0 (wTrap .quiesce) 0x1235).2.1 holds holds
    rw [c.1]; rfl
  · have c := (h.1 (wHandler 0x800 0x900 true) 0 (wTrap .prot) 0x1235).2.2.1 holds holds
    exact c.1
  · have c := (h.1 (wHandler 0 0x900 false) 0 (wTrap .prot) 0x1235).2.2.2.1 holds holds holds
    exact c.1
  · have c := (h.1 (wHandler 0x800 0 false) 0 (wTrap .quiesce) 0x1235).2.2.2.2 holds holds
    exact c.1

/-- The machine about to give process 0 its turn at a word. -/
def wTurn (w : Nat) : State := { State.reset.withFetchWord 32 w with plan := [.issue 0, .pass 4] }
def wPending : State := (wTurn 0x00030420).modProc 0 (fun p => { p with pend := some (wTrap .prot) })
def wPages : State := (wTurn 0x00030420).modProc 0 (fun p => { p with priv := false, pend := some (wTrap .page) })
/-- A word of two steps that has begun, an EXIT that goes on, and a run ahead of a fault. -/
def wBegun : State := (wTurn 0x80000000).modProc 0 (fun p => { p with prog := 1, cur := some 0x0F80100C })
def wEnding : State := (wTurn 0x00030420).modProc 0 (fun p => { p with ending := 2 })
def wRunOf (pages words : Nat) : Run := ⟨⟨.page, 0x40008, 0, 2⟩, 0x10004, false, Regs.start, [(0, 3)], 4, (List.range pages).map (· + 7), words⟩
def wAhead (pages words : Nat) : State := (wTurn 0x00030420).modProc 0 (fun p => { p with priv := false, ahead := some (wRunOf pages words), walked := some (0x50000, .page, 1) })
/-- An instruction, a never word, a word that is none, one in hand, pending traps, an EXIT and a run ahead. -/
theorem witness_stepRunsDecoded (h : Obligations.StepRunsDecoded) : goesOn (step (wTurn 0x00030420)) ∧ goesOn (step (wTurn 0x80000000)) ∧ goesOn (step (wTurn 0x7FFFFFFF)) := by
  refine ⟨?_, ?_, ?_⟩
  · have c := ((((h (wTurn 0x00030420) 0 [.pass 4] holds holds holds holds).2 holds).2 holds).2 holds).2 (127 * 2 ^ 45 + 0x10000) wHbm holds holds holds holds holds holds |>.1 (.add ⟨always, 3, 1, 2⟩) holds holds
    exact ⟨_, c.trans rfl⟩
  · have c := ((((h (wTurn 0x80000000) 0 [.pass 4] holds holds holds holds).2 holds).2 holds).2 holds).2 (127 * 2 ^ 45 + 0x10000) wHbm holds holds holds holds holds holds |>.2.1 holds holds holds
    exact ⟨_, c⟩
  · have c := ((((h (wTurn 0x7FFFFFFF) 0 [.pass 4] holds holds holds holds).2 holds).2 holds).2 holds).2 (127 * 2 ^ 45 + 0x10000) wHbm holds holds holds holds holds holds |>.2.2 .reservedMajor holds holds holds holds
    exact ⟨_, c⟩
theorem witness_stepGoesOn (h : Obligations.StepRunsDecoded) : goesOn (step wBegun) ∧ goesOn (step wPending) ∧ goesOn (step wPages) ∧ goesOn (step wEnding) ∧ goesOn (step (wAhead 0 3)) := by
  refine ⟨?_, ⟨_, (h wPending 0 [.pass 4] holds holds holds holds).1 (wTrap .prot) holds⟩, ⟨_, (h wPages 0 [.pass 4] holds holds holds holds).1 (wTrap .page) holds⟩,
    ⟨_, (((h wEnding 0 [.pass 4] holds holds holds holds).2 holds).2 holds).1 holds⟩, ⟨_, ((h (wAhead 0 3) 0 [.pass 4] holds holds holds holds).2 holds).1 (wRunOf 0 3) holds⟩⟩
  have c := ((((h wBegun 0 [.pass 4] holds holds holds holds).2 holds).2 holds).2 holds).1 0x0F80100C holds holds |>.1 (.tlbinv ⟨always, 4⟩) holds holds
  exact ⟨_, c.trans rfl⟩
/-- R305: a load of a further page, one that the batch names already, and the end of a run of 512 words and of one with seven pages. -/
def wLoadOf (disp : Word) : AheadAccess := ⟨infoLD ⟨always, 7, 1, 3, 0⟩ 0, 1, (· + disp), 8, .rd, 0, none, fun _ _ _ => none⟩
theorem witness_runahead (h : Obligations.EventRows) : ((wAhead 0 3).startAhead 0 (wTrap .page)).mem = (wAhead 0 3).mem ∧
    (∃ b, (wAhead 0 3).aheadAccess 0 (wRunOf 0 3) (wLoadOf 0x50008) = .go b ∧ b.pages = [5]) ∧ (wAhead 0 3).aheadAccess 0 (wRunOf 0 3) (wLoadOf (2 ^ 56)) = .stop ∧
    (((wAhead 0 512).aheadGo 0 (wRunOf 0 512)).proc 0).state = .blocked ∧ (((wAhead 7 9).aheadGo 0 (wRunOf 7 9)).proc 0).state = .blocked := by
  obtain ⟨_, _, m, _⟩ := h.2.2.2.2.1 (wAhead 0 3) 0 (wTrap .page)
  refine ⟨m, ?_, (h.2.2.2.2.2.1 (wAhead 0 3) 0 (wRunOf 0 3) (wLoadOf (2 ^ 56)) holds holds holds).2 .prot 0 holds holds,
    (h.2.2.2.2.2.2 (wAhead 0 512) 0 (wRunOf 0 512) holds holds holds holds holds holds).2.1, (h.2.2.2.2.2.2 (wAhead 7 9) 0 (wRunOf 7 9) holds holds holds holds holds holds).2.1⟩
  obtain ⟨b, x, _, _, y⟩ := (h.2.2.2.2.2.1 (wAhead 0 3) 0 (wRunOf 0 3) (wLoadOf 0x50008) holds holds holds).1 1 holds
  exact ⟨b, x, y.trans rfl⟩

/-- The encoding statement speaks of this word in both directions. -/
theorem witness_decodeEncode (h : Obligations.DecodeEncode) : decode 0x00030420 = .ok (.add ⟨always, 3, 1, 2⟩) ∧ encode (.add ⟨always, 3, 1, 2⟩) = some 0x00030420 :=
  ⟨h.1 (.add ⟨always, 3, 1, 2⟩) 0x00030420 holds holds, (h.2 (.add ⟨always, 3, 1, 2⟩) 0x00030420 holds).2⟩
/-- The two invariants speak of a step that runs an instruction. -/
theorem witness_invariants (h : Obligations.StepKeepsMemoryForm) (k : Obligations.StepKeepsPortsClear) :
    ∃ t, Safety.steps (wTurn 0x00030420) t ∧ t.mem.wf = true ∧ Safety.portsClear t :=
  have st : Safety.steps (wTurn 0x00030420) (after (step (wTurn 0x00030420))) := by unfold Safety.steps; rfl
  ⟨_, st, (h (wTurn 0x00030420) _ holds holds st).1, k (wTurn 0x00030420) _ (fun _ hm => by cases hm) st⟩
/-- The frame speaks of a load that is handed to memory and of one that traps. -/
theorem witness_frame (h : Obligations.FrameOfHandingWords) : (after (exec (.ldd ⟨always, 3, 1, 0, 0⟩) (regs [0x10100]))).mem = (regs [0x10100]).mem ∧
    (after (exec (.ldd ⟨always, 3, 1, 0, 0⟩) (regs [0x10101]))).mem = (regs [0x10101]).mem :=
  ⟨(h.1 ⟨always, 3, 1, 0, 0⟩ (.ldd ⟨always, 3, 1, 0, 0⟩) (by simp) (regs [0x10100]) (after (exec (.ldd ⟨always, 3, 1, 0, 0⟩) (regs [0x10100]))) holds rfl).1,
    (h.1 ⟨always, 3, 1, 0, 0⟩ (.ldd ⟨always, 3, 1, 0, 0⟩) (by simp) (regs [0x10101]) (after (exec (.ldd ⟨always, 3, 1, 0, 0⟩) (regs [0x10101]))) holds rfl).1⟩

end Sys2Proof.Tests
end

section
/-! Proofs about the scalar words (spec/08_scalar.md): saturation and division (R153, R155), bit fields (R156), branches and calls (R166). -/
namespace Sys2Proof.Machine
open Sys2Proof Sys2Proof.Safety

/-! ## Words that only compute -/

/-- The encoding of a word, which TRAPINFO alone shows, is no part of what `Clear` asks of it. -/
theorem clear_withWord {w : Issue} {s : State} (h : Clear w s) (n : Nat) : Clear { w with word := n } s :=
  ⟨h.mark, h.guard, h.legal, h.mode, h.names, h.open_, h.queue, h.start, h.good⟩

/-- A two-source word without flags writes its result. -/
theorem alu_clear {o : RRR} {s : State} (h : Clear (infoRRR o 0) s) (w : Nat) (f : Word → Word → Word) :
    alu w o f s = computes s [(0, o.d.toNat)]
      ((s.proc s.turn).r.setG o.d (f ((s.proc s.turn).r.getG o.a) ((s.proc s.turn).r.getG o.b))) :=
  issuePure_clear (clear_withWord h w) _

/-- A two-source word with flags raises them and writes its result. -/
theorem aluFlags_clear {o : RRR} {s : State} (h : Clear (infoRRR o 0) s) (w : Nat) {f : Word → Word → Word × Flags} {x : Word} {fl : Flags}
    (hf : f ((s.proc s.turn).r.getG o.a) ((s.proc s.turn).r.getG o.b) = (x, fl)) :
    aluFlags w o f s = computes s [(0, o.d.toNat)] (((s.proc s.turn).r.orFlags fl).setG o.d x) := by
  have hw := issuePure_clear (clear_withWord h w) (fun r => let y := f (r.getG o.a) (r.getG o.b); (r.orFlags y.2).setG o.d y.1)
  rw [hf] at hw
  exact hw

/-! ## Saturation and division (R153, R155) -/

/-- Saturation clamps to the signed range, and raises SAT exactly outside it. -/
theorem satInt_eq (n : Nat) (x : Int) :
    satInt n x = (max (-(2 ^ (n - 1))) (min (2 ^ (n - 1) - 1) x), if -(2 ^ (n - 1)) ≤ x ∧ x < 2 ^ (n - 1) then 0 else fSAT) := by
  have hpos : (0 : Int) < 2 ^ (n - 1) := by positivity
  unfold satInt
  generalize (2 : Int) ^ (n - 1) = k at hpos ⊢
  split
  · next above => rw [if_neg (by omega), min_eq_left (by omega), max_eq_right (by omega)]
  · next notAbove =>
    split
    · next below => rw [if_neg (by omega), min_eq_right (by omega), max_eq_left (by omega)]
    · next notBelow => rw [if_pos (by omega), min_eq_right (by omega), max_eq_right (by omega)]

theorem dzFlag_zero : dzFlag 0 = fDZ := rfl
theorem dzFlag_of_ne {b : Word} (h : b ≠ 0) : dzFlag b = 0 := if_neg (by simpa using h)

theorem sdiv_eq_ofInt_tdiv (a b : Word) : a.sdiv b = BitVec.ofInt 64 (a.toInt.tdiv b.toInt) :=
  BitVec.eq_of_toInt_eq (by rw [BitVec.toInt_sdiv, BitVec.toInt_ofInt])
theorem srem_eq_ofInt_tmod (a b : Word) : a.srem b = BitVec.ofInt 64 (a.toInt.tmod b.toInt) := by
  rw [← BitVec.toInt_srem, BitVec.ofInt_toInt]

theorem divWord_of_ne {a b : Word} (h : b ≠ 0) : divWord a b = (BitVec.ofInt 64 (a.toInt.tdiv b.toInt), 0) := by
  rw [divWord, if_neg h, dzFlag_of_ne h, sdiv_eq_ofInt_tdiv]
theorem divuWord_of_ne {a b : Word} (h : b ≠ 0) : divuWord a b = (BitVec.ofNat 64 (a.toNat / b.toNat), 0) := by
  rw [divuWord, if_neg h, dzFlag_of_ne h, BitVec.udiv_eq, BitVec.udiv_def]
theorem remWord_of_ne {a b : Word} (h : b ≠ 0) : remWord a b = (BitVec.ofInt 64 (a.toInt.tmod b.toInt), 0) := by
  rw [remWord, if_neg h, dzFlag_of_ne h, srem_eq_ofInt_tmod]
theorem remuWord_of_ne {a b : Word} (h : b ≠ 0) : remuWord a b = (BitVec.ofNat 64 (a.toNat % b.toNat), 0) := by
  rw [remuWord, if_neg h, dzFlag_of_ne h, BitVec.umod_eq, BitVec.umod_def]

/-- Settles O2: each word's result pair, by the word functions' equations, put through `aluFlags_clear`. -/
theorem saturationAndDivision : Obligations.SaturationAndDivision := by
  unfold Obligations.SaturationAndDivision
  intro o s h r a b put sat
  refine ⟨aluFlags_clear h _ ?adds, aluFlags_clear h _ ?subs, fun hz => ?zero, fun hn => ?nonzero⟩
  case adds => simp only [addsWord, satInt_eq]; rfl
  case subs => simp only [subsWord, satInt_eq]; rfl
  case zero =>
    have hb : (s.proc s.turn).r.getG o.b = 0 := hz
    refine ⟨aluFlags_clear h _ ?_, aluFlags_clear h _ ?_, aluFlags_clear h _ ?_, aluFlags_clear h _ ?_⟩ <;> rw [hb] <;> rfl
  case nonzero =>
    exact ⟨aluFlags_clear h _ (divWord_of_ne hn), aluFlags_clear h _ (divuWord_of_ne hn),
      aluFlags_clear h _ (remWord_of_ne hn), aluFlags_clear h _ (remuWord_of_ne hn)⟩

/-! ## Bit fields (R156) -/

/-- The mask of the low n bits. -/
theorem getLsbD_lowMask (n i : Nat) : (BitVec.ofNat 64 (2 ^ n - 1)).getLsbD i = (decide (i < 64) && decide (i < n)) := by
  rw [BitVec.getLsbD_ofNat, Nat.testBit_two_pow_sub_one]

theorem getLsbD_bfxWord (a b : Word) {i : Nat} (hi : i < 64) :
    (bfxWord a b).getLsbD i = (decide (i < fieldLen b) && a.getLsbD (fieldPos b + i)) := by
  rw [bfxWord, BitVec.getLsbD_and, BitVec.getLsbD_ushiftRight, getLsbD_lowMask, decide_eq_true hi, Bool.true_and, Bool.and_comm]

/-- The field's mask, shifted to its place, covers the positions of the field that exist. -/
theorem getLsbD_fieldMask (b : Word) {i : Nat} (hi : i < 64) :
    (BitVec.ofNat 64 (2 ^ fieldLen b - 1) <<< fieldPos b).getLsbD i = decide (fieldPos b ≤ i ∧ i < fieldPos b + fieldLen b) := by
  rw [BitVec.getLsbD_shiftLeft, getLsbD_lowMask, Bool.eq_iff_iff]
  simp only [Bool.and_eq_true, Bool.not_eq_true', decide_eq_true_eq, decide_eq_false_iff_not]
  omega

theorem getLsbD_bfiWord (d a b : Word) {i : Nat} (hi : i < 64) :
    (bfiWord d a b).getLsbD i = if fieldPos b ≤ i ∧ i < fieldPos b + fieldLen b then a.getLsbD (i - fieldPos b) else d.getLsbD i := by
  simp only [bfiWord, BitVec.getLsbD_or, BitVec.getLsbD_and, BitVec.getLsbD_not, BitVec.getLsbD_shiftLeft, getLsbD_fieldMask b hi]
  split
  · next inside => simp [inside, hi, inside.1.not_gt]
  · next outside => simp [outside, hi]

/-- Settles O4: both words compute, and their results are read bit by bit. -/
theorem bitFields : Obligations.BitFields := by
  unfold Obligations.BitFields
  intro o s r a b d pos len put
  refine ⟨fun h => ⟨bfxWord a b, alu_clear h _ _, fun i hi => getLsbD_bfxWord a b hi⟩,
    fun h => ⟨bfiWord d a b, ?_, fun i hi => getLsbD_bfiWord d a b hi⟩⟩
  exact issuePure_clear (clear_withWord h (packRRR 0x01 13 o)) (fun r => r.setG o.d (bfiWord (r.getG o.d) (r.getG o.a) (r.getG o.b)))

/-! ## A false guard while a word waits for the tile queue (R166, R214) -/

/-- While a word of the process waits for its place in the tile queue no later word issues, and a false guard is no exception. -/
theorem issue_falseGuard_entering {w : Issue} {s : State} (body : Nat → State → State) (hg : (s.proc s.turn).r.guard w.gu = false)
    (hm : (s.proc s.turn).midWord = false) (hq : s.entering s.turn = true) : issue w body s = .next (s.stall s.turn false false) := by
  simp [issue, hg, hm, hq]

theorem exec_br_entering {o : BT} {s : State} (hg : (s.proc s.turn).r.guard o.gu = false) (hm : (s.proc s.turn).midWord = false)
    (hq : s.entering s.turn = true) : exec (.br o) s = .next (s.stall s.turn false false) := by
  change execBr o s = _
  exact issue_falseGuard_entering _ hg hm hq

/-- A process that passes a word goes on at the next one. -/
theorem pc_setProc_pass (s : State) (pk : Nat) : ((s.setProc pk (s.proc pk).pass).proc pk).pc = (s.proc pk).pc + 4 := by
  rw [State.proc_setProc_same]
  rfl

/-- Process 0 of core 0, after a tile word with window 2 that found eight operations of process 1 in the tile queue. -/
def tileQueueFull : State :=
  (State.reset.modCore 0 (fun c => { c with tileq := List.replicate 8 { TileOp.blank with pk := 1 } })).enqueueTop 0 2 TileOp.blank .none [] 0

/-- A BR under p1, which is false at reset. -/
def brIfP1 : BT := ⟨⟨false, 1⟩, 5⟩

/-- Refutes O10: the clause on false guards asks that no lookahead window is closed, but not that the tile queue has room for the word that the process
issued before. Until it has, no later word issues (R214), so that in `tileQueueFull` a BR whose guard is false waits where it is and does not continue at
pc + 4. -/
theorem not_branchesAndCalls : ¬ Obligations.BranchesAndCalls := by
  unfold Obligations.BranchesAndCalls
  rintro ⟨-, -, -, falls⟩
  have hguard : (tileQueueFull.proc tileQueueFull.turn).r.guard brIfP1.gu = false := by decide +kernel
  have hfall := falls (.br brIfP1) _ tileQueueFull (.inl ⟨brIfP1, rfl, rfl⟩) rfl hguard (by decide +kernel) ⟨nofun, nofun⟩
  rw [exec_br_entering hguard (by decide +kernel) (by decide +kernel)] at hfall
  injection hfall with hstate
  have hpc := congrArg (fun t => (t.proc tileQueueFull.turn).pc) hstate
  simp only [pc_setProc_pass] at hpc
  exact absurd hpc (by decide +kernel)

end Sys2Proof.Machine
end

section
/-! Proofs about the vector words (spec/10_vector.md): lanes and masks (R188, R189), the integer words (R193, R194). -/
namespace Sys2Proof.Machine
open Sys2Proof Sys2Proof.Safety

/-! ## Lanes (R188) -/

theorem sizeBits_pos (z : LSize) : 0 < sizeBits z := by cases z <;> decide

@[simp] theorem getLane_mod (x : VReg) (n j : Nat) : getLane x n j % 2 ^ n = getLane x n j := Nat.mod_mod _ _

/-- The number that `ofLanes` lays out has the lanes, cut to n bits, as its digits in base 2^n. -/
theorem ofLanes_eq_ofDigits (n : Nat) (xs : List Nat) :
    ofLanes n xs = BitVec.ofNat 1024 (Nat.ofDigits (2 ^ n) (xs.map (· % 2 ^ n))) := by
  rw [ofLanes, Nat.ofDigits_eq_foldr, List.foldr_map]
  rfl

/-- A number that fits is kept whole; stated for every width, so that no power of a register's size is evaluated. -/
theorem toNat_ofNat_of_lt {w m : Nat} (h : m < 2 ^ w) : (BitVec.ofNat w m).toNat = m := by
  rw [BitVec.toNat_ofNat, Nat.mod_eq_of_lt h]

/-- A register laid out from lanes that fit holds each of them, cut to n bits. -/
theorem getLane_ofLanes {n j : Nat} {xs : List Nat} (hn : 0 < n) (hfit : n * xs.length ≤ 1024) (hj : j < xs.length) :
    getLane (ofLanes n xs) n j = xs[j] % 2 ^ n := by
  have hbase : 1 < 2 ^ n := Nat.one_lt_two_pow hn.ne'
  have hdigits : ∀ d ∈ xs.map (· % 2 ^ n), d < 2 ^ n := by
    simp only [List.forall_mem_map]
    exact fun x _ => Nat.mod_lt x n.two_pow_pos
  have hlt : Nat.ofDigits (2 ^ n) (xs.map (· % 2 ^ n)) < 2 ^ 1024 := by
    refine (Nat.ofDigits_lt_base_pow_length hbase hdigits).trans_le ?_
    rw [List.length_map, ← pow_mul]
    gcongr
    exact one_le_two
  have hdrop : (xs.map (· % 2 ^ n)).drop j = xs[j] % 2 ^ n :: (xs.map (· % 2 ^ n)).drop (j + 1) := by
    rw [List.drop_eq_getElem_cons (by simpa using hj), List.getElem_map]
  rw [getLane, ofLanes_eq_ofDigits, toNat_ofNat_of_lt hlt, pow_mul,
    Nat.ofDigits_div_pow_eq_ofDigits_drop j n.two_pow_pos _ hdigits, hdrop, Nat.ofDigits_cons,
    Nat.add_mul_mod_self_left, Nat.mod_mod]

/-- Flags ORed over a list hold each flag that one of its elements raises. -/
theorem getLsbD_foldl_or {α : Type} (g : α → Flags) (l : List α) (fl : Flags) (b : Nat) :
    (l.foldl (fun acc x => acc ||| g x) fl).getLsbD b = true ↔ fl.getLsbD b = true ∨ ∃ x ∈ l, (g x).getLsbD b = true := by
  induction l generalizing fl with
  | nil => simp
  | cons x l ih => simp [ih, or_assoc]

/-- `vecMap` is the lane by lane result: active lanes computed, the others kept, flags from the active lanes alone (R188, R189). -/
theorem laneResult_vecMap {n : Nat} (hn : 0 < n) (q : Mask) (old : VReg) (f : Nat → Nat × Flags) :
    laneResult n q old (vecMap n q old f).1 (vecMap n q old f).2 f := by
  refine ⟨fun j hj => ?lane, fun b => ?flags⟩
  case lane =>
    rw [vecMap, getLane_ofLanes hn (by simpa [laneCount] using Nat.mul_div_le 1024 n) (by simpa [laneCount] using hj)]
    simp only [List.getElem_map, List.getElem_range]
    split <;> simp
  case flags =>
    have hnone : ¬ (0 : Flags).getLsbD b = true := by simp
    rw [vecMap, getLsbD_foldl_or, or_iff_right hnone]
    simp only [List.mem_map, List.mem_range, laneCount, exists_exists_and_eq_and]
    refine exists_congr fun j => and_congr_right fun _ => ?_
    split <;> simp [*]

/-- Whether an operation cuts its result to the lane or leaves that to the register, the lanes are the same. -/
theorem laneResult_mod {n : Nat} {q : Mask} {old new : VReg} {fl : Flags} {f : Nat → Nat × Flags} :
    laneResult n q old new fl (fun j => ((f j).1 % 2 ^ n, (f j).2)) ↔ laneResult n q old new fl f := by
  simp only [laneResult, Nat.mod_mod]

/-! ## Integer words (R193, R194) -/

theorem laneOfInt_eq (n : Nat) (x : Int) : laneOfInt n x = (x % 2 ^ n).toNat := by
  rw [laneOfInt, Nat.cast_pow, Nat.cast_ofNat]

/-- An integer word computes lane by lane what its lane operation gives. -/
theorem computesLanes_of_vecInt {i : Instr} {o : VI} {s : State} (h : Clear (infoVI o 0) s) {w : Nat} {f : Nat → Nat → Nat → Nat × Flags}
    (hexec : exec i s = vecInt w o f s) :
    let r := (s.proc s.turn).r
    let n := sizeBits o.size
    computesLanes i s o.vd n (r.getQ o.q) (fun j => f n (getLane (r.getV o.va) n j) (getLane (r.getV o.vb) n j)) :=
  ⟨_, _, hexec.trans (issuePure_clear (clear_withWord h w) _), laneResult_vecMap (sizeBits_pos o.size) _ _ _⟩

/-- An integer word whose lane operation gives a signed number leaves that number modulo 2^n. -/
theorem computesLanes_of_vecInt_int {i : Instr} {o : VI} {s : State} (h : Clear (infoVI o 0) s) {w : Nat} {f : Nat → Nat → Nat → Int}
    (hexec : exec i s = vecInt w o (fun n a b => (laneOfInt n (f n a b), 0)) s) :
    let r := (s.proc s.turn).r
    let n := sizeBits o.size
    computesLanes i s o.vd n (r.getQ o.q)
      (fun j => ((f n (getLane (r.getV o.va) n j) (getLane (r.getV o.vb) n j) % 2 ^ n).toNat, 0)) := by
  simpa only [laneOfInt_eq] using computesLanes_of_vecInt h hexec

/-- An integer word whose lane operation gives an unsigned number leaves its low n bits. -/
theorem computesLanes_of_vecInt_nat {i : Instr} {o : VI} {s : State} (h : Clear (infoVI o 0) s) {w : Nat} {f : Nat → Nat → Nat → Nat}
    (hexec : exec i s = vecInt w o (fun n a b => (f n a b % 2 ^ n, 0)) s) :
    let r := (s.proc s.turn).r
    let n := sizeBits o.size
    computesLanes i s o.vd n (r.getQ o.q) (fun j => (f n (getLane (r.getV o.va) n j) (getLane (r.getV o.vb) n j), 0)) :=
  let ⟨v, fl, hnext, hlanes⟩ := computesLanes_of_vecInt h hexec
  ⟨v, fl, hnext, laneResult_mod.mp hlanes⟩

/-- The lane operation of VADDS clamps the exact sum to the signed range, and raises SAT exactly outside it (R194). -/
theorem laneAdds_eq (n a b : Nat) :
    let x := signedLane n a + signedLane n b
    laneAdds n a b = ((max (-(2 ^ (n - 1))) (min (2 ^ (n - 1) - 1) x) % 2 ^ n).toNat,
      if -(2 ^ (n - 1)) ≤ x ∧ x < 2 ^ (n - 1) then 0 else fSAT) := by
  simp only [laneAdds, satInt_eq, laneOfInt_eq]

/-- Settles O20: every word is a `vecInt` of its lane operation, which gives a signed number, an unsigned number, or for VADDS the saturated sum. -/
theorem vectorIntegerLanes : Obligations.VectorIntegerLanes := by
  unfold Obligations.VectorIntegerLanes
  intro o s h r n a b sa sb k nat int
  refine ⟨?vadd, ?vsub, ?vmul, ?vmulh, ?vmin, ?vmax, ?vminu, ?vmaxu, ?vand, ?vor, ?vxor, ?vandn, ?vshl, ?vshr, ?vsra, ?vadds⟩
  case vadd => exact computesLanes_of_vecInt_int h (f := fun n a b => signedLane n a + signedLane n b) rfl
  case vsub => exact computesLanes_of_vecInt_int h (f := fun n a b => signedLane n a - signedLane n b) rfl
  case vmul => exact computesLanes_of_vecInt_int h (f := fun n a b => signedLane n a * signedLane n b) rfl
  case vmulh => exact computesLanes_of_vecInt_int h (f := fun n a b => signedLane n a * signedLane n b / 2 ^ n) rfl
  case vmin => exact computesLanes_of_vecInt_int h (f := fun n a b => min (signedLane n a) (signedLane n b)) rfl
  case vmax => exact computesLanes_of_vecInt_int h (f := fun n a b => max (signedLane n a) (signedLane n b)) rfl
  case vminu => exact computesLanes_of_vecInt_nat h (f := fun _ => min) rfl
  case vmaxu => exact computesLanes_of_vecInt_nat h (f := fun _ => max) rfl
  case vand => exact computesLanes_of_vecInt_nat h (f := fun _ a b => a &&& b) rfl
  case vor => exact computesLanes_of_vecInt_nat h (f := fun _ a b => a ||| b) rfl
  case vxor => exact computesLanes_of_vecInt_nat h (f := fun _ a b => a ^^^ b) rfl
  case vandn => exact computesLanes_of_vecInt_nat h (f := fun n a b => a &&& (2 ^ n - 1 - b)) rfl
  case vshl => exact computesLanes_of_vecInt_nat h (f := fun n a b => a * 2 ^ (b % n)) rfl
  case vshr => exact computesLanes_of_vecInt_nat h (f := fun n a b => a / 2 ^ (b % n)) rfl
  case vsra => exact computesLanes_of_vecInt_int h (f := fun n a b => signedLane n a / 2 ^ (b % n)) rfl
  case vadds => simpa only [laneAdds_eq] using computesLanes_of_vecInt h (i := .vadds o) rfl

end Sys2Proof.Machine
end

section
/-! Proofs about the encoding (spec/03_encoding.md R39, R48, R51): a word is the row of its fields, and decoding reads each field back. -/
set_option Elab.async false
namespace Sys2Proof

/-! ## Fields of a word -/

/-- The word w has the fields fs, the first the most significant and the last at bit 0. -/
def HasFields (w : Nat) : List (Nat × Nat) → Prop
  | [] => True
  | f :: fs => fld w (fs.map (·.2)).sum f.2 = f.1 ∧ HasFields w fs

theorem pack_cons (f : Nat × Nat) (fs : List (Nat × Nat)) : pack (f :: fs) = f.1 * 2 ^ (fs.map (·.2)).sum + pack fs := by
  have shift : ∀ (gs : List (Nat × Nat)) (a b : Nat),
      gs.foldl (fun acc f => acc * 2 ^ f.2 + f.1) (a + b) = a * 2 ^ (gs.map (·.2)).sum + gs.foldl (fun acc f => acc * 2 ^ f.2 + f.1) b := by
    intro gs
    induction gs with
    | nil => simp
    | cons g gs ih => intro a b; simp only [List.foldl_cons, List.map_cons, List.sum_cons, Nat.add_mul, Nat.add_assoc, ih, Nat.pow_add, Nat.mul_assoc]
  simpa [pack] using shift fs f.1 0

/-- A field below bit k is the same in the word cut to k bits. -/
theorem fld_mod {w lo n k : Nat} (h : lo + n ≤ k) : fld (w % 2 ^ k) lo n = fld w lo n := by
  obtain ⟨d, rfl⟩ := Nat.exists_eq_add_of_le h
  simp only [fld, Nat.pow_add, Nat.mul_assoc]
  rw [Nat.mod_mul_right_div_self, Nat.mod_mul_right_mod]

theorem hasFields_mod {w k : Nat} {fs : List (Nat × Nat)} (h : (fs.map (·.2)).sum ≤ k) : HasFields (w % 2 ^ k) fs ↔ HasFields w fs := by
  induction fs with
  | nil => rfl
  | cons f fs ih =>
    simp only [List.map_cons, List.sum_cons] at h
    simp only [HasFields, ih (by omega), fld_mod (show (fs.map (·.2)).sum + f.2 ≤ k by omega)]

/-- A word is its fields laid side by side exactly if each field reads back from it. -/
theorem eq_pack_iff {w : Nat} {fs : List (Nat × Nat)} (hw : w < 2 ^ (fs.map (·.2)).sum) (hf : ∀ f ∈ fs, f.1 < 2 ^ f.2) :
    w = pack fs ↔ HasFields w fs := by
  induction fs generalizing w with
  | nil => simpa [HasFields, pack] using hw
  | cons f fs ih =>
    have hrest : ∀ g ∈ fs, g.1 < 2 ^ g.2 := fun g hg => hf g (List.mem_cons_of_mem f hg)
    have hcut := ih (Nat.mod_lt w (Nat.two_pow_pos _)) hrest
    rw [hasFields_mod le_rfl] at hcut
    have hlow := pack_lt fs hrest
    have htop : fld w (fs.map (·.2)).sum f.2 = w / 2 ^ (fs.map (·.2)).sum := by
      refine Nat.mod_eq_of_lt (Nat.div_lt_of_lt_mul ?_)
      simpa [Nat.pow_add, Nat.mul_comm] using hw
    rw [HasFields, htop, ← hcut, pack_cons]
    calc w = f.1 * 2 ^ (fs.map (·.2)).sum + pack fs
      _ ↔ pack fs + 2 ^ (fs.map (·.2)).sum * f.1 = w ∧ pack fs < 2 ^ (fs.map (·.2)).sum := by
        rw [and_iff_left hlow, Nat.mul_comm, Nat.add_comm, eq_comm]
      _ ↔ w / 2 ^ (fs.map (·.2)).sum = f.1 ∧ w % 2 ^ (fs.map (·.2)).sum = pack fs := (Nat.div_mod_unique (Nat.two_pow_pos _)).symm

/-! ## What reading back gives -/

theorem bind_eq_ok {ε α β : Type} {x : Except ε α} {f : α → Except ε β} {b : β} : (x >>= f) = .ok b ↔ ∃ a, x = .ok a ∧ f a = .ok b := by
  cases x <;> simp [bind, Except.bind]
theorem map_eq_ok {ε α β : Type} {x : Except ε α} {f : α → β} {b : β} : f <$> x = .ok b ↔ ∃ a, x = .ok a ∧ f a = b := by
  cases x <;> simp
theorem coded_eq_ok {α : Type} {x : Option α} {v : α} : coded x = .ok v ↔ x = some v := by cases x <;> simp [coded]
theorem zeroField_eq_ok {v : Nat} {u : Unit} : zeroField v = .ok u ↔ v = 0 := by unfold zeroField; split <;> simp [*]
theorem zeroField_seqRight_eq_ok {α : Type} {v : Nat} {x : Except DecodeError α} {b : α} : zeroField v *> x = .ok b ↔ v = 0 ∧ x = .ok b := by
  unfold zeroField
  split <;> cases x <;> simp [SeqRight.seqRight, Except.bind, *]

theorem fld_lt (w lo n : Nat) : fld w lo n < 2 ^ n := Nat.mod_lt _ (Nat.two_pow_pos n)

/-- A field is its lower bits and its upper bits. -/
theorem fld_split {w lo m n x : Nat} : fld w lo (m + n) = x ↔ fld w lo m = x % 2 ^ m ∧ fld w (lo + m) n = x / 2 ^ m := by
  have hsum : fld w lo (m + n) = fld w lo m + 2 ^ m * fld w (lo + m) n := by
    rw [fld, fld, fld, Nat.pow_add, Nat.mod_mul, Nat.pow_add, Nat.div_div_eq_div_mul]
  rw [hsum, and_comm, eq_comm (a := fld w lo m), eq_comm (a := fld w (lo + m) n), Nat.div_mod_unique (Nat.two_pow_pos m)]
  exact (and_iff_left (fld_lt w lo m)).symm

theorem fld_split_zero {w m n x : Nat} : fld w 0 (m + n) = x ↔ fld w 0 m = x % 2 ^ m ∧ fld w m n = x / 2 ^ m := by
  simpa using fld_split (lo := 0)

/-- A field is read as the number of its bits. -/
theorem ofNat_fld_eq_iff {w lo n : Nat} {x : BitVec n} : BitVec.ofNat n (fld w lo n) = x ↔ fld w lo n = x.toNat := by
  rw [BitVec.toNat_eq, BitVec.toNat_ofNat, Nat.mod_eq_of_lt (fld_lt w lo n)]

theorem decide_fld_eq_iff {w lo : Nat} {b : Bool} : decide (fld w lo 1 = 1) = b ↔ fld w lo 1 = b.toNat := by
  have := fld_lt w lo 1
  cases b <;> simp; omega

theorem guardOf_eq_iff {w : Nat} {g : Guard} : guardOf w = g ↔ fld w 28 4 = g.code := by
  have hp := g.p.isLt
  rw [fld_split (m := 3) (n := 1), guardOf, show g = ⟨g.neg, g.p⟩ from rfl, Guard.mk.injEq, ofNat_fld_eq_iff, decide_fld_eq_iff, Guard.code, and_comm]
  cases g.neg <;> simp <;> omega

theorem Scope.ofCode_eq_some {n : Nat} {x : Scope} : Scope.ofCode n = some x ↔ n = x.code := by
  constructor
  · intro h; unfold Scope.ofCode at h; split at h <;> cases h <;> rfl
  · rintro rfl; cases x <;> rfl

theorem FFmt.ofCode_eq_some {n : Nat} {x : FFmt} : FFmt.ofCode n = some x ↔ n = x.code := by
  constructor
  · intro h; unfold FFmt.ofCode at h; split at h <;> cases h <;> rfl
  · rintro rfl; cases x <;> rfl

theorem VTy.ofCode_eq_some {n : Nat} {x : VTy} : VTy.ofCode n = some x ↔ n = x.code := by
  constructor
  · intro h; unfold VTy.ofCode at h; split at h <;> cases h <;> rfl
  · rintro rfl; cases x <;> rfl

theorem CTy.ofCode_eq_some {n : Nat} {x : CTy} : CTy.ofCode n = some x ↔ n = x.code := by
  constructor
  · intro h; unfold CTy.ofCode at h; split at h <;> cases h <;> rfl
  · rintro rfl; cases x <;> rfl

theorem LSize.ofCode_eq_some {n : Nat} {x : LSize} : LSize.ofCode n = some x ↔ n = x.code := by
  constructor
  · intro h; unfold LSize.ofCode at h; split at h <;> cases h <;> rfl
  · rintro rfl; cases x <;> rfl

theorem Rm.ofCode_eq_some {n : Nat} {x : Rm} : Rm.ofCode n = some x ↔ n = x.code := by
  constructor
  · intro h; unfold Rm.ofCode at h; split at h <;> cases h <;> rfl
  · rintro rfl; cases x <;> rfl

/-! ## The payload formats: a word is the packing of o exactly if its opcode fields are those and it unpacks to o -/

theorem packRRR_eq_iff {w maj f : Nat} (hw : w < 2 ^ 32) (hm : maj < 64) (hf : f < 16) (o : RRR) :
    packRRR maj f o = w ↔ fld w 22 6 = maj ∧ fld w 0 4 = f ∧ unpackRRR w = .ok o := by
  rw [eq_comm, packRRR, eq_pack_iff hw (by simp only [List.forall_mem_cons]; exact ⟨Guard.code_lt _, hm, BitVec.isLt _, BitVec.isLt _, BitVec.isLt _,
      hf, List.forall_mem_nil _⟩)]
  cases o
  simp [HasFields, unpackRRR, guardOf_eq_iff, ofNat_fld_eq_iff]
  tauto

theorem packRR_eq_iff {w maj f : Nat} (hw : w < 2 ^ 32) (hm : maj < 64) (hf : f < 1024) (o : RR) :
    packRR maj f o = w ↔ fld w 22 6 = maj ∧ fld w 0 10 = f ∧ unpackRR w = .ok o := by
  rw [eq_comm, packRR, eq_pack_iff hw (by simp only [List.forall_mem_cons]; exact ⟨Guard.code_lt _, hm, BitVec.isLt _, BitVec.isLt _, hf,
      List.forall_mem_nil _⟩)]
  cases o
  simp [HasFields, unpackRR, guardOf_eq_iff, ofNat_fld_eq_iff]
  tauto

theorem packRRI_eq_iff {w maj : Nat} (hw : w < 2 ^ 32) (hm : maj < 64) (o : RRI) : packRRI maj o = w ↔ fld w 22 6 = maj ∧ unpackRRI w = .ok o := by
  rw [eq_comm, packRRI, eq_pack_iff hw (by simp only [List.forall_mem_cons]; exact ⟨Guard.code_lt _, hm, BitVec.isLt _, BitVec.isLt _, BitVec.isLt _,
      List.forall_mem_nil _⟩)]
  cases o
  simp [HasFields, unpackRRI, guardOf_eq_iff, ofNat_fld_eq_iff]
  tauto

theorem packSHI_eq_iff {w maj f : Nat} (hw : w < 2 ^ 32) (hm : maj < 64) (hf : f < 4) (o : SHI) :
    packSHI maj f o = w ↔ fld w 22 6 = maj ∧ fld w 8 2 = f ∧ unpackSHI w = .ok o := by
  rw [eq_comm, packSHI, eq_pack_iff hw (by simp only [List.forall_mem_cons]; exact ⟨Guard.code_lt _, hm, BitVec.isLt _, BitVec.isLt _, hf, by decide,
      BitVec.isLt _, List.forall_mem_nil _⟩)]
  cases o
  simp [HasFields, unpackSHI, bind_eq_ok, zeroField_eq_ok, guardOf_eq_iff, ofNat_fld_eq_iff]
  tauto

theorem packRI_eq_iff {w maj : Nat} (hw : w < 2 ^ 32) (hm : maj < 64) (o : RI) : packRI maj o = w ↔ fld w 22 6 = maj ∧ unpackRI w = .ok o := by
  rw [eq_comm, packRI, eq_pack_iff hw (by simp only [List.forall_mem_cons]; exact ⟨Guard.code_lt _, hm, BitVec.isLt _, BitVec.isLt _,
      List.forall_mem_nil _⟩)]
  cases o
  simp [HasFields, unpackRI, guardOf_eq_iff, ofNat_fld_eq_iff]
  tauto

theorem packCP_eq_iff {w maj f : Nat} (hw : w < 2 ^ 32) (hm : maj < 64) (hf : f < 16) (o : CP) :
    packCP maj f o = w ↔ fld w 22 6 = maj ∧ fld w 0 4 = f ∧ unpackCP w = .ok o := by
  rw [eq_comm, packCP, eq_pack_iff hw (by simp only [List.forall_mem_cons]; exact ⟨Guard.code_lt _, hm, BitVec.isLt _, BitVec.isLt _, BitVec.isLt _,
      BitVec.isLt _, hf, List.forall_mem_nil _⟩)]
  cases o
  simp [HasFields, unpackCP, guardOf_eq_iff, ofNat_fld_eq_iff]
  tauto

theorem packCPI_eq_iff {w maj f : Nat} (hw : w < 2 ^ 32) (hm : maj < 64) (hf : f < 16) (o : CPI) :
    packCPI maj f o = w ↔ fld w 22 6 = maj ∧ fld w 6 4 = f ∧ unpackCPI w = .ok o := by
  rw [eq_comm, packCPI, eq_pack_iff hw (by simp only [List.forall_mem_cons]; exact ⟨Guard.code_lt _, hm, BitVec.isLt _, BitVec.isLt _, BitVec.isLt _,
      hf, BitVec.isLt _, List.forall_mem_nil _⟩)]
  cases o
  simp [HasFields, unpackCPI, guardOf_eq_iff, ofNat_fld_eq_iff]
  tauto

theorem packPL_eq_iff {w maj f : Nat} (hw : w < 2 ^ 32) (hm : maj < 64) (hf : f < 8) (o : PL) :
    packPL maj f o = w ↔ fld w 22 6 = maj ∧ fld w 10 3 = f ∧ unpackPL w = .ok o := by
  rw [eq_comm, packPL, eq_pack_iff hw (by simp only [List.forall_mem_cons]; exact ⟨Guard.code_lt _, hm, BitVec.isLt _, BitVec.isLt _, BitVec.isLt _,
      hf, by decide, List.forall_mem_nil _⟩)]
  cases o
  simp [HasFields, unpackPL, bind_eq_ok, zeroField_eq_ok, guardOf_eq_iff, ofNat_fld_eq_iff]
  tauto

theorem packFP_eq_iff {w maj f : Nat} (hw : w < 2 ^ 32) (hm : maj < 64) (hf : f < 4) (o : FP) :
    packFP maj f o = w ↔ fld w 22 6 = maj ∧ fld w 0 2 = f ∧ unpackFP w = .ok o := by
  rw [eq_comm, packFP, eq_pack_iff hw (by simp only [List.forall_mem_cons]; exact ⟨Guard.code_lt _, hm, BitVec.isLt _, BitVec.isLt _, BitVec.isLt _,
      BitVec.isLt _, FFmt.code_lt _, hf, List.forall_mem_nil _⟩)]
  cases o
  simp [HasFields, unpackFP, bind_eq_ok, coded_eq_ok, guardOf_eq_iff, ofNat_fld_eq_iff, FFmt.ofCode_eq_some]
  tauto

theorem packFR_eq_iff {w maj f : Nat} (hw : w < 2 ^ 32) (hm : maj < 64) (hf : f < 4) (o : FR) :
    packFR maj f o = w ↔ fld w 22 6 = maj ∧ fld w 0 2 = f ∧ unpackFR w = .ok o := by
  rw [eq_comm, packFR, eq_pack_iff hw (by simp only [List.forall_mem_cons]; exact ⟨Guard.code_lt _, hm, BitVec.isLt _, BitVec.isLt _, BitVec.isLt _,
      FFmt.code_lt _, hf, List.forall_mem_nil _⟩)]
  cases o
  simp [HasFields, unpackFR, bind_eq_ok, coded_eq_ok, guardOf_eq_iff, ofNat_fld_eq_iff, FFmt.ofCode_eq_some]
  tauto

theorem packFR1_eq_iff {w maj f : Nat} (hw : w < 2 ^ 32) (hm : maj < 64) (hf : f < 4) (o : FR1) :
    packFR1 maj f o = w ↔ fld w 22 6 = maj ∧ fld w 0 2 = f ∧ unpackFR1 w = .ok o := by
  rw [eq_comm, packFR1, eq_pack_iff hw (by simp only [List.forall_mem_cons]; exact ⟨Guard.code_lt _, hm, BitVec.isLt _, BitVec.isLt _, by decide,
      FFmt.code_lt _, hf, List.forall_mem_nil _⟩)]
  cases o
  simp [HasFields, unpackFR1, bind_eq_ok, zeroField_eq_ok, coded_eq_ok, guardOf_eq_iff, ofNat_fld_eq_iff, FFmt.ofCode_eq_some]
  tauto

theorem packBT_eq_iff {w maj : Nat} (hw : w < 2 ^ 32) (hm : maj < 64) (o : BT) : packBT maj o = w ↔ fld w 22 6 = maj ∧ unpackBT w = .ok o := by
  rw [eq_comm, packBT, eq_pack_iff hw (by simp only [List.forall_mem_cons]; exact ⟨Guard.code_lt _, hm, BitVec.isLt _, List.forall_mem_nil _⟩)]
  cases o
  simp [HasFields, unpackBT, guardOf_eq_iff, ofNat_fld_eq_iff]
  tauto

theorem packLD_eq_iff {w maj : Nat} (hw : w < 2 ^ 32) (hm : maj < 64) (o : LD) : packLD maj o = w ↔ fld w 22 6 = maj ∧ unpackLD w = .ok o := by
  rw [eq_comm, packLD, eq_pack_iff hw (by simp only [List.forall_mem_cons]; exact ⟨Guard.code_lt _, hm, BitVec.isLt _, BitVec.isLt _, BitVec.isLt _,
      BitVec.isLt _, List.forall_mem_nil _⟩)]
  cases o
  simp [HasFields, unpackLD, guardOf_eq_iff, ofNat_fld_eq_iff]
  tauto

theorem packST_eq_iff {w maj : Nat} (hw : w < 2 ^ 32) (hm : maj < 64) (o : ST) : packST maj o = w ↔ fld w 22 6 = maj ∧ unpackST w = .ok o := by
  rw [eq_comm, packST, eq_pack_iff hw (by simp only [List.forall_mem_cons]; exact ⟨Guard.code_lt _, hm, BitVec.isLt _, BitVec.isLt _, BitVec.isLt _,
      List.forall_mem_nil _⟩)]
  cases o
  simp [HasFields, unpackST, guardOf_eq_iff, ofNat_fld_eq_iff]
  tauto

theorem packTG_eq_iff {w maj f : Nat} (hw : w < 2 ^ 32) (hm : maj < 64) (hf : f < 16) (o : TG) :
    packTG maj f o = w ↔ fld w 22 6 = maj ∧ fld w 0 4 = f ∧ unpackTG w = .ok o := by
  rw [eq_comm, packTG, eq_pack_iff hw (by simp only [List.forall_mem_cons]; exact ⟨Guard.code_lt _, hm, by decide, BitVec.isLt _, BitVec.isLt _, hf,
      List.forall_mem_nil _⟩)]
  cases o
  simp [HasFields, unpackTG, bind_eq_ok, zeroField_eq_ok, guardOf_eq_iff, ofNat_fld_eq_iff]
  tauto

theorem packG0_eq_iff {w maj f : Nat} (hw : w < 2 ^ 32) (hm : maj < 64) (hf : f < 4194304) (o : Guard) :
    packG0 maj f o = w ↔ fld w 22 6 = maj ∧ fld w 0 22 = f ∧ unpackG0 w = .ok o := by
  rw [eq_comm, packG0, eq_pack_iff hw (by simp only [List.forall_mem_cons]; exact ⟨Guard.code_lt _, hm, hf, List.forall_mem_nil _⟩)]
  simp [HasFields, unpackG0, guardOf_eq_iff]
  tauto

theorem packLA_eq_iff {w maj : Nat} (hw : w < 2 ^ 32) (hm : maj < 64) (o : LA) : packLA maj o = w ↔ fld w 22 6 = maj ∧ unpackLA w = .ok o := by
  rw [eq_comm, packLA, eq_pack_iff hw (by simp only [List.forall_mem_cons]; exact ⟨Guard.code_lt _, hm, BitVec.isLt _, BitVec.isLt _, BitVec.isLt _,
      Scope.code_lt _, BitVec.isLt _, List.forall_mem_nil _⟩)]
  cases o
  simp [HasFields, unpackLA, bind_eq_ok, coded_eq_ok, guardOf_eq_iff, ofNat_fld_eq_iff, Scope.ofCode_eq_some]
  tauto

theorem packSL_eq_iff {w maj : Nat} (hw : w < 2 ^ 32) (hm : maj < 64) (o : SL) : packSL maj o = w ↔ fld w 22 6 = maj ∧ unpackSL w = .ok o := by
  rw [eq_comm, packSL, eq_pack_iff hw (by simp only [List.forall_mem_cons]; exact ⟨Guard.code_lt _, hm, BitVec.isLt _, BitVec.isLt _, Scope.code_lt _,
      BitVec.isLt _, List.forall_mem_nil _⟩)]
  cases o
  simp [HasFields, unpackSL, bind_eq_ok, coded_eq_ok, guardOf_eq_iff, ofNat_fld_eq_iff, Scope.ofCode_eq_some]
  tauto

theorem packVR_eq_iff {w maj f : Nat} (hw : w < 2 ^ 32) (hm : maj < 64) (hf : f < 4) (o : VR) :
    packVR maj f o = w ↔ fld w 22 6 = maj ∧ fld w 4 2 = f ∧ unpackVR w = .ok o := by
  rw [eq_comm, packVR, eq_pack_iff hw (by simp only [List.forall_mem_cons]; exact ⟨Guard.code_lt _, hm, BitVec.isLt _, BitVec.isLt _, VTy.code_lt _,
      BitVec.isLt _, hf, by decide, List.forall_mem_nil _⟩)]
  cases o
  simp [HasFields, unpackVR, bind_eq_ok, zeroField_eq_ok, coded_eq_ok, guardOf_eq_iff, ofNat_fld_eq_iff, VTy.ofCode_eq_some]
  tauto

theorem packVB_eq_iff {w maj f : Nat} (hw : w < 2 ^ 32) (hm : maj < 64) (hf : f < 16) (o : VB) :
    packVB maj f o = w ↔ fld w 22 6 = maj ∧ fld w 0 4 = f ∧ unpackVB w = .ok o := by
  rw [eq_comm, packVB, eq_pack_iff hw (by simp only [List.forall_mem_cons]; exact ⟨Guard.code_lt _, hm, BitVec.isLt _, BitVec.isLt _, by decide,
      LSize.code_lt _, hf, List.forall_mem_nil _⟩)]
  cases o
  simp [HasFields, unpackVB, bind_eq_ok, zeroField_eq_ok, coded_eq_ok, guardOf_eq_iff, ofNat_fld_eq_iff, LSize.ofCode_eq_some]
  tauto

theorem packVM_eq_iff {w maj f : Nat} (hw : w < 2 ^ 32) (hm : maj < 64) (hf : f < 16) (o : VM) :
    packVM maj f o = w ↔ fld w 22 6 = maj ∧ fld w 0 4 = f ∧ unpackVM w = .ok o := by
  rw [eq_comm, packVM, eq_pack_iff hw (by simp only [List.forall_mem_cons]; exact ⟨Guard.code_lt _, hm, BitVec.isLt _, BitVec.isLt _, BitVec.isLt _,
      LSize.code_lt _, hf, List.forall_mem_nil _⟩)]
  cases o
  simp [HasFields, unpackVM, bind_eq_ok, coded_eq_ok, guardOf_eq_iff, ofNat_fld_eq_iff, LSize.ofCode_eq_some]
  tauto

theorem packVX_eq_iff {w maj f : Nat} (hw : w < 2 ^ 32) (hm : maj < 64) (hf : f < 4) (o : VX) :
    packVX maj f o = w ↔ fld w 22 6 = maj ∧ fld w 2 2 = f ∧ unpackVX w = .ok o := by
  rw [eq_comm, packVX, eq_pack_iff hw (by simp only [List.forall_mem_cons]; exact ⟨Guard.code_lt _, hm, BitVec.isLt _, BitVec.isLt _, BitVec.isLt _,
      BitVec.isLt _, hf, LSize.code_lt _, List.forall_mem_nil _⟩)]
  cases o
  simp [HasFields, unpackVX, bind_eq_ok, coded_eq_ok, guardOf_eq_iff, ofNat_fld_eq_iff, LSize.ofCode_eq_some]
  tauto

theorem packFN_eq_iff {w maj : Nat} (hw : w < 2 ^ 32) (hm : maj < 64) (o : FN) : packFN maj o = w ↔ fld w 22 6 = maj ∧ unpackFN w = .ok o := by
  rw [eq_comm, packFN, eq_pack_iff hw (by simp only [List.forall_mem_cons]; exact ⟨Guard.code_lt _, hm, BitVec.isLt _, BitVec.isLt _, Scope.code_lt _,
      by decide, List.forall_mem_nil _⟩)]
  cases o
  simp [HasFields, unpackFN, bind_eq_ok, zeroField_eq_ok, coded_eq_ok, guardOf_eq_iff, ofNat_fld_eq_iff, Scope.ofCode_eq_some]
  tauto

theorem packVI_eq_iff {w f : Nat} (hw : w < 2 ^ 32) (hf : f < 16) (o : VI) :
    packVI (0x30 + o.size.code) f o = w ↔ fld w 22 6 = 0x30 + o.size.code ∧ fld w 0 4 = f ∧ unpackVI w o.size = .ok o := by
  have hm : 0x30 + o.size.code < 64 := by have := o.size.code_lt; omega
  rw [eq_comm, packVI, eq_pack_iff hw (by simp only [List.forall_mem_cons]; exact ⟨Guard.code_lt _, hm, BitVec.isLt _, BitVec.isLt _, BitVec.isLt _,
      BitVec.isLt _, hf, List.forall_mem_nil _⟩)]
  cases o
  simp [HasFields, unpackVI, guardOf_eq_iff, ofNat_fld_eq_iff]
  tauto

theorem packVF_eq_iff {w maj f : Nat} (hw : w < 2 ^ 32) (hm : maj < 64) (hf : f < 16) (o : VF) :
    packVF maj f o = w ↔ fld w 22 6 = maj ∧ fld w 0 4 = f ∧ unpackVF w = .ok o := by
  rw [eq_comm, packVF, eq_pack_iff hw (by simp only [List.forall_mem_cons]; exact ⟨Guard.code_lt _, hm, BitVec.isLt _, BitVec.isLt _, BitVec.isLt _,
      BitVec.isLt _, hf, List.forall_mem_nil _⟩)]
  cases o
  simp [HasFields, unpackVF, guardOf_eq_iff, ofNat_fld_eq_iff]
  tauto

theorem packVF1_eq_iff {w maj f : Nat} (hw : w < 2 ^ 32) (hm : maj < 64) (hf : f < 16) (o : VF1) :
    packVF1 maj f o = w ↔ fld w 22 6 = maj ∧ fld w 0 4 = f ∧ unpackVF1 w = .ok o := by
  rw [eq_comm, packVF1, eq_pack_iff hw (by simp only [List.forall_mem_cons]; exact ⟨Guard.code_lt _, hm, BitVec.isLt _, BitVec.isLt _, by decide,
      BitVec.isLt _, hf, List.forall_mem_nil _⟩)]
  cases o
  simp [HasFields, unpackVF1, bind_eq_ok, zeroField_eq_ok, guardOf_eq_iff, ofNat_fld_eq_iff]
  tauto

theorem packVC_eq_iff {w maj f : Nat} (hw : w < 2 ^ 32) (hm : maj < 64) (hf : f < 8) (o : VC) :
    packVC maj f o = w ↔ fld w 22 6 = maj ∧ fld w 0 3 = f ∧ unpackVC w = .ok o := by
  rw [eq_comm, packVC, eq_pack_iff hw (by simp only [List.forall_mem_cons]; exact ⟨Guard.code_lt _, hm, BitVec.isLt _, BitVec.isLt _, BitVec.isLt _,
      BitVec.isLt _, VTy.code_lt _, hf, List.forall_mem_nil _⟩)]
  cases o
  simp [HasFields, unpackVC, bind_eq_ok, coded_eq_ok, guardOf_eq_iff, ofNat_fld_eq_iff, VTy.ofCode_eq_some]
  tauto

theorem packVV_eq_iff {w maj : Nat} (hw : w < 2 ^ 32) (hm : maj < 64) (o : VV) : packVV maj o = w ↔ fld w 22 6 = maj ∧ unpackVV w = .ok o := by
  rw [eq_comm, packVV, eq_pack_iff hw (by simp only [List.forall_mem_cons]; exact ⟨Guard.code_lt _, hm, BitVec.isLt _, BitVec.isLt _, CTy.code_lt _,
      CTy.code_lt _, Rm.code_lt _, BitVec.isLt _, List.forall_mem_nil _⟩)]
  cases o
  simp [HasFields, unpackVV, bind_eq_ok, coded_eq_ok, guardOf_eq_iff, ofNat_fld_eq_iff, CTy.ofCode_eq_some, Rm.ofCode_eq_some]
  tauto

theorem packVL_eq_iff {w maj : Nat} (hw : w < 2 ^ 32) (hm : maj < 64) (o : VL) : packVL maj o = w ↔ fld w 22 6 = maj ∧ unpackVL w = .ok o := by
  rw [eq_comm, packVL, eq_pack_iff hw (by simp only [List.forall_mem_cons]; exact ⟨Guard.code_lt _, hm, BitVec.isLt _, BitVec.isLt _, BitVec.isLt _,
      BitVec.isLt _, BitVec.isLt _, List.forall_mem_nil _⟩)]
  cases o
  simp [HasFields, unpackVL, guardOf_eq_iff, ofNat_fld_eq_iff]
  tauto

theorem packVS_eq_iff {w maj : Nat} (hw : w < 2 ^ 32) (hm : maj < 64) (o : VS) : packVS maj o = w ↔ fld w 22 6 = maj ∧ unpackVS w = .ok o := by
  rw [eq_comm, packVS, eq_pack_iff hw (by simp only [List.forall_mem_cons]; exact ⟨Guard.code_lt _, hm, BitVec.isLt _, BitVec.isLt _, Rm.code_lt _,
      BitVec.isLt _, BitVec.isLt _, List.forall_mem_nil _⟩)]
  cases o
  simp [HasFields, unpackVS, bind_eq_ok, coded_eq_ok, guardOf_eq_iff, ofNat_fld_eq_iff, Rm.ofCode_eq_some]
  tauto

theorem packMM_eq_iff {w maj : Nat} (hw : w < 2 ^ 32) (hm : maj < 64) (o : MM) : packMM maj o = w ↔ fld w 22 6 = maj ∧ unpackMM w = .ok o := by
  rw [eq_comm, packMM, eq_pack_iff hw (by simp only [List.forall_mem_cons]; exact ⟨Guard.code_lt _, hm, BitVec.isLt _, BitVec.isLt _, BitVec.isLt _,
      BitVec.isLt _, BitVec.isLt _, Bool.toNat_lt _, List.forall_mem_nil _⟩)]
  cases o
  simp [HasFields, unpackMM, guardOf_eq_iff, ofNat_fld_eq_iff, decide_fld_eq_iff]
  tauto

theorem packSH_eq_iff {w maj f : Nat} (hw : w < 2 ^ 32) (hm : maj < 64) (hf : f < 16) (o : SH) :
    packSH maj f o = w ↔ fld w 22 6 = maj ∧ fld w 2 4 = f ∧ unpackSH w = .ok o := by
  rw [eq_comm, packSH, eq_pack_iff hw (by simp only [List.forall_mem_cons]; exact ⟨Guard.code_lt _, hm, BitVec.isLt _, by decide, BitVec.isLt _,
      by decide, hf, by decide, List.forall_mem_nil _⟩)]
  cases o
  simp [HasFields, unpackSH, bind_eq_ok, zeroField_eq_ok, guardOf_eq_iff, ofNat_fld_eq_iff]
  tauto

theorem packT1_eq_iff {w maj f : Nat} (hw : w < 2 ^ 32) (hm : maj < 64) (hf : f < 64) (o : T1) :
    packT1 maj f o = w ↔ fld w 22 6 = maj ∧ fld w 0 6 = f ∧ unpackT1 w = .ok o := by
  rw [eq_comm, packT1, eq_pack_iff hw (by simp only [List.forall_mem_cons]; exact ⟨Guard.code_lt _, hm, BitVec.isLt _, by decide, BitVec.isLt _, hf,
      List.forall_mem_nil _⟩)]
  cases o
  simp [HasFields, unpackT1, bind_eq_ok, zeroField_eq_ok, guardOf_eq_iff, ofNat_fld_eq_iff]
  tauto

theorem packT2_eq_iff {w maj f : Nat} (hw : w < 2 ^ 32) (hm : maj < 64) (hf : f < 64) (o : T2) :
    packT2 maj f o = w ↔ fld w 22 6 = maj ∧ fld w 0 6 = f ∧ unpackT2 w = .ok o := by
  rw [eq_comm, packT2, eq_pack_iff hw (by simp only [List.forall_mem_cons]; exact ⟨Guard.code_lt _, hm, BitVec.isLt _, BitVec.isLt _, BitVec.isLt _,
      hf, List.forall_mem_nil _⟩)]
  cases o
  simp [HasFields, unpackT2, guardOf_eq_iff, ofNat_fld_eq_iff]
  tauto

theorem packTC_eq_iff {w maj f : Nat} (hw : w < 2 ^ 32) (hm : maj < 64) (hf : f < 8) (o : TC) :
    packTC maj f o = w ↔ fld w 22 6 = maj ∧ fld w 3 3 = f ∧ unpackTC w = .ok o := by
  rw [eq_comm, packTC, eq_pack_iff hw (by simp only [List.forall_mem_cons]; exact ⟨Guard.code_lt _, hm, BitVec.isLt _, BitVec.isLt _, BitVec.isLt _,
      hf, BitVec.isLt _, List.forall_mem_nil _⟩)]
  cases o
  simp [HasFields, unpackTC, guardOf_eq_iff, ofNat_fld_eq_iff]
  tauto

theorem packTR_eq_iff {w maj f : Nat} (hw : w < 2 ^ 32) (hm : maj < 64) (hf : f < 64) (o : TR) :
    packTR maj f o = w ↔ fld w 22 6 = maj ∧ fld w 0 6 = f ∧ unpackTR w = .ok o := by
  rw [eq_comm, packTR, eq_pack_iff hw (by simp only [List.forall_mem_cons]; exact ⟨Guard.code_lt _, hm, by decide, BitVec.isLt _, hf,
      List.forall_mem_nil _⟩)]
  cases o
  simp [HasFields, unpackTR, bind_eq_ok, zeroField_eq_ok, guardOf_eq_iff, ofNat_fld_eq_iff]
  tauto

theorem packCR_eq_iff {w maj f : Nat} (hw : w < 2 ^ 32) (hm : maj < 64) (hf : f < 64) (o : CR) :
    packCR maj f o = w ↔ fld w 22 6 = maj ∧ fld w 0 6 = f ∧ unpackCR w = .ok o := by
  rw [eq_comm, packCR, eq_pack_iff hw (by simp only [List.forall_mem_cons]; exact ⟨Guard.code_lt _, hm, BitVec.isLt _, BitVec.isLt _, hf,
      List.forall_mem_nil _⟩)]
  cases o
  simp [HasFields, unpackCR, guardOf_eq_iff, ofNat_fld_eq_iff]
  tauto

theorem packA1_eq_iff {w maj f : Nat} (hw : w < 2 ^ 32) (hm : maj < 64) (hf : f < 1024) (o : A1) :
    packA1 maj f o = w ↔ fld w 22 6 = maj ∧ fld w 0 10 = f ∧ unpackA1 w = .ok o := by
  rw [eq_comm, packA1, eq_pack_iff hw (by simp only [List.forall_mem_cons]; exact ⟨Guard.code_lt _, hm, by decide, BitVec.isLt _, hf,
      List.forall_mem_nil _⟩)]
  cases o
  simp [HasFields, unpackA1, bind_eq_ok, zeroField_eq_ok, guardOf_eq_iff, ofNat_fld_eq_iff]
  tauto

theorem packD1_eq_iff {w maj f : Nat} (hw : w < 2 ^ 32) (hm : maj < 64) (hf : f < 1024) (o : D1) :
    packD1 maj f o = w ↔ fld w 22 6 = maj ∧ fld w 0 10 = f ∧ unpackD1 w = .ok o := by
  rw [eq_comm, packD1, eq_pack_iff hw (by simp only [List.forall_mem_cons]; exact ⟨Guard.code_lt _, hm, BitVec.isLt _, by decide, hf,
      List.forall_mem_nil _⟩)]
  cases o
  simp [HasFields, unpackD1, bind_eq_ok, zeroField_eq_ok, guardOf_eq_iff, ofNat_fld_eq_iff]
  tauto

theorem packWH_eq_iff {w maj f : Nat} (hw : w < 2 ^ 32) (hm : maj < 64) (hf : f < 64) (o : WH) :
    packWH maj f o = w ↔ fld w 22 6 = maj ∧ fld w 0 6 = f ∧ unpackWH w = .ok o := by
  rw [eq_comm, packWH, eq_pack_iff hw (by simp only [List.forall_mem_cons]; exact ⟨Guard.code_lt _, hm, BitVec.isLt _, by decide, BitVec.isLt _, hf,
      List.forall_mem_nil _⟩)]
  cases o
  simp [HasFields, unpackWH, bind_eq_ok, zeroField_eq_ok, guardOf_eq_iff, ofNat_fld_eq_iff]
  tauto

/-- An integer vector word is encoded under the major that names its lane size. -/
theorem packVI_of_unpackVI {w f : Nat} {z : LSize} {o : VI} (hw : w < 2 ^ 32) (hf : f < 16) (ho : unpackVI w z = .ok o)
    (hm : fld w 22 6 = 0x30 + z.code) (hs : fld w 0 4 = f) : packVI (0x30 + o.size.code) f o = w := by
  obtain rfl : o.size = z := by cases ho; rfl
  exact (packVI_eq_iff hw hf o).mpr ⟨hm, hs, ho⟩

/-! ## The opcode map (R51): a word that decodes is the encoding of its instruction -/

theorem encodeNat_of_decode00 {w : Nat} {i : Instr} (hw : w < 2 ^ 32) (hm : fld w 22 6 = 0x00) (h : decode00 w = .ok i) :
    encodeNat i = some w := by
  unfold decode00 at h
  split at h
  case h_17 => cases h
  all_goals
    obtain ⟨o, ho, rfl⟩ := map_eq_ok.mp h
    simp [encodeNat, packRRR_eq_iff hw, *]

theorem encodeNat_of_decode01 {w : Nat} {i : Instr} (hw : w < 2 ^ 32) (hm : fld w 22 6 = 0x01) (h : decode01 w = .ok i) :
    encodeNat i = some w := by
  have split0 (x : Nat) : fld w 0 10 = x ↔ fld w 0 4 = x % 2 ^ 4 ∧ fld w 4 6 = x / 2 ^ 4 := fld_split (m := 4) (n := 6)
  unfold decode01 at h
  split at h
  case h_9 | h_10 | h_11 | h_12 =>
    obtain ⟨hz, hi⟩ := zeroField_seqRight_eq_ok.mp h
    obtain ⟨o, ho, rfl⟩ := map_eq_ok.mp hi
    simp [encodeNat, packRR_eq_iff hw, *]
  case h_15 => cases h
  all_goals
    obtain ⟨o, ho, rfl⟩ := map_eq_ok.mp h
    simp [encodeNat, packRRR_eq_iff hw, *]

theorem encodeNat_of_decode06 {w : Nat} {i : Instr} (hw : w < 2 ^ 32) (hm : fld w 22 6 = 0x06) (h : decode06 w = .ok i) :
    encodeNat i = some w := by
  unfold decode06 at h
  split at h
  case h_5 => cases h
  all_goals
    obtain ⟨o, ho, rfl⟩ := map_eq_ok.mp h
    simp [encodeNat, packSHI_eq_iff hw, *]

theorem encodeNat_of_decode09 {w : Nat} {i : Instr} (hw : w < 2 ^ 32) (hm : fld w 22 6 = 0x09) (h : decode09 w = .ok i) :
    encodeNat i = some w := by
  unfold decode09 at h
  split at h
  case h_11 => cases h
  all_goals
    obtain ⟨o, ho, rfl⟩ := map_eq_ok.mp h
    simp [encodeNat, packCP_eq_iff hw, *]

theorem encodeNat_of_decode0A {w : Nat} {i : Instr} (hw : w < 2 ^ 32) (hm : fld w 22 6 = 0x0A) (h : decode0A w = .ok i) :
    encodeNat i = some w := by
  unfold decode0A at h
  split at h
  case h_11 => cases h
  all_goals
    obtain ⟨o, ho, rfl⟩ := map_eq_ok.mp h
    simp [encodeNat, packCPI_eq_iff hw, *]

theorem encodeNat_of_decode0B {w : Nat} {i : Instr} (hw : w < 2 ^ 32) (hm : fld w 22 6 = 0x0B) (h : decode0B w = .ok i) :
    encodeNat i = some w := by
  unfold decode0B at h
  split at h
  case h_9 => cases h
  all_goals
    obtain ⟨o, ho, rfl⟩ := map_eq_ok.mp h
    simp [encodeNat, packPL_eq_iff hw, *]

theorem encodeNat_of_decode0C {w : Nat} {i : Instr} (hw : w < 2 ^ 32) (hm : fld w 22 6 = 0x0C) (h : decode0C w = .ok i) :
    encodeNat i = some w := by
  unfold decode0C at h
  split at h
  case h_5 => cases h
  all_goals
    obtain ⟨o, ho, rfl⟩ := map_eq_ok.mp h
    simp [encodeNat, packFP_eq_iff hw, *]

theorem encodeNat_of_decode0D {w : Nat} {i : Instr} (hw : w < 2 ^ 32) (hm : fld w 22 6 = 0x0D) (h : decode0D w = .ok i) :
    encodeNat i = some w := by
  unfold decode0D at h
  split at h
  case h_5 => cases h
  all_goals
    obtain ⟨o, ho, rfl⟩ := map_eq_ok.mp h
    simp [encodeNat, packFR_eq_iff hw, *]

theorem encodeNat_of_decode0E {w : Nat} {i : Instr} (hw : w < 2 ^ 32) (hm : fld w 22 6 = 0x0E) (h : decode0E w = .ok i) :
    encodeNat i = some w := by
  unfold decode0E at h
  split at h
  case h_5 => cases h
  all_goals
    obtain ⟨o, ho, rfl⟩ := map_eq_ok.mp h
    simp [encodeNat, packFR_eq_iff hw, packFR1_eq_iff hw, *]

theorem encodeNat_of_decode0F {w : Nat} {i : Instr} (hw : w < 2 ^ 32) (hm : fld w 22 6 = 0x0F) (h : decode0F w = .ok i) :
    encodeNat i = some w := by
  have split0 (x : Nat) : fld w 0 10 = x ↔ fld w 0 4 = x % 2 ^ 4 ∧ fld w 4 6 = x / 2 ^ 4 := fld_split (m := 4) (n := 6)
  unfold decode0F at h
  split at h
  case h_1 | h_2 | h_3 | h_4 | h_5 | h_6 | h_7 | h_8 | h_9 | h_10 | h_11 | h_12 =>
    obtain ⟨hz, hi⟩ := zeroField_seqRight_eq_ok.mp h
    obtain ⟨o, ho, rfl⟩ := map_eq_ok.mp hi
    simp [encodeNat, packRR_eq_iff hw, *]
  case h_13 => cases h

theorem encodeNat_of_decode21 {w : Nat} {i : Instr} (hw : w < 2 ^ 32) (hm : fld w 22 6 = 0x21) (h : decode21 w = .ok i) :
    encodeNat i = some w := by
  have split0 (x : Nat) : fld w 0 22 = x ↔ fld w 0 4 = x % 2 ^ 4 ∧ fld w 4 18 = x / 2 ^ 4 := fld_split (m := 4) (n := 18)
  unfold decode21 at h
  split at h
  case h_8 =>
    obtain ⟨hz, hi⟩ := zeroField_seqRight_eq_ok.mp h
    obtain ⟨o, ho, rfl⟩ := map_eq_ok.mp hi
    simp [encodeNat, packG0_eq_iff hw, *]
  case h_9 => cases h
  all_goals
    obtain ⟨o, ho, rfl⟩ := map_eq_ok.mp h
    simp [encodeNat, packRRR_eq_iff hw, packTG_eq_iff hw, *]

theorem encodeNat_of_decode24 {w : Nat} {i : Instr} (hw : w < 2 ^ 32) (hm : fld w 22 6 = 0x24) (h : decode24 w = .ok i) :
    encodeNat i = some w := by
  unfold decode24 at h
  split at h
  case h_11 => cases h
  all_goals
    obtain ⟨o, ho, rfl⟩ := map_eq_ok.mp h
    simp [encodeNat, packRRR_eq_iff hw, *]

theorem encodeNat_of_decode25 {w : Nat} {i : Instr} (hw : w < 2 ^ 32) (hm : fld w 22 6 = 0x25) (h : decode25 w = .ok i) :
    encodeNat i = some w := by
  unfold decode25 at h
  split at h
  case h_4 => cases h
  all_goals
    obtain ⟨o, ho, rfl⟩ := map_eq_ok.mp h
    simp [encodeNat, packVR_eq_iff hw, *]

theorem encodeNat_of_decode26 {w : Nat} {i : Instr} (hw : w < 2 ^ 32) (hm : fld w 22 6 = 0x26) (h : decode26 w = .ok i) :
    encodeNat i = some w := by
  unfold decode26 at h
  split at h
  case h_5 => cases h
  all_goals
    obtain ⟨o, ho, rfl⟩ := map_eq_ok.mp h
    simp [encodeNat, packVB_eq_iff hw, packVM_eq_iff hw, *]

theorem encodeNat_of_decode27 {w : Nat} {i : Instr} (hw : w < 2 ^ 32) (hm : fld w 22 6 = 0x27) (h : decode27 w = .ok i) :
    encodeNat i = some w := by
  unfold decode27 at h
  split at h
  case h_5 => cases h
  all_goals
    obtain ⟨o, ho, rfl⟩ := map_eq_ok.mp h
    simp [encodeNat, packVX_eq_iff hw, *]

theorem encodeNat_of_decode28 {w : Nat} {i : Instr} (hw : w < 2 ^ 32) (hm : fld w 22 6 = 0x28) (h : decode28 w = .ok i) :
    encodeNat i = some w := by
  unfold decode28 at h
  split at h
  case h_9 => cases h
  all_goals
    obtain ⟨o, ho, rfl⟩ := map_eq_ok.mp h
    simp [encodeNat, packPL_eq_iff hw, *]

theorem encodeNat_of_decode30 {w : Nat} {i : Instr} (hw : w < 2 ^ 32) (hm : fld w 22 6 = 0x30) (h : decode30 w = .ok i) :
    encodeNat i = some w := by
  unfold decode30 at h
  split at h
  case h_17 => cases h
  all_goals
    obtain ⟨o, ho, rfl⟩ := map_eq_ok.mp h
    exact congrArg some (packVI_of_unpackVI hw (by decide) ho hm ‹_›)

theorem encodeNat_of_decode31 {w : Nat} {i : Instr} (hw : w < 2 ^ 32) (hm : fld w 22 6 = 0x31) (h : decode31 w = .ok i) :
    encodeNat i = some w := by
  unfold decode31 at h
  split at h
  case h_17 => cases h
  all_goals
    obtain ⟨o, ho, rfl⟩ := map_eq_ok.mp h
    exact congrArg some (packVI_of_unpackVI hw (by decide) ho hm ‹_›)

theorem encodeNat_of_decode32 {w : Nat} {i : Instr} (hw : w < 2 ^ 32) (hm : fld w 22 6 = 0x32) (h : decode32 w = .ok i) :
    encodeNat i = some w := by
  unfold decode32 at h
  split at h
  case h_17 => cases h
  all_goals
    obtain ⟨o, ho, rfl⟩ := map_eq_ok.mp h
    exact congrArg some (packVI_of_unpackVI hw (by decide) ho hm ‹_›)

theorem encodeNat_of_decode33 {w : Nat} {i : Instr} (hw : w < 2 ^ 32) (hm : fld w 22 6 = 0x33) (h : decode33 w = .ok i) :
    encodeNat i = some w := by
  unfold decode33 at h
  split at h
  case h_15 => cases h
  all_goals
    obtain ⟨o, ho, rfl⟩ := map_eq_ok.mp h
    simp [encodeNat, packVF_eq_iff hw, packVF1_eq_iff hw, *]

theorem encodeNat_of_decode34 {w : Nat} {i : Instr} (hw : w < 2 ^ 32) (hm : fld w 22 6 = 0x34) (h : decode34 w = .ok i) :
    encodeNat i = some w := by
  unfold decode34 at h
  split at h
  case h_15 => cases h
  all_goals
    obtain ⟨o, ho, rfl⟩ := map_eq_ok.mp h
    simp [encodeNat, packVF_eq_iff hw, packVF1_eq_iff hw, *]

theorem encodeNat_of_decode35 {w : Nat} {i : Instr} (hw : w < 2 ^ 32) (hm : fld w 22 6 = 0x35) (h : decode35 w = .ok i) :
    encodeNat i = some w := by
  unfold decode35 at h
  split at h
  case h_15 => cases h
  all_goals
    obtain ⟨o, ho, rfl⟩ := map_eq_ok.mp h
    simp [encodeNat, packVF_eq_iff hw, packVF1_eq_iff hw, *]

theorem encodeNat_of_decode36 {w : Nat} {i : Instr} (hw : w < 2 ^ 32) (hm : fld w 22 6 = 0x36) (h : decode36 w = .ok i) :
    encodeNat i = some w := by
  unfold decode36 at h
  split at h
  case h_9 => cases h
  all_goals
    obtain ⟨o, ho, rfl⟩ := map_eq_ok.mp h
    simp [encodeNat, packVC_eq_iff hw, *]

theorem encodeNat_of_decode3B {w : Nat} {i : Instr} (hw : w < 2 ^ 32) (hm : fld w 22 6 = 0x3B) (h : decode3B w = .ok i) :
    encodeNat i = some w := by
  have split0 (x : Nat) : fld w 0 6 = x ↔ fld w 0 2 = x % 2 ^ 2 ∧ fld w 2 4 = x / 2 ^ 2 := fld_split (m := 2) (n := 4)
  unfold decode3B at h
  split at h
  case h_2 | h_3 | h_4 | h_5 | h_6 | h_7 | h_8 | h_9 =>
    obtain ⟨hz, hi⟩ := zeroField_seqRight_eq_ok.mp h
    obtain ⟨o, ho, rfl⟩ := map_eq_ok.mp hi
    simp [encodeNat, packT1_eq_iff hw, packT2_eq_iff hw, *]
  case h_10 => cases h
  all_goals
    obtain ⟨o, ho, rfl⟩ := map_eq_ok.mp h
    simp [encodeNat, packSH_eq_iff hw, *]

theorem encodeNat_of_decode3C {w : Nat} {i : Instr} (hw : w < 2 ^ 32) (hm : fld w 22 6 = 0x3C) (h : decode3C w = .ok i) :
    encodeNat i = some w := by
  have split0 (x : Nat) : fld w 0 6 = x ↔ fld w 0 3 = x % 2 ^ 3 ∧ fld w 3 3 = x / 2 ^ 3 := fld_split (m := 3) (n := 3)
  unfold decode3C at h
  split at h
  case h_6 =>
    obtain ⟨hz, hi⟩ := zeroField_seqRight_eq_ok.mp h
    obtain ⟨o, ho, rfl⟩ := map_eq_ok.mp hi
    simp [encodeNat, packT2_eq_iff hw, *]
  case h_8 => cases h
  all_goals
    obtain ⟨o, ho, rfl⟩ := map_eq_ok.mp h
    simp [encodeNat, packTC_eq_iff hw, *]

theorem encodeNat_of_decode3D {w : Nat} {i : Instr} (hw : w < 2 ^ 32) (hm : fld w 22 6 = 0x3D) (h : decode3D w = .ok i) :
    encodeNat i = some w := by
  unfold decode3D at h
  split at h
  case h_15 => cases h
  all_goals
    obtain ⟨o, ho, rfl⟩ := map_eq_ok.mp h
    simp [encodeNat, packT1_eq_iff hw, packT2_eq_iff hw, *]

theorem encodeNat_of_decode3E {w : Nat} {i : Instr} (hw : w < 2 ^ 32) (hm : fld w 22 6 = 0x3E) (h : decode3E w = .ok i) :
    encodeNat i = some w := by
  have split0 (x : Nat) : fld w 0 22 = x ↔ fld w 0 6 = x % 2 ^ 6 ∧ fld w 6 16 = x / 2 ^ 6 := fld_split (m := 6) (n := 16)
  have split1 (x : Nat) : fld w 0 10 = x ↔ fld w 0 6 = x % 2 ^ 6 ∧ fld w 6 4 = x / 2 ^ 6 := fld_split (m := 6) (n := 4)
  unfold decode3E at h
  split at h
  case h_1 | h_3 | h_4 | h_7 | h_8 | h_9 | h_10 | h_11 | h_12 | h_13 | h_14 | h_15 | h_17 | h_18 | h_20 | h_21 | h_22 =>
    obtain ⟨hz, hi⟩ := zeroField_seqRight_eq_ok.mp h
    obtain ⟨o, ho, rfl⟩ := map_eq_ok.mp hi
    simp [encodeNat, packA1_eq_iff hw, packD1_eq_iff hw, packG0_eq_iff hw, packRR_eq_iff hw, *]
  case h_16 =>
    have splitHigh (x : Nat) : fld w 6 4 = x ↔ fld w 6 1 = x % 2 ^ 1 ∧ fld w 7 3 = x / 2 ^ 1 := fld_split (m := 1) (n := 3)
    have hbit := fld_lt w 6 1
    obtain ⟨u, hz, hi⟩ := bind_eq_ok.mp h
    split at hi
    · obtain ⟨o, ho, rfl⟩ := map_eq_ok.mp hi
      simp [encodeNat, packA1_eq_iff hw, zeroField_eq_ok.mp hz, *]
    · obtain ⟨o, ho, rfl⟩ := map_eq_ok.mp hi
      simp [encodeNat, packA1_eq_iff hw, zeroField_eq_ok.mp hz, *]
      omega
  case h_23 => cases h
  all_goals
    obtain ⟨o, ho, rfl⟩ := map_eq_ok.mp h
    simp [encodeNat, packCR_eq_iff hw, packTR_eq_iff hw, packWH_eq_iff hw, *]

/-- A word that the opcode map decodes is the encoding of its instruction (R51). -/
theorem encodeNat_of_decodeMajor {w : Nat} {i : Instr} (hw : w < 2 ^ 32) (h : decodeMajor w = .ok i) : encodeNat i = some w := by
  unfold decodeMajor at h
  split at h
  case h_1 => exact encodeNat_of_decode00 hw ‹_› h
  case h_2 => exact encodeNat_of_decode01 hw ‹_› h
  case h_7 => exact encodeNat_of_decode06 hw ‹_› h
  case h_10 => exact encodeNat_of_decode09 hw ‹_› h
  case h_11 => exact encodeNat_of_decode0A hw ‹_› h
  case h_12 => exact encodeNat_of_decode0B hw ‹_› h
  case h_13 => exact encodeNat_of_decode0C hw ‹_› h
  case h_14 => exact encodeNat_of_decode0D hw ‹_› h
  case h_15 => exact encodeNat_of_decode0E hw ‹_› h
  case h_16 => exact encodeNat_of_decode0F hw ‹_› h
  case h_19 =>
    obtain ⟨hz, hi⟩ := zeroField_seqRight_eq_ok.mp h
    obtain ⟨o, ho, rfl⟩ := map_eq_ok.mp hi
    simp [encodeNat, packRR_eq_iff hw, *]
  case h_34 => exact encodeNat_of_decode21 hw ‹_› h
  case h_37 => exact encodeNat_of_decode24 hw ‹_› h
  case h_38 => exact encodeNat_of_decode25 hw ‹_› h
  case h_39 => exact encodeNat_of_decode26 hw ‹_› h
  case h_40 => exact encodeNat_of_decode27 hw ‹_› h
  case h_41 => exact encodeNat_of_decode28 hw ‹_› h
  case h_43 => exact encodeNat_of_decode30 hw ‹_› h
  case h_44 => exact encodeNat_of_decode31 hw ‹_› h
  case h_45 => exact encodeNat_of_decode32 hw ‹_› h
  case h_46 => exact encodeNat_of_decode33 hw ‹_› h
  case h_47 => exact encodeNat_of_decode34 hw ‹_› h
  case h_48 => exact encodeNat_of_decode35 hw ‹_› h
  case h_49 => exact encodeNat_of_decode36 hw ‹_› h
  case h_54 => exact encodeNat_of_decode3B hw ‹_› h
  case h_55 => exact encodeNat_of_decode3C hw ‹_› h
  case h_56 => exact encodeNat_of_decode3D hw ‹_› h
  case h_57 => exact encodeNat_of_decode3E hw ‹_› h
  case h_58 => cases h
  all_goals
    obtain ⟨o, ho, rfl⟩ := map_eq_ok.mp h
    simp [encodeNat, packBT_eq_iff hw, packFN_eq_iff hw, packLA_eq_iff hw, packLD_eq_iff hw, packMM_eq_iff hw, packRI_eq_iff hw, packRRI_eq_iff hw,
        packSL_eq_iff hw, packST_eq_iff hw, packVL_eq_iff hw, packVS_eq_iff hw, packVV_eq_iff hw, *]

/-! ## The opcode map (R51): the encoding of an instruction decodes to it -/

/-- The encoding of an instruction is a word that the opcode map decodes to it (R51): its fields give its major, its sub-op and its operands. -/
theorem decodeMajor_of_encodeNat {w : Nat} {i : Instr} (hw : w < 2 ^ 32) (h : encodeNat i = some w) : decodeMajor w = .ok i := by
  cases i
  case add | sub | and | or | xor | andn | shl | shr | sra | rol | min | max | minu | maxu | adds | subs =>
    obtain ⟨hm, hs, ho⟩ := (packRRR_eq_iff hw (by decide) (by decide) _).mp (Option.some.inj h)
    rw [decodeMajor, hm, decode00, hs]
    exact congrArg (Functor.map _) ho
  case mul | mulh | mulhu | mulhsu | div | divu | rem | remu | bfx | bfi =>
    obtain ⟨hm, hs, ho⟩ := (packRRR_eq_iff hw (by decide) (by decide) _).mp (Option.some.inj h)
    rw [decodeMajor, hm, decode01, hs]
    exact congrArg (Functor.map _) ho
  case clz | ctz | popc | brev =>
    obtain ⟨hm, hs, ho⟩ := (packRR_eq_iff hw (by decide) (by decide) _).mp (Option.some.inj h)
    obtain ⟨hs, hz⟩ := (fld_split_zero (m := 4) (n := 6)).mp hs
    rw [decodeMajor, hm, decode01, hs]
    exact zeroField_seqRight_eq_ok.mpr ⟨hz, congrArg (Functor.map _) ho⟩
  case addi | andi | ori | xori =>
    obtain ⟨hm, ho⟩ := (packRRI_eq_iff hw (by decide) _).mp (Option.some.inj h)
    rw [decodeMajor, hm]
    exact congrArg (Functor.map _) ho
  case shli | shri | srai | roli =>
    obtain ⟨hm, hs, ho⟩ := (packSHI_eq_iff hw (by decide) (by decide) _).mp (Option.some.inj h)
    rw [decodeMajor, hm, decode06, hs]
    exact congrArg (Functor.map _) ho
  case imm | immh | jal =>
    obtain ⟨hm, ho⟩ := (packRI_eq_iff hw (by decide) _).mp (Option.some.inj h)
    rw [decodeMajor, hm]
    exact congrArg (Functor.map _) ho
  case cmpeq | cmpne | cmplt | cmple | cmpgt | cmpge | cmpltu | cmpleu | cmpgtu | cmpgeu =>
    obtain ⟨hm, hs, ho⟩ := (packCP_eq_iff hw (by decide) (by decide) _).mp (Option.some.inj h)
    rw [decodeMajor, hm, decode09, hs]
    exact congrArg (Functor.map _) ho
  case cmpeqi | cmpnei | cmplti | cmplei | cmpgti | cmpgei | cmpltui | cmpleui | cmpgtui | cmpgeui =>
    obtain ⟨hm, hs, ho⟩ := (packCPI_eq_iff hw (by decide) (by decide) _).mp (Option.some.inj h)
    rw [decodeMajor, hm, decode0A, hs]
    exact congrArg (Functor.map _) ho
  case pand | por | pxor | pandn | porn | pnand | pnor | pxnor =>
    obtain ⟨hm, hs, ho⟩ := (packPL_eq_iff hw (by decide) (by decide) _).mp (Option.some.inj h)
    rw [decodeMajor, hm, decode0B, hs]
    exact congrArg (Functor.map _) ho
  case fcmpeq | fcmplt | fcmple | fcmpun =>
    obtain ⟨hm, hs, ho⟩ := (packFP_eq_iff hw (by decide) (by decide) _).mp (Option.some.inj h)
    rw [decodeMajor, hm, decode0C, hs]
    exact congrArg (Functor.map _) ho
  case fadd | fsub | fmul | fma =>
    obtain ⟨hm, hs, ho⟩ := (packFR_eq_iff hw (by decide) (by decide) _).mp (Option.some.inj h)
    rw [decodeMajor, hm, decode0D, hs]
    exact congrArg (Functor.map _) ho
  case fmin | fmax | fdiv =>
    obtain ⟨hm, hs, ho⟩ := (packFR_eq_iff hw (by decide) (by decide) _).mp (Option.some.inj h)
    rw [decodeMajor, hm, decode0E, hs]
    exact congrArg (Functor.map _) ho
  case fsqrt =>
    obtain ⟨hm, hs, ho⟩ := (packFR1_eq_iff hw (by decide) (by decide) _).mp (Option.some.inj h)
    rw [decodeMajor, hm, decode0E, hs]
    exact congrArg (Functor.map _) ho
  case fcvtsh | fcvtsb | fcvths | fcvtbs | fcvtsi | fcvtis | fcvthi | fcvtih | fcvtsu | fcvtus | fcvthb | fcvtbh =>
    obtain ⟨hm, hs, ho⟩ := (packRR_eq_iff hw (by decide) (by decide) _).mp (Option.some.inj h)
    obtain ⟨hs, hz⟩ := (fld_split_zero (m := 4) (n := 6)).mp hs
    rw [decodeMajor, hm, decode0F, hs]
    exact zeroField_seqRight_eq_ok.mpr ⟨hz, congrArg (Functor.map _) ho⟩
  case br =>
    obtain ⟨hm, ho⟩ := (packBT_eq_iff hw (by decide) _).mp (Option.some.inj h)
    rw [decodeMajor, hm]
    exact congrArg (Functor.map _) ho
  case jr =>
    obtain ⟨hm, hs, ho⟩ := (packRR_eq_iff hw (by decide) (by decide) _).mp (Option.some.inj h)
    rw [decodeMajor, hm]
    exact zeroField_seqRight_eq_ok.mpr ⟨hs, congrArg (Functor.map _) ho⟩
  case ldb | ldh | ldw | ldd | ldbu | ldhu | ldwu | ldx | ldp =>
    obtain ⟨hm, ho⟩ := (packLD_eq_iff hw (by decide) _).mp (Option.some.inj h)
    rw [decodeMajor, hm]
    exact congrArg (Functor.map _) ho
  case stb | sth | stw | std | stx =>
    obtain ⟨hm, ho⟩ := (packST_eq_iff hw (by decide) _).mp (Option.some.inj h)
    rw [decodeMajor, hm]
    exact congrArg (Functor.map _) ho
  case tempty | tfull | twaitf | twaite | watch | unwatch =>
    obtain ⟨hm, hs, ho⟩ := (packTG_eq_iff hw (by decide) (by decide) _).mp (Option.some.inj h)
    rw [decodeMajor, hm, decode21, hs]
    exact congrArg (Functor.map _) ho
  case tqry =>
    obtain ⟨hm, hs, ho⟩ := (packRRR_eq_iff hw (by decide) (by decide) _).mp (Option.some.inj h)
    rw [decodeMajor, hm, decode21, hs]
    exact congrArg (Functor.map _) ho
  case waitw =>
    obtain ⟨hm, hs, ho⟩ := (packG0_eq_iff hw (by decide) (by decide) _).mp (Option.some.inj h)
    obtain ⟨hs, hz⟩ := (fld_split_zero (m := 4) (n := 18)).mp hs
    rw [decodeMajor, hm, decode21, hs]
    exact zeroField_seqRight_eq_ok.mpr ⟨hz, congrArg (Functor.map _) ho⟩
  case lda =>
    obtain ⟨hm, ho⟩ := (packLA_eq_iff hw (by decide) _).mp (Option.some.inj h)
    rw [decodeMajor, hm]
    exact congrArg (Functor.map _) ho
  case stl =>
    obtain ⟨hm, ho⟩ := (packSL_eq_iff hw (by decide) _).mp (Option.some.inj h)
    rw [decodeMajor, hm]
    exact congrArg (Functor.map _) ho
  case amoadd | amosmin | amosmax | amoumin | amoumax | amoand | amoor | amoxor | amoswap | amocas =>
    obtain ⟨hm, hs, ho⟩ := (packRRR_eq_iff hw (by decide) (by decide) _).mp (Option.some.inj h)
    rw [decodeMajor, hm, decode24, hs]
    exact congrArg (Functor.map _) ho
  case vrsum | vrmax | vrmin =>
    obtain ⟨hm, hs, ho⟩ := (packVR_eq_iff hw (by decide) (by decide) _).mp (Option.some.inj h)
    rw [decodeMajor, hm, decode25, hs]
    exact congrArg (Functor.map _) ho
  case vbcast =>
    obtain ⟨hm, hs, ho⟩ := (packVB_eq_iff hw (by decide) (by decide) _).mp (Option.some.inj h)
    rw [decodeMajor, hm, decode26, hs]
    exact congrArg (Functor.map _) ho
  case vext | vexts | vins =>
    obtain ⟨hm, hs, ho⟩ := (packVM_eq_iff hw (by decide) (by decide) _).mp (Option.some.inj h)
    rw [decodeMajor, hm, decode26, hs]
    exact congrArg (Functor.map _) ho
  case vsel | vperm | vzip | vunzip =>
    obtain ⟨hm, hs, ho⟩ := (packVX_eq_iff hw (by decide) (by decide) _).mp (Option.some.inj h)
    rw [decodeMajor, hm, decode27, hs]
    exact congrArg (Functor.map _) ho
  case qand | qor | qxor | qandn | qorn | qnand | qnor | qxnor =>
    obtain ⟨hm, hs, ho⟩ := (packPL_eq_iff hw (by decide) (by decide) _).mp (Option.some.inj h)
    rw [decodeMajor, hm, decode28, hs]
    exact congrArg (Functor.map _) ho
  case fence =>
    obtain ⟨hm, ho⟩ := (packFN_eq_iff hw (by decide) _).mp (Option.some.inj h)
    rw [decodeMajor, hm]
    exact congrArg (Functor.map _) ho
  case vaddI o | vsubI o | vmulI o | vmulhI o | vminI o | vmaxI o | vminu o | vmaxu o | vand o | vor o | vxor o | vandn o | vshl o
      | vshr o | vsra o | vadds o =>
    obtain ⟨hm, hs, ho⟩ := (packVI_eq_iff hw (by decide) _).mp (Option.some.inj h)
    obtain ⟨gu, size, vd, va, vb, q⟩ := o
    cases size
    · rw [decodeMajor, hm, decode30, hs]; exact congrArg (Functor.map _) ho
    · rw [decodeMajor, hm, decode31, hs]; exact congrArg (Functor.map _) ho
    · rw [decodeMajor, hm, decode32, hs]; exact congrArg (Functor.map _) ho
  case vaddF16 | vsubF16 | vmulF16 | vfmaF16 | vminF16 | vmaxF16 | vdivF16 =>
    obtain ⟨hm, hs, ho⟩ := (packVF_eq_iff hw (by decide) (by decide) _).mp (Option.some.inj h)
    rw [decodeMajor, hm, decode33, hs]
    exact congrArg (Functor.map _) ho
  case vabsF16 | vnegF16 | vsqrtF16 | vexp2F16 | vlog2F16 | vrcpF16 | vrsqF16 =>
    obtain ⟨hm, hs, ho⟩ := (packVF1_eq_iff hw (by decide) (by decide) _).mp (Option.some.inj h)
    rw [decodeMajor, hm, decode33, hs]
    exact congrArg (Functor.map _) ho
  case vaddBf16 | vsubBf16 | vmulBf16 | vfmaBf16 | vminBf16 | vmaxBf16 | vdivBf16 =>
    obtain ⟨hm, hs, ho⟩ := (packVF_eq_iff hw (by decide) (by decide) _).mp (Option.some.inj h)
    rw [decodeMajor, hm, decode34, hs]
    exact congrArg (Functor.map _) ho
  case vabsBf16 | vnegBf16 | vsqrtBf16 | vexp2Bf16 | vlog2Bf16 | vrcpBf16 | vrsqBf16 =>
    obtain ⟨hm, hs, ho⟩ := (packVF1_eq_iff hw (by decide) (by decide) _).mp (Option.some.inj h)
    rw [decodeMajor, hm, decode34, hs]
    exact congrArg (Functor.map _) ho
  case vaddF32 | vsubF32 | vmulF32 | vfmaF32 | vminF32 | vmaxF32 | vdivF32 =>
    obtain ⟨hm, hs, ho⟩ := (packVF_eq_iff hw (by decide) (by decide) _).mp (Option.some.inj h)
    rw [decodeMajor, hm, decode35, hs]
    exact congrArg (Functor.map _) ho
  case vabsF32 | vnegF32 | vsqrtF32 | vexp2F32 | vlog2F32 | vrcpF32 | vrsqF32 =>
    obtain ⟨hm, hs, ho⟩ := (packVF1_eq_iff hw (by decide) (by decide) _).mp (Option.some.inj h)
    rw [decodeMajor, hm, decode35, hs]
    exact congrArg (Functor.map _) ho
  case vcmpeq | vcmpne | vcmplt | vcmple | vcmpltu | vcmpleu | vcmpun | vcmpord =>
    obtain ⟨hm, hs, ho⟩ := (packVC_eq_iff hw (by decide) (by decide) _).mp (Option.some.inj h)
    rw [decodeMajor, hm, decode36, hs]
    exact congrArg (Functor.map _) ho
  case vcvt =>
    obtain ⟨hm, ho⟩ := (packVV_eq_iff hw (by decide) _).mp (Option.some.inj h)
    rw [decodeMajor, hm]
    exact congrArg (Functor.map _) ho
  case vld =>
    obtain ⟨hm, ho⟩ := (packVL_eq_iff hw (by decide) _).mp (Option.some.inj h)
    rw [decodeMajor, hm]
    exact congrArg (Functor.map _) ho
  case vst =>
    obtain ⟨hm, ho⟩ := (packVS_eq_iff hw (by decide) _).mp (Option.some.inj h)
    rw [decodeMajor, hm]
    exact congrArg (Functor.map _) ho
  case mma =>
    obtain ⟨hm, ho⟩ := (packMM_eq_iff hw (by decide) _).mp (Option.some.inj h)
    rw [decodeMajor, hm]
    exact congrArg (Functor.map _) ho
  case shape =>
    obtain ⟨hm, hs, ho⟩ := (packSH_eq_iff hw (by decide) (by decide) _).mp (Option.some.inj h)
    rw [decodeMajor, hm, decode3B, hs]
    exact congrArg (Functor.map _) ho
  case acz =>
    obtain ⟨hm, hs, ho⟩ := (packT1_eq_iff hw (by decide) (by decide) _).mp (Option.some.inj h)
    obtain ⟨hs, hz⟩ := (fld_split_zero (m := 2) (n := 4)).mp hs
    rw [decodeMajor, hm, decode3B, hz]
    exact zeroField_seqRight_eq_ok.mpr ⟨hs, congrArg (Functor.map _) ho⟩
  case drain | table | rowsum | colsum | pack | unpack | aread =>
    obtain ⟨hm, hs, ho⟩ := (packT2_eq_iff hw (by decide) (by decide) _).mp (Option.some.inj h)
    obtain ⟨hs, hz⟩ := (fld_split_zero (m := 2) (n := 4)).mp hs
    rw [decodeMajor, hm, decode3B, hz]
    exact zeroField_seqRight_eq_ok.mpr ⟨hs, congrArg (Functor.map _) ho⟩
  case copy | copys | copya | mcast | redg | fetchin =>
    obtain ⟨hm, hs, ho⟩ := (packTC_eq_iff hw (by decide) (by decide) _).mp (Option.some.inj h)
    rw [decodeMajor, hm, decode3C, hs]
    exact congrArg (Functor.map _) ho
  case flushout =>
    obtain ⟨hm, hs, ho⟩ := (packT2_eq_iff hw (by decide) (by decide) _).mp (Option.some.inj h)
    obtain ⟨hs, hz⟩ := (fld_split_zero (m := 3) (n := 3)).mp hs
    rw [decodeMajor, hm, decode3C, hz]
    exact zeroField_seqRight_eq_ok.mpr ⟨hs, congrArg (Functor.map _) ho⟩
  case mkch | rebind | send | recv | sendt | recvt | sendd | pull | alt | altf | probe =>
    obtain ⟨hm, hs, ho⟩ := (packT2_eq_iff hw (by decide) (by decide) _).mp (Option.some.inj h)
    rw [decodeMajor, hm, decode3D, hs]
    exact congrArg (Functor.map _) ho
  case close | bind | dropw =>
    obtain ⟨hm, hs, ho⟩ := (packT1_eq_iff hw (by decide) (by decide) _).mp (Option.some.inj h)
    rw [decodeMajor, hm, decode3D, hs]
    exact congrArg (Functor.map _) ho
  case nop | trapret | halt | exit | yield | ifence =>
    obtain ⟨hm, hs, ho⟩ := (packG0_eq_iff hw (by decide) (by decide) _).mp (Option.some.inj h)
    obtain ⟨hs, hz⟩ := (fld_split_zero (m := 6) (n := 16)).mp hs
    rw [decodeMajor, hm, decode3E, hs]
    exact zeroField_seqRight_eq_ok.mpr ⟨hz, congrArg (Functor.map _) ho⟩
  case trap =>
    obtain ⟨hm, hs, ho⟩ := (packTR_eq_iff hw (by decide) (by decide) _).mp (Option.some.inj h)
    rw [decodeMajor, hm, decode3E, hs]
    exact congrArg (Functor.map _) ho
  case ctlr | ctlw =>
    obtain ⟨hm, hs, ho⟩ := (packCR_eq_iff hw (by decide) (by decide) _).mp (Option.some.inj h)
    rw [decodeMajor, hm, decode3E, hs]
    exact congrArg (Functor.map _) ho
  case spawn | prio | qarm | gopen | streamres =>
    obtain ⟨hm, hs, ho⟩ := (packRR_eq_iff hw (by decide) (by decide) _).mp (Option.some.inj h)
    obtain ⟨hs, hz⟩ := (fld_split_zero (m := 6) (n := 4)).mp hs
    rw [decodeMajor, hm, decode3E, hs]
    exact zeroField_seqRight_eq_ok.mpr ⟨hz, congrArg (Functor.map _) ho⟩
  case sleep | tlbinv | repart | pset =>
    obtain ⟨hm, hs, ho⟩ := (packA1_eq_iff hw (by decide) (by decide) _).mp (Option.some.inj h)
    obtain ⟨hs, hz⟩ := (fld_split_zero (m := 6) (n := 4)).mp hs
    rw [decodeMajor, hm, decode3E, hs]
    exact zeroField_seqRight_eq_ok.mpr ⟨hz, congrArg (Functor.map _) ho⟩
  case gfree | pget =>
    obtain ⟨hm, hs, ho⟩ := (packD1_eq_iff hw (by decide) (by decide) _).mp (Option.some.inj h)
    obtain ⟨hs, hz⟩ := (fld_split_zero (m := 6) (n := 4)).mp hs
    rw [decodeMajor, hm, decode3E, hs]
    exact zeroField_seqRight_eq_ok.mpr ⟨hz, congrArg (Functor.map _) ho⟩
  case whoami =>
    obtain ⟨hm, hs, ho⟩ := (packWH_eq_iff hw (by decide) (by decide) _).mp (Option.some.inj h)
    rw [decodeMajor, hm, decode3E, hs]
    exact congrArg (Functor.map _) ho
  case ckptSave | ckptRestore =>
    obtain ⟨hm, hs, ho⟩ := (packA1_eq_iff hw (by decide) (by decide) _).mp (Option.some.inj h)
    obtain ⟨hs, hz⟩ := (fld_split_zero (m := 6) (n := 4)).mp hs
    obtain ⟨hlow, hhigh⟩ := (fld_split (lo := 6) (m := 1) (n := 3)).mp hz
    simp [decodeMajor, decode3E, zeroField, hm, hs, hlow, hhigh, ho]
    rfl
  all_goals cases h

/-! ## Words (R39) -/

/-- Every word's number has 32 bits. -/
theorem Laws.Coded.all (i : Instr) : Coded.Statement i :=
  Instr.rec (motive := Coded.Statement)
    Coded.add Coded.sub Coded.and Coded.or Coded.xor Coded.andn Coded.shl Coded.shr Coded.sra Coded.rol Coded.min Coded.max Coded.minu
    Coded.maxu Coded.adds Coded.subs Coded.mul Coded.mulh Coded.mulhu Coded.mulhsu Coded.div Coded.divu Coded.rem Coded.remu Coded.clz
    Coded.ctz Coded.popc Coded.brev Coded.bfx Coded.bfi Coded.addi Coded.andi Coded.ori Coded.xori Coded.shli Coded.shri Coded.srai
    Coded.roli Coded.imm Coded.immh Coded.cmpeq Coded.cmpne Coded.cmplt Coded.cmple Coded.cmpgt Coded.cmpge Coded.cmpltu Coded.cmpleu
    Coded.cmpgtu Coded.cmpgeu Coded.cmpeqi Coded.cmpnei Coded.cmplti Coded.cmplei Coded.cmpgti Coded.cmpgei Coded.cmpltui Coded.cmpleui
    Coded.cmpgtui Coded.cmpgeui Coded.pand Coded.por Coded.pxor Coded.pandn Coded.porn Coded.pnand Coded.pnor Coded.pxnor Coded.fcmpeq
    Coded.fcmplt Coded.fcmple Coded.fcmpun Coded.fadd Coded.fsub Coded.fmul Coded.fma Coded.fmin Coded.fmax Coded.fdiv Coded.fsqrt
    Coded.fcvtsh Coded.fcvtsb Coded.fcvths Coded.fcvtbs Coded.fcvtsi Coded.fcvtis Coded.fcvthi Coded.fcvtih Coded.fcvtsu Coded.fcvtus
    Coded.fcvthb Coded.fcvtbh Coded.br Coded.jal Coded.jr Coded.ldb Coded.ldh Coded.ldw Coded.ldd Coded.ldbu Coded.ldhu Coded.ldwu Coded.stb
    Coded.sth Coded.stw Coded.std Coded.ldx Coded.ldp Coded.stx Coded.tempty Coded.tfull Coded.tqry Coded.twaitf Coded.twaite Coded.watch
    Coded.unwatch Coded.waitw Coded.lda Coded.stl Coded.amoadd Coded.amosmin Coded.amosmax Coded.amoumin Coded.amoumax Coded.amoand
    Coded.amoor Coded.amoxor Coded.amoswap Coded.amocas Coded.vrsum Coded.vrmax Coded.vrmin Coded.vbcast Coded.vext Coded.vexts Coded.vins
    Coded.vsel Coded.vperm Coded.vzip Coded.vunzip Coded.qand Coded.qor Coded.qxor Coded.qandn Coded.qorn Coded.qnand Coded.qnor Coded.qxnor
    Coded.fence Coded.vaddI Coded.vsubI Coded.vmulI Coded.vmulhI Coded.vminI Coded.vmaxI Coded.vminu Coded.vmaxu Coded.vand Coded.vor
    Coded.vxor Coded.vandn Coded.vshl Coded.vshr Coded.vsra Coded.vadds Coded.vaddF16 Coded.vsubF16 Coded.vmulF16 Coded.vfmaF16
    Coded.vminF16 Coded.vmaxF16 Coded.vabsF16 Coded.vnegF16 Coded.vdivF16 Coded.vsqrtF16 Coded.vexp2F16 Coded.vlog2F16 Coded.vrcpF16
    Coded.vrsqF16 Coded.vaddBf16 Coded.vsubBf16 Coded.vmulBf16 Coded.vfmaBf16 Coded.vminBf16 Coded.vmaxBf16 Coded.vabsBf16 Coded.vnegBf16
    Coded.vdivBf16 Coded.vsqrtBf16 Coded.vexp2Bf16 Coded.vlog2Bf16 Coded.vrcpBf16 Coded.vrsqBf16 Coded.vaddF32 Coded.vsubF32 Coded.vmulF32
    Coded.vfmaF32 Coded.vminF32 Coded.vmaxF32 Coded.vabsF32 Coded.vnegF32 Coded.vdivF32 Coded.vsqrtF32 Coded.vexp2F32 Coded.vlog2F32
    Coded.vrcpF32 Coded.vrsqF32 Coded.vcmpeq Coded.vcmpne Coded.vcmplt Coded.vcmple Coded.vcmpltu Coded.vcmpleu Coded.vcmpun Coded.vcmpord
    Coded.vcvt Coded.vld Coded.vst Coded.mma Coded.shape Coded.acz Coded.drain Coded.table Coded.rowsum Coded.colsum Coded.pack Coded.unpack
    Coded.aread Coded.copy Coded.copys Coded.copya Coded.mcast Coded.redg Coded.flushout Coded.fetchin Coded.mkch Coded.close Coded.bind
    Coded.rebind Coded.send Coded.recv Coded.sendt Coded.recvt Coded.sendd Coded.pull Coded.dropw Coded.alt Coded.altf Coded.probe Coded.nop
    Coded.trap Coded.trapret Coded.halt Coded.ctlr Coded.ctlw Coded.spawn Coded.exit Coded.yield Coded.prio Coded.sleep Coded.ifence
    Coded.tlbinv Coded.repart Coded.qarm Coded.ckptSave Coded.ckptRestore Coded.gopen Coded.gfree Coded.whoami Coded.pget Coded.pset
    Coded.streamres Coded.loadPerform Coded.loadComplete Coded.storePerform Coded.storeAcknowledge Coded.holdNotice Coded.amoPerform
    Coded.absmaxMerge Coded.parkRetry Coded.syncLimitExpire Coded.watchEventMessage Coded.arrivalClaim Coded.arrivalComplete
    Coded.copyAccept Coded.pieceDispatch Coded.streamerRead Coded.completionTileSet Coded.copyaAccumulate Coded.groupDrainComplete
    Coded.borerRequest Coded.fetchinComplete Coded.flushoutComplete Coded.migrationCopyDone Coded.endMarker Coded.migrationCountExpire
    Coded.pageWalk Coded.shootdownAcknowledge Coded.shootdownComplete Coded.pullRead Coded.lendReleaseMessage Coded.relink
    Coded.channelSendArrive Coded.channelReceiveArrive Coded.transferFinish Coded.channelTimeoutExpire Coded.timerDeadlineExpire
    Coded.altDeadlineExpire Coded.unbindRequest Coded.exitComplete Coded.promotionNotice Coded.promotedRelease Coded.sleepExpire
    Coded.spawnChildCreate Coded.taskStart Coded.eventRecordPost Coded.eventRecordDeliver Coded.contextSwitch Coded.sliceRotation
    Coded.blockedWaitLimit Coded.deadlockProbe Coded.macroOpStart Coded.macroStepComplete Coded.causewayRequestReceive Coded.frozenNotice
    Coded.resumeMessage Coded.flitReceive Coded.linkRetrainComplete Coded.linkSilenceTimeout Coded.partitionQuiesce Coded.laserRetune
    Coded.dtimeAlign Coded.travelAdmit Coded.travelAcknowledge Coded.doorbell Coded.luarm Coded.lupreempt Coded.nopPacket Coded.launch
    Coded.launchRecordWrite Coded.wait Coded.waitPoll Coded.release Coded.releasePerform Coded.indirect Coded.loop Coded.fetchfence
    Coded.taskExitReport Coded.haltCommand Coded.resumeCommand Coded.coreHalted Coded.pgnoteResume Coded.pgnoteDeliverPage
    Coded.pgnoteDeliverProt Coded.rgnctlCommit Coded.corectlHold Coded.ioepnewEndpoint Coded.ioepnewTimer Coded.controlRegisterWrite
    Coded.evready Coded.sensors Coded.errlog Coded.update Coded.spdm Coded.measure Coded.mailboxUnknownCommand Coded.moduleReset
    Coded.bootStage Coded.dieEnterService Coded.fullService Coded.correctedError Coded.ethernetFrameReceive Coded.tokenBucketRefill
    Coded.fireflyPeerDownReport Coded.ethernetFrameTransmit Coded.hostQueueMessage Coded.powerLoss i

theorem encode_eq_some_iff {i : Instr} {w : Word32} : encode i = some w ↔ encodeNat i = some w.toNat := by
  rw [encode, Option.map_eq_some_iff]
  constructor
  · rintro ⟨n, hn, rfl⟩
    rw [hn, BitVec.toNat_ofNat, Nat.mod_eq_of_lt (Laws.Coded.all i n hn)]
  · exact fun h => ⟨w.toNat, h, by simp⟩

theorem decode_eq_ok_iff {w : Word32} {i : Instr} : decode w = .ok i ↔ decodeMajor w.toNat = .ok i ∧ i.wellFormed = true := by
  unfold decode Instr.wellFormed
  split
  · next herr => simp [herr]
  · next j hj =>
    rw [hj, Except.ok.injEq]
    split
    · next hflaw => simp only [reduceCtorEq, false_iff, not_and]; rintro rfl; simp [hflaw]
    · next hflaw =>
      rw [Except.ok.injEq, iff_self_and]
      rintro rfl
      simp [hflaw]

/-- Settles O57: of a word below 2^32 the opcode map and the encoder say the same (`encodeNat_of_decodeMajor`, `decodeMajor_of_encodeNat`), and the value
checks of `decode` are those of `wellFormed`. -/
theorem decodeEncode : Obligations.DecodeEncode := by
  unfold Obligations.DecodeEncode
  refine ⟨fun i w hwf henc => ?back, fun i w hdec => ?forth⟩
  case back => exact decode_eq_ok_iff.mpr ⟨decodeMajor_of_encodeNat w.isLt (encode_eq_some_iff.mp henc), hwf⟩
  case forth =>
    obtain ⟨hmajor, hwf⟩ := decode_eq_ok_iff.mp hdec
    exact ⟨hwf, encode_eq_some_iff.mpr (encodeNat_of_decodeMajor w.isLt hmajor)⟩

end Sys2Proof
end

section
/-! Proofs about the scalar words (spec/08_scalar.md): ALU words (R152, R154), bit counts and reversal (R154), immediates (R157), compares and logic
(R158, R159), floating point and conversions (R160 to R165). -/
set_option Elab.async false
namespace Sys2Proof.Machine
open Sys2Proof Sys2Proof.Safety

/-! ## Words that only compute, with their results named -/

/-- A word that only computes leaves what its register function gives. -/
theorem computes_of_issuePure {w : Issue} {s : State} (h : Clear w s) (n : Nat) {f : Regs → Regs} {r : Regs} (hf : f (s.proc s.turn).r = r) :
    issuePure { w with word := n } f s = computes s w.writes r := by
  rw [issuePure_clear (clear_withWord h n), hf]

/-- A two-source word without flags leaves the value x of its word function. -/
theorem alu_eq {o : RRR} {s : State} (h : Clear (infoRRR o 0) s) (w : Nat) {f : Word → Word → Word} {x : Word}
    (hf : f ((s.proc s.turn).r.getG o.a) ((s.proc s.turn).r.getG o.b) = x) :
    alu w o f s = computes s [(0, o.d.toNat)] ((s.proc s.turn).r.setG o.d x) :=
  computes_of_issuePure h w (by rw [hf])

/-- A one-source word leaves the value and the flags of its word function. -/
theorem aluOne_eq {o : RR} {s : State} (h : Clear (infoRR o 0) s) (w : Nat) {f : Word → Word × Flags} {x : Word} {fl : Flags}
    (hf : f ((s.proc s.turn).r.getG o.a) = (x, fl)) :
    aluOne w o f s = computes s [(0, o.d.toNat)] (((s.proc s.turn).r.orFlags fl).setG o.d x) :=
  computes_of_issuePure h w (by simp only [hf])

theorem orFlags_zero (r : Regs) : r.orFlags 0 = r := by
  simp [Regs.orFlags]

/-! ## ALU words (R152, R154) -/

theorem amount_lt (b : Word) : amount b < 64 := Nat.mod_lt _ (by decide)

theorem sraWord_eq (a : Word) (n : Nat) : sraWord a n = BitVec.ofInt 64 (a.toInt / 2 ^ n) := by
  rw [sraWord, BitVec.sshiftRight, Int.shiftRight_eq_div_pow, Nat.cast_pow, Nat.cast_ofNat]

theorem rolWord_eq (a : Word) {n : Nat} (hn : n < 64) : rolWord a n = (a <<< n) ||| (a >>> ((64 - n) % 64)) := by
  rw [rolWord, BitVec.rotateLeft_def, Nat.mod_eq_of_lt hn]
  rcases Nat.eq_zero_or_pos n with rfl | hpos
  · simp [BitVec.ushiftRight_eq_zero]
  · rw [Nat.mod_eq_of_lt (by omega)]

theorem minWord_eq (a b : Word) : minWord a b = BitVec.ofInt 64 (min a.toInt b.toInt) := by
  simp only [minWord, BitVec.slt_iff_toInt_lt]
  split
  · next hlt => rw [min_eq_left hlt.le, BitVec.ofInt_toInt]
  · next hge => rw [min_eq_right (not_lt.mp hge), BitVec.ofInt_toInt]
theorem maxWord_eq (a b : Word) : maxWord a b = BitVec.ofInt 64 (max a.toInt b.toInt) := by
  simp only [maxWord, BitVec.slt_iff_toInt_lt]
  split
  · next hlt => rw [max_eq_right hlt.le, BitVec.ofInt_toInt]
  · next hge => rw [max_eq_left (not_lt.mp hge), BitVec.ofInt_toInt]
theorem minuWord_eq (a b : Word) : minuWord a b = BitVec.ofNat 64 (min a.toNat b.toNat) := by
  simp only [minuWord, BitVec.ult_iff_toNat_lt]
  split
  · next hlt => rw [min_eq_left hlt.le, BitVec.ofNat_toNat, BitVec.setWidth_eq]
  · next hge => rw [min_eq_right (not_lt.mp hge), BitVec.ofNat_toNat, BitVec.setWidth_eq]
theorem maxuWord_eq (a b : Word) : maxuWord a b = BitVec.ofNat 64 (max a.toNat b.toNat) := by
  simp only [maxuWord, BitVec.ult_iff_toNat_lt]
  split
  · next hlt => rw [max_eq_right hlt.le, BitVec.ofNat_toNat, BitVec.setWidth_eq]
  · next hge => rw [max_eq_left (not_lt.mp hge), BitVec.ofNat_toNat, BitVec.setWidth_eq]

theorem mul_eq_ofNat (a b : Word) : a * b = BitVec.ofNat 64 (a.toNat * b.toNat) := by
  apply BitVec.eq_of_toNat_eq
  rw [BitVec.toNat_mul, BitVec.toNat_ofNat]
theorem highWord_mul_natCast (p q : Nat) : highWord ((p : Int) * (q : Int)) = BitVec.ofNat 64 (p * q / 2 ^ 64) := by
  rw [highWord, ← BitVec.ofInt_natCast]
  norm_cast

/-- Settles O1: each word is an `alu` of its word function, whose value its own equation gives. -/
theorem aluWritesResult : Obligations.AluWritesResult := by
  unfold Obligations.AluWritesResult
  intro o s h r a b n put
  refine ⟨?add, ?sub, ?and, ?or, ?xor, ?andn, ?shl, ?shr, ?sra, ?rol, ?min, ?max, ?minu, ?maxu, ?mul, ?mulh, ?mulhu, ?mulhsu⟩
  case add => exact alu_eq h _ (f := fun a b => a + b) rfl
  case sub => exact alu_eq h _ (f := fun a b => a - b) rfl
  case and => exact alu_eq h _ (f := fun a b => a &&& b) rfl
  case or => exact alu_eq h _ (f := fun a b => a ||| b) rfl
  case xor => exact alu_eq h _ (f := fun a b => a ^^^ b) rfl
  case andn => exact alu_eq h _ (f := fun a b => a &&& ~~~ b) rfl
  case shl => exact alu_eq h _ (f := fun a b => shlWord a (amount b)) rfl
  case shr => exact alu_eq h _ (f := fun a b => shrWord a (amount b)) rfl
  case sra => exact alu_eq h _ (f := fun a b => sraWord a (amount b)) (sraWord_eq a n)
  case rol => exact alu_eq h _ (f := fun a b => rolWord a (amount b)) (rolWord_eq a (amount_lt b))
  case min => exact alu_eq h _ (minWord_eq a b)
  case max => exact alu_eq h _ (maxWord_eq a b)
  case minu => exact alu_eq h _ (minuWord_eq a b)
  case maxu => exact alu_eq h _ (maxuWord_eq a b)
  case mul => exact alu_eq h _ (f := fun a b => a * b) (mul_eq_ofNat a b)
  case mulh => exact alu_eq h _ (f := fun a b => highWord (a.toInt * b.toInt)) rfl
  case mulhu => exact alu_eq h _ (f := fun a b => highWord ((a.toNat : Int) * (b.toNat : Int))) (highWord_mul_natCast a.toNat b.toNat)
  case mulhsu => exact alu_eq h _ (f := fun a b => highWord (a.toInt * (b.toNat : Int))) rfl

/-! ## Bit counts and reversal (R154) -/

/-- The leading zeros of a word: none of them is set, and the bit below them is. -/
theorem clzWord_spec (a : Word) :
    ∃ n ≤ 64, clzWord a = BitVec.ofNat 64 n ∧ (∀ i < n, a.getLsbD (63 - i) = false) ∧ (n < 64 → a.getLsbD (63 - n) = true) := by
  rcases eq_or_ne a 0 with rfl | ha
  · exact ⟨64, le_rfl, rfl, by simp, by simp⟩
  · have hne : a.toNat ≠ 0 := fun hz => ha (BitVec.eq_of_toNat_eq hz)
    have htop : Nat.log2 a.toNat < 64 := (Nat.log2_lt hne).mpr a.isLt
    refine ⟨63 - Nat.log2 a.toNat, by omega, by rw [clzWord, if_neg ha], fun i hi => ?_, fun _ => ?_⟩
    · exact Nat.testBit_lt_two_pow (lt_of_lt_of_le Nat.lt_log2_self (Nat.pow_le_pow_right (by decide) (by omega)))
    · rw [show 63 - (63 - Nat.log2 a.toNat) = Nat.log2 a.toNat by omega]
      exact Nat.testBit_log2 hne

/-- Of a word and its negation together only the lowest set bit stays. -/
theorem getLsbD_and_neg (a : Word) {i : Nat} (hi : i < 64) : (a &&& -a).getLsbD i = (a.getLsbD i && decide (∀ j < i, a.getLsbD j = false)) := by
  rw [BitVec.getLsbD_and, BitVec.getLsbD_neg, decide_eq_true hi, Bool.true_and, Bool.eq_iff_iff]
  cases a.getLsbD i <;> simp

/-- The trailing zeros of a word: none of them is set, and the bit above them is. -/
theorem ctzWord_spec (a : Word) :
    ∃ n ≤ 64, ctzWord a = BitVec.ofNat 64 n ∧ (∀ i < n, a.getLsbD i = false) ∧ (n < 64 → a.getLsbD n = true) := by
  rcases eq_or_ne a 0 with rfl | ha
  · exact ⟨64, le_rfl, rfl, by simp, by simp⟩
  have hset : ∃ i, a.getLsbD i = true := by
    by_contra hnone
    exact ha (BitVec.eq_of_getLsbD_eq fun i _ => by simpa using fun hi => hnone ⟨i, hi⟩)
  have hk := Nat.find_spec hset
  have hbelow : ∀ i < Nat.find hset, a.getLsbD i = false := fun i hi => by simpa using Nat.find_min hset hi
  generalize Nat.find hset = k at hk hbelow
  have hlt : k < 64 := BitVec.lt_of_getLsbD hk
  have hlow : a &&& -a = BitVec.twoPow 64 k := by
    refine BitVec.eq_of_getLsbD_eq fun i hi => ?_
    rw [getLsbD_and_neg a hi, BitVec.getLsbD_twoPow, decide_eq_true hlt, Bool.true_and, Bool.eq_iff_iff]
    simp only [Bool.and_eq_true, decide_eq_true_eq]
    constructor
    · rintro ⟨hbit, hnone⟩
      rcases Nat.lt_trichotomy k i with h | h | h
      · simp [hnone k h] at hk
      · exact h
      · simp [hbelow i h] at hbit
    · rintro rfl
      exact ⟨hk, hbelow⟩
  have hlog : Nat.log2 (a &&& -a).toNat = k := by
    rw [hlow, BitVec.toNat_twoPow_of_lt hlt, Nat.log2_two_pow]
  exact ⟨k, hlt.le, by rw [ctzWord, if_neg ha, hlog], hbelow, fun _ => hk⟩

/-- Shifting bits in from the right puts the first bit on top. -/
theorem testBit_foldl_bits (f : Nat → Bool) (n i : Nat) :
    ((List.range n).foldl (fun acc j => 2 * acc + (f j).toNat) 0).testBit i = (decide (i < n) && f (n - 1 - i)) := by
  induction n generalizing i with
  | zero => simp
  | succ n ih =>
    rw [List.range_succ, List.foldl_append, List.foldl_cons, List.foldl_nil, ← Nat.bit_val]
    cases i with
    | zero => simp
    | succ i =>
      rw [Nat.testBit_bit_succ, ih]
      simp only [Nat.add_lt_add_iff_right, Nat.add_sub_cancel]
      congr 2
      omega

theorem getLsbD_brevWord (a : Word) {i : Nat} (hi : i < 64) : (brevWord a).getLsbD i = a.getLsbD (63 - i) := by
  rw [brevWord, BitVec.getLsbD_ofNat, testBit_foldl_bits, decide_eq_true hi, Bool.true_and, Bool.true_and]

/-- Settles O3: the two counts are those of the first set bit from either end. -/
theorem bitCountsAndReversal : Obligations.BitCountsAndReversal := by
  unfold Obligations.BitCountsAndReversal
  intro o s h r a put
  have leaves (w : Nat) {f : Word → Word} {x : Word} (hf : f a = x) : aluOne w o (fun b => (f b, 0)) s = put x := by
    rw [aluOne_eq h w (fl := 0) (Prod.ext hf rfl), orFlags_zero]
  refine ⟨?clz, ?ctz, leaves _ (f := popcWord) ?popc, brevWord a, leaves _ (f := brevWord) rfl, fun i hi => getLsbD_brevWord a hi⟩
  case clz =>
    obtain ⟨n, hn, hx, hbits⟩ := clzWord_spec a
    exact ⟨n, hn, leaves _ hx, hbits⟩
  case ctz =>
    obtain ⟨n, hn, hx, hbits⟩ := ctzWord_spec a
    exact ⟨n, hn, leaves _ hx, hbits⟩
  case popc => rw [popcWord, List.countP_eq_length_filter]

/-! ## Immediates (R157) -/

theorem add_ofInt (a : Word) (i : Int) : a + BitVec.ofInt 64 i = BitVec.ofInt 64 (a.toInt + i) := by
  rw [BitVec.ofInt_add, BitVec.ofInt_toInt]

/-- IMMH shifts the old value up and puts the immediate below it. -/
theorem shiftLeft_or_setWidth (d : Word) (i : BitVec 16) : (d <<< 16) ||| i.setWidth 64 = BitVec.ofNat 64 (d.toNat * 2 ^ 16 + i.toNat) := by
  apply BitVec.eq_of_getLsbD_eq
  intro j hj
  rw [BitVec.getLsbD_or, BitVec.getLsbD_shiftLeft, BitVec.getLsbD_setWidth, BitVec.getLsbD_ofNat, Nat.mul_comm,
    Nat.testBit_two_pow_mul_add _ i.isLt]
  by_cases h : j < 16
  · simp [h, hj, BitVec.testBit_toNat]
  · simp [h, hj, BitVec.testBit_toNat, BitVec.getLsbD_of_ge i j (by omega)]

/-- Settles O5: an immediate is extended as `signExtend` and `setWidth` say, and then the word is the ALU word of the same name. -/
theorem immediatesWriteResult : Obligations.ImmediatesWriteResult := by
  unfold Obligations.ImmediatesWriteResult
  refine ⟨fun o s h => ?imm10, fun o s h => ?amount, fun o s => ?imm16⟩
  case imm10 =>
    intro r a put
    have leaves (w : Nat) {f : Word → BitVec 10 → Word} {x : Word} (hf : f a o.imm = x) : aluImm w o f s = put x :=
      computes_of_issuePure h w (congrArg (r.setG o.d) hf)
    refine ⟨leaves _ (f := fun a i => a + i.signExtend 64) (add_ofInt a o.imm.toInt), leaves _ (f := fun a i => a &&& i.signExtend 64) rfl,
      leaves _ (f := fun a i => a ||| i.setWidth 64) ?_, leaves _ (f := fun a i => a ^^^ i.setWidth 64) ?_⟩ <;> rw [BitVec.ofNat_toNat]
  case amount =>
    intro r a n put
    have leaves (w : Nat) {f : Word → Nat → Word} {x : Word} (hf : f a n = x) : shiftImm w o f s = put x :=
      computes_of_issuePure h w (congrArg (r.setG o.d) hf)
    exact ⟨leaves _ (f := shlWord) rfl, leaves _ (f := shrWord) rfl, leaves _ (sraWord_eq a n), leaves _ (rolWord_eq a o.amt.isLt)⟩
  case imm16 =>
    intro r put
    exact ⟨fun h => computes_of_issuePure h (packRI 0x07 o) (f := fun r => r.setG o.d (o.imm.signExtend 64)) rfl,
      fun h => computes_of_issuePure h (packRI 0x08 o) (f := fun r => r.setG o.d ((r.getG o.d <<< 16) ||| o.imm.setWidth 64))
        (congrArg (r.setG o.d) (shiftLeft_or_setWidth (r.getG o.d) o.imm))⟩

/-! ## Compares and logic (R158, R159, R202) -/

theorem condNe_eq (x y : Word) : condNe x y = decide (x ≠ y) := by
  rw [condNe, bne, beq_eq_decide, decide_not]

/-- Settles O6: the ten conditions of CMP are those of CMPI on the extended immediate. -/
theorem comparesWritePair : Obligations.ComparesWritePair := by
  unfold Obligations.ComparesWritePair
  refine ⟨fun o s h => ?registers, fun o s h => ?immediate⟩
  case registers =>
    intro r a b put
    have leaves (w : Nat) {c : Word → Word → Bool} {x : Bool} (hc : c a b = x) : compare w o c s = put x :=
      computes_of_issuePure h w (congrArg (r.setPair o.pT o.pF) hc)
    exact ⟨leaves _ (c := condEq) rfl, leaves _ (condNe_eq a b), leaves _ (c := condLt) rfl, leaves _ (c := condLe) rfl, leaves _ (c := condGt) rfl,
      leaves _ (c := condGe) rfl, leaves _ (c := condLtu) rfl, leaves _ (c := condLeu) rfl, leaves _ (c := condGtu) rfl, leaves _ (c := condGeu) rfl⟩
  case immediate =>
    intro r a b put
    have leaves (w : Nat) {c : Word → Word → Bool} {x : Bool} (hc : c a b = x) : compareImm w o c s = put x :=
      computes_of_issuePure h w (congrArg (r.setPair o.pT o.pF) hc)
    exact ⟨leaves _ (c := condEq) rfl, leaves _ (condNe_eq a b), leaves _ (c := condLt) rfl, leaves _ (c := condLe) rfl, leaves _ (c := condGt) rfl,
      leaves _ (c := condGe) rfl, leaves _ (c := condLtu) rfl, leaves _ (c := condLeu) rfl, leaves _ (c := condGtu) rfl, leaves _ (c := condGeu) rfl⟩

/-- Settles O7: each word is its logic function on predicates or on masks; XOR and XNOR of predicates are difference and equality. -/
theorem predicateAndMaskLogic : Obligations.PredicateAndMaskLogic := by
  unfold Obligations.PredicateAndMaskLogic
  refine ⟨fun o s h => ?predicates, fun o s h => ?masks⟩
  case predicates =>
    intro r a b put
    have leaves (w : Nat) {f : Bool → Bool → Bool} {x : Bool} (hf : f a b = x) : predLogic w o f s = put x :=
      computes_of_issuePure h w (congrArg (r.setP o.d) hf)
    have hxnor : (!(a ^^ b)) = (a == b) := by cases a <;> cases b <;> rfl
    exact ⟨leaves _ (f := fun a b => a && b) rfl, leaves _ (f := fun a b => a || b) rfl, leaves _ (f := fun a b => a ^^ b) rfl,
      leaves _ (f := fun a b => a && !b) rfl, leaves _ (f := fun a b => a || !b) rfl, leaves _ (f := fun a b => !(a && b)) rfl,
      leaves _ (f := fun a b => !(a || b)) rfl, leaves _ (f := fun a b => !(a ^^ b)) hxnor⟩
  case masks =>
    intro r a b put
    have leaves (w : Nat) (f : Mask → Mask → Mask) : maskLogic w o f s = put (f a b) := computes_of_issuePure h w rfl
    exact ⟨leaves _ (fun a b => a &&& b), leaves _ (fun a b => a ||| b), leaves _ (fun a b => a ^^^ b), leaves _ (fun a b => a &&& ~~~ b),
      leaves _ (fun a b => a ||| ~~~ b), leaves _ (fun a b => ~~~ (a &&& b)), leaves _ (fun a b => ~~~ (a ||| b)), leaves _ (fun a b => ~~~ (a ^^^ b))⟩

/-! ## Floating point and conversions (R160 to R165) -/

/-- Settles O8: each word is the exact operation on the codes in the low bits of its sources, rounded once, or a compare of them. -/
theorem scalarFloat : Obligations.ScalarFloat := by
  unfold Obligations.ScalarFloat
  refine ⟨fun o s h => ?two, fun o s h => ?one, fun o s h => ?pair⟩
  case two =>
    intro r F a b d put
    have leaves (w : Nat) (f : Fmt → Nat → Nat → Nat × Flags) : floatOp w o f s = put (f F a b) := computes_of_issuePure h w rfl
    refine ⟨leaves _ fopAdd, leaves _ fopSub, leaves _ fopMul, leaves _ fopDiv, leaves _ (fun F => F.minmax false), leaves _ (fun F => F.minmax true),
      fun hd => ?fma⟩
    have hread : Clear (infoFRD o 0) s := by
      obtain ⟨mark, guard, legal, mode, names, open_, queue, start, good⟩ := h
      refine ⟨mark, guard, legal, mode, names, open_, queue, start, ?_⟩
      simp only [infoFR, infoFRD, List.forall_mem_cons] at good ⊢
      exact ⟨good.1, good.2.1, hd, good.2.2⟩
    have leaves : floatAcc (packFR 0x0D 3 o) o fopFma s = put (fopFma F d a b) := computes_of_issuePure hread _ rfl
    exact leaves
  case one =>
    intro r F x
    have leaves : floatOne (packFR1 0x0E 3 o) o fopSqrt s = computes s [(0, o.d.toNat)] ((r.orFlags x.2).setG o.d (BitVec.ofNat 64 x.1)) :=
      computes_of_issuePure h _ rfl
    exact leaves
  case pair =>
    intro r F a b nan signalling put
    have leaves (w : Nat) {c : Fmt → Nat → Nat → Bool × Flags} {x : Bool} {fl : Flags} (hc : c F a b = (x, fl)) : floatCompare w o c s = put x fl :=
      computes_of_issuePure h w (congrArg (fun y => (r.orFlags y.2).setPair o.pT o.pF y.1) hc)
    have hnan : (!(F.value a).isNan && !(F.value b).isNan) = !nan := (Bool.not_or _ _).symm
    exact ⟨leaves _ (c := fcondEq) (by simp only [fcondEq, hnan]; rfl), leaves _ (c := fcondLt) rfl, leaves _ (c := fcondLe) rfl, leaves _ (c := fcondUn) rfl⟩

/-- Settles O9: each word is the conversion function of its formats. -/
theorem scalarConversions : Obligations.ScalarConversions := by
  unfold Obligations.ScalarConversions
  intro o s h r a put ff fi gf
  have leaves (w : Nat) (f : Word → Word × Flags) : aluOne w o f s = put (f a).1 (f a).2 := aluOne_eq h w rfl
  exact ⟨leaves _ (cvtFloat .fp32 .fp16), leaves _ (cvtFloat .fp32 .bf16), leaves _ (cvtFloat .fp16 .fp32), leaves _ (cvtFloat .bf16 .fp32),
    leaves _ (cvtFloat .fp16 .bf16), leaves _ (cvtFloat .bf16 .fp16), leaves _ (cvtToInt .fp32 (-(2 ^ 63)) (2 ^ 63 - 1)),
    leaves _ (cvtToInt .fp16 (-(2 ^ 63)) (2 ^ 63 - 1)), leaves _ (cvtToInt .fp32 0 (2 ^ 64 - 1)), leaves _ (fun a => cvtFromInt .fp32 a.toInt),
    leaves _ (fun a => cvtFromInt .fp16 a.toInt), leaves _ (fun a => cvtFromInt .fp32 (a.toNat : Int))⟩

end Sys2Proof.Machine
end

section
/-! Proofs about the vector words (spec/10_vector.md): floating point (R195, R196), compares (R197), conversion (R198), reductions (R199), moves and
permutations (R200, R201). -/
set_option Elab.async false
namespace Sys2Proof.Machine
open Sys2Proof Sys2Proof.Safety

/-! ## Floating point (R195, R196) -/

theorem fmt_bits_pos (F : Fmt) : 0 < F.bits := by
  unfold Fmt.bits
  omega

/-- A two-source float word computes lane by lane what its operation gives. -/
theorem computesLanes_of_vecFloat {i : Instr} {o : VF} {s : State} (h : Clear (infoVF o 0) s) {w : Nat} {F : Fmt}
    (f : Fmt → Nat → Nat → Nat → Nat × Flags) (hexec : exec i s = vecFloat w o F f s) :
    let r := (s.proc s.turn).r
    computesLanes i s o.vd F.bits (r.getQ o.q)
      (fun j => f F (getLane (r.getV o.vd) F.bits j) (getLane (r.getV o.va) F.bits j) (getLane (r.getV o.vb) F.bits j)) :=
  ⟨_, _, hexec.trans (issuePure_clear (clear_withWord h w) _), laneResult_vecMap (fmt_bits_pos F) _ _ _⟩

/-- A one-source float word computes lane by lane what its operation gives. -/
theorem computesLanes_of_vecFloat1 {i : Instr} {o : VF1} {s : State} (h : Clear (infoVF1 o 0) s) {w : Nat} {F : Fmt}
    (f : Fmt → Nat → Nat × Flags) (hexec : exec i s = vecFloat1 w o F f s) :
    let r := (s.proc s.turn).r
    computesLanes i s o.vd F.bits (r.getQ o.q) (fun j => f F (getLane (r.getV o.va) F.bits j)) :=
  ⟨_, _, hexec.trans (issuePure_clear (clear_withWord h w) _), laneResult_vecMap (fmt_bits_pos F) _ _ _⟩

/-- Settles O21: in each format the seven words are `vecFloat` of the exact operations, rounded once. -/
theorem vectorFloatLanes : Obligations.VectorFloatLanes := by
  unfold Obligations.VectorFloatLanes
  intro o s h r form
  have add {i w F} := computesLanes_of_vecFloat (i := i) (w := w) (F := F) h (fun F _ a b => fopAdd F a b)
  have sub {i w F} := computesLanes_of_vecFloat (i := i) (w := w) (F := F) h (fun F _ a b => fopSub F a b)
  have mul {i w F} := computesLanes_of_vecFloat (i := i) (w := w) (F := F) h (fun F _ a b => fopMul F a b)
  have fma {i w F} := computesLanes_of_vecFloat (i := i) (w := w) (F := F) h fopFma
  have least {i w F} := computesLanes_of_vecFloat (i := i) (w := w) (F := F) h (fun F _ a b => F.minmax false a b)
  have most {i w F} := computesLanes_of_vecFloat (i := i) (w := w) (F := F) h (fun F _ a b => F.minmax true a b)
  have div {i w F} := computesLanes_of_vecFloat (i := i) (w := w) (F := F) h (fun F _ a b => fopDiv F a b)
  exact ⟨⟨add rfl, sub rfl, mul rfl, fma rfl, least rfl, most rfl, div rfl⟩, ⟨add rfl, sub rfl, mul rfl, fma rfl, least rfl, most rfl, div rfl⟩,
    ⟨add rfl, sub rfl, mul rfl, fma rfl, least rfl, most rfl, div rfl⟩⟩

/-- Settles O22: in each format the seven words are `vecFloat1` of the sign operations and of the exact functions, rounded once. -/
theorem vectorFloatOneSource : Obligations.VectorFloatOneSource := by
  unfold Obligations.VectorFloatOneSource
  intro o s h r form
  have abs {i w F} := computesLanes_of_vecFloat1 (i := i) (w := w) (F := F) h signClear
  have neg {i w F} := computesLanes_of_vecFloat1 (i := i) (w := w) (F := F) h signFlip
  have sqrt {i w F} := computesLanes_of_vecFloat1 (i := i) (w := w) (F := F) h fopSqrt
  have exp2 {i w F} := computesLanes_of_vecFloat1 (i := i) (w := w) (F := F) h fopExp2
  have log2 {i w F} := computesLanes_of_vecFloat1 (i := i) (w := w) (F := F) h fopLog2
  have rcp {i w F} := computesLanes_of_vecFloat1 (i := i) (w := w) (F := F) h fopRcp
  have rsq {i w F} := computesLanes_of_vecFloat1 (i := i) (w := w) (F := F) h fopRsq
  exact ⟨⟨abs rfl, neg rfl, sqrt rfl, exp2 rfl, log2 rfl, rcp rfl, rsq rfl⟩, ⟨abs rfl, neg rfl, sqrt rfl, exp2 rfl, log2 rfl, rcp rfl, rsq rfl⟩,
    ⟨abs rfl, neg rfl, sqrt rfl, exp2 rfl, log2 rfl, rcp rfl, rsq rfl⟩⟩

/-! ## Conversion (R198) -/

theorem ctyBits_pos (t : CTy) : 0 < ctyBits t := by cases t <;> decide

/-- Settles O24: VCVT is `vecMap` of the conversion, under the mask cut to the lanes of the wider type. -/
theorem vectorConversionLanes : Obligations.VectorConversionLanes := by
  unfold Obligations.VectorConversionLanes
  intro o s h r m q
  have hexec : exec (.vcvt o) s = execVcvt o s := rfl
  exact ⟨_, _, hexec.trans (issuePure_clear (clear_withWord h (packVV 0x37 o)) _), laneResult_vecMap (ctyBits_pos o.dst) _ _ _⟩

/-! ## Compares (R197) -/

theorem vtyBits_pos (t : VTy) : 0 < vtyBits t := by cases t <;> decide
theorem laneCount_vtyBits_le (t : VTy) : laneCount (vtyBits t) ≤ 128 := by cases t <;> decide

/-- A mask made from bits holds each of them, and zeros past the last. -/
theorem getLsbD_maskOf (bs : List Bool) {j : Nat} (hj : j < 128) : (maskOf bs).getLsbD j = bs.getD j false := by
  have digit : ∀ (bs : List Bool) (j : Nat), (bs.foldr (fun (b : Bool) acc => (if b then 1 else 0) + 2 * acc) 0).testBit j = bs.getD j false := by
    intro bs
    induction bs with
    | nil => simp
    | cons b bs ih =>
      intro j
      have hbit : (b :: bs).foldr (fun (b : Bool) acc => (if b then 1 else 0) + 2 * acc) 0 = Nat.bit b (bs.foldr (fun (b : Bool) acc => (if b then 1 else 0) + 2 * acc) 0) := by
        cases b <;> simp [Nat.bit_val, Nat.add_comm]
      rw [hbit]
      cases j with
      | zero => simp
      | succ j => rw [Nat.testBit_bit_succ, ih]; simp
  rw [maskOf, BitVec.getLsbD_ofNat, digit, decide_eq_true hj, Bool.true_and]

theorem flagIf_eq (fl : Flags) (c : Bool) : flagIf fl c = if c then fl else 0 := rfl

theorem isNan_of_isSignalling {v : Val} (h : v.isSignalling = true) : v.isNan = true := by
  cases v <;> simp_all [Val.isSignalling, Val.isNan]

/-- Where both lanes keep their sign bit at the same place, the unsigned order of the codes is that of `ltuInt` on the signed lanes. -/
theorem ltuInt_signedLane {n a b : Nat} (ha : a < 2 ^ n) (hb : b < 2 ^ n) : ltuInt (signedLane n a) (signedLane n b) = decide (a < b) := by
  have hn : (2 : Int) ^ n = ((2 ^ n : Nat) : Int) := by norm_cast
  rw [Bool.eq_iff_iff]
  unfold ltuInt signedLane
  rw [hn]
  generalize 2 ^ n = N at *
  generalize 2 ^ (n - 1) = M
  split <;> split <;> split <;> simp_all <;> omega

/-- A vector compare leaves the conditions of its lanes and their complements, with the flags of all lanes. -/
theorem vecCompare_spec {o : VC} {s : State} (h : Clear (infoVC o 0) s) (w : Nat) {ci : Int → Int → Bool} {cf : Fmt → Nat → Nat → Bool × Flags}
    {c : Nat → Bool × Flags}
    (hc : ∀ j < laneCount (vtyBits o.ty), (if o.ty.isInt then (ci (signedLane (vtyBits o.ty) (getLane ((s.proc s.turn).r.getV o.va) (vtyBits o.ty) j))
        (signedLane (vtyBits o.ty) (getLane ((s.proc s.turn).r.getV o.vb) (vtyBits o.ty) j)), 0)
      else cf (vtyFmt o.ty) (getLane ((s.proc s.turn).r.getV o.va) (vtyBits o.ty) j) (getLane ((s.proc s.turn).r.getV o.vb) (vtyBits o.ty) j)) = c j) :
    ∃ (t f : Mask) (fl : Flags),
      vecCompare w o ci cf s = computes s [(2, o.qT.toNat), (2, o.qF.toNat)] ((((s.proc s.turn).r.orFlags fl).setQ o.qT t).setQ o.qF f) ∧
      (∀ j < 128, t.getLsbD j = (decide (j < 1024 / vtyBits o.ty) && (c j).1) ∧ f.getLsbD j = (decide (j < 1024 / vtyBits o.ty) && !(c j).1)) ∧
      (∀ x, fl.getLsbD x = true ↔ ∃ j < 1024 / vtyBits o.ty, (c j).2.getLsbD x = true) := by
  refine ⟨_, _, _, issuePure_clear (clear_withWord h w) _, fun j hj => ?_, fun x => ?_⟩
  · rw [List.map_congr_left (g := c) (fun j hj => hc j (List.mem_range.mp hj)), getLsbD_maskOf _ hj, getLsbD_maskOf _ hj]
    by_cases hlane : j < 1024 / vtyBits o.ty <;> simp [List.getD_eq_getElem?_getD, laneCount, hlane]
  · rw [List.map_congr_left (g := c) (fun j hj => hc j (List.mem_range.mp hj)), getLsbD_foldl_or]
    simp [laneCount]

/-- Settles O23: each word is a `vecCompare`, whose lane condition is the signed or the unsigned order of integers, or the order by value with the flags of
R164. -/
theorem vectorComparesWritePair : Obligations.VectorComparesWritePair := by
  unfold Obligations.VectorComparesWritePair
  intro o s h r n F a b result whole plain real
  have ha (j : Nat) : a j < 2 ^ n := Nat.mod_lt _ n.two_pow_pos
  have hb (j : Nat) : b j < 2 ^ n := Nat.mod_lt _ n.two_pow_pos
  have lanes {i : Instr} {w : Nat} {c : Nat → Bool × Flags} (ci : Int → Int → Bool) (cf : Fmt → Nat → Nat → Bool × Flags)
      (hexec : exec i s = vecCompare w o ci cf s)
      (hc : ∀ j, (if o.ty.isInt then (ci (signedLane n (a j)) (signedLane n (b j)), 0) else cf F (a j) (b j)) = c j) : result i c := by
    obtain ⟨t, f, fl, hnext, hpair⟩ := vecCompare_spec h w (fun j _ => hc j)
    exact ⟨t, f, fl, hexec.trans hnext, hpair⟩
  refine ⟨fun hint => ?int, fun hfloat => ?float⟩
  case int =>
    refine ⟨lanes (fun a b => decide (a = b)) fcondEq rfl fun j => if_pos hint, lanes (fun a b => decide (a ≠ b)) fcondNe rfl fun j => if_pos hint,
      lanes (fun a b => decide (a < b)) fcondLt rfl fun j => if_pos hint, lanes (fun a b => decide (a ≤ b)) fcondLe rfl fun j => if_pos hint,
      lanes ltuInt (fun _ _ _ => (false, 0)) rfl fun j => ?ltu, lanes (fun a b => !ltuInt b a) (fun _ _ _ => (false, 0)) rfl fun j => ?leu⟩
    case ltu => rw [if_pos hint, ltuInt_signedLane (ha j) (hb j)]
    case leu => simp only [if_pos hint, ltuInt_signedLane (hb j) (ha j), ← not_lt, decide_not]
  case float =>
    have hni : ¬ o.ty.isInt = true := by simp [hfloat]
    refine ⟨lanes (fun a b => decide (a = b)) fcondEq rfl (fun j => (if_neg hni).trans ?eq), lanes (fun a b => decide (a ≠ b)) fcondNe rfl (fun j => (if_neg hni).trans ?ne),
      lanes (fun a b => decide (a < b)) fcondLt rfl (fun j => (if_neg hni).trans ?lt), lanes (fun a b => decide (a ≤ b)) fcondLe rfl (fun j => (if_neg hni).trans ?le),
      lanes (fun _ _ => false) fcondUn rfl (fun j => (if_neg hni).trans ?un), lanes (fun _ _ => false) fcondOrd rfl (fun j => (if_neg hni).trans ?ord)⟩
    all_goals
      have hx := isNan_of_isSignalling (v := F.value (a j))
      have hy := isNan_of_isSignalling (v := F.value (b j))
      simp only [fcondEq, fcondNe, fcondLt, fcondLe, fcondUn, fcondOrd, flagIf]
      cases hxn : (F.value (a j)).isNan <;> cases hyn : (F.value (b j)).isNan <;> simp_all

/-! ## Moves and permutations (R200, R201) -/

/-- A register laid out from as many lanes as it has holds each of them. -/
theorem getLane_ofLanes_of_length {n j : Nat} {xs : List Nat} (hn : 0 < n) (hlen : xs.length = laneCount n) (hj : j < 1024 / n) :
    getLane (ofLanes n xs) n j = xs.getD j 0 % 2 ^ n := by
  have hfit : n * xs.length ≤ 1024 := by rw [hlen]; exact Nat.mul_div_le 1024 n
  have hjx : j < xs.length := by rw [hlen]; exact hj
  rw [getLane_ofLanes hn hfit hjx, List.getD_eq_getElem _ _ hjx]

/-- Lanes computed without flags leave FLAGS as it is. -/
theorem flags_eq_zero_of_laneResult {n : Nat} {q : Mask} {old new : VReg} {fl : Flags} {f : Nat → Nat} (h : laneResult n q old new fl (fun j => (f j, 0))) :
    fl = 0 :=
  BitVec.eq_of_getLsbD_eq fun b _ => by
    rw [Bool.eq_iff_iff, h.2 b]
    simp

/-- A permutation leaves in each active lane the lane that f names. -/
theorem computesLanes_of_vecPerm {i : Instr} {o : VX} {s : State} (h : Clear (infoVX o 0) s) {w : Nat}
    (f : Nat → (Nat → Nat) → (Nat → Nat) → Nat → Nat) (hexec : exec i s = vecPerm w o f s) :
    let r := (s.proc s.turn).r
    let n := sizeBits o.size
    computesLanes i s o.vd n (r.getQ o.q) (fun j => (f (laneCount n) (getLane (r.getV o.va) n) (getLane (r.getV o.vb) n) j, 0)) := by
  intro r n
  have hlanes := laneResult_vecMap (sizeBits_pos o.size) (r.getQ o.q) (r.getV o.vd)
    (fun j => (f (laneCount n) (getLane (r.getV o.va) n) (getLane (r.getV o.vb) n) j, 0))
  have hfl := flags_eq_zero_of_laneResult hlanes
  rw [hfl] at hlanes
  refine ⟨_, 0, ?_, hlanes⟩
  rw [orFlags_zero, hexec]
  exact issuePure_clear (clear_withWord h w) _

/-- Settles O26: each register is laid out from its lanes, which read back one by one. -/
theorem vectorMovesAndPermutations : Obligations.VectorMovesAndPermutations := by
  unfold Obligations.VectorMovesAndPermutations
  refine ⟨fun o s h => ?broadcast, fun o s => ?moves, fun o s => ?permutations⟩
  case broadcast =>
    intro r n
    have hexec : exec (.vbcast o) s = execVbcast o s := rfl
    refine ⟨_, hexec.trans (issuePure_clear (clear_withWord h (packVB 0x26 0 o)) _), fun j hj => ?_⟩
    rw [getLane_ofLanes_of_length (sizeBits_pos o.size) List.length_replicate hj, List.getD_replicate _ (show j < laneCount _ from hj),
      Nat.mod_mod]
  case moves =>
    intro r n x
    refine ⟨fun h => ⟨?ext, ?exts⟩, fun h => ?ins⟩
    case ext =>
      have hexec : exec (.vext o) s = execVext o s := rfl
      exact hexec.trans (issuePure_clear (clear_withWord h (packVM 0x26 1 o)) _)
    case exts =>
      have hexec : exec (.vexts o) s = execVexts o s := rfl
      exact hexec.trans (issuePure_clear (clear_withWord h (packVM 0x26 2 o)) _)
    case ins =>
      have hexec : exec (.vins o) s = execVins o s := rfl
      refine ⟨_, hexec.trans (issuePure_clear (clear_withWord h (packVM 0x26 3 o)) _), fun j hj => ?_⟩
      rw [getLane_ofLanes_of_length (sizeBits_pos o.size) (by simp [toLanes]) hj]
      have hlane : j < laneCount n := hj
      by_cases hsame : j = o.lane.toNat
      · rw [if_pos hsame, ← hsame, List.getD_eq_getElem _ _ (by simpa [toLanes] using hlane), List.getElem_set_self, Nat.mod_mod]
      · rw [if_neg hsame, List.getD_eq_getElem _ _ (by simpa [toLanes] using hlane), List.getElem_set_ne (Ne.symm hsame)]
        simp [toLanes]
        rfl
  case permutations =>
    intro r n m a b one
    refine ⟨fun h => ?sel, fun h => ⟨computesLanes_of_vecPerm h (fun n a b j => a (b j % n)) rfl,
      computesLanes_of_vecPerm h (fun _ a b j => if j % 2 = 0 then a (j / 2) else b (j / 2)) rfl,
      computesLanes_of_vecPerm h (fun n a b j => if j < n / 2 then a (2 * j) else b (2 * (j - n / 2))) rfl⟩⟩
    case sel =>
      have hexec : exec (.vsel o) s = execVsel o s := rfl
      refine ⟨_, hexec.trans (issuePure_clear (clear_withWord h (packVX 0x27 0 o)) _), fun j hj => ?_⟩
      rw [getLane_ofLanes_of_length (sizeBits_pos o.size) (by simp) hj, List.getD_eq_getElem _ _ (by simpa [laneCount] using hj), List.getElem_map, List.getElem_range]
      split <;> exact getLane_mod _ _ _

/-! ## Reductions (R199) -/

/-- The numbers of a signed lane of n bits. -/
def InLane (n : Nat) (x : Int) : Prop := -(2 ^ (n - 1)) ≤ x ∧ x < 2 ^ (n - 1)

theorem two_pow_eq_double {n : Nat} (hn : 0 < n) : (2 : Int) ^ n = 2 * 2 ^ (n - 1) := by
  rw [← pow_succ', Nat.sub_add_cancel hn]

theorem inLane_signedLane {n x : Nat} (hn : 0 < n) (hx : x < 2 ^ n) : InLane n (signedLane n x) := by
  have hx' : (x : Int) < 2 ^ n := by exact_mod_cast hx
  have hcast : ((2 ^ (n - 1) : Nat) : Int) = 2 ^ (n - 1) := by norm_cast
  have hdouble := two_pow_eq_double hn
  unfold InLane signedLane
  split <;> omega

theorem signedLane_laneOfInt {n : Nat} (hn : 0 < n) {x : Int} (hx : InLane n x) : signedLane n (laneOfInt n x) = x := by
  obtain ⟨hlow, hhigh⟩ := hx
  have hcast : ((2 ^ (n - 1) : Nat) : Int) = 2 ^ (n - 1) := by norm_cast
  have hdouble := two_pow_eq_double hn
  have hpos : (0 : Int) < 2 ^ (n - 1) := by positivity
  rw [laneOfInt_eq, signedLane]
  rcases lt_or_ge x 0 with hneg | hnonneg
  · have hmod : x % 2 ^ n = x + 2 ^ n := by
      rw [← Int.add_emod_right, Int.emod_eq_of_lt (by omega) (by omega)]
    rw [hmod, if_neg (by omega)]
    omega
  · rw [Int.emod_eq_of_lt hnonneg (by omega), if_pos (by omega)]
    omega

theorem laneOfInt_lt (n : Nat) (x : Int) : laneOfInt n x < 2 ^ n := by
  have hpos : (0 : Int) < 2 ^ n := by positivity
  have hlt := Int.emod_lt_of_pos x hpos
  have hcast : ((2 ^ n : Nat) : Int) = 2 ^ n := by norm_cast
  rw [laneOfInt_eq]
  omega

section
variable {n : Nat} {op : Int → Int → Int} (hn : 0 < n) (hassoc : ∀ a b c, op (op a b) c = op a (op b c))
  (hclosed : ∀ a b, InLane n a → InLane n b → InLane n (op a b))
include hn hassoc hclosed

/-- One level of pairing halves the lanes, raises no flag and keeps the fold of the lanes. -/
theorem pairUp_laneOp (l : List Nat) (hl : ∀ x ∈ l, x < 2 ^ n) :
    (pairUp (laneOp n op) l).2 = 0 ∧ (∀ x ∈ (pairUp (laneOp n op) l).1, x < 2 ^ n) ∧
      2 * (pairUp (laneOp n op) l).1.length ≤ l.length + 1 ∧ (l ≠ [] → (pairUp (laneOp n op) l).1 ≠ []) ∧
      ∀ m, ((pairUp (laneOp n op) l).1.map (signedLane n)).foldl op m = (l.map (signedLane n)).foldl op m := by
  fun_induction pairUp (laneOp n op) l with
  | case1 a b l x y ih =>
    simp only [List.forall_mem_cons] at hl
    obtain ⟨ha, hb, hrest⟩ := hl
    obtain ⟨hfl, hlt, hlen, -, hfold⟩ := ih hrest
    have hx : signedLane n x.1 = op (signedLane n a) (signedLane n b) :=
      signedLane_laneOfInt hn (hclosed _ _ (inLane_signedLane hn ha) (inLane_signedLane hn hb))
    refine ⟨by simp [x, y, hfl, laneOp], ?_, by simp only [List.length_cons]; change 2 * ((pairUp (laneOp n op) l).1.length + 1) ≤ _; omega, by simp, fun m => ?_⟩
    · simp only [List.forall_mem_cons]
      exact ⟨laneOfInt_lt n _, hlt⟩
    · simp only [List.map_cons, List.foldl_cons, hx, ← hassoc]
      exact hfold _
  | case2 l hshort =>
    refine ⟨rfl, hl, ?_, id, fun m => rfl⟩
    match l, hshort with
    | [], _ => simp
    | [a], _ => simp
    | a :: b :: r, hshort => exact absurd rfl (hshort a b r)

/-- k levels of pairing reduce up to 2^k lanes to one, whose number is the fold of theirs. -/
theorem pairAll_laneOp (k : Nat) (l : List Nat) (hl : ∀ x ∈ l, x < 2 ^ n) (hne : l ≠ []) (hlen : l.length ≤ 2 ^ k) :
    ∃ c < 2 ^ n, pairAll (laneOp n op) k l = (c, 0) ∧ ∀ m, (l.map (signedLane n)).foldl op m = op m (signedLane n c) := by
  induction k generalizing l with
  | zero =>
    obtain ⟨c, rfl⟩ := List.length_eq_one_iff.mp (le_antisymm hlen (List.length_pos_iff.mpr hne))
    exact ⟨c, hl c (by simp), rfl, fun m => rfl⟩
  | succ k ih =>
    obtain ⟨hfl, hlt, hhalf, hnonempty, hfold⟩ := pairUp_laneOp hn hassoc hclosed l hl
    obtain ⟨c, hc, hall, hc'⟩ := ih _ hlt (hnonempty hne) (by rw [pow_succ] at hlen; omega)
    refine ⟨c, hc, by simp [pairAll, hall, hfl], fun m => ?_⟩
    rw [← hfold, hc']

end

/-- A fold over the lanes passes those that hold a number which is neutral for the accumulators that occur. -/
theorem foldl_map_filter_neutral {α : Type} {op : Int → Int → Int} {P : Int → Prop} {g : α → Int} {p : α → Bool} {z m : Int} (l : List α)
    (hz : ∀ a, P a → op a z = a) (hP : ∀ a, ∀ e ∈ l, P a → P (op a (g e))) (hm : P m) :
    (l.map (fun e => if p e then g e else z)).foldl op m = ((l.filter p).map g).foldl op m := by
  induction l generalizing m with
  | nil => rfl
  | cons e l ih =>
    have ih' {m : Int} := ih (m := m) (fun a e he => hP a e (List.mem_cons_of_mem _ he))
    rw [List.map_cons, List.foldl_cons, List.filter_cons]
    split
    · exact ih' (hP m e List.mem_cons_self hm)
    · rw [hz m hm]
      exact ih' hm

theorem laneOfInt_signedLane {n x : Nat} (hx : x < 2 ^ n) : laneOfInt n (signedLane n x) = x := by
  have hx' : (x : Int) < 2 ^ n := by exact_mod_cast hx
  rw [laneOfInt_eq, signedLane]
  split
  · rw [Int.emod_eq_of_lt (by omega) hx', Int.toNat_natCast]
  · rw [Int.sub_emod_right, Int.emod_eq_of_lt (by omega) hx', Int.toNat_natCast]

/-- Where inactive lanes hold the least element of an order operation, pairing all lanes folds the active ones. -/
theorem pairAll_filled {n : Nat} {op : Int → Int → Int} (hn : 0 < n) (hassoc : ∀ a b c, op (op a b) c = op a (op b c))
    (hclosed : ∀ a b, InLane n a → InLane n b → InLane n (op a b)) {id : Nat} (hid : id < 2 ^ n)
    (hleft : ∀ a, InLane n a → op (signedLane n id) a = a) (hright : ∀ a, InLane n a → op a (signedLane n id) = a)
    {lanes : List (Nat × Nat)} (hlanes : ∀ e ∈ lanes, e.2 < 2 ^ n) (hne : lanes ≠ []) (hlen : lanes.length ≤ 2 ^ 7) (p : Nat × Nat → Bool) :
    pairAll (laneOp n op) 7 (lanes.map (fun e => if p e then e.2 else id)) =
      (laneOfInt n (((lanes.filter p).map (fun e => signedLane n e.2)).foldl op (signedLane n id)), 0) := by
  have hfill : ∀ x ∈ lanes.map (fun e => if p e then e.2 else id), x < 2 ^ n := by
    simp only [List.forall_mem_map]
    intro e he
    split
    · exact hlanes e he
    · exact hid
  obtain ⟨c, hc, hall, hfold⟩ := pairAll_laneOp hn hassoc hclosed 7 _ hfill (by simpa using hne) (by simpa using hlen)
  have hactive := foldl_map_filter_neutral (P := InLane n) (g := fun e => signedLane n e.2) (p := p) lanes hright
    (fun a e he ha => hclosed a _ ha (inLane_signedLane hn (hlanes e he))) (inLane_signedLane hn hid)
  rw [hall, ← hactive]
  have hmap : lanes.map (fun e => if p e then signedLane n e.2 else signedLane n id) =
      (lanes.map (fun e => if p e then e.2 else id)).map (signedLane n) := by
    rw [List.map_map]
    exact List.map_congr_left fun e _ => (apply_ite (signedLane n) _ _ _).symm
  rw [hmap, hfold, hleft _ (inLane_signedLane hn hc), laneOfInt_signedLane hc]

/-- What a reduction computes from the lanes of va: an integer sum saturated once, or the pairing of R199. -/
def reduced (o : VR) (r : Regs) (id : VTy → Nat) (f : VTy → Nat → Nat → Nat × Flags) (isum : Bool) : Nat × Flags :=
  let n := vtyBits o.ty
  let t := (List.range (laneCount n)).map (fun j => if (r.getQ o.q).getLsbD j then getLane (r.getV o.va) n j else id o.ty)
  if isum && o.ty.isInt then
    let y := satInt n ((t.map (signedLane n)).foldl (· + ·) 0)
    (laneOfInt n y.1, y.2)
  else pairAll (f o.ty) 7 t

/-- A reduction leaves its result in lane 0 and the other lanes as they were. -/
theorem vecReduce_spec {o : VR} {s : State} (h : Clear (infoVR o 0) s) (w : Nat) {id : VTy → Nat} {f : VTy → Nat → Nat → Nat × Flags} {isum : Bool}
    {x : Nat} {fl : Flags}
    (hx : reduced o (s.proc s.turn).r id f isum = (x, fl)) :
    ∃ v : VReg, vecReduce w o id f isum s = computes s [(1, o.vd.toNat)] (((s.proc s.turn).r.orFlags fl).setV o.vd v) ∧
      getLane v (vtyBits o.ty) 0 = x % 2 ^ vtyBits o.ty ∧
      ∀ j < 1024 / vtyBits o.ty, j ≠ 0 → getLane v (vtyBits o.ty) j = getLane ((s.proc s.turn).r.getV o.vd) (vtyBits o.ty) j := by
  have hpos : 0 < laneCount (vtyBits o.ty) := by cases o.ty <;> decide
  have hlen : (x :: (toLanes (vtyBits o.ty) ((s.proc s.turn).r.getV o.vd)).drop 1).length = laneCount (vtyBits o.ty) := by
    simp [toLanes]
    omega
  have hexec : vecReduce w o id f isum = issuePure (infoVR o w) (fun r =>
      (r.orFlags (reduced o r id f isum).2).setV o.vd (ofLanes (vtyBits o.ty) ((reduced o r id f isum).1 :: (toLanes (vtyBits o.ty) (r.getV o.vd)).drop 1))) := rfl
  refine ⟨ofLanes (vtyBits o.ty) (x :: (toLanes (vtyBits o.ty) ((s.proc s.turn).r.getV o.vd)).drop 1), ?_, ?_, fun j hj hj0 => ?_⟩
  · rw [hexec]
    exact computes_of_issuePure h w (by rw [hx])
  · rw [getLane_ofLanes_of_length (vtyBits_pos o.ty) hlen hpos]
    rfl
  · obtain ⟨k, rfl⟩ := Nat.exists_eq_succ_of_ne_zero hj0
    rw [getLane_ofLanes_of_length (vtyBits_pos o.ty) hlen hj]
    have hk : k + 1 < laneCount (vtyBits o.ty) := hj
    simp [toLanes, List.getD_eq_getElem?_getD, hk]

/-- Settles O25: an integer sum is the fold of all lanes, the others are the pairing of all lanes, in which inactive lanes are neutral. -/
theorem vectorReductions : Obligations.VectorReductions := by
  unfold Obligations.VectorReductions
  intro o s h r n q lanes first active filled
  have hn : 0 < n := vtyBits_pos o.ty
  have hpow : (2 : Int) ^ n = 2 * 2 ^ (n - 1) := two_pow_eq_double hn
  have hpos : (0 : Int) < 2 ^ (n - 1) := by positivity
  have hcast : ((2 ^ (n - 1) : Nat) : Int) = 2 ^ (n - 1) := by norm_cast
  have hlt : 2 ^ (n - 1) < 2 ^ n := Nat.pow_lt_pow_right (by decide) (by omega)
  have hfilled (id : Nat) : (List.range (laneCount n)).map (fun j => if q.getLsbD j then getLane (r.getV o.va) n j else id) = filled id := by
    simp only [filled, lanes, List.map_map]
    rfl
  have hlanes : ∀ e ∈ lanes, e.2 < 2 ^ n := by
    simp only [lanes, List.forall_mem_map]
    exact fun j _ => Nat.mod_lt _ n.two_pow_pos
  have hlen : lanes.length ≤ 2 ^ 7 := by simpa [lanes, laneCount, n] using laneCount_vtyBits_le o.ty
  have hne : lanes ≠ [] := by
    have : 0 < laneCount n := by show 0 < laneCount (vtyBits o.ty); cases o.ty <;> decide
    exact List.ne_nil_of_length_pos (by rw [List.length_map, List.length_range]; exact this)
  have integer {op : Int → Int → Int} {id : Nat} (w : Nat) {ids : VTy → Nat} {ops : VTy → Nat → Nat → Nat × Flags} {i : Instr}
      (hexec : exec i s = vecReduce w o ids ops false s) (hids : ids o.ty = id) (hops : ops o.ty = laneOp n op)
      (hassoc : ∀ a b c, op (op a b) c = op a (op b c)) (hclosed : ∀ a b, InLane n a → InLane n b → InLane n (op a b)) (hid : id < 2 ^ n)
      (hleft : ∀ a, InLane n a → op (signedLane n id) a = a) (hright : ∀ a, InLane n a → op a (signedLane n id) = a) :
      first i (active.foldl op (signedLane n id) % 2 ^ n).toNat 0 := by
    have hred : reduced o r ids ops false = (laneOfInt n (active.foldl op (signedLane n id)), 0) := by
      rw [← pairAll_filled hn hassoc hclosed hid hleft hright hlanes hne hlen, ← hops, ← hids]
      simp only [reduced, Bool.false_and, Bool.false_eq_true, if_false]
      rw [hfilled]
    obtain ⟨v, hnext, hzero, hrest⟩ := vecReduce_spec h w hred
    exact ⟨v, hexec.trans hnext, hzero.trans (by rw [laneOfInt_eq]; exact Nat.mod_eq_of_lt (by rw [← laneOfInt_eq]; exact laneOfInt_lt n _)), hrest⟩
  have real {id : Nat} {f : Nat → Nat → Nat × Flags} (w : Nat) {ids : VTy → Nat} {ops : VTy → Nat → Nat → Nat × Flags} {isum : Bool} {i : Instr}
      (hfloat : o.ty.isInt = false) (hexec : exec i s = vecReduce w o ids ops isum s) (hids : ids o.ty = id) (hops : ops o.ty = f) :
      first i ((pairAll f 7 (filled id)).1 % 2 ^ n) (pairAll f 7 (filled id)).2 := by
    have hred : reduced o r ids ops isum = pairAll f 7 (filled id) := by
      simp only [reduced, hfloat, Bool.and_false, Bool.false_eq_true, if_false]
      rw [hops, hids, hfilled]
    obtain ⟨v, hnext, hlane⟩ := vecReduce_spec h w hred
    exact ⟨v, hexec.trans hnext, hlane⟩
  refine ⟨fun hint => ⟨?sum, ?max, ?min⟩, fun hfloat => ⟨?fsum, ?fmax, ?fmin⟩⟩
  case sum =>
    have hzero : signedLane n 0 = 0 := if_pos (Nat.two_pow_pos _)
    have hsum : ((filled 0).map (signedLane n)).foldl (· + ·) 0 = active.foldl (· + ·) 0 := by
      rw [← foldl_map_filter_neutral (P := fun _ => True) (z := 0) lanes (fun a _ => by simp) (fun _ _ _ _ => trivial) trivial]
      simp only [filled, List.map_map]
      congr 1
      refine List.map_congr_left fun e _ => ?_
      simp only [Function.comp_apply]
      split <;> simp [hzero]
    have hred : reduced o r sumId sumOp true = (laneOfInt n (satInt n (active.foldl (· + ·) 0)).1, (satInt n (active.foldl (· + ·) 0)).2) := by
      simp only [reduced, hint, Bool.and_true, if_true, sumId]
      rw [hfilled, hsum]
    obtain ⟨v, hnext, hlane, hrest⟩ := vecReduce_spec h (packVR 0x25 0 o) hred
    have hexec : exec (.vrsum o) s = vecReduce (packVR 0x25 0 o) o sumId sumOp true s := rfl
    rw [Nat.mod_eq_of_lt (laneOfInt_lt n _), satInt_eq, laneOfInt_eq] at hlane
    rw [satInt_eq] at hnext
    exact ⟨v, hexec.trans hnext, hlane, hrest⟩
  case max =>
    have hid : signedLane n (2 ^ (n - 1)) = -(2 ^ (n - 1)) := by
      rw [signedLane, if_neg (by omega)]
      omega
    have hmax := integer (op := max) (packVR 0x25 1 o) (i := .vrmax o) rfl (show maxId o.ty = 2 ^ (n - 1) by simp [maxId, hint, n])
      (by funext a b; simp [maxOp, hint, n]) max_assoc (fun a b ha hb => by unfold InLane at *; omega) hlt
      (fun a ha => by rw [hid]; exact max_eq_right ha.1) (fun a ha => by rw [hid]; exact max_eq_left ha.1)
    rwa [hid] at hmax
  case min =>
    have hid : signedLane n (2 ^ (n - 1) - 1) = 2 ^ (n - 1) - 1 := by
      rw [signedLane, if_pos (by omega)]
      omega
    have hmin := integer (op := min) (packVR 0x25 2 o) (i := .vrmin o) rfl (show minId o.ty = 2 ^ (n - 1) - 1 by simp [minId, hint, n])
      (by funext a b; simp [minOp, hint, n]) min_assoc (fun a b ha hb => by unfold InLane at *; omega) (by omega)
      (fun a ha => by rw [hid]; exact min_eq_right (by have := ha.2; omega)) (fun a ha => by rw [hid]; exact min_eq_left (by have := ha.2; omega))
    rwa [hid] at hmin
  case fsum => exact real (packVR 0x25 0 o) hfloat rfl (by simp [sumId, hfloat, n]) rfl
  case fmax => exact real (packVR 0x25 1 o) hfloat rfl (by simp [maxId, hfloat]) (by funext a b; simp [maxOp, hfloat])
  case fmin => exact real (packVR 0x25 2 o) hfloat rfl (by simp [minId, hfloat]) (by funext a b; simp [minOp, hfloat])

end Sys2Proof.Machine
end

section
/-! Proofs about the net (R251): what a step ends with sends every message for another module to the ports. -/
set_option Elab.async false
namespace Sys2Proof.Machine
open Sys2Proof Sys2Proof.Safety

/-- A fold of steps that leave the net alone leaves it alone. -/
theorem foldl_net {α : Type} {f : State → α → State} (hf : ∀ s a, (f s a).net = s.net) (l : List α) (s : State) : (l.foldl f s).net = s.net :=
  List.foldlRecOn (motive := fun t => t.net = s.net) l f rfl fun t ht a _ => (hf t a).trans ht

theorem State.net_tellFlits (s : State) (m port who asid n : Nat) (b : Body) : (s.tellFlits m port who asid n b).net = s.net := rfl
theorem State.net_relink (s : State) (c : Nat) : (s.relink c).net = s.net := by
  unfold State.relink
  exact foldl_net (fun s pid => State.modProc_net s _ _) _ _
theorem State.net_wake (s : State) (pk : Nat) : (s.wake pk).net = s.net := by
  unfold State.wake
  dsimp only
  split
  case h_3 => rfl
  all_goals split
  · rfl
  · exact State.net_relink _ _
  · rfl
  · exact State.net_relink _ _

/-- The messages that stand on the net after the ports have taken theirs. -/
theorem State.net_toPorts (s : State) : s.toPorts.net = s.net.filter (fun m => !(match m.dst with | .remote _ => true | _ => false)) := by
  unfold State.toPorts
  refine (foldl_net (fun t m => ?_) _ _).trans ?_
  · split
    · split <;> rfl
    · rfl
  · congr 1
theorem State.net_pumpList (l : List Packet) (stuck : List (Nat × Nat × Bool)) (s : State) : (State.pumpList l stuck s).net = s.net := by
  induction l generalizing stuck s with
  | nil => rfl
  | cons p rest ih =>
    unfold State.pumpList
    dsimp only
    split
    · exact ih _ _
    split
    · exact ih _ _
    · rw [ih]
      split <;> rfl
theorem State.net_pump (s : State) : s.pump.net = s.toPorts.net := by
  unfold State.pump
  dsimp only
  split
  · rfl
  · exact State.net_pumpList _ _ _
theorem State.net_wakeFences (s : State) : s.wakeFences.net = s.net :=
  foldl_net (fun t pk => by dsimp only; split; exacts [t.net_wake pk, rfl]) _ _
theorem State.net_watchQuiet (s : State) : s.watchQuiet.net = s.net :=
  foldl_net (fun t d => by split <;> rfl) _ _

theorem State.portsClear_toPorts (s : State) : portsClear s.toPorts := by
  intro m hm k hk
  rw [State.net_toPorts, List.mem_filter] at hm
  simp [hk] at hm
/-- Whatever a move did, what it ends with clears the net. -/
theorem State.portsClear_close (s : State) (ns : Nat) : portsClear (s.close ns) := by
  unfold State.close portsClear
  rw [State.net_watchQuiet, State.net_wakeFences, State.net_pump]
  exact State.portsClear_toPorts _
theorem State.moveOn_next (s t : State) (m : Move) (h : s.moveOn m = .next t) : ∃ u, s.play m = .next u ∧ t = u.close (s.takes m) := by
  unfold State.moveOn at h
  cases hp : s.play m with
  | next u =>
    rw [hp] at h
    exact ⟨u, rfl, (Host.Outcome.next.inj h).symm⟩
  | fault f =>
    rw [hp] at h
    exact absurd h (by simp)
  | refused r =>
    rw [hp] at h
    exact absurd h (by simp)
/-- A step is a move. -/
theorem step_moves (s : State) : ∃ u m, step s = State.moveOn u m := by
  unfold step
  split
  · exact ⟨_, _, rfl⟩
  · exact ⟨_, _, rfl⟩
/-- A step is a move, which ends with `close`. -/
theorem step_closes (s t : State) (h : step s = .next t) : ∃ u ns, t = State.close u ns := by
  obtain ⟨v, m, hm⟩ := step_moves s
  obtain ⟨u, _, hu⟩ := State.moveOn_next v t m (hm.symm.trans h)
  exact ⟨u, _, hu⟩
/-- Settles O54: the end of every step clears the net, whatever stood on it. -/
theorem stepKeepsPortsClear : Obligations.StepKeepsPortsClear := by
  unfold Obligations.StepKeepsPortsClear
  intro s t _ hst
  obtain ⟨u, ns, hu⟩ := step_closes s t hst
  exact hu ▸ u.portsClear_close ns
/-- Settles O52: at reset the net is empty. -/
theorem resetPortsClear : Obligations.ResetPortsClear := by
  unfold Obligations.ResetPortsClear
  intro m hm
  cases hm
end Sys2Proof.Machine
end

section
/-! Proofs about memory and flash (R6, log 1): the operations of the state that write neither. -/
set_option Elab.async false
namespace Sys2Proof.Machine
open Sys2Proof Sys2Proof.Safety

theorem foldl_memory {α : Type} {f : State → α → State} (hf : ∀ s a, (f s a).mem = s.mem ∧ (f s a).flash = s.flash) (l : List α) (s : State) :
    (l.foldl f s).mem = s.mem ∧ (l.foldl f s).flash = s.flash := by
  induction l generalizing s with
  | nil => exact ⟨rfl, rfl⟩
  | cons a l ih => exact ⟨(ih _).1.trans (hf s a).1, (ih _).2.trans (hf s a).2⟩

@[simp] theorem State.memory_tell (s : State) (m p w a : Nat) (b : Body) : (s.tell m p w a b).mem = s.mem ∧ (s.tell m p w a b).flash = s.flash := ⟨rfl, rfl⟩
@[simp] theorem State.memory_stay (s : State) (id : Nat) : (s.stay id).mem = s.mem ∧ (s.stay id).flash = s.flash := ⟨rfl, rfl⟩
@[simp] theorem State.memory_post (s : State) (d kind asid proc : Nat) (dw : List Word) :
    (s.post d kind asid proc dw).mem = s.mem ∧ (s.post d kind asid proc dw).flash = s.flash := by
  simp [State.post, apply_ite State.mem, apply_ite State.flash]
@[simp] theorem State.memory_postOther (s : State) (d asid proc : Nat) (cause : BitVec 8) (reason : Nat) (pc info : Word) :
    (s.postOther d asid proc cause reason pc info).mem = s.mem ∧ (s.postOther d asid proc cause reason pc info).flash = s.flash := by
  simp [State.postOther]
@[simp] theorem State.memory_heal (s : State) (lo n : Nat) : (s.heal lo n).mem = s.mem ∧ (s.heal lo n).flash = s.flash := ⟨rfl, rfl⟩
@[simp] theorem State.memory_relink (s : State) (c : Nat) : (s.relink c).mem = s.mem ∧ (s.relink c).flash = s.flash := by
  simp [State.relink, foldl_memory]
@[simp] theorem State.memory_wake (s : State) (pk : Nat) : (s.wake pk).mem = s.mem ∧ (s.wake pk).flash = s.flash := by
  unfold State.wake
  dsimp only
  repeat' split
  all_goals simp
@[simp] theorem State.memory_endProcess (s : State) (pk : Nat) (t : Trap) (at_ : Word) (reason : Nat) :
    (s.endProcess pk t at_ reason).mem = s.mem ∧ (s.endProcess pk t at_ reason).flash = s.flash := by
  simp [State.endProcess]
@[simp] theorem State.memory_trap (s : State) (pk : Nat) (t : Trap) (at_ : Word) :
    (s.trap pk t at_).mem = s.mem ∧ (s.trap pk t at_).flash = s.flash := by
  simp [State.trap, apply_ite State.mem, apply_ite State.flash]
@[simp] theorem State.memory_count (s : State) (pk : Nat) : (s.count pk).mem = s.mem ∧ (s.count pk).flash = s.flash := ⟨rfl, rfl⟩
@[simp] theorem State.memory_raise (s : State) (pk : Nat) (t : Trap) : (s.raise pk t).mem = s.mem ∧ (s.raise pk t).flash = s.flash := by
  simp [State.raise, apply_ite State.mem, apply_ite State.flash]
@[simp] theorem State.memory_trapReturn (s : State) (pk : Nat) : (s.trapReturn pk).mem = s.mem ∧ (s.trapReturn pk).flash = s.flash := ⟨rfl, rfl⟩
@[simp] theorem State.memory_rollback (s : State) (pk : Nat) (o : OutOp) (t : Trap) :
    (s.rollback pk o t).mem = s.mem ∧ (s.rollback pk o t).flash = s.flash := ⟨rfl, rfl⟩
@[simp] theorem State.memory_setEvent (s : State) (pk : Nat) : (s.setEvent pk).mem = s.mem ∧ (s.setEvent pk).flash = s.flash := by
  simp [State.setEvent, apply_ite State.mem, apply_ite State.flash]
@[simp] theorem State.memory_raiseWatch (s : State) (c t : Nat) : (s.raiseWatch c t).mem = s.mem ∧ (s.raiseWatch c t).flash = s.flash := by
  unfold State.raiseWatch
  repeat' split
  all_goals simp
@[simp] theorem State.memory_wakeAlts (s : State) : s.wakeAlts.mem = s.mem ∧ s.wakeAlts.flash = s.flash := by
  simp [State.wakeAlts, foldl_memory, apply_ite State.mem, apply_ite State.flash]
@[simp] theorem State.memory_wakeSaved (s : State) (c t : Nat) : (s.wakeSaved c t).mem = s.mem ∧ (s.wakeSaved c t).flash = s.flash := by
  simp [State.wakeSaved, foldl_memory, apply_ite State.mem, apply_ite State.flash]
@[simp] theorem State.memory_setTag (s : State) (c t : Nat) (v : Tag) : (s.setTag c t v).mem = s.mem ∧ (s.setTag c t v).flash = s.flash := by
  simp [State.setTag, apply_ite State.mem, apply_ite State.flash]
@[simp] theorem State.memory_setMark (s : State) (c i : Nat) (m : Mark) : (s.setMark c i m).mem = s.mem ∧ (s.setMark c i m).flash = s.flash := ⟨rfl, rfl⟩
@[simp] theorem State.memory_leaveVia (s : State) (c i : Nat) (m : Mark) (t : Nat) :
    (s.leaveVia c i m t).mem = s.mem ∧ (s.leaveVia c i m t).flash = s.flash := by
  simp [State.leaveVia, apply_ite State.mem, apply_ite State.flash]
@[simp] theorem State.memory_releaseTile (s : State) (c t : Nat) : (s.releaseTile c t).mem = s.mem ∧ (s.releaseTile c t).flash = s.flash := by
  unfold State.releaseTile
  split <;> simp
@[simp] theorem State.memory_startPull (s : State) (c t : Nat) : (s.startPull c t).mem = s.mem ∧ (s.startPull c t).flash = s.flash := by
  unfold State.startPull
  split <;> simp
@[simp] theorem State.memory_applyRow (s : State) (e : TagEvent) (c t : Nat) :
    (s.applyRow e c t).1.mem = s.mem ∧ (s.applyRow e c t).1.flash = s.flash := by
  unfold State.applyRow
  dsimp only
  repeat' split
  all_goals simp
@[simp] theorem State.memory_touchAll (s : State) (e : TagEvent) (ts : List (Nat × Nat)) :
    (s.touchAll e ts).1.mem = s.mem ∧ (s.touchAll e ts).1.flash = s.flash := by
  unfold State.touchAll
  refine List.foldlRecOn (motive := fun a : State × Bool => a.1.mem = s.mem ∧ a.1.flash = s.flash) ts _ ⟨rfl, rfl⟩ (fun a h t _ => ?_)
  split <;> simp [h]
@[simp] theorem State.memory_countAccess (s : State) (core la : Nat) (u : Under) :
    (s.countAccess core la u).mem = s.mem ∧ (s.countAccess core la u).flash = s.flash := by
  simp [State.countAccess, apply_ite State.mem, apply_ite State.flash]
@[simp] theorem State.memory_tellFlits (s : State) (m port who asid flits : Nat) (b : Body) :
    (s.tellFlits m port who asid flits b).mem = s.mem ∧ (s.tellFlits m port who asid flits b).flash = s.flash := ⟨rfl, rfl⟩
@[simp] theorem State.memory_tellHost (s : State) (n : Nat) (b : Body) : (s.tellHost n b).mem = s.mem ∧ (s.tellHost n b).flash = s.flash := ⟨rfl, rfl⟩
@[simp] theorem State.memory_answer (s : State) (r : Req) (from_ : Src) (b : Nat → Body) :
    (s.answer r from_ b).mem = s.mem ∧ (s.answer r from_ b).flash = s.flash := by
  unfold State.answer
  dsimp only
  repeat' split
  all_goals simp
@[simp] theorem State.memory_reply (s : State) (r : Req) (a : Answer) : (s.reply r a).mem = s.mem ∧ (s.reply r a).flash = s.flash := by
  simp [State.reply]
@[simp] theorem State.memory_ack (s : State) (r : Req) : (s.ack r).mem = s.mem ∧ (s.ack r).flash = s.flash := by
  simp [State.ack]
@[simp] theorem State.memory_refuseStore (s : State) (r : Req) (cause : Cause) (reason : Nat) :
    (s.refuseStore r cause reason).mem = s.mem ∧ (s.refuseStore r cause reason).flash = s.flash := by
  unfold State.refuseStore
  split <;> simp
@[simp] theorem State.memory_watchWrite (s : State) (r : Req) (ts : List (Nat × Nat)) :
    (s.watchWrite r ts).mem = s.mem ∧ (s.watchWrite r ts).flash = s.flash := by
  simp [State.watchWrite, foldl_memory, apply_ite State.mem, apply_ite State.flash]
@[simp] theorem State.memory_stepDone (s : State) (r : Req) (c slot idx : Nat) (a : Answer) :
    (s.stepDone r c slot idx a).mem = s.mem ∧ (s.stepDone r c slot idx a).flash = s.flash := by
  unfold State.stepDone
  split <;> simp
@[simp] theorem State.memory_freeMark (s : State) (c i : Nat) : (s.freeMark c i).mem = s.mem ∧ (s.freeMark c i).flash = s.flash := ⟨rfl, rfl⟩
@[simp] theorem State.memory_modLend (s : State) (id : Nat) (f : Lend → Lend) : (s.modLend id f).mem = s.mem ∧ (s.modLend id f).flash = s.flash := ⟨rfl, rfl⟩
@[simp] theorem State.memory_modXfer (s : State) (id : Nat) (f : Xfer → Xfer) : (s.modXfer id f).mem = s.mem ∧ (s.modXfer id f).flash = s.flash := ⟨rfl, rfl⟩
@[simp] theorem State.memory_xferNext (s : State) (x : Xfer) (idx : Nat) : (s.xferNext x idx).mem = s.mem ∧ (s.xferNext x idx).flash = s.flash := by
  unfold State.xferNext
  dsimp only
  repeat' split
  all_goals simp
@[simp] theorem State.memory_claimed (s : State) (who : Claimant) (prior : Tag) :
    (s.claimed who prior).mem = s.mem ∧ (s.claimed who prior).flash = s.flash := by
  unfold State.claimed
  repeat' split
  all_goals simp
@[simp] theorem State.memory_claimDone (s0 : State) (r : Req) (who : Claimant) (prior : Tag) :
    (State.claimDone s0 r who prior).mem = s0.mem ∧ (State.claimDone s0 r who prior).flash = s0.flash := by
  unfold State.claimDone
  dsimp only
  repeat' split
  all_goals simp
@[simp] theorem State.memory_queueAt (s : State) (src : Src) (home : Home) (ts : List (Nat × Nat)) (e : TagEvent) (w : Waiter) :
    (s.queueAt src home ts e w).mem = s.mem ∧ (s.queueAt src home ts e w).flash = s.flash := by
  unfold State.queueAt
  split <;> simp
@[simp] theorem State.memory_queueEngine (s : State) (m : Msg) (ts : List (Nat × Nat)) (e : TagEvent) :
    (s.queueEngine m ts e).mem = s.mem ∧ (s.queueEngine m ts e).flash = s.flash := by
  simp [State.queueEngine]
@[simp] theorem State.memory_unqueue (s : State) (w : Waiter) : (s.unqueue w).mem = s.mem ∧ (s.unqueue w).flash = s.flash := ⟨rfl, rfl⟩
@[simp] theorem State.memory_queueWalk (s : State) (c : Ctx) (va : Nat) : (s.queueWalk c va).mem = s.mem ∧ (s.queueWalk c va).flash = s.flash := by
  unfold State.queueWalk
  split <;> simp
@[simp] theorem State.memory_dropWalk (s : State) (c : Ctx) (va : Nat) : (s.dropWalk c va).mem = s.mem ∧ (s.dropWalk c va).flash = s.flash := ⟨rfl, rfl⟩
@[simp] theorem State.memory_setStreamOut (s : State) (x : StreamOut) : (s.setStreamOut x).mem = s.mem ∧ (s.setStreamOut x).flash = s.flash := ⟨rfl, rfl⟩
@[simp] theorem State.memory_sendAway (s : State) (core who target asid : Nat) (key : BitVec 32) (b : Body) :
    (s.sendAway core who target asid key b).mem = s.mem ∧ (s.sendAway core who target asid key b).flash = s.flash := ⟨rfl, rfl⟩
@[simp] theorem State.memory_routeFor (s : State) (src : Src) (core who : Nat) (guest : Bool) (asid : Nat) (key : BitVec 32) (dst : Home) (b : Body) :
    (s.routeFor src core who guest asid key dst b).mem = s.mem ∧ (s.routeFor src core who guest asid key dst b).flash = s.flash := by
  unfold State.routeFor
  repeat' split
  all_goals simp
@[simp] theorem State.memory_route (s : State) (src : Src) (core pk asid : Nat) (key : BitVec 32) (dst : Home) (b : Body) :
    (s.route src core pk asid key dst b).mem = s.mem ∧ (s.route src core pk asid key dst b).flash = s.flash := by
  simp [State.route]
@[simp] theorem State.memory_request (s : State) (pk op : Nat) (rop : ROp) (va : Word) (pa : Nat) (u : Under) (limit : Nat) :
    (s.request pk op rop va pa u limit).mem = s.mem ∧ (s.request pk op rop va pa u limit).flash = s.flash := by
  simp [State.request]
@[simp] theorem State.memory_failOp (s : State) (pk op : Nat) (t : Trap) : (s.failOp pk op t).mem = s.mem ∧ (s.failOp pk op t).flash = s.flash := by
  unfold State.failOp
  dsimp only
  repeat' split
  all_goals simp
@[simp] theorem State.memory_notice (s : State) (h : Header) (c : Cause) : (s.notice h c).mem = s.mem ∧ (s.notice h c).flash = s.flash := by
  simp [State.notice]
@[simp] theorem State.memory_barNotice (s : State) (pk cls la n : Nat) (c : Cause) :
    (s.barNotice pk cls la n c).mem = s.mem ∧ (s.barNotice pk cls la n c).flash = s.flash := by
  simp [State.barNotice]
@[simp] theorem State.memory_fillTlb (s : State) (core : Nat) (e : TlbEntry) : (s.fillTlb core e).mem = s.mem ∧ (s.fillTlb core e).flash = s.flash := ⟨rfl, rfl⟩
@[simp] theorem State.memory_failWalk (s : State) (w : Walk) (x : Cause) (l : Nat) :
    (s.failWalk w x l).mem = s.mem ∧ (s.failWalk w x l).flash = s.flash := by
  unfold State.failWalk
  split <;> simp
@[simp] theorem State.memory_startShootdown (s : State) (mode asid va : Nat) (mig : Option Nat) (pte : optParam Word 0) :
    (s.startShootdown mode asid va mig pte).1.mem = s.mem ∧ (s.startShootdown mode asid va mig pte).1.flash = s.flash := by
  unfold State.startShootdown
  simp [foldl_memory]
@[simp] theorem State.memory_callBack (s : State) (core who m asid : Nat) (key : BitVec 32) (w : Recalled) :
    (s.callBack core who m asid key w).mem = s.mem ∧ (s.callBack core who m asid key w).flash = s.flash := by
  unfold State.callBack
  split <;> simp
@[simp] theorem State.memory_invalidate (s : State) (d : Shootdown) (core : Nat) :
    (s.invalidate d core).mem = s.mem ∧ (s.invalidate d core).flash = s.flash := by
  simp [State.invalidate, foldl_memory, apply_ite State.mem, apply_ite State.flash]
@[simp] theorem State.memory_shootAcked (s : State) (id from_ : Nat) :
    (s.shootAcked id from_).mem = s.mem ∧ (s.shootAcked id from_).flash = s.flash := ⟨rfl, rfl⟩
@[simp] theorem State.memory_recallBack (s : State) (src : Src) (o : ChanOp) :
    (s.recallBack src o).mem = s.mem ∧ (s.recallBack src o).flash = s.flash := by
  unfold State.recallBack
  split <;> simp
@[simp] theorem State.memory_forwardPage (s : State) (old new : Nat) :
    (s.forwardPage old new).mem = s.mem ∧ (s.forwardPage old new).flash = s.flash := ⟨rfl, rfl⟩
@[simp] theorem State.memory_wakeOn (s : State) (op : Nat) : (s.wakeOn op).mem = s.mem ∧ (s.wakeOn op).flash = s.flash := by
  simp [State.wakeOn, foldl_memory, apply_ite State.mem, apply_ite State.flash]
@[simp] theorem State.memory_placed (s : State) (core : Nat) (before : Core) :
    (s.placed core before).mem = s.mem ∧ (s.placed core before).flash = s.flash := by
  simp [State.placed, foldl_memory, apply_ite State.mem, apply_ite State.flash]
@[simp] theorem State.memory_pullOps (s : State) (pk : Nat) : (s.pullOps pk).mem = s.mem ∧ (s.pullOps pk).flash = s.flash := by
  simp [State.pullOps, foldl_memory, apply_ite State.mem, apply_ite State.flash]
@[simp] theorem State.memory_pushOps (s : State) (pk : Nat) : (s.pushOps pk).mem = s.mem ∧ (s.pushOps pk).flash = s.flash := ⟨rfl, rfl⟩
@[simp] theorem State.memory_enter (s : State) (pk : Nat) : (s.enter pk).mem = s.mem ∧ (s.enter pk).flash = s.flash := by
  unfold State.enter
  split <;> simp
@[simp] theorem State.memory_farOver (s : State) (who op : Nat) : (s.farOver who op).mem = s.mem ∧ (s.farOver who op).flash = s.flash := by
  unfold State.farOver
  simp [apply_ite State.mem, apply_ite State.flash]
@[simp] theorem State.memory_wakeFences (s : State) : s.wakeFences.mem = s.mem ∧ s.wakeFences.flash = s.flash := by
  simp [State.wakeFences, foldl_memory, apply_ite State.mem, apply_ite State.flash]
@[simp] theorem State.memory_resumeCores (s : State) (d : Nat) (cs : List Nat) :
    (s.resumeCores d cs).mem = s.mem ∧ (s.resumeCores d cs).flash = s.flash := by
  simp [State.resumeCores, foldl_memory]
@[simp] theorem State.memory_unpark (s : State) (asid : Nat) : (s.unpark asid).mem = s.mem ∧ (s.unpark asid).flash = s.flash := ⟨rfl, rfl⟩
@[simp] theorem State.memory_writePhase (s : State) (phase modid : Nat) :
    (s.writePhase phase modid).mem = s.mem ∧ (s.writePhase phase modid).flash = s.flash := by
  simp [State.writePhase, apply_ite State.mem, apply_ite State.flash]
@[simp] theorem State.memory_setEp (s : State) (c slot : Nat) (e : Endpoint) : (s.setEp c slot e).mem = s.mem ∧ (s.setEp c slot e).flash = s.flash := ⟨rfl, rfl⟩
@[simp] theorem State.memory_modEp (s : State) (c slot : Nat) (f : Endpoint → Endpoint) :
    (s.modEp c slot f).mem = s.mem ∧ (s.modEp c slot f).flash = s.flash := ⟨rfl, rfl⟩
@[simp] theorem State.memory_chanTell (s : State) (o : ChanOp) (b : Body) : (s.chanTell o b).mem = s.mem ∧ (s.chanTell o b).flash = s.flash := by
  unfold State.chanTell
  split <;> simp
@[simp] theorem State.memory_walkFor (s : State) (o : ChanOp) : (s.walkFor o).mem = s.mem ∧ (s.walkFor o).flash = s.flash := by
  unfold State.walkFor
  split <;> simp
@[simp] theorem State.memory_dropXfer (s : State) (id : Nat) : (s.dropXfer id).mem = s.mem ∧ (s.dropXfer id).flash = s.flash := ⟨rfl, rfl⟩
@[simp] theorem State.memory_setUnit (s : State) (i : Nat) (u : UnitSlot) : (s.setUnit i u).mem = s.mem ∧ (s.setUnit i u).flash = s.flash := ⟨rfl, rfl⟩
@[simp] theorem State.memory_claimAll (s : State) (x : Xfer) : (s.claimAll x).mem = s.mem ∧ (s.claimAll x).flash = s.flash := by
  unfold State.claimAll
  refine foldl_memory (fun s a => ?_) _ _
  dsimp only
  repeat' split
  all_goals simp
@[simp] theorem State.memory_sendOver (s : State) (o : ChanOp) : (s.sendOver o).mem = s.mem ∧ (s.sendOver o).flash = s.flash := by
  unfold State.sendOver
  split <;> simp
@[simp] theorem State.memory_farDone (s : State) (x : Xfer) : (s.farDone x).mem = s.mem ∧ (s.farDone x).flash = s.flash := by
  unfold State.farDone
  split <;> simp
@[simp] theorem State.memory_unbindEnd (s : State) (c slot who : Nat) :
    (s.unbindEnd c slot who).mem = s.mem ∧ (s.unbindEnd c slot who).flash = s.flash := by
  unfold State.unbindEnd
  split <;> simp
@[simp] theorem State.memory_emptyRing (s : State) (pk c tile n : Nat) :
    (s.emptyRing pk c tile n).1.mem = s.mem ∧ (s.emptyRing pk c tile n).1.flash = s.flash := by
  induction n generalizing s tile with
  | zero => exact ⟨rfl, rfl⟩
  | succ n ih =>
    unfold State.emptyRing
    have hrow := s.memory_applyRow .tempty c tile
    split
    · exact ⟨rfl, rfl⟩
    · split <;> simp_all
@[simp] theorem State.memory_tileSeen (s : State) (c t : Nat) : (s.tileSeen c t).1.mem = s.mem ∧ (s.tileSeen c t).1.flash = s.flash := by
  unfold State.tileSeen
  split <;> simp
@[simp] theorem State.memory_setFar (s : State) (pk i k : Nat) : (s.setFar pk i k).mem = s.mem ∧ (s.setFar pk i k).flash = s.flash := ⟨rfl, rfl⟩
@[simp] theorem State.memory_askGuard (s : State) (pk i : Nat) (m : Multi) (commit : Bool) :
    (s.askGuard pk i m commit).mem = s.mem ∧ (s.askGuard pk i m commit).flash = s.flash := by
  unfold State.askGuard
  dsimp only
  repeat' split
  all_goals simp
@[simp] theorem State.memory_askGuards (s : State) (pk : Nat) (m : Multi) : (s.askGuards pk m).mem = s.mem ∧ (s.askGuards pk m).flash = s.flash := by
  simp [State.askGuards, foldl_memory]
@[simp] theorem State.memory_dropGuards (s : State) (pk : Nat) (m : Multi) : (s.dropGuards pk m).mem = s.mem ∧ (s.dropGuards pk m).flash = s.flash := by
  unfold State.dropGuards
  simp [foldl_memory]
@[simp] theorem State.memory_commitEnd (s : State) (v : Word) : (s.commitEnd v).mem = s.mem ∧ (s.commitEnd v).flash = s.flash := by
  unfold State.commitEnd
  split <;> simp
@[simp] theorem State.memory_guardTell (s : State) (g : Guarding) (code : Nat) (t : Option Trap) :
    (s.guardTell g code t).mem = s.mem ∧ (s.guardTell g code t).flash = s.flash := by
  unfold State.guardTell
  split <;> simp
@[simp] theorem State.memory_setGuard (s : State) (g : Guarding) : (s.setGuard g).mem = s.mem ∧ (s.setGuard g).flash = s.flash := ⟨rfl, rfl⟩
@[simp] theorem State.memory_dropGuard (s : State) (who op : Nat) : (s.dropGuard who op).mem = s.mem ∧ (s.dropGuard who op).flash = s.flash := ⟨rfl, rfl⟩
theorem State.memory_guardLook {s s1 : State} {g : Guarding} {r : Bool} (h : s.guardLook g = .ok (s1, r)) :
    s1.mem = s.mem ∧ s1.flash = s.flash := by
  unfold State.guardLook at h
  have hseen := s.memory_tileSeen g.core g.tile
  split at h
  · split at h
    · cases h
    · cases h
      exact ⟨rfl, rfl⟩
  · simpa [Except.ok.inj h] using hseen
theorem State.memory_guardReady {s s1 : State} {pk kind : Nat} {v : Word} {known : Option Nat} {r : Bool}
    (h : s.guardReady pk kind v known = .ok (s1, r)) : s1.mem = s.mem ∧ s1.flash = s.flash := by
  unfold State.guardReady at h
  dsimp only at h
  repeat' split at h
  all_goals try cases h
  all_goals try exact ⟨rfl, rfl⟩
  next c t _ _ _ _ => 
    have hseen := s.memory_tileSeen c t
    simp_all
theorem State.memory_search {pk : Nat} {list : List Word} {far : List (Nat × Nat)} {guards : List Nat} {s s1 : State} {r : Option Nat}
    (h : State.search pk list far guards s = .ok (s1, r)) : s1.mem = s.mem ∧ s1.flash = s.flash := by
  induction guards generalizing s with
  | nil =>
    cases h
    exact ⟨rfl, rfl⟩
  | cons i rest ih =>
    unfold State.search at h
    split at h
    · cases h
    · next hready =>
      cases h
      exact State.memory_guardReady hready
    · next hready =>
      have hkept := State.memory_guardReady hready
      exact ⟨(ih h).1.trans hkept.1, (ih h).2.trans hkept.2⟩
@[simp] theorem State.memory_guardArrive (s : State) (g : Guarding) (commit : Bool) :
    (s.guardArrive g commit).mem = s.mem ∧ (s.guardArrive g commit).flash = s.flash := by
  unfold State.guardArrive
  split
  · simp
  · next s1 hlook => simp [State.memory_guardLook hlook, apply_ite State.mem, apply_ite State.flash]
  · next s1 r hlook _ => simp [State.memory_guardLook hlook]
@[simp] theorem State.memory_kickGuards (s : State) : s.kickGuards.mem = s.mem ∧ s.kickGuards.flash = s.flash := by
  unfold State.kickGuards
  refine foldl_memory (fun s g => ?_) _ _
  split
  · simp
  · next s1 hlook => simp [State.memory_guardLook hlook]
  · next s1 hlook => exact State.memory_guardLook hlook
@[simp] theorem State.memory_multiBlock (s : State) (pk : Nat) : (s.multiBlock pk).mem = s.mem ∧ (s.multiBlock pk).flash = s.flash := by
  unfold State.multiBlock
  dsimp only
  repeat' split
  all_goals simp
@[simp] theorem State.memory_mapWaiting (s : State) (f : ChanOp → ChanOp) : (s.mapWaiting f).mem = s.mem ∧ (s.mapWaiting f).flash = s.flash := ⟨rfl, rfl⟩
@[simp] theorem State.memory_recallChan (s : State) (m : Msg) (who op : Nat) :
    (s.recallChan m who op).mem = s.mem ∧ (s.recallChan m who op).flash = s.flash := by
  unfold State.recallChan
  dsimp only
  repeat' split
  all_goals simp
@[simp] theorem State.memory_dropWatches (s : State) (who : Nat) : (s.dropWatches who).mem = s.mem ∧ (s.dropWatches who).flash = s.flash := ⟨rfl, rfl⟩
@[simp] theorem State.memory_unbindOne (s : State) (who : Nat) (e : Nat × Nat) :
    (s.unbindOne who e).mem = s.mem ∧ (s.unbindOne who e).flash = s.flash := by
  simp [State.unbindOne, apply_ite State.mem, apply_ite State.flash]
@[simp] theorem State.memory_ioepnew (s : State) (v : Word) : (s.ioepnew v).1.mem = s.mem ∧ (s.ioepnew v).1.flash = s.flash := by
  unfold State.ioepnew
  dsimp only
  repeat' split
  all_goals simp
@[simp] theorem State.memory_ioepStep (s : State) (kind id : Nat) : (s.ioepStep kind id).mem = s.mem ∧ (s.ioepStep kind id).flash = s.flash := by
  unfold State.ioepStep
  dsimp only
  repeat' split
  all_goals simp
@[simp] theorem State.memory_modAcc (s : State) (c n : Nat) (f : Acc → Acc) : (s.modAcc c n f).mem = s.mem ∧ (s.modAcc c n f).flash = s.flash := ⟨rfl, rfl⟩
@[simp] theorem State.memory_engineFault (s : State) (die asid who cause reason form row member : Nat) (pc addr dest aux : Word) :
    (s.engineFault die asid who cause reason form row member pc addr dest aux).mem = s.mem ∧ (s.engineFault die asid who cause reason form row member pc addr dest aux).flash = s.flash := by
  simp [State.engineFault]
@[simp] theorem State.memory_enqueueTop (s : State) (pk l : Nat) (t : TileOp) (dest : Dest) (writes : List RegRef) (va : Word) :
    (s.enqueueTop pk l t dest writes va).mem = s.mem ∧ (s.enqueueTop pk l t dest writes va).flash = s.flash := by
  unfold State.enqueueTop
  split <;> simp
@[simp] theorem State.memory_topReads (s : State) (core : Nat) (t : TileOp) :
    (s.topReads core t).1.mem = s.mem ∧ (s.topReads core t).1.flash = s.flash := by
  simp [State.topReads]
@[simp] theorem State.memory_topClaims (core id : Nat) (ts : List Nat) (s : State) (got : List Tag) :
    (State.topClaims core id ts s got).1.mem = s.mem ∧ (State.topClaims core id ts s got).1.flash = s.flash := by
  induction ts generalizing s got with
  | nil => exact ⟨rfl, rfl⟩
  | cons t rest ih =>
    unfold State.topClaims
    split
    · exact ⟨rfl, rfl⟩
    · simp [ih]
@[simp] theorem State.memory_setTop (s : State) (core : Nat) (t : TileOp) : (s.setTop core t).mem = s.mem ∧ (s.setTop core t).flash = s.flash := ⟨rfl, rfl⟩
@[simp] theorem State.memory_stopTop (s : State) (core : Nat) (t : TileOp) (tile : Nat) :
    (s.stopTop core t tile).mem = s.mem ∧ (s.stopTop core t tile).flash = s.flash := by
  simp [State.stopTop]
@[simp] theorem State.memory_dropTop (s : State) (core : Nat) (t : TileOp) : (s.dropTop core t).mem = s.mem ∧ (s.dropTop core t).flash = s.flash := by
  simp [State.dropTop]
@[simp] theorem State.memory_topFlags (s : State) (pk op : Nat) (f : Flags) :
    (s.topFlags pk op f).mem = s.mem ∧ (s.topFlags pk op f).flash = s.flash := ⟨rfl, rfl⟩
@[simp] theorem State.memory_topRecord (s : State) (core : Nat) (t : TileOp) (addr : Nat) (dest : Word) :
    (s.topRecord core t addr dest).mem = s.mem ∧ (s.topRecord core t addr dest).flash = s.flash := by
  simp [State.topRecord]
@[simp] theorem State.memory_mergeFault (s : State) (core who asid code : Nat) (pc va dest : Word) :
    (s.mergeFault core who asid code pc va dest).mem = s.mem ∧ (s.mergeFault core who asid code pc va dest).flash = s.flash := by
  simp [State.mergeFault]
@[simp] theorem State.memory_sendAbsmax (s : State) (core : Nat) (t : TileOp) :
    (s.sendAbsmax core t).mem = s.mem ∧ (s.sendAbsmax core t).flash = s.flash := by
  unfold State.sendAbsmax
  dsimp only
  repeat' split
  all_goals simp
@[simp] theorem State.memory_topReady (s : State) (core : Nat) (t0 : TileOp) :
    (s.topReady core t0).1.mem = s.mem ∧ (s.topReady core t0).1.flash = s.flash := by
  unfold State.topReady
  dsimp only
  have hreads := s.memory_topReads core t0.again
  repeat' split
  all_goals simp_all
@[simp] theorem State.memory_wakeTops (s : State) : s.wakeTops.mem = s.mem ∧ s.wakeTops.flash = s.flash := by
  unfold State.wakeTops
  refine foldl_memory (fun s a => ?_) _ _
  dsimp only
  repeat' split
  all_goals simp
@[simp] theorem State.memory_pickTop (core : Nat) (ts : List TileOp) (seen : List Nat) (s : State) :
    (State.pickTop core ts seen s).1.mem = s.mem ∧ (State.pickTop core ts seen s).1.flash = s.flash := by
  induction ts generalizing s seen with
  | nil => exact ⟨rfl, rfl⟩
  | cons t rest ih =>
    unfold State.pickTop
    have hready := s.memory_topReady core t
    split
    · exact ih seen s
    · split <;> simp_all
@[simp] theorem memory_sumBody (w sub role l : Nat) (ga gb : BitVec 6) (pk : Nat) (s : State) :
    (sumBody w sub role l ga gb pk s).mem = s.mem ∧ (sumBody w sub role l ga gb pk s).flash = s.flash := by
  unfold sumBody
  dsimp only
  repeat' split
  all_goals simp
@[simp] theorem memory_packBody (w sub l : Nat) (ga gb : BitVec 6) (pk : Nat) (s : State) :
    (packBody w sub l ga gb pk s).mem = s.mem ∧ (packBody w sub l ga gb pk s).flash = s.flash := by
  unfold packBody
  dsimp only
  repeat' split
  all_goals simp
@[simp] theorem State.memory_handCopy (s : State) (pk l form : Nat) (a b ctl : Word) (r : BitVec 256) (members : List Word) :
    (s.handCopy pk l form a b ctl r members).mem = s.mem ∧ (s.handCopy pk l form a b ctl r members).flash = s.flash := ⟨rfl, rfl⟩
@[simp] theorem memory_copyBody (form : Nat) (o : TC) (pk : Nat) (s : State) :
    (copyBody form o pk s).mem = s.mem ∧ (copyBody form o pk s).flash = s.flash := by
  unfold copyBody
  dsimp only
  repeat' split
  all_goals simp
@[simp] theorem State.memory_handFlash (s : State) (pk form : Nat) (word frame push ctl : Word) (r : BitVec 256) :
    (s.handFlash pk form word frame push ctl r).mem = s.mem ∧ (s.handFlash pk form word frame push ctl r).flash = s.flash := ⟨rfl, rfl⟩
@[simp] theorem State.memory_ungroup (s : State) (pk : Nat) : (s.ungroup pk).mem = s.mem ∧ (s.ungroup pk).flash = s.flash := by
  simp [State.ungroup, apply_ite State.mem, apply_ite State.flash]
@[simp] theorem State.memory_modCopy (s : State) (core id : Nat) (f : Copy → Copy) :
    (s.modCopy core id f).mem = s.mem ∧ (s.modCopy core id f).flash = s.flash := ⟨rfl, rfl⟩
@[simp] theorem State.memory_dropCopy (s : State) (core id : Nat) : (s.dropCopy core id).mem = s.mem ∧ (s.dropCopy core id).flash = s.flash := ⟨rfl, rfl⟩
@[simp] theorem State.memory_modPiece (s : State) (core id idx : Nat) (f : Piece → Piece) :
    (s.modPiece core id idx f).mem = s.mem ∧ (s.modPiece core id idx f).flash = s.flash := ⟨rfl, rfl⟩
@[simp] theorem State.memory_pieceDone (s : State) (core id idx : Nat) :
    (s.pieceDone core id idx).mem = s.mem ∧ (s.pieceDone core id idx).flash = s.flash := by
  unfold State.pieceDone
  dsimp only
  repeat' split
  all_goals simp
@[simp] theorem State.memory_copyRecord (s : State) (core : Nat) (c : Copy) (z : Piece) (cause : Nat) (addr : Word) :
    (s.copyRecord core c z cause addr).mem = s.mem ∧ (s.copyRecord core c z cause addr).flash = s.flash := by
  simp [State.copyRecord]
@[simp] theorem State.memory_copySend (s : State) (core : Nat) (c : Copy) (dst : Home) (b : Body) :
    (s.copySend core c dst b).mem = s.mem ∧ (s.copySend core c dst b).flash = s.flash := by
  simp [State.copySend]
@[simp] theorem State.memory_parkPiece (s : State) (core : Nat) (c : Copy) (z : Piece) (stage : Nat) (addr : Word) :
    (s.parkPiece core c z stage addr).mem = s.mem ∧ (s.parkPiece core c z stage addr).flash = s.flash := by
  unfold State.parkPiece
  split <;> simp
@[simp] theorem State.memory_tfull (s : State) (src : Src) (core t : Nat) (w : Waiter) :
    (s.tfull src core t w).1.mem = s.mem ∧ (s.tfull src core t w).1.flash = s.flash := by
  unfold State.tfull
  dsimp only
  have hrow := s.memory_applyRow .tfull core t
  split
  · simp
  · split
    · simp_all
    · split <;> simp_all
@[simp] theorem State.memory_sendUnbinds (s : State) (pk : Nat) : (s.sendUnbinds pk).mem = s.mem ∧ (s.sendUnbinds pk).flash = s.flash := by
  simp [State.sendUnbinds, foldl_memory]
@[simp] theorem State.memory_freeOrigin (s : State) (k : Nat) : (s.freeOrigin k).mem = s.mem ∧ (s.freeOrigin k).flash = s.flash := by
  simp [State.freeOrigin, apply_ite State.mem, apply_ite State.flash]
@[simp] theorem State.memory_freeProc (s : State) (pk : Nat) : (s.freeProc pk).mem = s.mem ∧ (s.freeProc pk).flash = s.flash := by
  unfold State.freeProc
  simp [apply_ite State.mem, apply_ite State.flash]
@[simp] theorem State.memory_postFree (s : State) (d kind asid who : Nat) :
    (s.postFree d kind asid who).mem = s.mem ∧ (s.postFree d kind asid who).flash = s.flash := by
  simp [State.postFree]
@[simp] theorem State.memory_setPeer (s : State) (m : Nat) (p : Peer) : (s.setPeer m p).mem = s.mem ∧ (s.setPeer m p).flash = s.flash := ⟨rfl, rfl⟩
@[simp] theorem State.memory_losePeer (s : State) (d m : Nat) : (s.losePeer d m).mem = s.mem ∧ (s.losePeer d m).flash = s.flash := by
  simp [State.losePeer, apply_ite State.mem, apply_ite State.flash]
@[simp] theorem State.memory_forget (s : State) (m : Nat) : (s.forget m).mem = s.mem ∧ (s.forget m).flash = s.flash := ⟨rfl, rfl⟩
@[simp] theorem State.memory_admitPeer (s : State) (m incarn : Nat) : (s.admitPeer m incarn).mem = s.mem ∧ (s.admitPeer m incarn).flash = s.flash := ⟨rfl, rfl⟩
@[simp] theorem State.memory_dropStale (s : State) (d m : Nat) : (s.dropStale d m).mem = s.mem ∧ (s.dropStale d m).flash = s.flash := by
  unfold State.dropStale
  split <;> simp
@[simp] theorem State.memory_toPorts (s : State) : s.toPorts.mem = s.mem ∧ s.toPorts.flash = s.flash := by
  unfold State.toPorts
  refine foldl_memory (fun s a => ?_) _ _
  repeat' split
  all_goals simp
@[simp] theorem State.memory_pumpList (ps : List Packet) (stuck : List (Nat × Nat × Bool)) (s : State) :
    (State.pumpList ps stuck s).mem = s.mem ∧ (State.pumpList ps stuck s).flash = s.flash := by
  induction ps generalizing s stuck with
  | nil => exact ⟨rfl, rfl⟩
  | cons p rest ih =>
    unfold State.pumpList
    dsimp only
    split
    · exact ih stuck s
    · split
      · exact ih _ s
      · simp [ih, apply_ite State.mem, apply_ite State.flash]
@[simp] theorem State.memory_pump (s : State) : s.pump.mem = s.mem ∧ s.pump.flash = s.flash := by
  unfold State.pump
  dsimp only
  split <;> simp
@[simp] theorem State.memory_unsend (s : State) (op : Nat) : (s.unsend op).mem = s.mem ∧ (s.unsend op).flash = s.flash := ⟨rfl, rfl⟩
@[simp] theorem State.memory_unsendPiece (s : State) (c : Claimant) (ended : Bool) :
    (s.unsendPiece c ended).mem = s.mem ∧ (s.unsendPiece c ended).flash = s.flash := ⟨rfl, rfl⟩
@[simp] theorem State.memory_mergeRefused (s : State) (src : Src) (who op core asid : Nat) (va pc dest : Word) (code : Nat) :
    (s.mergeRefused src who op core asid va pc dest code).mem = s.mem ∧ (s.mergeRefused src who op core asid va pc dest code).flash = s.flash := by
  unfold State.mergeRefused
  split <;> simp
@[simp] theorem State.memory_cacheAmo (s : State) (m : Msg) (h : Header) : (s.cacheAmo m h).mem = s.mem ∧ (s.cacheAmo m h).flash = s.flash := by
  unfold State.cacheAmo
  repeat' split
  all_goals simp
@[simp] theorem State.memory_setStreamIn (s : State) (x : StreamIn) : (s.setStreamIn x).mem = s.mem ∧ (s.setStreamIn x).flash = s.flash := ⟨rfl, rfl⟩
@[simp] theorem State.memory_tellSource (s : State) (m : Msg) (h : Header) (b : Body) :
    (s.tellSource m h b).mem = s.mem ∧ (s.tellSource m h b).flash = s.flash := by
  unfold State.tellSource
  split <;> simp
@[simp] theorem State.memory_park (s : State) (m : Msg) (h : Header) : (s.park m h).mem = s.mem ∧ (s.park m h).flash = s.flash := by
  unfold State.park
  dsimp only
  repeat' split
  all_goals simp
@[simp] theorem State.memory_ackReplies (s : State) (h : Header) : (s.ackReplies h).mem = s.mem ∧ (s.ackReplies h).flash = s.flash := ⟨rfl, rfl⟩
@[simp] theorem State.memory_duplicate (s : State) (m : Msg) (h : Header) : (s.duplicate m h).mem = s.mem ∧ (s.duplicate m h).flash = s.flash := by
  unfold State.duplicate
  repeat' split
  all_goals simp
@[simp] theorem State.memory_follow (s : State) (who : Nat) (b : Body) : (s.follow who b).mem = s.mem ∧ (s.follow who b).flash = s.flash := by
  unfold State.follow
  split <;> simp
@[simp] theorem State.memory_keepSent (s : State) : s.keepSent.mem = s.mem ∧ s.keepSent.flash = s.flash := ⟨rfl, rfl⟩
@[simp] theorem State.memory_replayFlits (s : State) (l : Link) (e : Nat × Nat) :
    (s.replayFlits l e).mem = s.mem ∧ (s.replayFlits l e).flash = s.flash := by
  unfold State.replayFlits
  dsimp only
  repeat' split
  all_goals simp
@[simp] theorem State.memory_replayAll (s : State) (l : Link) : (s.replayAll l).mem = s.mem ∧ (s.replayAll l).flash = s.flash := by
  unfold State.replayAll
  refine foldl_memory (fun s a => ?_) _ _
  repeat' split
  all_goals simp
@[simp] theorem State.memory_tune (s : State) (port peer : Nat) : (s.tune port peer).mem = s.mem ∧ (s.tune port peer).flash = s.flash := ⟨rfl, rfl⟩
@[simp] theorem State.memory_vacate (s : State) (pk : Nat) : (s.vacate pk).mem = s.mem ∧ (s.vacate pk).flash = s.flash := ⟨rfl, rfl⟩
@[simp] theorem State.memory_storeLost (s : State) (who op : Nat) (c : Cause) :
    (s.storeLost who op c).mem = s.mem ∧ (s.storeLost who op c).flash = s.flash := by
  unfold State.storeLost
  repeat' split
  all_goals simp
@[simp] theorem State.memory_mergeLost (s : State) (op code : Nat) : (s.mergeLost op code).mem = s.mem ∧ (s.mergeLost op code).flash = s.flash := by
  unfold State.mergeLost
  repeat' split
  all_goals simp
@[simp] theorem State.memory_mailTo (s : State) (m port who : Nat) (b : Body) :
    (s.mailTo m port who b).mem = s.mem ∧ (s.mailTo m port who b).flash = s.flash := by
  unfold State.mailTo
  repeat' split
  all_goals simp
@[simp] theorem State.memory_forwardMail (s : State) (pk who m : Nat) :
    (s.forwardMail pk who m).mem = s.mem ∧ (s.forwardMail pk who m).flash = s.flash := by
  simp [State.forwardMail, foldl_memory]
@[simp] theorem State.memory_relocate (s : State) (who : Nat) (m : Option Nat) :
    (s.relocate who m).mem = s.mem ∧ (s.relocate who m).flash = s.flash := by
  unfold State.relocate
  dsimp only
  repeat' split
  all_goals simp
@[simp] theorem State.memory_setQueue (s : State) (q : Nat) (v : Queue) : (s.setQueue q v).mem = s.mem ∧ (s.setQueue q v).flash = s.flash := ⟨rfl, rfl⟩
@[simp] theorem State.memory_fetchPacket (s : State) (q len : Nat) : (s.fetchPacket q len).mem = s.mem ∧ (s.fetchPacket q len).flash = s.flash := by
  unfold State.fetchPacket
  dsimp only
  repeat' split
  all_goals simp
@[simp] theorem State.memory_readAhead (s : State) (q n : Nat) : (s.readAhead q n).mem = s.mem ∧ (s.readAhead q n).flash = s.flash := by
  unfold State.readAhead
  dsimp only
  repeat' split
  all_goals simp
@[simp] theorem State.memory_mbDone (s : State) (result : Nat) : (s.mbDone result).mem = s.mem ∧ (s.mbDone result).flash = s.flash := by
  unfold State.mbDone
  dsimp only
  repeat' split
  all_goals simp
@[simp] theorem State.memory_setArg (s : State) (i : Nat) (v : Word) : (s.setArg i v).mem = s.mem ∧ (s.setArg i v).flash = s.flash := ⟨rfl, rfl⟩
@[simp] theorem State.memory_setData (s : State) (bs : List Byte) : (s.setData bs).mem = s.mem ∧ (s.setData bs).flash = s.flash := ⟨rfl, rfl⟩
@[simp] theorem State.memory_mbStart (s : State) (v : Word) : (s.mbStart v).mem = s.mem ∧ (s.mbStart v).flash = s.flash := by
  unfold State.mbStart
  dsimp only
  repeat' split
  all_goals simp
@[simp] theorem State.memory_updateChunk (s : State) (off : Nat) (bs : List Byte) (last : Bool) :
    (s.updateChunk off bs last).mem = s.mem ∧ (s.updateChunk off bs last).flash = s.flash := by
  simp [State.updateChunk, apply_ite State.mem, apply_ite State.flash]
@[simp] theorem State.memory_serveSmbus (s : State) (r : Smbus) : (s.serveSmbus r).mem = s.mem ∧ (s.serveSmbus r).flash = s.flash := by
  unfold State.serveSmbus
  split <;> simp
@[simp] theorem State.memory_counted (s : State) (r : Req) : (s.counted r).mem = s.mem ∧ (s.counted r).flash = s.flash := by
  unfold State.counted
  split <;> simp
@[simp] theorem State.memory_refuseMmio (s : State) (id : Nat) (r : Req) : (s.refuseMmio id r).mem = s.mem ∧ (s.refuseMmio id r).flash = s.flash := by
  simp [State.refuseMmio]
@[simp] theorem State.memory_merged (s : State) (src : Src) (who op : Nat) :
    (s.merged src who op).mem = s.mem ∧ (s.merged src who op).flash = s.flash := by
  unfold State.merged
  split <;> simp
@[simp] theorem State.memory_acked (s : State) (pk op : Nat) : (s.acked pk op).mem = s.mem ∧ (s.acked pk op).flash = s.flash := by
  simp [State.acked, apply_ite State.mem, apply_ite State.flash]
@[simp] theorem State.memory_pullOver (s : State) (core tile : Nat) : (s.pullOver core tile).mem = s.mem ∧ (s.pullOver core tile).flash = s.flash := ⟨rfl, rfl⟩
@[simp] theorem State.memory_sendBack (s : State) (via src : Src) (dst : Home) (b : Body) :
    (s.sendBack via src dst b).mem = s.mem ∧ (s.sendBack via src dst b).flash = s.flash := by
  unfold State.sendBack
  repeat' split
  all_goals simp
@[simp] theorem State.memory_pushTo (s : State) (via src : Src) (pa : Nat) (bytes : List Byte) (who : Claimant) :
    (s.pushTo via src pa bytes who).mem = s.mem ∧ (s.pushTo via src pa bytes who).flash = s.flash := by
  unfold State.pushTo
  split <;> simp
@[simp] theorem State.memory_dropClaim (s : State) (who : Claimant) : (s.dropClaim who).mem = s.mem ∧ (s.dropClaim who).flash = s.flash := ⟨rfl, rfl⟩
@[simp] theorem State.memory_withdrawn (s0 : State) (w : Recalled) : (State.withdrawn s0 w).mem = s0.mem ∧ (State.withdrawn s0 w).flash = s0.flash := by
  unfold State.withdrawn
  split <;> simp
@[simp] theorem State.memory_failTouch (s : State) (r : Req) : (s.failTouch r).mem = s.mem ∧ (s.failTouch r).flash = s.flash := by
  unfold State.failTouch
  split <;> simp
@[simp] theorem State.memory_watchQuiet (s : State) : s.watchQuiet.mem = s.mem ∧ s.watchQuiet.flash = s.flash := by
  simp [State.watchQuiet, foldl_memory, apply_ite State.mem, apply_ite State.flash]
@[simp] theorem State.memory_reportChain (s : State) (d : Nat) (ws : List Nat) (far : List Word) (type_ : Nat) :
    (s.reportChain d ws far type_).mem = s.mem ∧ (s.reportChain d ws far type_).flash = s.flash := by
  simp [State.reportChain]
@[simp] theorem State.memory_probeFrom (s : State) (d w : Nat) : (s.probeFrom d w).mem = s.mem ∧ (s.probeFrom d w).flash = s.flash := by
  simp [State.probeFrom, apply_ite State.mem, apply_ite State.flash]
@[simp] theorem State.memory_startAhead (s : State) (pk : Nat) (t : Trap) : (s.startAhead pk t).mem = s.mem ∧ (s.startAhead pk t).flash = s.flash := ⟨rfl, rfl⟩
@[simp] theorem State.memory_setAhead (s : State) (pk : Nat) (a : Run) : (s.setAhead pk a).mem = s.mem ∧ (s.setAhead pk a).flash = s.flash := ⟨rfl, rfl⟩
@[simp] theorem State.memory_keepWord (s : State) (core pa : Nat) (w : Word32) :
    (s.keepWord core pa w).mem = s.mem ∧ (s.keepWord core pa w).flash = s.flash := by
  unfold State.keepWord
  split <;> simp
@[simp] theorem State.memory_enterTrap (s : State) (pk : Nat) (t : Trap) : (s.enterTrap pk t).mem = s.mem ∧ (s.enterTrap pk t).flash = s.flash := by
  simp [State.enterTrap, apply_ite State.mem, apply_ite State.flash]
@[simp] theorem State.memory_afterWord (s : State) (pk : Nat) (w : Word32) : (s.afterWord pk w).mem = s.mem ∧ (s.afterWord pk w).flash = s.flash := by
  unfold State.afterWord
  dsimp only
  repeat' split
  all_goals simp
@[simp] theorem State.memory_bringIn (s : State) (src : Src) (dst : Home) (b : Body) (check : Option Header) :
    (s.bringIn src dst b check).mem = s.mem ∧ (s.bringIn src dst b check).flash = s.flash := ⟨rfl, rfl⟩
@[simp] theorem State.memory_mailIn (s : State) (src : Src) (who : Nat) (b : Nat → Body) :
    (s.mailIn src who b).mem = s.mem ∧ (s.mailIn src who b).flash = s.flash := by
  unfold State.mailIn
  split <;> simp
@[simp] theorem State.memory_hostRequest (s : State) (src : Src) (who op : Nat) (rop : ROp) :
    (s.hostRequest src who op rop).mem = s.mem ∧ (s.hostRequest src who op rop).flash = s.flash := by
  unfold State.hostRequest
  split <;> simp
@[simp] theorem State.memory_pcie (s : State) (bar off : Nat) (op : PcieOp) :
    (s.pcie bar off op).mem = s.mem ∧ (s.pcie bar off op).flash = s.flash := by
  unfold State.pcie
  split <;> simp
@[simp] theorem State.memory_merge (s : State) (a b : Nat) : (s.merge a b).mem = s.mem ∧ (s.merge a b).flash = s.flash := by
  unfold State.merge
  dsimp only
  repeat' split
  all_goals simp
@[simp] theorem State.memory_remoteFill (s : State) (core : Nat) (e : TlbEntry) :
    (s.remoteFill core e).mem = s.mem ∧ (s.remoteFill core e).flash = s.flash := by
  simp [State.remoteFill, apply_ite State.mem, apply_ite State.flash]
@[simp] theorem State.memory_tick (s : State) (ns : Nat) : (s.tick ns).mem = s.mem ∧ (s.tick ns).flash = s.flash := by
  simp [State.tick, apply_ite State.mem, apply_ite State.flash]
end Sys2Proof.Machine
end

section
/-! Proofs about memory and flash: the operations that write them keep the canonical form. -/
set_option Elab.async false
namespace Sys2Proof.Machine
open Sys2Proof Sys2Proof.Safety

/-- Memory and flash are in canonical form. -/
def Formed (mem flash : Memory) : Prop := mem.wf = true ∧ flash.wf = true
@[simp, reducible] def State.formed (s : State) : Prop := Formed s.mem s.flash

theorem Memory.wf_filter (p : Host.Cell → Bool) {m : Memory} (h : m.wf = true) : Memory.wf (m.filter p) = true := by
  induction m with
  | nil => rfl
  | cons c m ih =>
    have htail := ih (Memory.wf_tail h)
    rw [List.filter_cons]
    split
    · exact Memory.wf_cons (Memory.wf_head h) (fun d hd => Memory.wf_above h d (List.mem_of_mem_filter hd)) htail
    · exact htail
theorem Memory.wf_foldl {α : Type} {f : Memory → α → Memory} (hf : ∀ m a, m.wf = true → (f m a).wf = true) (l : List α) {m : Memory} (h : m.wf = true) :
    (l.foldl f m).wf = true :=
  List.foldlRecOn (motive := fun m : Memory => m.wf = true) l f h fun m hm a _ => hf m a hm
theorem Memory.wf_copyPage (old new : Nat) {m : Memory} (h : m.wf = true) : (m.copyPage old new).wf = true :=
  Memory.wf_foldl (fun _ _ hm => Memory.wf_write hm _ _) _ (Memory.wf_filter _ h)

theorem formed_foldl {α : Type} {f : State → α → State} (hf : ∀ s a, s.formed → (f s a).formed) (l : List α) {s : State} (h : s.formed) :
    (l.foldl f s).formed :=
  List.foldlRecOn (motive := State.formed) l f h fun s hs a _ => hf s a hs
/-- A write to memory alone. -/
theorem Formed.write {m m' f : Memory} (h : Formed m f) (hm : m.wf = true → m'.wf = true) : Formed m' f := ⟨hm h.1, h.2⟩

@[simp] theorem State.formed_writeSave (s : State) (pk : Nat) (parked : Bool) (h : s.formed) : (s.writeSave pk parked).formed := by
  unfold State.writeSave
  dsimp only
  simp only [State.formed, State.modProc_mem, State.modProc_flash]
  refine formed_foldl (fun s e hs => by simpa using hs) _ ?_
  exact h.write fun hm => Memory.wf_foldl (fun _ _ hm => Memory.wf_write hm _ _) _ (Memory.wf_foldl (fun _ _ hm => Memory.wf_writeN hm _ _ _) _ hm)
@[simp] theorem State.formed_putBytes (s : State) (core o : Nat) (bs : List Byte) (h : s.formed) : (s.putBytes core o bs).formed :=
  h.write fun hm => Memory.wf_writeBytes bs hm _
@[simp] theorem State.formed_luWrite (s : State) (la : Nat) (v : Word) (h : s.formed) : (s.luWrite la v).formed :=
  h.write fun hm => Memory.wf_writeN hm la 8 v.toNat
@[simp] theorem State.formed_restart (s : State) (h : s.formed) : s.restart.formed := ⟨rfl, h.2⟩
theorem State.formed_of_memory {s t : State} (h : s.formed) (hk : t.mem = s.mem ∧ t.flash = s.flash) : t.formed := by
  simpa [hk] using h
theorem State.formed_of_applyRow {s s1 : State} {e : TagEvent} {c t : Nat} {b : Bool} (h : s.applyRow e c t = (s1, b)) (hs : s.formed) : s1.formed :=
  State.formed_of_memory hs (by simpa [h] using s.memory_applyRow e c t)
theorem State.formed_of_touchAll {s s1 : State} {e : TagEvent} {ts : List (Nat × Nat)} {b : Bool} (h : s.touchAll e ts = (s1, b)) (hs : s.formed) :
    s1.formed :=
  State.formed_of_memory hs (by simpa [h] using s.memory_touchAll e ts)
@[simp] theorem State.memory_rows (e : TagEvent) (ts : List (Nat × Nat)) (s : State) :
    (ts.foldl (fun s t => (s.applyRow e t.1 t.2).1) s).mem = s.mem ∧ (ts.foldl (fun s t => (s.applyRow e t.1 t.2).1) s).flash = s.flash :=
  foldl_memory (fun s t => s.memory_applyRow e t.1 t.2) ts s

@[simp] theorem State.formed_tryReq (s : State) (r : Req) (h : s.formed) : (s.tryReq r).1.formed := by
  have hwrite (s1 : State) (ws : List (Nat × Byte × Byte)) (h1 : s1.formed) : Formed (s1.mem.writeMasked ws) s1.flash :=
    h1.write (Memory.wf_writeMasked ws)
  unfold State.tryReq
  split
  · exact h
  split
  case h_1 =>
    dsimp only
    split
    · exact h
    split
    · next ht => exact State.formed_of_touchAll ht h
    · next ht =>
      have h1 := State.formed_of_touchAll ht h
      split <;> simp [h1, apply_ite State.mem, apply_ite State.flash]
  case h_2 =>
    dsimp only
    split
    · exact h
    split
    · exact h
    split
    · next ht => exact State.formed_of_touchAll ht h
    · next ht =>
      have h1 := State.formed_of_touchAll ht h
      repeat' split
      all_goals simp [h1, hwrite]
  case h_3 =>
    dsimp only
    split
    · exact h
    split
    · next ht => exact State.formed_of_touchAll ht h
    · next ht =>
      have h1 := State.formed_of_touchAll ht h
      repeat' split
      all_goals simp [h1, hwrite]
  case h_4 f c t n =>
    dsimp only
    split
    · simp [h]
    split
    · simp [h]
    split
    · repeat' split
      all_goals simp [h]
    split
    · repeat' split
      all_goals simp [h]
    split
    · next hrow => exact State.formed_of_applyRow hrow h
    · next hrow =>
      have h1 := State.formed_of_applyRow hrow h
      split <;> simp [h1]
  case h_5 =>
    dsimp only
    split
    · next hrow => exact State.formed_of_applyRow hrow h
    · next hrow => simpa using State.formed_of_applyRow hrow h
  case h_6 => simpa using h
  case h_7 =>
    dsimp only
    repeat' split
    all_goals simp [h]
  case h_8 =>
    split
    · next hrow => simpa using State.formed_of_applyRow hrow h
    · next hrow => exact State.formed_of_applyRow hrow h
  case h_9 =>
    dsimp only
    repeat' split
    all_goals simp [h, foldl_memory]
  case h_10 =>
    dsimp only
    repeat' split
    all_goals simp [h]
  case h_11 => exact h
  case h_12 =>
    dsimp only
    split
    · next hrow => exact State.formed_of_applyRow hrow h
    · next hrow =>
      have h1 := State.formed_of_applyRow hrow h
      repeat' split
      all_goals simp [h1]
@[simp] theorem State.formed_block (s : State) (pk why : Nat) (edge : Word) (on : Nat) (h : s.formed) : (s.block pk why edge on).formed := by
  unfold State.block
  dsimp only
  split <;> simp -implicitDefEqProofs [h]
@[simp] theorem State.formed_stall (s : State) (pk : Nat) (long ext : Bool) (h : s.formed) : (s.stall pk long ext).formed := by
  unfold State.stall
  dsimp only
  repeat' split
  all_goals simp -implicitDefEqProofs [h]
@[simp] theorem State.formed_notify (s : State) (r : Req) (h : s.formed) : (s.notify r).formed := by
  unfold State.notify
  repeat' split
  all_goals simp [h]
@[simp] theorem State.formed_sweep (rs : List Req) (s : State) (h : s.formed) : (State.sweep rs s).1.formed := by
  induction rs generalizing s with
  | nil => exact h
  | cons r rest ih =>
    have htry := s.formed_tryReq r h
    unfold State.sweep
    split
    · exact ih s h
    · split
      · next hr => exact ih _ (by simpa [hr] using htry)
      · next hr => exact ih _ (State.formed_notify _ _ (by simpa [hr] using htry))
@[simp] theorem State.formed_settleN (n : Nat) (s : State) (h : s.formed) : (State.settleN n s).formed := by
  induction n generalizing s with
  | zero => exact h
  | succ n ih =>
    have hsweep := State.formed_sweep s.held s h
    unfold State.settleN
    split
    · next hs => exact ih _ (by simpa [hs] using hsweep)
    · next hs => simpa [hs] using hsweep
@[simp] theorem State.formed_settle (s : State) (h : s.formed) : s.settle.formed := State.formed_settleN _ s h
@[simp] theorem State.formed_hold (s : State) (r : Req) (h : s.formed) : (s.hold r).formed := by
  unfold State.hold
  split <;> simp [h]
@[simp] theorem State.formed_arriveReq (s : State) (r : Req) (h : s.formed) : (s.arriveReq r).formed := by
  unfold State.arriveReq
  extract_lets pulls q
  split
  · exact s.formed_hold q h
  · have htry := s.formed_tryReq q h
    split
    · next hr => exact State.formed_settle _ (by simpa [hr] using htry)
    · next hr => exact State.formed_hold _ _ (by simpa [hr] using htry)
@[simp] theorem State.formed_translated (s : State) (pk : Nat) (a : Access) (cls va : Nat) (body : Nat → Under → State → State) (h : s.formed) (hb : ∀ pa u, (body pa u s).formed) : (s.translated pk a cls va body).formed := by
  unfold State.translated
  dsimp only
  split
  · exact hb _ _
  · simp [h]
  · simp [h]
@[simp] theorem State.formed_awayBlock (s : State) (pk : Nat) (home : Home) (h : s.formed) : (s.awayBlock pk home).formed := by
  unfold State.awayBlock
  repeat' split
  all_goals simp [h]
@[simp] theorem State.formed_sendPart (s : State) (pk : Nat) (r0 : Req) (h : s.formed) : (s.sendPart pk r0).formed := by
  unfold State.sendPart
  dsimp only
  repeat' split
  all_goals simp [h]
@[simp] theorem State.formed_complete (s : State) (pk op : Nat) (vs : List (BitVec 1024)) (h : s.formed) : (s.complete pk op vs).formed := by
  unfold State.complete
  dsimp only
  repeat' split
  all_goals simp -implicitDefEqProofs [h]
@[simp] theorem State.formed_synced (s : State) (pk : Nat) (h : s.formed) : (s.synced pk).formed := by
  unfold State.synced
  dsimp only
  repeat' split
  all_goals simp -implicitDefEqProofs [h]
@[simp] theorem State.formed_done (s : State) (pk op : Nat) (vs : List (BitVec 1024)) (h : s.formed) : (s.done pk op vs).formed := by
  simp [State.done, h]
@[simp] theorem State.formed_failed (s : State) (pk op : Nat) (t : Trap) (h : s.formed) : (s.failed pk op t).formed := by
  simp [State.failed, h]
@[simp] theorem State.formed_postBatch (s : State) (pk : Nat) (t : Trap) (pages : List Nat) (h : s.formed) : (s.postBatch pk t pages).formed := by
  unfold State.postBatch
  dsimp only
  repeat' split
  all_goals simp -implicitDefEqProofs [h]
@[simp] theorem State.formed_endAhead (s : State) (pk : Nat) (h : s.formed) : (s.endAhead pk).formed := by
  unfold State.endAhead
  split <;> simp [h]
@[simp] theorem State.formed_leave (s0 : State) (pk : Nat) (h : s0.formed) : (s0.leave pk).formed := by
  unfold State.leave
  dsimp only
  repeat' split
  all_goals simp [h]
@[simp] theorem formed_loadBody (f : LoadForm) (check : Bool → Nat → Option Cause) (ea : Word) (pk : Nat) (s : State) (h : s.formed) : (loadBody f check ea pk s).formed := by
  unfold loadBody
  split
  · simp [h]
  · refine State.formed_translated _ _ _ _ _ _ h fun pa u => ?_
    dsimp only
    repeat' split
    all_goals simp -implicitDefEqProofs [h]
@[simp] theorem formed_storeSend (pk : Nat) (ea : Word) (pa n : Nat) (u : Under) (ws : List (Nat × Byte × Byte)) (fl : Flags) (stl : Bool) (s : State)
    (h : s.formed) : (storeSend pk ea pa n u ws fl stl s).formed := by
  unfold storeSend
  dsimp only
  repeat' split
  all_goals simp -implicitDefEqProofs [h]
@[simp] theorem formed_storeBody (ea : Word) (z x pk : Nat) (s : State) (h : s.formed) : (storeBody ea z x pk s).formed := by
  unfold storeBody
  split
  · simp [h]
  · refine State.formed_translated _ _ _ _ _ _ h fun pa u => ?_
    split <;> simp [h]
@[simp] theorem formed_tagSend (f n l : Nat) (ea : Word) (pa : Nat) (u : Under) (c t : Nat) (dest : Dest) (writes : List RegRef) (pk : Nat) (s : State)
    (h : s.formed) : (tagSend f n l ea pa u c t dest writes pk s).formed := by
  unfold tagSend
  dsimp only
  repeat' split
  all_goals simp -implicitDefEqProofs [h]
@[simp] theorem State.formed_renew (s : State) (r : Req) (h : s.formed) : (s.renew r).formed := by
  unfold State.renew
  dsimp only
  repeat' split
  all_goals simp -implicitDefEqProofs [h]
@[simp] theorem State.formed_renewHeld (s : State) (h : s.formed) : s.renewHeld.formed := by
  unfold State.renewHeld
  refine formed_foldl (fun s a h => ?_) _ h
  simp [h]
@[simp] theorem State.formed_halt (s : State) (d : Nat) (cs : List Nat) (h : s.formed) : (s.halt d cs).formed := by
  unfold State.halt
  simp -implicitDefEqProofs
  refine formed_foldl (fun s c hs => formed_foldl (fun s pk hs => ?_) _ ?_) _ h
  · simp -implicitDefEqProofs [hs]
  · simp -implicitDefEqProofs [hs]
@[simp] theorem State.formed_haltctl (s : State) (d : Nat) (v : Word) (h : s.formed) : (s.haltctl d v).formed := by
  unfold State.haltctl
  repeat' split
  all_goals simp -implicitDefEqProofs [h]
@[simp] theorem State.formed_readyNoted (s : State) (pk : Nat) (v : Word) (h : s.formed) : (s.readyNoted pk v).formed := by
  unfold State.readyNoted
  dsimp only
  repeat' split
  all_goals simp -implicitDefEqProofs [h]
@[simp] theorem State.formed_pgnote (s : State) (d : Nat) (v : Word) (pk op : Nat) (h : s.formed) : (s.pgnote d v pk op).formed := by
  unfold State.pgnote
  dsimp only
  repeat' split
  all_goals simp [h]
@[simp] theorem State.formed_writeCore (s : State) (c n : Nat) (v : Word) (h : s.formed) : (s.writeCore c n v).formed := by
  unfold State.writeCore
  split
  · simp -implicitDefEqProofs [h]
  · exact formed_foldl (fun s pid hs => by simp -implicitDefEqProofs [hs]) _ (by simp -implicitDefEqProofs [h])
  · simp -implicitDefEqProofs [h]
  · exact h
@[simp] theorem State.formed_writeDie (s : State) (d n : Nat) (v : Word) (h : s.formed) : (s.writeDie d n v).formed := by
  unfold State.writeDie
  repeat' split
  all_goals simp [h]
@[simp] theorem State.formed_writeReg (s : State) (d core n : Nat) (v : Word) (h : s.formed) : (s.writeReg d core n v).formed := by
  unfold State.writeReg
  split <;> simp [h]
@[simp] theorem State.formed_withExtent (s : State) (pk : Nat) (r : Option (Option Trap × Nat)) (body : State → State) (h : s.formed) (hb : (body s).formed) : (s.withExtent pk r body).formed := by
  unfold State.withExtent
  split
  · simp [h]
  · simp [h]
  · exact hb
@[simp] theorem formed_ckptStore (x : Nat) (img : List Word) (i pk : Nat) (s : State) (h : s.formed) : (ckptStore x img i pk s).formed := by
  unfold ckptStore
  dsimp only
  repeat' split
  all_goals simp -implicitDefEqProofs [h]
@[simp] theorem State.formed_chanAnswer (s : State) (o : ChanOp) (a : Answer) (h : s.formed) : (s.chanAnswer o a).formed := by
  unfold State.chanAnswer
  repeat' split
  all_goals simp [h]
@[simp] theorem State.formed_chanTrap (s : State) (o : ChanOp) (c : Cause) (h : s.formed) : (s.chanTrap o c).formed := by
  simp [State.chanTrap, h]
@[simp] theorem State.formed_chanBlock (s : State) (o : ChanOp) (h : s.formed) : (s.chanBlock o).formed := by
  unfold State.chanBlock
  split <;> simp [h]
@[simp] theorem State.formed_ask (s : State) (c who asid op : Nat) (home : Home) (rop : ROp) (h : s.formed) : (s.ask c who asid op home rop).formed := by
  unfold State.ask
  dsimp only
  split <;> simp -implicitDefEqProofs [h]
@[simp] theorem State.formed_deferStep (s : State) (x : Xfer) (o : ChanOp) (h : s.formed) : (s.deferStep x o).formed := by
  unfold State.deferStep
  dsimp only
  repeat' split
  all_goals simp -implicitDefEqProofs [h]
@[simp] theorem State.formed_unitWord (s : State) (i : Nat) (o : ChanOp) (h : s.formed) : (s.unitWord i o).formed := by
  simp [State.unitWord, h, apply_ite State.mem, apply_ite State.flash]
@[simp] theorem State.formed_beginXfer (s : State) (x : Xfer) (h : s.formed) : (s.beginXfer x).formed := by
  unfold State.beginXfer
  dsimp only
  repeat' split
  all_goals simp [h]
@[simp] theorem State.formed_openXfer (s : State) (x0 : Xfer) (h : s.formed) : (s.openXfer x0).formed := by
  unfold State.openXfer
  dsimp only
  repeat' split
  all_goals simp [h]
@[simp] theorem State.formed_abandonXfer (s : State) (x : Xfer) (h : s.formed) : (s.abandonXfer x).formed := by
  unfold State.abandonXfer
  dsimp only
  refine State.formed_settle _ ?_
  simp -implicitDefEqProofs
  refine formed_foldl (fun s e hs => ?_) _ h
  repeat' split
  all_goals simp -implicitDefEqProofs [hs]
@[simp] theorem State.formed_dropMark (s : State) (c i : Nat) (h : s.formed) : (s.dropMark c i).formed := by
  unfold State.dropMark
  refine State.formed_settle _ ?_
  split <;> simp -implicitDefEqProofs [h, foldl_memory]
@[simp] theorem State.formed_giveBack (s : State) (c : Nat) (tiles : List Nat) (lend : Nat) (h : s.formed) : (s.giveBack c tiles lend).formed := by
  unfold State.giveBack
  refine State.formed_settle _ ?_
  simp -implicitDefEqProofs [h, foldl_memory]
@[simp] theorem State.formed_unlend (s : State) (o : ChanOp) (h : s.formed) : (s.unlend o).formed := by
  unfold State.unlend
  repeat' split
  all_goals simp [h]
@[simp] theorem State.formed_waitSend (s : State) (c slot : Nat) (o : ChanOp) (h : s.formed) : (s.waitSend c slot o).formed := by
  simp [State.waitSend, h]
@[simp] theorem State.formed_waitRecv (s : State) (c slot : Nat) (o : ChanOp) (h : s.formed) : (s.waitRecv c slot o).formed := by
  unfold State.waitRecv
  split <;> simp [h]
@[simp] theorem State.formed_matchPair (s : State) (c slot : Nat) (snd rcv : ChanOp) (h : s.formed) : (s.matchPair c slot snd rcv).formed := by
  unfold State.matchPair
  dsimp only
  repeat' split
  all_goals simp [h]
@[simp] theorem State.formed_claimSlot (s : State) (c slot : Nat) (o0 : ChanOp) (h : s.formed) : (s.claimSlot c slot o0).formed := by
  unfold State.claimSlot
  dsimp only
  repeat' split
  all_goals simp [h]
@[simp] theorem State.formed_takeSlot (s : State) (c slot : Nat) (o0 : ChanOp) (h : s.formed) : (s.takeSlot c slot o0).formed := by
  unfold State.takeSlot
  dsimp only
  repeat' split
  all_goals simp [h]
@[simp] theorem State.formed_offerSend (s : State) (c slot : Nat) (o : ChanOp) (h : s.formed) : (s.offerSend c slot o).formed := by
  unfold State.offerSend
  dsimp only
  repeat' split
  all_goals simp [h]
@[simp] theorem State.formed_offerRecv (s : State) (c slot : Nat) (o : ChanOp) (h : s.formed) : (s.offerRecv c slot o).formed := by
  unfold State.offerRecv
  dsimp only
  repeat' split
  all_goals simp [h]
@[simp] theorem State.formed_kickRing (s : State) (c slot : Nat) (h : s.formed) : (s.kickRing c slot).formed := by
  unfold State.kickRing
  dsimp only
  repeat' split
  all_goals simp [h]
theorem State.formed_failXfer {s s1 : State} {x : Xfer} {t : Trap} (h : s.formed) (hx : s.failXfer x t = some s1) : s1.formed := by
  have hgone := s.formed_abandonXfer x h
  have hsaid (o : ChanOp) := State.formed_chanAnswer (s.abandonXfer x) o (.trap t) hgone
  unfold State.failXfer at hx
  dsimp only at hx
  repeat' split at hx
  all_goals simp only [Option.some.injEq, reduceCtorEq] at hx
  all_goals subst hx
  all_goals simp -implicitDefEqProofs [hgone, hsaid]
@[simp] theorem State.formed_withdrawEnd (s : State) (c slot : Nat) (h : s.formed) : (s.withdrawEnd c slot).formed := by
  have hone (s : State) (o : Option ChanOp) (hs : s.formed) : (match o with | some o => (s.unlend o).chanTrap o .handle | none => s : State).formed := by
    split <;> simp [hs]
  unfold State.withdrawEnd
  extract_lets e s1 one s2 other
  have h1 : s1.formed := by simp -implicitDefEqProofs [s1, h]
  have h2 : s2.formed := hone _ _ (hone _ _ h1)
  split <;> simp -implicitDefEqProofs [h2]
@[simp] theorem State.formed_dropRef (s : State) (c : Nat) (o : ChanOp) (h : s.formed) : (s.dropRef c o).formed := by
  unfold State.dropRef
  repeat' split
  all_goals simp [h]
@[simp] theorem State.formed_closeEnd (s : State) (c slot : Nat) (h : s.formed) : (s.closeEnd c slot).formed := by
  unfold State.closeEnd
  extract_lets e s0 buffered s1 s2 s3 t
  have h1 : s1.formed := s.formed_withdrawEnd c slot h
  have ht : t.formed := by
    unfold t
    split
    · split
      · split
        · exact s1.formed_withdrawEnd c (slot + 1) h1
        · exact h1
      · have h3 := formed_foldl (fun s o hs => s.formed_dropRef c o hs) e.refs (s1.formed_withdrawEnd c s0 h1)
        exact formed_foldl (fun s i hs => by simp [hs]) _ h3
    · exact s1.formed_withdrawEnd c _ h1
  exact State.formed_settle _ (by simp -implicitDefEqProofs [ht])
@[simp] theorem State.formed_rebindTo (s : State) (c slot : Nat) (o : ChanOp) (h : s.formed) : (s.rebindTo c slot o).formed := by
  simp [State.rebindTo, h]
@[simp] theorem State.formed_takeRange (s : State) (c slot : Nat) (o : ChanOp) (h : s.formed) : (s.takeRange c slot o).formed := by
  unfold State.takeRange
  dsimp only
  repeat' split
  all_goals simp -implicitDefEqProofs +contextual [h, formed_foldl]
@[simp] theorem State.formed_chanGo (s : State) (c : Nat) (o : ChanOp) (h : s.formed) : (s.chanGo c o).formed := by
  unfold State.chanGo
  dsimp only
  repeat' split
  all_goals simp -implicitDefEqProofs [h]
@[simp] theorem State.formed_releaseHeld (s : State) (c slot : Nat) (h : s.formed) : (s.releaseHeld c slot).formed := by
  unfold State.releaseHeld
  refine formed_foldl (fun s a h => ?_) _ h
  simp [h]
@[simp] theorem State.formed_kickPair (s : State) (c slot : Nat) (h : s.formed) : (s.kickPair c slot).formed := by
  unfold State.kickPair
  dsimp only
  repeat' split
  all_goals simp [h]
@[simp] theorem State.formed_unitVa (s : State) (o : ChanOp) (ty : BitVec 16) (gone : State) (go : ChanOp → State) (h : s.formed) (hgone : gone.formed) (hgo : ∀ q, (go q).formed) : (s.unitVa o ty gone go).formed := by
  unfold State.unitVa
  split
  · simp [h]
  · split
    · simp [hgone]
    · exact hgo _
@[simp] theorem State.formed_kickUnit (s : State) (i : Nat) (h : s.formed) : (s.kickUnit i).formed := by
  unfold State.kickUnit
  extract_lets u x t v
  have ht : t.formed := by
    unfold t
    repeat' split
    all_goals simp -implicitDefEqProofs [h]
  split
  · exact ht
  · repeat' split
    all_goals simp -implicitDefEqProofs [ht]
@[simp] theorem State.formed_unitGo (s0 : State) (o : ChanOp) (h : s0.formed) : (s0.unitGo o).formed := by
  unfold State.unitGo
  extract_lets i u s out s1
  have hs : s.formed := by
    have hb (n : Nat) : (s0.bump n).formed := by simp [h]
    exact hb _
  have hout (s : State) (q : Option ChanOp) (hs : s.formed) : (out s q).formed := by
    unfold out
    split <;> simp [hs]
  have hset (v : UnitSlot) : (s.setUnit i v).formed := by simp [hs]
  have hsaid (v : UnitSlot) (q q' : Option ChanOp) (a : Answer) : ((out (out (s.setUnit i v) q) q').chanAnswer o a).formed :=
    State.formed_chanAnswer _ _ _ (hout _ _ (hout _ _ (hset v)))
  clear_value out s
  repeat' split
  all_goals simp -implicitDefEqProofs [hs, hsaid]
@[simp] theorem State.formed_unitArrive (s : State) (m : Msg) (o : ChanOp) (h : s.formed) : (s.unitArrive m o).formed := by
  unfold State.unitArrive
  repeat' split
  all_goals simp -implicitDefEqProofs [h]
@[simp] theorem State.formed_borerWord (s : State) (h : s.formed) : s.borerWord.formed := by
  unfold State.borerWord
  refine formed_foldl (fun s a h => ?_) _ h
  simp [h]
@[simp] theorem State.formed_kickStale (s : State) (h : s.formed) : s.kickStale.formed := by
  unfold State.kickStale
  exact formed_foldl (fun s i hs => s.formed_kickUnit i hs) _ (formed_foldl (fun s e hs => s.formed_kickPair e.1 e.2 hs) _ h)
@[simp] theorem formed_chanBody (form word l : Nat) (hd x : Word) (dest : Dest) (writes : List RegRef) (pk : Nat) (s : State) (h : s.formed) : (chanBody form word l hd x dest writes pk s).formed := by
  unfold chanBody
  dsimp only
  repeat' split
  all_goals simp -implicitDefEqProofs [h]
@[simp] theorem State.formed_mkchGo (s : State) (pk : Nat) (h : s.formed) : (s.mkchGo pk).formed := by
  unfold State.mkchGo
  dsimp only
  repeat' split
  all_goals simp [h]
@[simp] theorem State.formed_readNext (s : State) (pk : Nat) (va : Word) (h : s.formed) : (s.readNext pk va).formed := by
  unfold State.readNext
  extract_lets c o ts op pa wait
  have hwait (s : State) (hs : s.formed) : (wait s).formed := by simp -implicitDefEqProofs [wait, hs]
  split
  · exact h
  split
  · split <;> simp -implicitDefEqProofs [h]
  split
  · exact hwait s h
  split
  · next ht => exact hwait _ (State.formed_of_touchAll ht h)
  · next ht =>
    have h1 := State.formed_of_touchAll ht h
    dsimp only
    split <;> simp -implicitDefEqProofs [h1]
@[simp] theorem State.formed_altDone (s : State) (pk : Nat) (m : Multi) (i : Nat) (h : s.formed) : (s.altDone pk m i).formed := by
  simp [State.altDone, h]
@[simp] theorem State.formed_altGo (s : State) (pk : Nat) (h : s.formed) : (s.altGo pk).formed := by
  unfold State.altGo
  dsimp only
  split
  · exact h
  split
  · simp -implicitDefEqProofs [h]
  split
  · simp -implicitDefEqProofs [h]
  split
  · simp -implicitDefEqProofs [h]
  · simp -implicitDefEqProofs [h]
  · next hs => exact State.formed_of_memory h (by simpa using State.memory_search hs)
  · next m0 _ _ _ _ s1 i hs =>
    have h1 : s1.formed := State.formed_of_memory h (by simpa using State.memory_search hs)
    split
    · simp -implicitDefEqProofs [h1]
    · simp -implicitDefEqProofs [h1, apply_ite State.mem, apply_ite State.flash]
@[simp] theorem State.formed_altHear (s : State) (msg : Msg) (who op i code : Nat) (t : Option Trap)
    (h : s.formed) : (s.altHear msg who op i code t).formed := by
  unfold State.altHear
  dsimp only
  repeat' split
  all_goals simp [h]
@[simp] theorem State.formed_multiGo (s : State) (pk : Nat) (h : s.formed) : (s.multiGo pk).formed := by
  unfold State.multiGo
  repeat' split
  all_goals simp [h]
@[simp] theorem State.formed_takeStep (s : State) (c slot idx : Nat) (o : ChanOp) (a : Answer) (h : s.formed) : (s.takeStep c slot idx o a).formed := by
  unfold State.takeStep
  dsimp only
  repeat' split
  all_goals simp [h]
@[simp] theorem State.formed_deferDone (s : State) (x : Xfer) (idx : Nat) (a : Answer) (h : s.formed) : (s.deferDone x idx a).formed := by
  unfold State.deferDone
  split
  · split
    · next hx => exact State.formed_releaseHeld _ _ _ (State.formed_failXfer h hx)
    · exact h
  · dsimp only
    repeat' split
    all_goals simp -implicitDefEqProofs [h]
  · exact h
@[simp] theorem State.formed_chanStep (s : State) (from_ : Src) (c slot op idx : Nat) (a : Answer)
    (h : s.formed) : (s.chanStep from_ c slot op idx a).formed := by
  unfold State.chanStep
  dsimp only
  repeat' split
  all_goals simp [h]
@[simp] theorem State.formed_freshen (s : State) (q : ChanOp) (h : s.formed) : (s.freshen q).formed := by
  unfold State.freshen
  split <;> simp [h]
@[simp] theorem State.formed_popRing (s : State) (c slot : Nat) (h : s.formed) : (s.popRing c slot).formed := by
  simp [State.popRing, h]
@[simp] theorem State.formed_expireEp (s : State) (pk c slot : Nat) (h : s.formed) : (s.expireEp pk c slot).formed := by
  unfold State.expireEp
  dsimp only
  repeat' split
  all_goals simp [h]
@[simp] theorem State.formed_expireEager (s : State) (x : Xfer) (o : ChanOp) (h : s.formed) : (s.expireEager x o).formed := by
  unfold State.expireEager
  dsimp only
  split
  · simp -implicitDefEqProofs [h]
  · split
    · split
      · next hx => exact State.formed_releaseHeld _ _ _ (State.formed_failXfer h hx)
      · exact h
    · exact h
@[simp] theorem State.formed_dropMarks (s : State) (who : Nat) (h : s.formed) : (s.dropMarks who).formed := by
  unfold State.dropMarks
  refine formed_foldl (fun s a h => ?_) _ h
  simp [h]
@[simp] theorem State.formed_unbindNext (s : State) (id who : Nat) (e : Nat × Nat) (h : s.formed) : (s.unbindNext id who e).formed := by
  unfold State.unbindNext
  repeat' split
  all_goals simp [h]
@[simp] theorem State.formed_unclaim (s : State) (core : Nat) (ts : List Nat) (prior : List Tag) (h : s.formed) : (s.unclaim core ts prior).formed := by
  unfold State.unclaim
  exact State.formed_settle _ (formed_foldl (fun s e hs => by simp [hs]) _ h)
@[simp] theorem State.formed_finishTop (s : State) (core : Nat) (t : TileOp) (vs : List (BitVec 1024)) (f : Flags)
    (h : s.formed) : (s.finishTop core t vs f).formed := by
  simp [State.finishTop, h]
@[simp] theorem State.formed_failTop (s : State) (core : Nat) (t : TileOp) (x : Trap) (h : s.formed) : (s.failTop core t x).formed := by
  unfold State.failTop
  exact State.formed_settle _ (State.formed_failed _ _ _ _ (State.formed_unclaim _ _ _ _ (by simp [h])))
@[simp] theorem State.formed_addStep (s : State) (core : Nat) (t : TileOp) (h : s.formed) : (s.addStep core t).formed := by
  unfold State.addStep
  dsimp only
  repeat' split
  all_goals simp [h]
@[simp] theorem State.formed_drainStep (s : State) (core : Nat) (t : TileOp) (h : s.formed) : (s.drainStep core t).formed := by
  unfold State.drainStep
  dsimp only
  split
  · split <;> simp [h]
  split
  · simp [h]
  split
  · have hclaims := State.memory_topClaims core t.id (t.dstTiles.drop t.prior.length) s t.prior
    split
    · next hc => exact State.formed_of_memory h (by simpa [hc] using hclaims)
    · next hc => exact State.formed_of_memory h (by simpa [hc] using hclaims)
  split
  · simp [h]
  · split <;> simp [h]
@[simp] theorem State.formed_packStep (s : State) (core : Nat) (t : TileOp) (h : s.formed) : (s.packStep core t).formed := by
  unfold State.packStep
  dsimp only
  split
  · simp [h]
  · split
    · exact State.formed_finishTop _ _ _ _ _ (formed_foldl (fun s x hs => by simp [hs]) _ (by simp [h]))
    · simp [h]
@[simp] theorem State.formed_tableStep (s : State) (core : Nat) (t : TileOp) (h : s.formed) : (s.tableStep core t).formed := by
  unfold State.tableStep
  split <;> simp [h]
@[simp] theorem State.formed_aczStep (s : State) (core : Nat) (t : TileOp) (h : s.formed) : (s.aczStep core t).formed := by
  simp [State.aczStep, h]
@[simp] theorem State.formed_areadStep (s : State) (core : Nat) (t : TileOp) (h : s.formed) : (s.areadStep core t).formed := by
  simp [State.areadStep, h, apply_ite State.mem, apply_ite State.flash]
@[simp] theorem State.formed_giveUpPiece (s : State) (core : Nat) (c : Copy) (z : Piece) (h : s.formed) : (s.giveUpPiece core c z).formed := by
  unfold State.giveUpPiece
  repeat' split
  all_goals simp [h]
@[simp] theorem State.formed_abandonPiece (s : State) (core : Nat) (c : Copy) (z : Piece) (cause : Nat) (addr : Word)
    (h : s.formed) : (s.abandonPiece core c z cause addr).formed := by
  simp [State.abandonPiece, h]
@[simp] theorem State.formed_pieceResult (s : State) (src : Src) (who asid : Nat) (c : Claimant) (code : Nat) (atSource : Bool)
    (h : s.formed) : (s.pieceResult src who asid c code atSource).formed := by
  unfold State.pieceResult
  repeat' split
  all_goals simp [h]
@[simp] theorem State.formed_dispatchDst (s : State) (core : Nat) (c : Copy) (z : Piece) (h : s.formed) : (s.dispatchDst core c z).formed := by
  unfold State.dispatchDst
  dsimp only
  repeat' split
  all_goals simp [h]
@[simp] theorem State.formed_dispatchSrc (s : State) (core : Nat) (c : Copy) (z : Piece) (h : s.formed) : (s.dispatchSrc core c z).formed := by
  unfold State.dispatchSrc
  dsimp only
  repeat' split
  all_goals simp [h]
@[simp] theorem State.formed_refuseFlash (s : State) (f : Flash) (cause reason : Nat) (h : s.formed) : (s.refuseFlash f cause reason).formed := by
  simp [State.refuseFlash, h]
@[simp] theorem State.formed_flashOver (s : State) (f : Flash) (h : s.formed) : (s.flashOver f).formed := by
  simp [State.flashOver, h]
@[simp] theorem State.formed_flashTile (s : State) (f : Flash) (h : s.formed) : (s.flashTile f).formed := by
  unfold State.flashTile
  have hfull := s.memory_tfull .borer f.core f.ctile (.flash f.id)
  split
  · next hf => exact State.formed_of_memory h (by simpa [hf] using hfull)
  · next hf => exact State.formed_settle _ (State.formed_flashOver _ _ (State.formed_of_memory h (by simpa [hf] using hfull)))
@[simp] theorem State.formed_create (s : State) (core pid : Nat) (p : Proc) (h : s.formed) : (s.create core pid p).formed := by
  simp -implicitDefEqProofs [State.create, h, apply_ite State.mem, apply_ite State.flash]
@[simp] theorem State.formed_watchExits (s : State) (h : s.formed) : s.watchExits.formed := by
  unfold State.watchExits
  refine formed_foldl (fun s e hs => ?_) _ h
  repeat' split
  all_goals simp [hs]
@[simp] theorem State.formed_exitStep (s : State) (pk : Nat) (h : s.formed) : (s.exitStep pk).formed := by
  unfold State.exitStep
  dsimp only
  repeat' split
  all_goals simp -implicitDefEqProofs [h]
@[simp] theorem State.formed_refuse (s : State) (m : Msg) (c : Cause) (h : s.formed) : (s.refuse m c).formed := by
  unfold State.refuse
  repeat' split
  all_goals simp [h]
@[simp] theorem State.formed_recallPiece (s : State) (m : Msg) (hd : Header) (core cid idx : Nat) (h : s.formed) : (s.recallPiece m hd core cid idx).formed := by
  unfold State.recallPiece
  dsimp only
  split
  · simp -implicitDefEqProofs [h]
  · exact h
@[simp] theorem State.formed_passOn (s : State) (m : Msg) (hd : Header) (h : s.formed) : (s.passOn m hd).formed := by
  unfold State.passOn
  dsimp only
  split <;> simp -implicitDefEqProofs [h]
@[simp] theorem State.formed_decide_ (s : State) (m : Msg) (hd : Header) (v : Verdict) (h : s.formed) : (s.decide_ m hd v).formed := by
  unfold State.decide_
  split <;> simp [h]
@[simp] theorem State.formed_examine (s : State) (m : Msg) (hd : Header) (h : s.formed) : (s.examine m hd).formed := s.formed_decide_ m hd _ h
@[simp] theorem State.formed_accept (s : State) (m : Msg) (hd : Header) (h : s.formed) : (s.accept m hd).formed := by
  unfold State.accept
  simp -implicitDefEqProofs [h]
@[simp] theorem State.formed_drain (n who : Nat) (s : State) (h : s.formed) : (State.drain n who s).formed := by
  induction n generalizing s with
  | zero => exact h
  | succ n ih =>
    unfold State.drain
    dsimp only
    repeat' split
    all_goals simp -implicitDefEqProofs [h, ih]
@[simp] theorem State.formed_receive (s : State) (m : Msg) (hd : Header) (seq : Nat) (h : s.formed) : (s.receive m hd seq).formed := by
  unfold State.receive
  dsimp only
  repeat' split
  all_goals simp -implicitDefEqProofs [h]
@[simp] theorem State.formed_admitGuest (s : State) (c i : Nat) (t : Travel) (h : s.formed) : (s.admitGuest c i t).formed := by
  unfold State.admitGuest
  exact formed_foldl (fun s x hs => by simp [hs]) _ (by simp [h])
@[simp] theorem State.formed_withdrawXfer (s : State) (x : Xfer) (h : s.formed) : (s.withdrawXfer x).formed := by
  unfold State.withdrawXfer
  dsimp only
  repeat' split
  all_goals simp [h]
@[simp] theorem State.formed_losePieces (s : State) (m : Nat) (h : s.formed) : (s.losePieces m).formed := by
  unfold State.losePieces
  refine State.formed_settle _ ?_
  simp -implicitDefEqProofs
  refine formed_foldl (fun s x hs => ?_) _ (formed_foldl (fun s e hs => by simp [hs]) _ h)
  split <;> simp [hs]
@[simp] theorem State.formed_loseChannels (s : State) (m : Nat) (h : s.formed) : (s.loseChannels m).formed := by
  unfold State.loseChannels
  extract_lets s1 ends out s2 marks s3 lends s4 dead
  have h1 : s1.formed := formed_foldl (fun s x hs => by simp [hs]) _ h
  have hout (s : State) (o : Option ChanOp) (hs : s.formed) : (out s o).formed := by
    unfold out
    split <;> simp [hs]
  have h2 : s2.formed := formed_foldl (fun s e hs => by simp -implicitDefEqProofs [hs, hout]) _ h1
  have h3 : s3.formed := formed_foldl (fun s e hs => by simp -implicitDefEqProofs [hs, foldl_memory]) _ h2
  have h4 : s4.formed := formed_foldl (fun s e hs => by simp -implicitDefEqProofs [hs, foldl_memory]) _ h3
  exact State.formed_settle _ h4
@[simp] theorem State.formed_withdrawOps (s : State) (mine : ChanOp → Bool) (h : s.formed) : (s.withdrawOps mine).formed := by
  unfold State.withdrawOps
  refine formed_foldl (fun s a h => ?_) _ h
  simp [h]
@[simp] theorem State.formed_withdrawOp (s : State) (who op : Nat) (h : s.formed) : (s.withdrawOp who op).formed := by
  simp [State.withdrawOp, h]
@[simp] theorem State.formed_quiesceProc (s : State) (lostOps : List Nat) (pk : Nat) (h : s.formed) : (s.quiesceProc lostOps pk).formed := by
  unfold State.quiesceProc
  dsimp only
  split
  · simp [h]
  · split
    · have hback (s1 : State) (l : List OutOp) (h1 : s1.formed) : (l.foldl (fun s x => s.withdrawOp (s.originWord pk) x.id) s1).formed :=
        formed_foldl (fun s x hs => by simp [hs]) l h1
      exact State.formed_of_memory (State.formed_synced _ pk (State.formed_of_memory (hback _ _ (by simp [h])) (State.memory_rollback _ _ _ _))) (State.memory_wake _ _)
    · simp -implicitDefEqProofs [h]
@[simp] theorem State.formed_exitAway (s : State) (m pk : Nat) (h : s.formed) : (s.exitAway m pk).formed := by
  unfold State.exitAway
  dsimp only
  split
  · exact h
  · simp -implicitDefEqProofs [h, foldl_memory]
@[simp] theorem State.formed_dropTops (s : State) (pk : Nat) (h : s.formed) : (s.dropTops pk).formed := by
  unfold State.dropTops
  refine formed_foldl (fun s t hs => ?_) _ (by simp -implicitDefEqProofs [h])
  split <;> simp -implicitDefEqProofs [hs]
@[simp] theorem State.formed_dropAsks (s : State) (pk who : Nat) (h : s.formed) : (s.dropAsks pk who).formed := by
  simp [State.dropAsks, h]
@[simp] theorem State.formed_dropGuest (s : State) (m pk : Nat) (h : s.formed) : (s.dropGuest m pk).formed := by
  unfold State.dropGuest
  dsimp only
  split
  · have hdrop : ((((s.dropMarks (s.proc pk).origin).dropWatches (s.proc pk).origin).dropTops pk).dropAsks pk (s.proc pk).origin).formed :=
      State.formed_dropAsks _ _ _ (State.formed_dropTops _ _ (by simp [h]))
    exact State.formed_settle _ (by simp -implicitDefEqProofs [hdrop])
  · exact h
@[simp] theorem State.formed_cleanUp (s : State) (m : Nat) (h : s.formed) : (s.cleanUp m).formed := by
  unfold State.cleanUp
  refine formed_foldl (fun s pk hs => by simp [hs]) _ ?_
  refine State.formed_loseChannels _ _ (State.formed_losePieces _ _ ?_)
  exact formed_foldl (fun s pk hs => by simp [hs]) _ h
@[simp] theorem State.formed_arm (s : State) (q qcb : Nat) (d0 d1 : Word) (h : s.formed) : (s.arm q qcb d0 d1).1.formed := by
  unfold State.arm
  dsimp only
  repeat' split
  all_goals simp [h]
@[simp] theorem State.formed_haltQueue (s : State) (q code : Nat) (h : s.formed) : (s.haltQueue q code).formed := by
  simp [State.haltQueue, h]
@[simp] theorem State.formed_luStore (s : State) (q : Nat) (v : Queue) (h : s.formed) : (s.luStore q v).formed := by
  unfold State.luStore
  split <;> simp [h]
@[simp] theorem State.formed_finishPacket (s : State) (q len : Nat) (h : s.formed) : (s.finishPacket q len).formed := by
  unfold State.finishPacket
  dsimp only
  repeat' split
  all_goals simp [h]
@[simp] theorem State.formed_pollWait (s : State) (q : Nat) (h : s.formed) : (s.pollWait q).formed := by
  unfold State.pollWait
  repeat' split
  all_goals simp [h]
@[simp] theorem State.formed_doorbell (s : State) (queue : Nat) (h : s.formed) : (s.doorbell queue).formed := by
  unfold State.doorbell
  dsimp only
  repeat' split
  all_goals simp [h]
@[simp] theorem State.formed_luarmWrite (s : State) (value : Word) (h : s.formed) : (s.luarmWrite value).formed := by
  unfold State.luarmWrite
  dsimp only
  repeat' split
  all_goals simp [h]
@[simp] theorem State.formed_lupreempt (s : State) (value : Word) (h : s.formed) : (s.lupreempt value).formed := by
  unfold State.lupreempt
  refine formed_foldl (fun s a h => ?_) _ h
  simp [h]
/-- What `State.launchPick` does with the target that it picks. It names `State.pickTarget` as `State.launchPick` does, so that the kernel unfolds
the two together and does not evaluate the target. -/
def State.launchPickAt (s : State) (queue len : Nat) (p : LuPick) : State :=
  let v := s.queue queue
  let _ := s.pickTarget queue
  match p with
  | .halt c => s.haltQueue queue c
  | .wait => s.setQueue queue { v with waiting := 4 }
  | .refuse =>
    let v1 := { v with refused := (v.refused + 1) % 2 ^ 32 }
    ((s.setQueue queue v1).luWrite (v.qcb + 32) v1.status).finishPacket queue len
  | .target c => s.setQueue queue { v with waiting := 3, target := c, share := if len = 11 then some (s.body queue 9, s.body queue 10) else none }
theorem State.launchPick_eq (s : State) (queue len : Nat) : s.launchPick queue len = s.launchPickAt queue len (s.pickTarget queue) := rfl
theorem State.formed_launchPickAt (s : State) (queue len : Nat) (p : LuPick) (h : s.formed) : (s.launchPickAt queue len p).formed := by
  unfold State.launchPickAt
  cases p with
  | halt c => simp [h]
  | wait => simp [h]
  | refuse => exact State.formed_finishPacket _ _ _ (State.formed_luWrite _ _ _ (State.formed_of_memory h (State.memory_setQueue _ _ _)))
  | target c => simp [h]
@[simp] theorem State.formed_launchPick (s : State) (queue len : Nat) (h : s.formed) : (s.launchPick queue len).formed :=
  s.launchPick_eq queue len ▸ s.formed_launchPickAt queue len _ h
@[simp] theorem State.formed_mmioWrite (s : State) (la : Nat) (v : Word) (h : s.formed) : (s.mmioWrite la v).formed := by
  unfold State.mmioWrite
  dsimp only
  repeat' split
  all_goals simp [h]
@[simp] theorem State.formed_mmioStore (s : State) (ws : List (Nat × Byte × Byte)) (h : s.formed) : (s.mmioStore ws).formed := by
  unfold State.mmioStore
  refine formed_foldl (fun s a h => ?_) _ h
  simp [h]
@[simp] theorem State.formed_performReq (s : State) (id : Nat) (r : Req) (h : s.formed) : (s.performReq id r).formed := by
  simp [State.performReq, h]
@[simp] theorem State.formed_lendDown (s : State) (id n : Nat) (pull : Bool) (h : s.formed) : (s.lendDown id n pull).formed := by
  unfold State.lendDown
  repeat' split
  all_goals simp [h]
@[simp] theorem State.formed_ringDone (s : State) (id : Nat) (h : s.formed) : (s.ringDone id).formed := by
  unfold State.ringDone
  repeat' split
  all_goals simp [h]
@[simp] theorem State.formed_xferCount (s : State) (x : Xfer) (h : s.formed) : (s.xferCount x).formed := by
  unfold State.xferCount
  repeat' split
  all_goals simp [h]
@[simp] theorem State.formed_unitData (s : State) (x : Xfer) (bytes : List Byte) (h : s.formed) : (s.unitData x bytes).formed := by
  unfold State.unitData
  dsimp only
  repeat' split
  all_goals simp [h]
@[simp] theorem State.formed_ringHead (s : State) (x : Xfer) (bytes : List Byte) (h : s.formed) : (s.ringHead x bytes).formed := by
  unfold State.ringHead
  dsimp only
  repeat' split
  all_goals simp [h]
@[simp] theorem State.formed_xferData (s : State) (via src : Src) (x : Xfer) (idx : Nat) (bytes : List Byte)
    (h : s.formed) : (s.xferData via src x idx bytes).formed := by
  unfold State.xferData
  repeat' split
  all_goals simp [h, apply_ite State.mem, apply_ite State.flash]
@[simp] theorem State.formed_xferHurt (s : State) (x : Xfer) (idx code : Nat) (h : s.formed) : (s.xferHurt x idx code).formed := by
  unfold State.xferHurt
  dsimp only
  split
  · next hx =>
    have h1 := State.formed_failXfer h hx
    refine State.formed_settle _ ?_
    split <;> simp [h1]
  · simp -implicitDefEqProofs [h]
@[simp] theorem State.formed_xferOwn (s : State) (x : Xfer) (idx : Nat) (h : s.formed) : (s.xferOwn x idx).formed := by
  unfold State.xferOwn
  repeat' split
  all_goals simp -implicitDefEqProofs [h]
@[simp] theorem State.formed_bulkRead (s : State) (m : Msg) (b : Bulk) (bytes : List Byte) (h : s.formed) : (s.bulkRead m b bytes).formed := by
  unfold State.bulkRead
  repeat' split
  all_goals simp [h]
@[simp] theorem State.formed_bulkFailed (s : State) (m : Msg) (b : Bulk) (code : Nat) (h : s.formed) : (s.bulkFailed m b code).formed := by
  unfold State.bulkFailed
  repeat' split
  all_goals simp [h]
@[simp] theorem State.formed_streamRead (s : State) (m : Msg) (b : Bulk) (h : s.formed) : (s.streamRead m b).formed := by
  unfold State.streamRead
  dsimp only
  split
  · simp -implicitDefEqProofs [h]
  split
  · exact h
  split
  · repeat' split
    all_goals simp -implicitDefEqProofs [h]
  split
  · simp -implicitDefEqProofs [h]
  split
  · simp -implicitDefEqProofs [h]
  split
  · next ht => simp [State.formed_of_touchAll ht h]
  · next s1 ht =>
    have h1 := State.formed_of_touchAll ht h
    repeat' split
    all_goals simp -implicitDefEqProofs [h1]
@[simp] theorem State.formed_xferPlaced (s : State) (x : Xfer) (h : s.formed) : (s.xferPlaced x).formed := by
  simp [State.xferPlaced, h]
@[simp] theorem State.formed_landed (s : State) (src : Src) (core tile : Nat) (who : Claimant)
    (h : s.formed) : (s.landed src core tile who).formed := by
  unfold State.landed
  repeat' split
  all_goals simp [h]
@[simp] theorem State.formed_giveClaim (s : State) (who : Claimant) (h : s.formed) : (s.giveClaim who).formed := by
  unfold State.giveClaim
  dsimp only
  repeat' split
  all_goals simp [h]
@[simp] theorem State.formed_abandonTop (s : State) (core : Nat) (t : TileOp) (tile : Nat) (h : s.formed) : (s.abandonTop core t tile).formed := by
  unfold State.abandonTop
  repeat' split
  all_goals simp -implicitDefEqProofs [h]
@[simp] theorem State.formed_failEngine (s : State) (core tile : Nat) (w : Waiter) (h : s.formed) : (s.failEngine core tile w).formed := by
  unfold State.failEngine
  repeat' split
  all_goals simp -implicitDefEqProofs [h]
@[simp] theorem State.formed_failProc (s : State) (core tile pk : Nat) (h : s.formed) : (s.failProc core tile pk).formed := by
  unfold State.failProc
  dsimp only
  repeat' split
  all_goals simp [h]
@[simp] theorem State.formed_failWaiters (s : State) (core tile : Nat) (h : s.formed) : (s.failWaiters core tile).formed := by
  unfold State.failWaiters
  extract_lets here bad engines e stuck tops walks s1 s2 s3 s4 s5
  have h2 : s2.formed := formed_foldl (fun s r hs => by simp [hs]) _ h
  have h3 : s3.formed := formed_foldl (fun s w hs => by simp [hs]) _ h2
  have h4 : s4.formed := formed_foldl (fun s t hs => by simp [hs]) _ h3
  have h5 : s5.formed := formed_foldl (fun s w hs => by simp [hs]) _ h4
  exact formed_foldl (fun s pk hs => by simp [hs]) _ h5
@[simp] theorem State.formed_abandonPull (s : State) (core tile lend src : Nat) (h : s.formed) : (s.abandonPull core tile lend src).formed := by
  simp [State.abandonPull, h]
@[simp] theorem State.formed_switchTo (s : State) (victim hd : Nat) (h : s.formed) : (s.switchTo victim hd).formed := by
  unfold State.switchTo
  simp [h]
@[simp] theorem State.formed_aheadGo (s : State) (pk : Nat) (a : Run) (h : s.formed) : (s.aheadGo pk a).formed := by
  unfold State.aheadGo
  repeat' split
  all_goals simp [h]
@[simp] theorem State.formed_fetchTrap (s : State) (pk : Nat) (c : Cause) (level : Nat) (h : s.formed) : (s.fetchTrap pk c level).formed := by
  unfold State.fetchTrap
  dsimp only
  repeat' split
  all_goals simp [h]
@[simp] theorem State.formed_illegalWord (s : State) (pk : Nat) (w : Word32) (h : s.formed) : (s.illegalWord pk w).formed := by
  unfold State.illegalWord
  split <;> simp [h]
@[simp] theorem State.formed_neverWord (s : State) (pk : Nat) (w : Word32) (h : s.formed) : (s.neverWord pk w).formed := by
  unfold State.neverWord
  dsimp only
  repeat' split
  all_goals simp [h]
@[simp] theorem State.formed_arriveFrom (s : State) (m : Msg) (hd : Header) (h : s.formed) : (s.arriveFrom m hd).formed := by
  unfold State.arriveFrom
  dsimp only
  repeat' split
  all_goals simp -implicitDefEqProofs [h]
@[simp] theorem State.formed_arrive (s : State) (m : Msg) (hd : Header) (h : s.formed) : (s.arrive m hd).formed := by
  unfold State.arrive
  repeat' split
  all_goals simp [h]
@[simp] theorem State.formed_close (s : State) (ns : Nat) (h : s.formed) : (s.close ns).formed := by
  unfold State.close
  have h1 : ((s.tick ns).renewHeld).kickStale.formed := State.formed_kickStale _ (State.formed_renewHeld _ (by simp [h]))
  have h2 : (((s.tick ns).renewHeld).kickStale.kickGuards.wakeTops).watchExits.formed := State.formed_watchExits _ (by simp [h1])
  simp [h2]
end Sys2Proof.Machine
end

section
/-! Proofs about memory and flash: each word and each row keeps the canonical form. -/
set_option Elab.async false
namespace Sys2Proof.Machine
open Sys2Proof Sys2Proof.Safety

/-- What an outcome leaves, if it is a next state, has memory and flash in canonical form. -/
def Forming (o : Host.Outcome State Fault Refusal) : Prop := ∀ t, o = .next t → t.formed
@[simp] theorem forming_next (t : State) : Forming (.next t) ↔ t.formed :=
  ⟨fun h => h t rfl, fun h _ ht => by cases ht; exact h⟩
@[simp] theorem forming_fault (f : Fault) : Forming (.fault f) := fun _ ht => by cases ht
@[simp] theorem forming_refused (r : Refusal) : Forming (.refused r) := fun _ ht => by cases ht

/-- A word whose body keeps the form keeps it. -/
theorem forming_issue (w : Issue) (body : Nat → State → State) (s : State) (h : s.formed) (hb : ∀ pk, (body pk s).formed) : Forming (issue w body s) := by
  unfold issue
  rw [forming_next]
  dsimp only
  repeat' split
  all_goals simp [h, hb]
theorem forming_issuePure (w : Issue) (f : Regs → Regs) (s : State) (h : s.formed) : Forming (issuePure w f s) :=
  forming_issue _ _ _ h fun pk => by simp [h]
theorem forming_plainLoad (w : Nat) (o : LD) (z : Nat) (sgn : Bool) (s : State) (h : s.formed) : Forming (plainLoad w o z sgn s) :=
  forming_issue _ _ _ h fun _ => formed_loadBody _ _ _ _ _ h
theorem forming_syncLoad (w : Nat) (o : LD) (ldx : Bool) (s : State) (h : s.formed) : Forming (syncLoad w o ldx s) :=
  forming_issue _ _ _ h fun _ => formed_loadBody _ _ _ _ _ h
theorem forming_plainStore (w : Nat) (o : ST) (z : Nat) (s : State) (h : s.formed) : Forming (plainStore w o z s) :=
  forming_issue _ _ _ h fun _ => formed_storeBody _ _ _ _ _ h
theorem forming_tagWord (w : Nat) (o : TG) (f : Nat) (s : State) (h : s.formed) : Forming (tagWord w o f s) := by
  refine forming_issue _ _ _ h fun pk => ?_
  dsimp only
  split
  · simp [h]
  · refine State.formed_translated _ _ _ _ _ _ h fun pa u => ?_
    split <;> simp [h]
theorem forming_amoWord (w : Nat) (o : RRR) (f : Nat) (s : State) (h : s.formed) : Forming (amoWord w o f s) := by
  unfold amoWord
  dsimp only
  refine forming_issue _ _ _ h fun pk => ?_
  split
  · simp [h]
  · refine State.formed_translated _ _ _ _ _ _ h fun pa u => ?_
    repeat' split
    all_goals simp -implicitDefEqProofs [h]
theorem forming_chanWord2 (form : Nat) (o : T2) (s : State) (h : s.formed) : Forming (chanWord2 form o s) :=
  forming_issue _ _ _ h fun _ => formed_chanBody _ _ _ _ _ _ _ _ _ h
theorem forming_altWord (w : Nat) (fair : Bool) (o : T2) (s : State) (h : s.formed) : Forming (altWord w fair o s) := by
  refine forming_issue _ _ _ h fun pk => ?_
  dsimp only
  repeat' split
  all_goals simp -implicitDefEqProofs [h]
theorem forming_packetRow (op q : Nat) (body : Word → State → State) (s : State) (h : s.formed) (hb : ∀ x t, t.formed → (body x t).formed) :
    Forming (packetRow op q body s) := by
  unfold packetRow
  rw [forming_next]
  repeat' split
  all_goals simp [h, hb]
theorem forming_mbRow (cmd : Nat) (body : State → State) (s : State) (h : s.formed) (hb : (body s).formed) : Forming (mbRow cmd body s) := by
  unfold mbRow
  rw [forming_next]
  split
  · exact hb
  · exact h
theorem forming_alu (w : Nat) (o : RRR) (f : Word → Word → Word) (s : State) (h : s.formed) : Forming (alu w o f s) :=
  forming_issuePure _ _ _ h
theorem forming_aluFlags (w : Nat) (o : RRR) (f : Word → Word → Word × Flags) (s : State) (h : s.formed) : Forming (aluFlags w o f s) :=
  forming_issuePure _ _ _ h
theorem forming_aluOne (w : Nat) (o : RR) (f : Word → Word × Flags) (s : State) (h : s.formed) : Forming (aluOne w o f s) :=
  forming_issuePure _ _ _ h
theorem forming_aluImm (w : Nat) (o : RRI) (f : Word → BitVec 10 → Word) (s : State) (h : s.formed) : Forming (aluImm w o f s) :=
  forming_issuePure _ _ _ h
theorem forming_shiftImm (w : Nat) (o : SHI) (f : Word → Nat → Word) (s : State) (h : s.formed) : Forming (shiftImm w o f s) :=
  forming_issuePure _ _ _ h
theorem forming_compare (w : Nat) (o : CP) (c : Word → Word → Bool) (s : State) (h : s.formed) : Forming (compare w o c s) :=
  forming_issuePure _ _ _ h
theorem forming_compareImm (w : Nat) (o : CPI) (c : Word → Word → Bool) (s : State) (h : s.formed) : Forming (compareImm w o c s) :=
  forming_issuePure _ _ _ h
theorem forming_predLogic (w : Nat) (o : PL) (f : Bool → Bool → Bool) (s : State) (h : s.formed) : Forming (predLogic w o f s) :=
  forming_issuePure _ _ _ h
theorem forming_floatCompare (w : Nat) (o : FP) (c : Fmt → Nat → Nat → Bool × Flags) (s : State) (h : s.formed) : Forming (floatCompare w o c s) :=
  forming_issuePure _ _ _ h
theorem forming_floatOp (w : Nat) (o : FR) (f : Fmt → Nat → Nat → Nat × Flags) (s : State) (h : s.formed) : Forming (floatOp w o f s) :=
  forming_issuePure _ _ _ h
theorem forming_floatAcc (w : Nat) (o : FR) (f : Fmt → Nat → Nat → Nat → Nat × Flags) (s : State) (h : s.formed) : Forming (floatAcc w o f s) :=
  forming_issuePure _ _ _ h
theorem forming_floatOne (w : Nat) (o : FR1) (f : Fmt → Nat → Nat × Flags) (s : State) (h : s.formed) : Forming (floatOne w o f s) :=
  forming_issuePure _ _ _ h
theorem forming_vecReduce (w : Nat) (o : VR) (id : VTy → Nat) (f : VTy → Nat → Nat → Nat × Flags) (isum : Bool) (s : State) (h : s.formed) : Forming (vecReduce w o id f isum s) :=
  forming_issuePure _ _ _ h
theorem forming_vecPerm (w : Nat) (o : VX) (f : Nat → (Nat → Nat) → (Nat → Nat) → Nat → Nat) (s : State) (h : s.formed) : Forming (vecPerm w o f s) :=
  forming_issuePure _ _ _ h
theorem forming_maskLogic (w : Nat) (o : PL) (f : Mask → Mask → Mask) (s : State) (h : s.formed) : Forming (maskLogic w o f s) :=
  forming_issuePure _ _ _ h
theorem forming_vecInt (w : Nat) (o : VI) (f : Nat → Nat → Nat → Nat × Flags) (s : State) (h : s.formed) : Forming (vecInt w o f s) :=
  forming_issuePure _ _ _ h
theorem forming_vecFloat (w : Nat) (o : VF) (F : Fmt) (f : Fmt → Nat → Nat → Nat → Nat × Flags) (s : State) (h : s.formed) : Forming (vecFloat w o F f s) :=
  forming_issuePure _ _ _ h
theorem forming_vecFloat1 (w : Nat) (o : VF1) (F : Fmt) (f : Fmt → Nat → Nat × Flags) (s : State) (h : s.formed) : Forming (vecFloat1 w o F f s) :=
  forming_issuePure _ _ _ h
theorem forming_vecCompare (w : Nat) (o : VC) (ci : Int → Int → Bool) (cf : Fmt → Nat → Nat → Bool × Flags) (s : State) (h : s.formed) : Forming (vecCompare w o ci cf s) :=
  forming_issuePure _ _ _ h
theorem forming_execPageWalk (id : Nat) (s : State) (h : s.formed) : Forming (execPageWalk id s) := by
  unfold execPageWalk
  rw [forming_next]
  dsimp only
  repeat' split
  all_goals simp -implicitDefEqProofs [h]
theorem forming_execShootdownAcknowledge (id core : Nat) (s : State) (h : s.formed) : Forming (execShootdownAcknowledge id core s) := by
  unfold execShootdownAcknowledge
  rw [forming_next]
  dsimp only
  repeat' split
  all_goals simp -implicitDefEqProofs [h]
theorem forming_execMigrationCopyDone (id : Nat) (s : State) (h : s.formed) : Forming (execMigrationCopyDone id s) := by
  unfold execMigrationCopyDone
  rw [forming_next]
  split
  · exact h
  extract_lets same k d head base s1 fr s2 r s3
  split
  · exact h
  split
  · exact State.formed_settle _ (h.write fun hm => Memory.wf_writeN hm _ _ _)
  · have h2 : s2.formed := by
      refine h.write fun hm => ?_
      unfold s2
      dsimp only
      split
      · exact Memory.wf_writeN (Memory.wf_copyPage _ _ hm) _ _ _
      · exact Memory.wf_copyPage _ _ hm
    have h3 : s3.formed := by
      unfold s3
      split
      · exact h2
      · simp -implicitDefEqProofs [h2]
    exact State.formed_of_memory h3 (State.memory_startShootdown _ _ _ _ _ _)
theorem forming_execShootdownComplete (id : Nat) (s : State) (h : s.formed) : Forming (execShootdownComplete id s) := by
  unfold execShootdownComplete
  rw [forming_next]
  dsimp only
  repeat' split
  all_goals simp -implicitDefEqProofs [h]
theorem forming_execEndMarker (id : Nat) (s : State) (h : s.formed) : Forming (execEndMarker id s) := by
  unfold execEndMarker
  rw [forming_next]
  split
  · dsimp only
    split
    · simp [h]
    · refine State.formed_settle _ ?_
      simp -implicitDefEqProofs
      exact h.write fun hm => Memory.wf_writeN hm _ _ _
  · exact h
theorem forming_execMigrationCountExpire (page requester : Nat) (s : State) (h : s.formed) : Forming (execMigrationCountExpire page requester s) := by
  unfold execMigrationCountExpire
  rw [forming_next]
  repeat' split
  all_goals simp -implicitDefEqProofs [h]
theorem forming_execStx (o : ST) (s : State) (h : s.formed) : Forming (execStx o s) := by
  refine forming_issue _ _ _ h fun pk => ?_
  dsimp only
  split
  · simp [h]
  · refine State.formed_translated _ _ _ _ _ _ h fun pa u => ?_
    repeat' split
    all_goals simp -implicitDefEqProofs [h]
theorem forming_execTqry (o : RRR) (s : State) (h : s.formed) : Forming (execTqry o s) := by
  refine forming_issue _ _ _ h fun pk => ?_
  dsimp only
  split
  · simp [h]
  · refine State.formed_translated _ _ _ _ _ _ h fun pa u => ?_
    repeat' split
    all_goals simp -implicitDefEqProofs [h]
theorem forming_execWaitw (o : Guard) (s : State) (h : s.formed) : Forming (execWaitw o s) := by
  refine forming_issue _ _ _ h fun pk => ?_
  dsimp only
  repeat' split
  all_goals simp -implicitDefEqProofs [h]
theorem forming_execLda (o : LA) (s : State) (h : s.formed) : Forming (execLda o s) := forming_issue _ _ _ h fun pk => by simp [h]
theorem forming_execStl (o : SL) (s : State) (h : s.formed) : Forming (execStl o s) := by
  refine forming_issue _ _ _ h fun pk => ?_
  dsimp only
  split
  · simp [h]
  · refine State.formed_translated _ _ _ _ _ _ h fun pa u => ?_
    repeat' split
    all_goals simp -implicitDefEqProofs [h]
theorem forming_execFence (o : FN) (s : State) (h : s.formed) : Forming (execFence o s) := by
  refine forming_issue _ _ _ h fun pk => ?_
  dsimp only
  repeat' split
  all_goals simp -implicitDefEqProofs [h]
theorem forming_execIfence (o : Guard) (s : State) (h : s.formed) : Forming (execIfence o s) := by
  refine forming_issue _ _ _ h fun pk => ?_
  split <;> simp [h]
theorem forming_execVld (o : VL) (s : State) (h : s.formed) : Forming (execVld o s) := by
  unfold execVld
  dsimp only
  exact forming_issue _ _ _ h fun pk => by simp [h]
theorem forming_execVst (o : VS) (s : State) (h : s.formed) : Forming (execVst o s) := by
  refine forming_issue _ _ _ h fun pk => ?_
  dsimp only
  split
  · simp [h]
  · refine State.formed_translated _ _ _ _ _ _ h fun pa u => ?_
    repeat' split
    all_goals simp -implicitDefEqProofs [h]
theorem forming_execTrap (o : TR) (s : State) (h : s.formed) : Forming (execTrap o s) := forming_issue _ _ _ h fun pk => by simp [h]
theorem forming_execTrapret (o : Guard) (s : State) (h : s.formed) : Forming (execTrapret o s) := by
  refine forming_issue _ _ _ h fun pk => ?_
  split <;> simp [h]
theorem forming_execHalt (o : Guard) (s : State) (h : s.formed) : Forming (execHalt o s) := by
  refine forming_issue _ _ _ h fun pk => ?_
  repeat' split
  all_goals simp -implicitDefEqProofs [h]
theorem forming_execCtlr (o : CR) (s : State) (h : s.formed) : Forming (execCtlr o s) := by
  unfold execCtlr
  dsimp only
  exact forming_issue _ _ _ h fun pk => by simp [h]
theorem forming_execCtlw (o : CR) (s : State) (h : s.formed) : Forming (execCtlw o s) := by
  unfold execCtlw
  dsimp only
  refine forming_issue _ _ _ h fun pk => ?_
  repeat' split
  all_goals simp -implicitDefEqProofs [h]
theorem forming_execTlbinv (o : A1) (s : State) (h : s.formed) : Forming (execTlbinv o s) := by
  unfold execTlbinv
  dsimp only
  refine forming_issue _ _ _ h fun pk => ?_
  repeat' split
  all_goals simp -implicitDefEqProofs [h]
theorem forming_execCkptSave (o : A1) (s : State) (h : s.formed) : Forming (execCkptSave o s) := by
  unfold execCkptSave
  refine forming_issue _ _ _ h fun pk => ?_
  dsimp only
  split
  · simp [h]
  split
  · simp [h]
  · refine State.formed_withExtent _ _ _ _ h ?_
    split
    · exact h
    · exact formed_ckptStore _ _ _ _ _ (by simp -implicitDefEqProofs [h])
theorem forming_execCkptRestore (o : A1) (s : State) (h : s.formed) : Forming (execCkptRestore o s) := by
  unfold execCkptRestore
  refine forming_issue _ _ _ h fun pk => ?_
  dsimp only
  split
  · simp [h]
  · refine State.formed_withExtent _ _ _ _ h ?_
    repeat' split
    all_goals simp -implicitDefEqProofs [h]
theorem forming_execHaltCommand (die : Nat) (value : BitVec 64) (s : State) (h : s.formed) : Forming (execHaltCommand die value s) := by
  unfold execHaltCommand
  rw [forming_next]
  split <;> simp [h]
theorem forming_execResumeCommand (die : Nat) (value : BitVec 64) (s : State) (h : s.formed) : Forming (execResumeCommand die value s) := by
  unfold execResumeCommand
  rw [forming_next]
  split <;> simp [h]
theorem forming_execCoreHalted (core : Nat) (s : State) (h : s.formed) : Forming (execCoreHalted core s) := by
  unfold execCoreHalted
  rw [forming_next]
  split <;> simp [h]
theorem forming_execPgnoteResume (die : Nat) (value : BitVec 64) (s : State) (h : s.formed) : Forming (execPgnoteResume die value s) := by
  unfold execPgnoteResume
  rw [forming_next]
  split <;> simp [h]
theorem forming_execPgnoteDeliverPage (die : Nat) (value : BitVec 64) (s : State) (h : s.formed) : Forming (execPgnoteDeliverPage die value s) := by
  unfold execPgnoteDeliverPage
  rw [forming_next]
  split <;> simp [h]
theorem forming_execPgnoteDeliverProt (die : Nat) (value : BitVec 64) (s : State) (h : s.formed) : Forming (execPgnoteDeliverProt die value s) := by
  unfold execPgnoteDeliverProt
  rw [forming_next]
  split <;> simp [h]
theorem forming_execRgnctlCommit (value : BitVec 64) (s : State) (h : s.formed) : Forming (execRgnctlCommit value s) := by
  unfold execRgnctlCommit
  rw [forming_next]
  repeat' split
  all_goals simp -implicitDefEqProofs [h]
theorem forming_execCorectlHold (core : Nat) (value : BitVec 64) (s : State) (h : s.formed) : Forming (execCorectlHold core value s) := by
  unfold execCorectlHold
  rw [forming_next]
  repeat' split
  all_goals simp -implicitDefEqProofs [h]
theorem forming_execControlRegisterWrite (die core number : Nat) (value : BitVec 64) (s : State) (h : s.formed) : Forming (execControlRegisterWrite die core number value s) := by
  unfold execControlRegisterWrite
  rw [forming_next]
  split <;> simp [h]
theorem forming_execMkch (o : T2) (s : State) (h : s.formed) : Forming (execMkch o s) := by
  unfold execMkch
  dsimp only
  refine forming_issue _ _ _ h fun pk => ?_
  repeat' split
  all_goals simp -implicitDefEqProofs [h]
theorem forming_execClose (o : T1) (s : State) (h : s.formed) : Forming (execClose o s) := forming_issue _ _ _ h fun pk => by simp [h]
theorem forming_execBind (o : T1) (s : State) (h : s.formed) : Forming (execBind o s) := forming_issue _ _ _ h fun pk => by simp [h]
theorem forming_execRecv (o : T2) (s : State) (h : s.formed) : Forming (execRecv o s) := forming_issue _ _ _ h fun pk => by simp [h]
theorem forming_execRecvt (o : T2) (s : State) (h : s.formed) : Forming (execRecvt o s) := forming_issue _ _ _ h fun pk => by simp [h]
theorem forming_execPull (o : T2) (s : State) (h : s.formed) : Forming (execPull o s) := by
  refine forming_issue _ _ _ h fun pk => ?_
  dsimp only
  split
  · simp [h]
  · refine State.formed_translated _ _ _ _ _ _ h fun pa u => ?_
    repeat' split
    all_goals simp -implicitDefEqProofs [h]
theorem forming_execDropw (o : T1) (s : State) (h : s.formed) : Forming (execDropw o s) := forming_issue _ _ _ h fun pk => by simp [h]
theorem forming_execProbe (o : T2) (s : State) (h : s.formed) : Forming (execProbe o s) := forming_issue _ _ _ h fun pk => by simp [h]
theorem forming_execChannelSendArrive (id : Nat) (s : State) (h : s.formed) : Forming (execChannelSendArrive id s) := by
  unfold execChannelSendArrive
  rw [forming_next]
  dsimp only
  repeat' split
  all_goals simp -implicitDefEqProofs [h]
theorem forming_execChannelReceiveArrive (id : Nat) (s : State) (h : s.formed) : Forming (execChannelReceiveArrive id s) := by
  unfold execChannelReceiveArrive
  rw [forming_next]
  dsimp only
  repeat' split
  all_goals simp -implicitDefEqProofs [h]
theorem forming_execTransferFinish (core slot : Nat) (s : State) (h : s.formed) : Forming (execTransferFinish core slot s) := by
  unfold execTransferFinish
  rw [forming_next]
  dsimp only
  repeat' split
  all_goals simp -implicitDefEqProofs [h]
theorem forming_execChannelTimeoutExpire (core pid : Nat) (s : State) (h : s.formed) : Forming (execChannelTimeoutExpire core pid s) := by
  unfold execChannelTimeoutExpire
  rw [forming_next]
  dsimp only
  repeat' split
  all_goals simp -implicitDefEqProofs [h]
theorem forming_execTimerDeadlineExpire (slot : Nat) (s : State) (h : s.formed) : Forming (execTimerDeadlineExpire slot s) := by
  unfold execTimerDeadlineExpire
  rw [forming_next]
  split <;> simp [h]
theorem forming_execAltDeadlineExpire (core pid : Nat) (s : State) (h : s.formed) : Forming (execAltDeadlineExpire core pid s) := by
  unfold execAltDeadlineExpire
  rw [forming_next]
  dsimp only
  repeat' split
  all_goals simp -implicitDefEqProofs [h]
theorem forming_execUnbindRequest (id : Nat) (s : State) (h : s.formed) : Forming (execUnbindRequest id s) := by
  unfold execUnbindRequest
  rw [forming_next]
  split
  · split
    · simp -implicitDefEqProofs [h]
    · extract_lets free s1
      have h1 : s1.formed := formed_foldl (fun s e hs => by simp [hs]) _ (formed_foldl (fun s m hs => by simp [hs]) _ h)
      split <;> simp [h1]
    · exact h
  · exact h
theorem forming_execHostQueueMessage (slot : Nat) (message : Option (List (BitVec 8))) (s : State) (h : s.formed) : Forming (execHostQueueMessage slot message s) := by
  unfold execHostQueueMessage
  rw [forming_next]
  repeat' split
  all_goals simp -implicitDefEqProofs [h]
theorem forming_execEthernetFrameReceive (port : Nat) (frame : List (BitVec 8)) (s : State) (h : s.formed) : Forming (execEthernetFrameReceive port frame s) := by
  unfold execEthernetFrameReceive
  rw [forming_next]
  dsimp only
  repeat' split
  all_goals simp -implicitDefEqProofs [h]
theorem forming_execEthernetFrameTransmit (port : Nat) (s : State) (h : s.formed) : Forming (execEthernetFrameTransmit port s) := by
  unfold execEthernetFrameTransmit
  rw [forming_next]
  split <;> simp [h]
theorem forming_execIoepnewEndpoint (id : Nat) (s : State) (h : s.formed) : Forming (execIoepnewEndpoint id s) := by
  unfold execIoepnewEndpoint
  rw [forming_next]
  repeat' split
  all_goals simp -implicitDefEqProofs [h]
theorem forming_execIoepnewTimer (id : Nat) (s : State) (h : s.formed) : Forming (execIoepnewTimer id s) := by
  unfold execIoepnewTimer
  rw [forming_next]
  repeat' split
  all_goals simp -implicitDefEqProofs [h]
theorem forming_execMacroOpStart (core : Nat) (s : State) (h : s.formed) : Forming (execMacroOpStart core s) := by
  unfold execMacroOpStart
  rw [forming_next]
  dsimp only
  split
  · exact h
  · have hpick := State.memory_pickTop core (s.core core).tileq [] s
    split
    · next hp => exact State.formed_of_memory h (by simpa [hp] using hpick)
    · next s1 t0 hp =>
      have h1 : s1.formed := State.formed_of_memory h (by simpa [hp] using hpick)
      split <;> simp [h1]
theorem forming_execMacroStepComplete (core : Nat) (s : State) (h : s.formed) : Forming (execMacroStepComplete core s) := by
  unfold execMacroStepComplete
  rw [forming_next]
  split
  · exact h
  next t _ =>
  split
  · simp [h]
  split
  · have hclaims := State.memory_topClaims core t.id (t.dstTiles.drop t.prior.length) s t.prior
    split
    · next hc => exact State.formed_of_memory h (by simpa [hc] using hclaims)
    · next hc => exact State.formed_of_memory h (by simpa [hc] using hclaims)
  · have hreads := s.memory_topReads core t
    split
    · next hr => exact State.formed_of_memory h (by simpa [hr] using hreads)
    · next s1 hr =>
      have h1 : s1.formed := State.formed_of_memory h (by simpa [hr] using hreads)
      split <;> simp [h1]
theorem forming_execMma (o : MM) (s : State) (h : s.formed) : Forming (execMma o s) := by
  unfold execMma
  dsimp only
  refine forming_issue _ _ _ h fun pk => ?_
  repeat' split
  all_goals simp -implicitDefEqProofs [h]
theorem forming_execShape (o : SH) (s : State) (h : s.formed) : Forming (execShape o s) := by
  unfold execShape
  refine forming_issue _ _ _ h fun pk => ?_
  extract_lets p va c
  -- the read of the tiles is taken apart first: the kernel would evaluate it
  rcases ht : s.touchAll .load (tilesUnder c (vaOff va) 32) with ⟨s1, b⟩
  have h1 : s1.formed := State.formed_of_touchAll ht h
  cases localCheck va 32 32 [.gs] with
  | some t => simp [h]
  | none =>
    cases s.guestBar pk 0 (scratchAddr c (vaOff va)) 32 with
    | some x =>
      dsimp only
      split <;> simp -implicitDefEqProofs [h]
    | none =>
      cases b
      all_goals dsimp only
      all_goals repeat' split
      all_goals simp [h, h1]
theorem forming_execAcz (o : T1) (s : State) (h : s.formed) : Forming (execAcz o s) := by
  unfold execAcz
  dsimp only
  refine forming_issue _ _ _ h fun pk => ?_
  repeat' split
  all_goals simp -implicitDefEqProofs [h]
theorem forming_execDrain (o : T2) (s : State) (h : s.formed) : Forming (execDrain o s) := by
  unfold execDrain
  dsimp only
  refine forming_issue _ _ _ h fun pk => ?_
  repeat' split
  all_goals simp -implicitDefEqProofs [h]
theorem forming_execTable (o : T2) (s : State) (h : s.formed) : Forming (execTable o s) := by
  unfold execTable
  dsimp only
  refine forming_issue _ _ _ h fun pk => ?_
  repeat' split
  all_goals simp -implicitDefEqProofs [h]
theorem forming_execRowsum (o : T2) (s : State) (h : s.formed) : Forming (execRowsum o s) := forming_issue _ _ _ h fun pk => by simp [h]
theorem forming_execColsum (o : T2) (s : State) (h : s.formed) : Forming (execColsum o s) := forming_issue _ _ _ h fun pk => by simp [h]
theorem forming_execPack (o : T2) (s : State) (h : s.formed) : Forming (execPack o s) := forming_issue _ _ _ h fun pk => by simp [h]
theorem forming_execUnpack (o : T2) (s : State) (h : s.formed) : Forming (execUnpack o s) := forming_issue _ _ _ h fun pk => by simp [h]
theorem forming_execAread (o : T2) (s : State) (h : s.formed) : Forming (execAread o s) := by
  unfold execAread
  dsimp only
  refine forming_issue _ _ _ h fun pk => ?_
  repeat' split
  all_goals simp -implicitDefEqProofs [h]
theorem forming_execCopy (o : TC) (s : State) (h : s.formed) : Forming (execCopy o s) := forming_issue _ _ _ h fun pk => by simp [h]
theorem forming_execCopys (o : TC) (s : State) (h : s.formed) : Forming (execCopys o s) := forming_issue _ _ _ h fun pk => by simp [h]
theorem forming_execCopya (o : TC) (s : State) (h : s.formed) : Forming (execCopya o s) := forming_issue _ _ _ h fun pk => by simp [h]
theorem forming_execMcast (o : TC) (s : State) (h : s.formed) : Forming (execMcast o s) := forming_issue _ _ _ h fun pk => by simp [h]
theorem forming_execRedg (o : TC) (s : State) (h : s.formed) : Forming (execRedg o s) := forming_issue _ _ _ h fun pk => by simp [h]
theorem forming_execFlushout (o : T2) (s : State) (h : s.formed) : Forming (execFlushout o s) := by
  unfold execFlushout
  dsimp only
  refine forming_issue _ _ _ h fun pk => ?_
  repeat' split
  all_goals simp -implicitDefEqProofs [h]
theorem forming_execFetchin (o : TC) (s : State) (h : s.formed) : Forming (execFetchin o s) := by
  unfold execFetchin
  dsimp only
  refine forming_issue _ _ _ h fun pk => ?_
  repeat' split
  all_goals simp -implicitDefEqProofs [h]
theorem forming_execGopen (o : RR) (s : State) (h : s.formed) : Forming (execGopen o s) := by
  unfold execGopen
  dsimp only
  refine forming_issue _ _ _ h fun pk => ?_
  repeat' split
  all_goals simp -implicitDefEqProofs [h]
theorem forming_execGfree (o : D1) (s : State) (h : s.formed) : Forming (execGfree o s) := by
  refine forming_issue _ _ _ h fun pk => ?_
  dsimp only
  repeat' split
  all_goals simp -implicitDefEqProofs [h]
theorem forming_execGroupDrainComplete (die group : Nat) (s : State) (h : s.formed) : Forming (execGroupDrainComplete die group s) := by
  unfold execGroupDrainComplete
  rw [forming_next]
  dsimp only
  repeat' split
  all_goals simp -implicitDefEqProofs [h]
theorem forming_execCopyAccept (core : Nat) (s : State) (h : s.formed) : Forming (execCopyAccept core s) := by
  unfold execCopyAccept
  rw [forming_next]
  repeat' split
  all_goals simp -implicitDefEqProofs [h]
theorem forming_execPieceDispatch (core : Nat) (s : State) (h : s.formed) : Forming (execPieceDispatch core s) := by
  unfold execPieceDispatch
  rw [forming_next]
  dsimp only
  repeat' split
  all_goals simp -implicitDefEqProofs [h]
theorem forming_execCompletionTileSet (core copyId : Nat) (s : State) (h : s.formed) : Forming (execCompletionTileSet core copyId s) := by
  unfold execCompletionTileSet
  rw [forming_next]
  split
  · exact h
  next c _ =>
  split
  · exact h
  · have hfull := s.memory_tfull (.copyUnit core) core (ctlTile c.ctl) (.copy core copyId)
    split
    · next hf => exact State.formed_of_memory h (by simpa [hf] using hfull)
    · next hf => exact State.formed_settle _ (State.formed_of_memory h (by simpa [hf] using hfull))
theorem forming_execCopyaAccumulate (id : Nat) (s : State) (h : s.formed) : Forming (execCopyaAccumulate id s) := by
  unfold execCopyaAccumulate
  rw [forming_next]
  dsimp only
  repeat' split
  all_goals simp -implicitDefEqProofs [h]
theorem forming_execBorerRequest (id : Nat) (s : State) (h : s.formed) : Forming (execBorerRequest id s) := by
  unfold execBorerRequest
  rw [forming_next]
  dsimp only
  repeat' split
  all_goals simp -implicitDefEqProofs [h]
  · exact h.write fun hm => Memory.wf_writeBytes _ hm _
  · exact h.write fun hm => Memory.wf_writeBytes _ hm _
theorem forming_execFetchinComplete (id : Nat) (s : State) (h : s.formed) : Forming (execFetchinComplete id s) := by
  unfold execFetchinComplete
  rw [forming_next]
  repeat' split
  all_goals simp -implicitDefEqProofs [h]
theorem forming_execFlushoutComplete (id : Nat) (s : State) (h : s.formed) : Forming (execFlushoutComplete id s) := by
  unfold execFlushoutComplete
  rw [forming_next]
  split
  · exact h
  · dsimp only
    split
    · exact h
    · exact State.formed_flashTile _ _ ⟨h.1, Memory.wf_writeBytes _ h.2 _⟩
theorem forming_execSpawn (o : RR) (s : State) (h : s.formed) : Forming (execSpawn o s) := by
  unfold execSpawn
  dsimp only
  refine forming_issue _ _ _ h fun pk => ?_
  repeat' split
  all_goals simp -implicitDefEqProofs [h]
theorem forming_execSpawnChildCreate (id : Nat) (s : State) (h : s.formed) : Forming (execSpawnChildCreate id s) := by
  unfold execSpawnChildCreate
  rw [forming_next]
  dsimp only
  repeat' split
  all_goals simp -implicitDefEqProofs [h]
theorem forming_execExit (o : Guard) (s : State) (h : s.formed) : Forming (execExit o s) := forming_issue _ _ _ h fun pk => by simp [h]
theorem forming_execExitComplete (core pid : Nat) (s : State) (h : s.formed) : Forming (execExitComplete core pid s) := by
  unfold execExitComplete
  rw [forming_next]
  split <;> simp [h]
theorem forming_execYield (o : Guard) (s : State) (h : s.formed) : Forming (execYield o s) := by
  refine forming_issue _ _ _ h fun pk => ?_
  dsimp only
  repeat' split
  all_goals simp -implicitDefEqProofs [h]
theorem forming_execPrio (o : RR) (s : State) (h : s.formed) : Forming (execPrio o s) := by
  unfold execPrio
  dsimp only
  refine forming_issue _ _ _ h fun pk => ?_
  repeat' split
  all_goals simp -implicitDefEqProofs [h]
theorem forming_execSleep (o : A1) (s : State) (h : s.formed) : Forming (execSleep o s) := by
  refine forming_issue _ _ _ h fun pk => ?_
  dsimp only
  repeat' split
  all_goals simp -implicitDefEqProofs [h]
theorem forming_execSleepExpire (core pid : Nat) (s : State) (h : s.formed) : Forming (execSleepExpire core pid s) := by
  unfold execSleepExpire
  rw [forming_next]
  split <;> simp [h]
theorem forming_execWhoami (o : WH) (s : State) (h : s.formed) : Forming (execWhoami o s) := by
  unfold execWhoami
  dsimp only
  refine forming_issue _ _ _ h fun pk => ?_
  repeat' split
  all_goals simp -implicitDefEqProofs [h]
theorem forming_execRepart (o : A1) (s : State) (h : s.formed) : Forming (execRepart o s) := by
  unfold execRepart
  dsimp only
  refine forming_issue _ _ _ h fun pk => ?_
  split
  · simp [h]
  split
  · simp [h]
  · simp only [State.formed, State.setProc_mem, State.setProc_flash, State.modCore_mem, State.modCore_flash]
    exact formed_foldl (fun s e hs => State.formed_synced _ _ (by simp -implicitDefEqProofs [hs])) _ h
theorem forming_execCausewayRequestReceive (id : Nat) (s : State) (h : s.formed) : Forming (execCausewayRequestReceive id s) := by
  unfold execCausewayRequestReceive
  rw [forming_next]
  dsimp only
  repeat' split
  all_goals simp -implicitDefEqProofs [h]
theorem forming_execStreamres (o : RR) (s : State) (h : s.formed) : Forming (execStreamres o s) := by
  unfold execStreamres
  dsimp only
  refine forming_issue _ _ _ h fun pk => ?_
  repeat' split
  all_goals simp -implicitDefEqProofs [h]
theorem forming_execFrozenNotice (id : Nat) (s : State) (h : s.formed) : Forming (execFrozenNotice id s) := by
  unfold execFrozenNotice
  rw [forming_next]
  dsimp only
  repeat' split
  all_goals simp -implicitDefEqProofs [h]
theorem forming_execResumeMessage (id : Nat) (s : State) (h : s.formed) : Forming (execResumeMessage id s) := by
  unfold execResumeMessage
  rw [forming_next]
  split
  · split
    · exact State.formed_of_memory (formed_foldl (fun s pk hs => by split <;> simp [hs]) _ (by simp -implicitDefEqProofs [h])) (State.memory_follow _ _ _)
    · exact h
  · exact h
theorem forming_execFlitReceive (port peer : Nat) (crcGood : Bool) (reqCredits repCredits : Nat) (s : State) (h : s.formed) : Forming (execFlitReceive port peer crcGood reqCredits repCredits s) := by
  unfold execFlitReceive
  rw [forming_next]
  dsimp only
  repeat' split
  all_goals simp -implicitDefEqProofs [h]
theorem forming_execLinkRetrainComplete (port peer : Nat) (success : Bool) (s : State) (h : s.formed) : Forming (execLinkRetrainComplete port peer success s) := by
  unfold execLinkRetrainComplete
  rw [forming_next]
  dsimp only
  repeat' split
  all_goals simp -implicitDefEqProofs [h]
theorem forming_execLinkSilenceTimeout (peer : Nat) (s : State) (h : s.formed) : Forming (execLinkSilenceTimeout peer s) := by
  unfold execLinkSilenceTimeout
  rw [forming_next]
  split <;> simp [h]
theorem forming_execFireflyPeerDownReport (peer : Nat) (s : State) (h : s.formed) : Forming (execFireflyPeerDownReport peer s) := by
  unfold execFireflyPeerDownReport
  rw [forming_next]
  repeat' split
  all_goals simp -implicitDefEqProofs [h]
theorem forming_execLaserRetune (port peer : Nat) (s : State) (h : s.formed) : Forming (execLaserRetune port peer s) := by
  unfold execLaserRetune
  rw [forming_next]
  dsimp only
  repeat' split
  all_goals simp -implicitDefEqProofs [h]
theorem forming_execTokenBucketRefill (die asid : Nat) (s : State) (h : s.formed) : Forming (execTokenBucketRefill die asid s) := by
  unfold execTokenBucketRefill
  rw [forming_next]
  split <;> simp [h]
theorem forming_execDtimeAlign (stamp : Nat) (s : State) (h : s.formed) : Forming (execDtimeAlign stamp s) := by
  unfold execDtimeAlign
  rw [forming_next]
  repeat' split
  all_goals simp -implicitDefEqProofs [h]
theorem forming_execTravelAdmit (id : Nat) (s : State) (h : s.formed) : Forming (execTravelAdmit id s) := by
  unfold execTravelAdmit
  rw [forming_next]
  dsimp only
  repeat' split
  all_goals simp -implicitDefEqProofs [h]
theorem forming_execTravelAcknowledge (id : Nat) (s : State) (h : s.formed) : Forming (execTravelAcknowledge id s) := by
  unfold execTravelAcknowledge
  rw [forming_next]
  split
  · dsimp only
    repeat' split
    all_goals simp -implicitDefEqProofs [h, foldl_memory]
  · exact h
theorem forming_execPartitionQuiesce (peer : Nat) (s : State) (h : s.formed) : Forming (execPartitionQuiesce peer s) := by
  unfold execPartitionQuiesce
  rw [forming_next]
  split
  · exact h
  extract_lets ops s1 s2 s3 s4
  have h1 : s1.formed := State.formed_cleanUp _ _ h
  split
  · exact h1
  · have h2 : s2.formed := formed_foldl (fun s x hs => by simp [hs]) _ h1
    have h3 : s3.formed := State.formed_settle _ (State.formed_withdrawOps _ _ h2)
    have h4 : s4.formed := formed_foldl (fun s pk hs => by simp [hs]) _ h3
    exact State.formed_of_memory h4 (by simp -implicitDefEqProofs)
theorem forming_execQarm (o : RR) (s : State) (h : s.formed) : Forming (execQarm o s) := by
  unfold execQarm
  dsimp only
  refine forming_issue _ _ _ h fun pk => ?_
  split
  · split
    · exact h
    · simp only [State.formed, State.modProc_mem, State.modProc_flash]
      exact State.formed_arm _ _ _ _ _ h
  split
  · simp [h]
  · refine State.formed_translated _ _ _ _ _ _ h fun pa u => ?_
    repeat' split
    all_goals simp -implicitDefEqProofs [h]
theorem forming_execDoorbell (queue : Nat) (s : State) (h : s.formed) : Forming (execDoorbell queue s) := by
  unfold execDoorbell
  rw [forming_next]
  repeat' split
  all_goals simp -implicitDefEqProofs [h]
theorem forming_execLuarm (value : BitVec 64) (s : State) (h : s.formed) : Forming (execLuarm value s) := by
  unfold execLuarm
  rw [forming_next]
  split <;> simp [h]
theorem forming_execLupreempt (value : BitVec 64) (s : State) (h : s.formed) : Forming (execLupreempt value s) := by
  unfold execLupreempt
  rw [forming_next]
  repeat' split
  all_goals simp -implicitDefEqProofs [h]
theorem forming_execNopPacket (queue : Nat) (s : State) (h : s.formed) : Forming (execNopPacket queue s) := forming_packetRow _ _ _ _ h fun x t ht => by simp [ht]
theorem forming_execLaunch (queue : Nat) (s : State) (h : s.formed) : Forming (execLaunch queue s) := by
  unfold execLaunch
  exact forming_packetRow _ _ _ _ h fun x t ht => State.formed_launchPick _ _ _ (by simp -implicitDefEqProofs [ht])
theorem forming_execLaunchRecordWrite (queue : Nat) (s : State) (h : s.formed) : Forming (execLaunchRecordWrite queue s) := by
  unfold execLaunchRecordWrite
  rw [forming_next]
  dsimp only
  repeat' split
  all_goals simp -implicitDefEqProofs [h]
theorem forming_execWait (queue : Nat) (s : State) (h : s.formed) : Forming (execWait queue s) := by
  unfold execWait
  exact forming_packetRow _ _ _ _ h fun x t ht => by split <;> simp [ht]
theorem forming_execWaitPoll (queue : Nat) (s : State) (h : s.formed) : Forming (execWaitPoll queue s) := by
  unfold execWaitPoll
  rw [forming_next]
  split <;> simp [h]
theorem forming_execRelease (queue : Nat) (s : State) (h : s.formed) : Forming (execRelease queue s) := by
  refine forming_packetRow _ _ _ _ h fun x t ht => ?_
  dsimp only
  repeat' split
  all_goals simp -implicitDefEqProofs [ht]
theorem forming_execReleasePerform (queue : Nat) (s : State) (h : s.formed) : Forming (execReleasePerform queue s) := by
  unfold execReleasePerform
  rw [forming_next]
  split <;> simp [h]
theorem forming_execIndirect (queue : Nat) (s : State) (h : s.formed) : Forming (execIndirect queue s) := by
  refine forming_packetRow _ _ _ _ h fun x t ht => ?_
  dsimp only
  repeat' split
  all_goals simp -implicitDefEqProofs [ht]
theorem forming_execLoop (queue : Nat) (s : State) (h : s.formed) : Forming (execLoop queue s) := by
  refine forming_packetRow _ _ _ _ h fun x t ht => ?_
  dsimp only
  repeat' split
  all_goals simp -implicitDefEqProofs [ht]
theorem forming_execFetchfence (queue : Nat) (s : State) (h : s.formed) : Forming (execFetchfence queue s) := forming_packetRow _ _ _ _ h fun x t ht => by simp [ht]
theorem forming_execTaskExitReport (id : Nat) (s : State) (h : s.formed) : Forming (execTaskExitReport id s) := by
  unfold execTaskExitReport
  rw [forming_next]
  split <;> simp [h]
theorem forming_execEvready (s : State) (h : s.formed) : Forming (execEvready s) := by
  unfold execEvready
  refine forming_mbRow _ _ _ h ?_
  exact State.formed_of_memory (formed_foldl (fun s d hs => by split <;> simp -implicitDefEqProofs [hs]) _ (by simp -implicitDefEqProofs [h])) (State.memory_mbDone _ _)
theorem forming_execSensors (s : State) (h : s.formed) : Forming (execSensors s) := forming_mbRow _ _ _ h (by simp [h])
theorem forming_execErrlog (s : State) (h : s.formed) : Forming (execErrlog s) := forming_mbRow _ _ _ h (by simp [h])
theorem forming_execUpdate (s : State) (h : s.formed) : Forming (execUpdate s) := by
  refine forming_mbRow _ _ _ h ?_
  dsimp only
  repeat' split
  all_goals simp -implicitDefEqProofs [h]
theorem forming_execSpdm (s : State) (h : s.formed) : Forming (execSpdm s) := by
  refine forming_mbRow _ _ _ h ?_
  dsimp only
  repeat' split
  all_goals simp -implicitDefEqProofs [h]
theorem forming_execMeasure (s : State) (h : s.formed) : Forming (execMeasure s) := forming_mbRow _ _ _ h (by simp [h])
theorem forming_execMailboxUnknownCommand (s : State) (h : s.formed) : Forming (execMailboxUnknownCommand s) := by
  unfold execMailboxUnknownCommand
  rw [forming_next]
  split <;> simp [h]
theorem forming_execModuleReset (s : State) (h : s.formed) : Forming (execModuleReset s) := by
  unfold execModuleReset
  rw [forming_next]
  repeat' split
  all_goals simp -implicitDefEqProofs [h]
theorem forming_execPowerLoss (s : State) (h : s.formed) : Forming (execPowerLoss s) := by
  unfold execPowerLoss
  rw [forming_next]
  repeat' split
  all_goals simp -implicitDefEqProofs [h]
theorem forming_execBootStage (stage : Nat) (s : State) (h : s.formed) : Forming (execBootStage stage s) := by
  unfold execBootStage
  rw [forming_next]
  dsimp only
  repeat' split
  all_goals simp -implicitDefEqProofs [h]
theorem forming_execDieEnterService (die : Nat) (s : State) (h : s.formed) : Forming (execDieEnterService die s) := by
  unfold execDieEnterService
  rw [forming_next]
  dsimp only
  repeat' split
  all_goals simp -implicitDefEqProofs [h]
theorem forming_execFullService (s : State) (h : s.formed) : Forming (execFullService s) := by
  unfold execFullService
  rw [forming_next]
  dsimp only
  repeat' split
  all_goals simp -implicitDefEqProofs [h]
theorem forming_execCorrectedError (unit cause addr : Nat) (s : State) (h : s.formed) : Forming (execCorrectedError unit cause addr s) := by
  unfold execCorrectedError
  rw [forming_next]
  repeat' split
  all_goals simp -implicitDefEqProofs [h]
theorem forming_execLoadPerform (id : Nat) (s : State) (h : s.formed) : Forming (execLoadPerform id s) := by
  unfold execLoadPerform
  rw [forming_next]
  repeat' split
  all_goals simp -implicitDefEqProofs [h]
theorem forming_execStorePerform (id : Nat) (s : State) (h : s.formed) : Forming (execStorePerform id s) := by
  unfold execStorePerform
  rw [forming_next]
  repeat' split
  all_goals simp -implicitDefEqProofs [h]
theorem forming_execAmoPerform (id : Nat) (s : State) (h : s.formed) : Forming (execAmoPerform id s) := by
  unfold execAmoPerform
  rw [forming_next]
  repeat' split
  all_goals simp -implicitDefEqProofs [h]
theorem forming_execAbsmaxMerge (id : Nat) (s : State) (h : s.formed) : Forming (execAbsmaxMerge id s) := by
  unfold execAbsmaxMerge
  rw [forming_next]
  split
  · split
    · extract_lets la ts
      split
      · simp [h]
      · split
        · next ht => simp [State.formed_of_touchAll ht h]
        · next s1 ht =>
          have h1 := State.formed_of_touchAll ht h
          split
          · simp [h1]
          · extract_lets s2 old r
            have h2 : s2.formed := by
              unfold s2
              split <;> simp [h1]
            split
            · simp -implicitDefEqProofs [h2]
            · refine State.formed_settle _ (State.formed_of_memory ?_ (State.memory_merged _ _ _ _))
              exact State.formed_of_memory (s := { s2 with mem := s2.mem.writeMasked (storeWrites _ 8 (amoNew 2 old _).toNat) })
                (h2.write fun hm => Memory.wf_writeMasked _ hm) (State.memory_watchWrite _ _ _)
    · exact h
  · exact h
theorem forming_execLoadComplete (id : Nat) (s : State) (h : s.formed) : Forming (execLoadComplete id s) := by
  unfold execLoadComplete
  rw [forming_next]
  dsimp only
  repeat' split
  all_goals simp -implicitDefEqProofs [h]
theorem forming_execStoreAcknowledge (id : Nat) (s : State) (h : s.formed) : Forming (execStoreAcknowledge id s) := by
  unfold execStoreAcknowledge
  rw [forming_next]
  dsimp only
  repeat' split
  all_goals simp -implicitDefEqProofs [h]
theorem forming_execHoldNotice (id : Nat) (s : State) (h : s.formed) : Forming (execHoldNotice id s) := by
  unfold execHoldNotice
  rw [forming_next]
  dsimp only
  repeat' split
  all_goals simp -implicitDefEqProofs [h]
theorem forming_execPromotionNotice (id : Nat) (s : State) (h : s.formed) : Forming (execPromotionNotice id s) := by
  unfold execPromotionNotice
  rw [forming_next]
  dsimp only
  repeat' split
  all_goals simp -implicitDefEqProofs [h]
theorem forming_execPromotedRelease (id : Nat) (s : State) (h : s.formed) : Forming (execPromotedRelease id s) := by
  unfold execPromotedRelease
  rw [forming_next]
  dsimp only
  repeat' split
  all_goals simp -implicitDefEqProofs [h]
theorem forming_execParkRetry (id : Nat) (s : State) (h : s.formed) : Forming (execParkRetry id s) := by
  unfold execParkRetry
  rw [forming_next]
  dsimp only
  repeat' split
  all_goals simp -implicitDefEqProofs [h]
theorem forming_execSyncLimitExpire (id : Nat) (s : State) (h : s.formed) : Forming (execSyncLimitExpire id s) := by
  unfold execSyncLimitExpire
  rw [forming_next]
  dsimp only
  repeat' split
  all_goals simp -implicitDefEqProofs [h]
theorem forming_execWatchEventMessage (id : Nat) (s : State) (h : s.formed) : Forming (execWatchEventMessage id s) := by
  unfold execWatchEventMessage
  rw [forming_next]
  dsimp only
  repeat' split
  all_goals simp -implicitDefEqProofs [h]
theorem forming_execLendReleaseMessage (id : Nat) (s : State) (h : s.formed) : Forming (execLendReleaseMessage id s) := by
  unfold execLendReleaseMessage
  rw [forming_next]
  repeat' split
  all_goals simp -implicitDefEqProofs [h]
theorem forming_execRelink (id : Nat) (s : State) (h : s.formed) : Forming (execRelink id s) := by
  unfold execRelink
  rw [forming_next]
  repeat' split
  all_goals simp -implicitDefEqProofs [h]
theorem forming_execStreamerRead (id : Nat) (s : State) (h : s.formed) : Forming (execStreamerRead id s) := by
  unfold execStreamerRead
  rw [forming_next]
  dsimp only
  repeat' split
  all_goals simp -implicitDefEqProofs [h]
theorem forming_execArrivalClaim (id : Nat) (s : State) (h : s.formed) : Forming (execArrivalClaim id s) := by
  unfold execArrivalClaim
  rw [forming_next]
  dsimp only
  repeat' split
  all_goals simp -implicitDefEqProofs [h]
theorem forming_execArrivalComplete (id : Nat) (s : State) (h : s.formed) : Forming (execArrivalComplete id s) := by
  unfold execArrivalComplete
  rw [forming_next]
  repeat' split
  all_goals simp -implicitDefEqProofs [h]
  · refine State.formed_settle _ (State.formed_landed _ _ _ _ _ ?_)
    simp -implicitDefEqProofs
    exact h.write fun hm => Memory.wf_writeBytes _ hm _
  split
  · simp [h]
  split
  · split
    · exact h
    · exact State.formed_settle _ (State.formed_landed _ _ _ _ _ (by simp -implicitDefEqProofs [h]))
  refine State.formed_settle _ (State.formed_landed _ _ _ _ _ ?_)
  simp -implicitDefEqProofs
  exact h.write fun hm => Memory.wf_writeBytes _ hm _
theorem forming_execPullRead (id : Nat) (s : State) (h : s.formed) : Forming (execPullRead id s) := by
  unfold execPullRead
  rw [forming_next]
  dsimp only
  repeat' split
  all_goals simp -implicitDefEqProofs [h]
theorem forming_execBr (o : BT) (s : State) (h : s.formed) : Forming (execBr o s) := forming_issue _ _ _ h fun pk => by simp [h]
theorem forming_execJal (o : RI) (s : State) (h : s.formed) : Forming (execJal o s) := forming_issue _ _ _ h fun pk => by simp [h]
theorem forming_execJr (o : RR) (s : State) (h : s.formed) : Forming (execJr o s) := by
  refine forming_issue _ _ _ h fun pk => ?_
  dsimp only
  split <;> simp [h]
theorem forming_execTaskStart (core slot : Nat) (s : State) (h : s.formed) : Forming (execTaskStart core slot s) := by
  unfold execTaskStart
  rw [forming_next]
  repeat' split
  all_goals simp -implicitDefEqProofs [h]
  exact formed_foldl (fun s t hs => by split <;> simp [hs]) _ h
theorem forming_execEventRecordPost (die : Nat) (s : State) (h : s.formed) : Forming (execEventRecordPost die s) := by
  unfold execEventRecordPost
  rw [forming_next]
  repeat' split
  all_goals simp -implicitDefEqProofs [h]
theorem forming_execEventRecordDeliver (die : Nat) (s : State) (h : s.formed) : Forming (execEventRecordDeliver die s) := by
  unfold execEventRecordDeliver
  rw [forming_next]
  dsimp only
  repeat' split
  all_goals simp -implicitDefEqProofs [h]
theorem forming_execContextSwitch (core : Nat) (s : State) (h : s.formed) : Forming (execContextSwitch core s) := by
  unfold execContextSwitch
  rw [forming_next]
  repeat' split
  all_goals simp -implicitDefEqProofs [h]
theorem forming_execSliceRotation (core : Nat) (s : State) (h : s.formed) : Forming (execSliceRotation core s) := by
  unfold execSliceRotation
  rw [forming_next]
  repeat' split
  all_goals simp -implicitDefEqProofs [h]
theorem forming_execBlockedWaitLimit (core : Nat) (s : State) (h : s.formed) : Forming (execBlockedWaitLimit core s) := by
  unfold execBlockedWaitLimit
  rw [forming_next]
  repeat' split
  all_goals simp -implicitDefEqProofs [h]
theorem forming_execDeadlockProbe (die : Nat) (s : State) (h : s.formed) : Forming (execDeadlockProbe die s) := by
  unfold execDeadlockProbe
  rw [forming_next]
  split
  · exact h
  · exact formed_foldl (fun s w hs => by simp [hs]) _ h
theorem forming_exec (i : Instr) (s : State) (h : s.formed) : Forming (exec i s) := by
  unfold exec
  cases i with
  | add _ | sub _ | and _ | or _ | xor _ | andn _ | shl _ | shr _ | sra _ | rol _ | min _ | max _ | minu _ | maxu _ | mul _ | mulh _ | mulhu _
  | mulhsu _ | bfx _ =>
    dsimp only
    exact forming_alu _ _ _ _ h
  | adds _ | subs _ | div _ | divu _ | rem _ | remu _ =>
    dsimp only
    exact forming_aluFlags _ _ _ _ h
  | clz _ | ctz _ | popc _ | brev _ | fcvtsh _ | fcvtsb _ | fcvths _ | fcvtbs _ | fcvtsi _ | fcvtis _ | fcvthi _ | fcvtih _ | fcvtsu _ | fcvtus _
  | fcvthb _ | fcvtbh _ =>
    dsimp only
    exact forming_aluOne _ _ _ _ h
  | bfi _ | imm _ | immh _ | vbcast _ | vext _ | vexts _ | vins _ | vsel _ | vcvt _ | nop _ | pget _ | pset _ =>
    dsimp only
    exact forming_issuePure _ _ _ h
  | addi _ | andi _ | ori _ | xori _ =>
    dsimp only
    exact forming_aluImm _ _ _ _ h
  | shli _ | shri _ | srai _ | roli _ =>
    dsimp only
    exact forming_shiftImm _ _ _ _ h
  | cmpeq _ | cmpne _ | cmplt _ | cmple _ | cmpgt _ | cmpge _ | cmpltu _ | cmpleu _ | cmpgtu _ | cmpgeu _ =>
    dsimp only
    exact forming_compare _ _ _ _ h
  | cmpeqi _ | cmpnei _ | cmplti _ | cmplei _ | cmpgti _ | cmpgei _ | cmpltui _ | cmpleui _ | cmpgtui _ | cmpgeui _ =>
    dsimp only
    exact forming_compareImm _ _ _ _ h
  | pand _ | por _ | pxor _ | pandn _ | porn _ | pnand _ | pnor _ | pxnor _ =>
    dsimp only
    exact forming_predLogic _ _ _ _ h
  | fcmpeq _ | fcmplt _ | fcmple _ | fcmpun _ =>
    dsimp only
    exact forming_floatCompare _ _ _ _ h
  | fadd _ | fsub _ | fmul _ | fmin _ | fmax _ | fdiv _ =>
    dsimp only
    exact forming_floatOp _ _ _ _ h
  | fma _ =>
    dsimp only
    exact forming_floatAcc _ _ _ _ h
  | fsqrt _ =>
    dsimp only
    exact forming_floatOne _ _ _ _ h
  | ldb _ | ldh _ | ldw _ | ldd _ | ldbu _ | ldhu _ | ldwu _ =>
    dsimp only
    exact forming_plainLoad _ _ _ _ _ h
  | stb _ | sth _ | stw _ | std _ =>
    dsimp only
    exact forming_plainStore _ _ _ _ h
  | ldx _ | ldp _ =>
    dsimp only
    exact forming_syncLoad _ _ _ _ h
  | tempty _ | tfull _ | twaitf _ | twaite _ | watch _ | unwatch _ =>
    dsimp only
    exact forming_tagWord _ _ _ _ h
  | amoadd _ | amosmin _ | amosmax _ | amoumin _ | amoumax _ | amoand _ | amoor _ | amoxor _ | amoswap _ | amocas _ =>
    dsimp only
    exact forming_amoWord _ _ _ _ h
  | vrsum _ | vrmax _ | vrmin _ =>
    dsimp only
    exact forming_vecReduce _ _ _ _ _ _ h
  | vperm _ | vzip _ | vunzip _ =>
    dsimp only
    exact forming_vecPerm _ _ _ _ h
  | qand _ | qor _ | qxor _ | qandn _ | qorn _ | qnand _ | qnor _ | qxnor _ =>
    dsimp only
    exact forming_maskLogic _ _ _ _ h
  | vaddI _ | vsubI _ | vmulI _ | vmulhI _ | vminI _ | vmaxI _ | vminu _ | vmaxu _ | vand _ | vor _ | vxor _ | vandn _ | vshl _ | vshr _ | vsra _
  | vadds _ =>
    dsimp only
    exact forming_vecInt _ _ _ _ h
  | vaddF16 _ | vsubF16 _ | vmulF16 _ | vfmaF16 _ | vminF16 _ | vmaxF16 _ | vdivF16 _ | vaddBf16 _ | vsubBf16 _ | vmulBf16 _ | vfmaBf16 _
  | vminBf16 _ | vmaxBf16 _ | vdivBf16 _ | vaddF32 _ | vsubF32 _ | vmulF32 _ | vfmaF32 _ | vminF32 _ | vmaxF32 _ | vdivF32 _ =>
    dsimp only
    exact forming_vecFloat _ _ _ _ _ h
  | vabsF16 _ | vnegF16 _ | vsqrtF16 _ | vexp2F16 _ | vlog2F16 _ | vrcpF16 _ | vrsqF16 _ | vabsBf16 _ | vnegBf16 _ | vsqrtBf16 _ | vexp2Bf16 _
  | vlog2Bf16 _ | vrcpBf16 _ | vrsqBf16 _ | vabsF32 _ | vnegF32 _ | vsqrtF32 _ | vexp2F32 _ | vlog2F32 _ | vrcpF32 _ | vrsqF32 _ =>
    dsimp only
    exact forming_vecFloat1 _ _ _ _ _ h
  | vcmpeq _ | vcmpne _ | vcmplt _ | vcmple _ | vcmpltu _ | vcmpleu _ | vcmpun _ | vcmpord _ =>
    dsimp only
    exact forming_vecCompare _ _ _ _ _ h
  | rebind _ | send _ | sendt _ | sendd _ =>
    dsimp only
    exact forming_chanWord2 _ _ _ h
  | alt _ | altf _ =>
    dsimp only
    exact forming_altWord _ _ _ _ h
  | br o => dsimp only; exact forming_execBr _ _ h
  | jal o => dsimp only; exact forming_execJal _ _ h
  | jr o => dsimp only; exact forming_execJr _ _ h
  | stx o => dsimp only; exact forming_execStx _ _ h
  | tqry o => dsimp only; exact forming_execTqry _ _ h
  | waitw o => dsimp only; exact forming_execWaitw _ _ h
  | lda o => dsimp only; exact forming_execLda _ _ h
  | stl o => dsimp only; exact forming_execStl _ _ h
  | fence o => dsimp only; exact forming_execFence _ _ h
  | vld o => dsimp only; exact forming_execVld _ _ h
  | vst o => dsimp only; exact forming_execVst _ _ h
  | mma o => dsimp only; exact forming_execMma _ _ h
  | shape o => dsimp only; exact forming_execShape _ _ h
  | acz o => dsimp only; exact forming_execAcz _ _ h
  | drain o => dsimp only; exact forming_execDrain _ _ h
  | table o => dsimp only; exact forming_execTable _ _ h
  | rowsum o => dsimp only; exact forming_execRowsum _ _ h
  | colsum o => dsimp only; exact forming_execColsum _ _ h
  | pack o => dsimp only; exact forming_execPack _ _ h
  | unpack o => dsimp only; exact forming_execUnpack _ _ h
  | aread o => dsimp only; exact forming_execAread _ _ h
  | copy o => dsimp only; exact forming_execCopy _ _ h
  | copys o => dsimp only; exact forming_execCopys _ _ h
  | copya o => dsimp only; exact forming_execCopya _ _ h
  | mcast o => dsimp only; exact forming_execMcast _ _ h
  | redg o => dsimp only; exact forming_execRedg _ _ h
  | flushout o => dsimp only; exact forming_execFlushout _ _ h
  | fetchin o => dsimp only; exact forming_execFetchin _ _ h
  | mkch o => dsimp only; exact forming_execMkch _ _ h
  | close o => dsimp only; exact forming_execClose _ _ h
  | bind o => dsimp only; exact forming_execBind _ _ h
  | recv o => dsimp only; exact forming_execRecv _ _ h
  | recvt o => dsimp only; exact forming_execRecvt _ _ h
  | pull o => dsimp only; exact forming_execPull _ _ h
  | dropw o => dsimp only; exact forming_execDropw _ _ h
  | probe o => dsimp only; exact forming_execProbe _ _ h
  | trap o => dsimp only; exact forming_execTrap _ _ h
  | trapret o => dsimp only; exact forming_execTrapret _ _ h
  | halt o => dsimp only; exact forming_execHalt _ _ h
  | ctlr o => dsimp only; exact forming_execCtlr _ _ h
  | ctlw o => dsimp only; exact forming_execCtlw _ _ h
  | spawn o => dsimp only; exact forming_execSpawn _ _ h
  | exit o => dsimp only; exact forming_execExit _ _ h
  | yield o => dsimp only; exact forming_execYield _ _ h
  | prio o => dsimp only; exact forming_execPrio _ _ h
  | sleep o => dsimp only; exact forming_execSleep _ _ h
  | ifence o => dsimp only; exact forming_execIfence _ _ h
  | tlbinv o => dsimp only; exact forming_execTlbinv _ _ h
  | repart o => dsimp only; exact forming_execRepart _ _ h
  | qarm o => dsimp only; exact forming_execQarm _ _ h
  | ckptSave o => dsimp only; exact forming_execCkptSave _ _ h
  | ckptRestore o => dsimp only; exact forming_execCkptRestore _ _ h
  | gopen o => dsimp only; exact forming_execGopen _ _ h
  | gfree o => dsimp only; exact forming_execGfree _ _ h
  | whoami o => dsimp only; exact forming_execWhoami _ _ h
  | streamres o => dsimp only; exact forming_execStreamres _ _ h
  | loadPerform id => dsimp only; exact forming_execLoadPerform _ _ h
  | loadComplete id => dsimp only; exact forming_execLoadComplete _ _ h
  | storePerform id => dsimp only; exact forming_execStorePerform _ _ h
  | storeAcknowledge id => dsimp only; exact forming_execStoreAcknowledge _ _ h
  | holdNotice id => dsimp only; exact forming_execHoldNotice _ _ h
  | amoPerform id => dsimp only; exact forming_execAmoPerform _ _ h
  | absmaxMerge id => dsimp only; exact forming_execAbsmaxMerge _ _ h
  | parkRetry id => dsimp only; exact forming_execParkRetry _ _ h
  | syncLimitExpire id => dsimp only; exact forming_execSyncLimitExpire _ _ h
  | watchEventMessage id => dsimp only; exact forming_execWatchEventMessage _ _ h
  | arrivalClaim id => dsimp only; exact forming_execArrivalClaim _ _ h
  | arrivalComplete id => dsimp only; exact forming_execArrivalComplete _ _ h
  | copyAccept core => dsimp only; exact forming_execCopyAccept _ _ h
  | pieceDispatch core => dsimp only; exact forming_execPieceDispatch _ _ h
  | streamerRead id => dsimp only; exact forming_execStreamerRead _ _ h
  | completionTileSet core copyId => dsimp only; exact forming_execCompletionTileSet _ _ _ h
  | copyaAccumulate id => dsimp only; exact forming_execCopyaAccumulate _ _ h
  | groupDrainComplete die group => dsimp only; exact forming_execGroupDrainComplete _ _ _ h
  | borerRequest id => dsimp only; exact forming_execBorerRequest _ _ h
  | fetchinComplete id => dsimp only; exact forming_execFetchinComplete _ _ h
  | flushoutComplete id => dsimp only; exact forming_execFlushoutComplete _ _ h
  | migrationCopyDone id => dsimp only; exact forming_execMigrationCopyDone _ _ h
  | endMarker id => dsimp only; exact forming_execEndMarker _ _ h
  | migrationCountExpire page requester => dsimp only; exact forming_execMigrationCountExpire _ _ _ h
  | pageWalk id => dsimp only; exact forming_execPageWalk _ _ h
  | shootdownAcknowledge id core => dsimp only; exact forming_execShootdownAcknowledge _ _ _ h
  | shootdownComplete id => dsimp only; exact forming_execShootdownComplete _ _ h
  | pullRead id => dsimp only; exact forming_execPullRead _ _ h
  | lendReleaseMessage id => dsimp only; exact forming_execLendReleaseMessage _ _ h
  | relink id => dsimp only; exact forming_execRelink _ _ h
  | channelSendArrive id => dsimp only; exact forming_execChannelSendArrive _ _ h
  | channelReceiveArrive id => dsimp only; exact forming_execChannelReceiveArrive _ _ h
  | transferFinish core slot => dsimp only; exact forming_execTransferFinish _ _ _ h
  | channelTimeoutExpire core pid => dsimp only; exact forming_execChannelTimeoutExpire _ _ _ h
  | timerDeadlineExpire slot => dsimp only; exact forming_execTimerDeadlineExpire _ _ h
  | altDeadlineExpire core pid => dsimp only; exact forming_execAltDeadlineExpire _ _ _ h
  | unbindRequest id => dsimp only; exact forming_execUnbindRequest _ _ h
  | exitComplete core pid => dsimp only; exact forming_execExitComplete _ _ _ h
  | promotionNotice id => dsimp only; exact forming_execPromotionNotice _ _ h
  | promotedRelease id => dsimp only; exact forming_execPromotedRelease _ _ h
  | sleepExpire core pid => dsimp only; exact forming_execSleepExpire _ _ _ h
  | spawnChildCreate id => dsimp only; exact forming_execSpawnChildCreate _ _ h
  | taskStart core slot => dsimp only; exact forming_execTaskStart _ _ _ h
  | eventRecordPost die => dsimp only; exact forming_execEventRecordPost _ _ h
  | eventRecordDeliver die => dsimp only; exact forming_execEventRecordDeliver _ _ h
  | contextSwitch core => dsimp only; exact forming_execContextSwitch _ _ h
  | sliceRotation core => dsimp only; exact forming_execSliceRotation _ _ h
  | blockedWaitLimit core => dsimp only; exact forming_execBlockedWaitLimit _ _ h
  | deadlockProbe die => dsimp only; exact forming_execDeadlockProbe _ _ h
  | macroOpStart core => dsimp only; exact forming_execMacroOpStart _ _ h
  | macroStepComplete core => dsimp only; exact forming_execMacroStepComplete _ _ h
  | causewayRequestReceive id => dsimp only; exact forming_execCausewayRequestReceive _ _ h
  | frozenNotice id => dsimp only; exact forming_execFrozenNotice _ _ h
  | resumeMessage id => dsimp only; exact forming_execResumeMessage _ _ h
  | flitReceive port peer crcGood reqCredits repCredits => dsimp only; exact forming_execFlitReceive _ _ _ _ _ _ h
  | linkRetrainComplete port peer success => dsimp only; exact forming_execLinkRetrainComplete _ _ _ _ h
  | linkSilenceTimeout peer => dsimp only; exact forming_execLinkSilenceTimeout _ _ h
  | partitionQuiesce peer => dsimp only; exact forming_execPartitionQuiesce _ _ h
  | laserRetune port peer => dsimp only; exact forming_execLaserRetune _ _ _ h
  | dtimeAlign stamp => dsimp only; exact forming_execDtimeAlign _ _ h
  | travelAdmit id => dsimp only; exact forming_execTravelAdmit _ _ h
  | travelAcknowledge id => dsimp only; exact forming_execTravelAcknowledge _ _ h
  | doorbell queue => dsimp only; exact forming_execDoorbell _ _ h
  | luarm value => dsimp only; exact forming_execLuarm _ _ h
  | lupreempt value => dsimp only; exact forming_execLupreempt _ _ h
  | nopPacket queue => dsimp only; exact forming_execNopPacket _ _ h
  | launch queue => dsimp only; exact forming_execLaunch _ _ h
  | launchRecordWrite queue => dsimp only; exact forming_execLaunchRecordWrite _ _ h
  | wait queue => dsimp only; exact forming_execWait _ _ h
  | waitPoll queue => dsimp only; exact forming_execWaitPoll _ _ h
  | release queue => dsimp only; exact forming_execRelease _ _ h
  | releasePerform queue => dsimp only; exact forming_execReleasePerform _ _ h
  | indirect queue => dsimp only; exact forming_execIndirect _ _ h
  | loop queue => dsimp only; exact forming_execLoop _ _ h
  | fetchfence queue => dsimp only; exact forming_execFetchfence _ _ h
  | taskExitReport id => dsimp only; exact forming_execTaskExitReport _ _ h
  | haltCommand die value => dsimp only; exact forming_execHaltCommand _ _ _ h
  | resumeCommand die value => dsimp only; exact forming_execResumeCommand _ _ _ h
  | coreHalted core => dsimp only; exact forming_execCoreHalted _ _ h
  | pgnoteResume die value => dsimp only; exact forming_execPgnoteResume _ _ _ h
  | pgnoteDeliverPage die value => dsimp only; exact forming_execPgnoteDeliverPage _ _ _ h
  | pgnoteDeliverProt die value => dsimp only; exact forming_execPgnoteDeliverProt _ _ _ h
  | rgnctlCommit value => dsimp only; exact forming_execRgnctlCommit _ _ h
  | corectlHold core value => dsimp only; exact forming_execCorectlHold _ _ _ h
  | ioepnewEndpoint id => dsimp only; exact forming_execIoepnewEndpoint _ _ h
  | ioepnewTimer id => dsimp only; exact forming_execIoepnewTimer _ _ h
  | controlRegisterWrite die core number value => dsimp only; exact forming_execControlRegisterWrite _ _ _ _ _ h
  | evready => dsimp only; exact forming_execEvready _ h
  | sensors => dsimp only; exact forming_execSensors _ h
  | errlog => dsimp only; exact forming_execErrlog _ h
  | update => dsimp only; exact forming_execUpdate _ h
  | spdm => dsimp only; exact forming_execSpdm _ h
  | measure => dsimp only; exact forming_execMeasure _ h
  | mailboxUnknownCommand => dsimp only; exact forming_execMailboxUnknownCommand _ h
  | moduleReset => dsimp only; exact forming_execModuleReset _ h
  | bootStage stage => dsimp only; exact forming_execBootStage _ _ h
  | dieEnterService die => dsimp only; exact forming_execDieEnterService _ _ h
  | fullService => dsimp only; exact forming_execFullService _ h
  | correctedError unit cause addr => dsimp only; exact forming_execCorrectedError _ _ _ _ h
  | ethernetFrameReceive port frame => dsimp only; exact forming_execEthernetFrameReceive _ _ _ h
  | tokenBucketRefill die asid => dsimp only; exact forming_execTokenBucketRefill _ _ _ h
  | fireflyPeerDownReport peer => dsimp only; exact forming_execFireflyPeerDownReport _ _ h
  | ethernetFrameTransmit port => dsimp only; exact forming_execEthernetFrameTransmit _ _ h
  | hostQueueMessage slot message => dsimp only; exact forming_execHostQueueMessage _ _ _ h
  | powerLoss => dsimp only; exact forming_execPowerLoss _ h
theorem State.forming_issueWord (s : State) (pk : Nat) (w : Word32) (h : s.formed) : Forming (s.issueWord pk w) := by
  unfold State.issueWord
  split
  · simp [h]
  split
  · simp [h]
  next i _ =>
  have hi := forming_exec i s h
  split
  · next t ht =>
    have h1 : t.formed := hi t ht
    simp [h1]
  · simp
  · simp
theorem State.forming_issueNext (s : State) (pk : Nat) (h : s.formed) : Forming (s.issueNext pk) := by
  unfold State.issueNext
  dsimp only
  split
  · exact State.forming_issueWord _ _ _ h
  split
  · simp [h]
  · simp [h]
  · simp [h]
  · exact State.forming_issueWord _ _ _ (by simp [h])
theorem State.forming_issueTurn (s : State) (pk : Nat) (h : s.formed) : Forming (s.issueTurn pk) := by
  unfold State.issueTurn
  extract_lets s1 p
  have h1 : s1.formed := State.formed_multiGo _ _ h
  split
  · split <;> simp [h1]
  split
  · simp [h1]
  split
  · simp [h1]
  · simp [h1]
  split
  · simp [h1]
  have hi := State.forming_issueNext s1 pk h1
  split
  · next t ht =>
    have h2 : t.formed := hi t ht
    simp [h2]
  · simp
  · simp
theorem State.forming_play (s : State) (m : Move) (h : s.formed) : Forming (s.play m) := by
  unfold State.play
  split
  · simp
  cases m with
  | issue pk => exact State.forming_issueTurn _ _ h
  | event i =>
    dsimp only
    split
    · simp
    · exact forming_exec i s h
  | _ =>
    dsimp only
    rw [forming_next]
    repeat' split
    all_goals simp -implicitDefEqProofs [h]
theorem State.forming_moveOn (s : State) (m : Move) (h : s.formed) : Forming (s.moveOn m) := by
  unfold State.moveOn
  have hp := State.forming_play s m h
  split
  · next t ht => exact (forming_next _).2 (State.formed_close _ _ (hp t ht))
  · simp
  · simp
theorem forming_step (s : State) (h : s.formed) : Forming (step s) := by
  unfold step
  split
  · exact State.forming_moveOn _ _ h
  · exact State.forming_moveOn _ _ h
/-- Settles O53: every part of a step writes memory and flash by `Memory.write` and its derivatives alone, each of which keeps the form. -/
theorem stepKeepsMemoryForm : Obligations.StepKeepsMemoryForm := by
  unfold Obligations.StepKeepsMemoryForm
  intro s t hm hf hst
  exact forming_step s ⟨hm, hf⟩ t hst
end Sys2Proof.Machine
end

section
/-! Proofs about what reset leaves. -/
set_option Elab.async false
namespace Sys2Proof.Machine
open Sys2Proof Sys2Proof.Safety
theorem State.core_reset (c : Nat) : State.reset.core c = Core.reset := rfl
/-- No tile has a tag of its own at reset: each is EMPTY, an accumulator tile too. -/
theorem State.tag_reset (c i : Nat) : State.reset.tag c i = .empty := by
  unfold State.tag Core.tag
  split <;> rfl
/-- Settles O51: nothing has been written yet, so each part of the module is its initial value. -/
theorem resetState : Obligations.ResetState := by
  unfold Obligations.ResetState
  dsimp only
  refine ⟨fun c => ?_, fun pk => ?_, fun d => ?_, ?_⟩
  · refine ⟨rfl, rfl, fun i => ⟨State.tag_reset c i, rfl⟩, fun a => ⟨rfl, rfl, rfl, rfl, rfl, rfl⟩, fun i => rfl, fun i => ⟨rfl, rfl⟩, fun i => rfl, rfl, rfl, rfl, rfl⟩
  · exact ⟨rfl, rfl, rfl, rfl, rfl, rfl, rfl, rfl, rfl, rfl, rfl, rfl, rfl, rfl⟩
  · exact ⟨rfl, rfl, rfl, rfl, rfl, rfl, rfl, rfl, rfl, fun i => ⟨rfl, rfl⟩, fun i => rfl⟩
  · exact ⟨rfl, rfl, rfl, rfl, rfl, rfl, fun i => ⟨rfl, rfl⟩, fun i => ⟨rfl, rfl⟩, rfl, rfl, rfl, rfl⟩
end Sys2Proof.Machine
end

section
/-! Proofs about the words that the spec writes out. -/
set_option Elab.async false
namespace Sys2Proof.Machine
open Sys2Proof Sys2Proof.Safety
/-- The worked word `vcvt.e4m3.f16.rtz v6, v3, q2` of R198: bits [11:9], the type converted from, are FP16. -/
theorem decode_workedVcvt : decode 0x0DCC378A = .ok (.vcvt ⟨⟨false, 0⟩, 6, 3, .f16, .e4m3, .rtz, 2⟩) := rfl
/-- Refutes O56: the statement gives the worked word of VCVT the type it converts to, E4M3, as the one it converts from. -/
theorem not_decodeWords : ¬ Obligations.DecodeWords := by
  unfold Obligations.DecodeWords
  intro h
  dsimp only at h
  have hv : decode 0x0DCC378A = .ok (.vcvt ⟨⟨false, 0⟩, 6, 3, .e4m3, .f16, .rtz, 2⟩) := by tauto
  rw [decode_workedVcvt] at hv
  exact absurd hv (by decide)
end Sys2Proof.Machine
end

section
/-! Proofs about trap entry (spec/19_faults.md, R298 to R302). -/
set_option Elab.async false
namespace Sys2Proof.Machine
open Sys2Proof Sys2Proof.Safety

/-- A trap with a handler to go to is entered there. -/
theorem State.trap_entered {s : State} {pk : Nat} {x : Trap} {pc v : Word} (hv : (if x.cause = .quiesce then (s.proc pk).r.ctl.ckptv else (s.proc pk).r.ctl.trapv) = v)
    (h0 : v ≠ 0) (hin : (s.proc pk).r.ctl.inh = true → x.cause = .quiesce) :
    s.trap pk x pc = s.setProc pk { (s.proc pk).settled with
      r := { (s.proc pk).r with ctl := { (s.proc pk).r.ctl with code := x.cause.code, inh := true, nest := (s.proc pk).r.ctl.inh, trappc := vaMask pc, trapinfo := x.info } },
      pc := v, transferred := true, pend := none, batch := none, fifth := none } := by
  subst hv
  unfold State.trap
  dsimp only
  rw [if_neg (fun h => h.2 (hin h.1)), if_neg h0]
/-- A trap inside a handler is not delivered. -/
theorem State.trap_inside {s : State} {pk : Nat} {x : Trap} {pc : Word} (hc : x.cause ≠ .quiesce) (hin : (s.proc pk).r.ctl.inh = true) :
    s.trap pk x pc = s.endProcess pk x pc 2 := by
  unfold State.trap
  exact if_pos ⟨hin, hc⟩
/-- A trap without a handler is not delivered. -/
theorem State.trap_unhandled {s : State} {pk : Nat} {x : Trap} {pc : Word}
    (hv : (if x.cause = .quiesce then (s.proc pk).r.ctl.ckptv else (s.proc pk).r.ctl.trapv) = 0) (hin : (s.proc pk).r.ctl.inh = true → x.cause = .quiesce) :
    s.trap pk x pc = s.endProcess pk x pc 1 := by
  unfold State.trap
  dsimp only
  rw [if_neg (fun h => h.2 (hin h.1)), if_pos hv]

@[simp] theorem State.post_mem (s : State) (d kind asid w : Nat) (dw : List Word) : (s.post d kind asid w dw).mem = s.mem := by
  unfold State.post
  dsimp only
  split <;> rfl
@[simp] theorem State.post_procs (s : State) (d kind asid w : Nat) (dw : List Word) : (s.post d kind asid w dw).procs = s.procs := by
  unfold State.post
  dsimp only
  split <;> rfl
@[simp] theorem State.post_proc (s : State) (d kind asid w : Nat) (dw : List Word) (k : Nat) : (s.post d kind asid w dw).proc k = s.proc k := by
  unfold State.proc
  rw [State.post_procs]
/-- A record is posted at once where nothing is held back and the queue has room. -/
theorem State.post_queue {s : State} {d : Nat} (kind asid w : Nat) (dw : List Word) (hp : (s.die d).posting = []) (hq : (s.die d).queue.length < 256) :
    ((s.post d kind asid w dw).die d).queue = (s.die d).queue ++
      [(BitVec.ofNat 64 (kind * 2 ^ 56 + (s.die d).seq.toNat * 2 ^ 48 + asid * 2 ^ 26 + w) :: dw ++ List.replicate 7 0).take 8] := by
  unfold State.post
  simp [hp, hq]

/-- What a trap that is not delivered leaves: the process ends, and a record of KIND 9 says why (R302). -/
theorem State.endProcess_ends (s : State) (pk : Nat) (x : Trap) (pc : Word) (reason : Nat) :
    let p := s.proc pk
    let d := dieOfCore (coreOf pk)
    let t := s.endProcess pk x pc reason
    (t.proc pk).ending = 1 ∧ (t.proc pk).r = p.r ∧ t.mem = s.mem ∧
      ((s.die d).posting = [] → (s.die d).queue.length < 256 → (t.die d).queue = (s.die d).queue ++
        [[BitVec.ofNat 64 (9 * 2 ^ 56 + (s.die d).seq.toNat * 2 ^ 48 + p.asid * 2 ^ 26 + s.originWord pk), BitVec.ofNat 64 (x.cause.code.toNat + reason * 2 ^ 8),
          vaMask pc, x.info, 0, 0, 0, 0]]) := by
  refine ⟨?_, ?_, ?_, fun hp hq => ?_⟩
  · simp [State.endProcess, State.postOther]
  · simp [State.endProcess, State.postOther, Proc.settled]
  · simp [State.endProcess, State.postOther]
  · exact State.post_queue 9 _ _ _ hp hq
/-- What a trap leaves that is entered at v. -/
theorem State.trap_enters {s : State} {pk : Nat} {x : Trap} {pc v : Word} (hv : (if x.cause = .quiesce then (s.proc pk).r.ctl.ckptv else (s.proc pk).r.ctl.trapv) = v)
    (h0 : v ≠ 0) (hin : (s.proc pk).r.ctl.inh = true → x.cause = .quiesce) :
    let p := s.proc pk
    let c := p.r.ctl
    (s.trap pk x pc).proc pk = { p with
      r := { p.r with ctl := { c with code := x.cause.code, inh := true, nest := c.inh, trappc := vaMask pc, trapinfo := x.info } }
      pc := v, transferred := true, pend := none, batch := none, fifth := none, prog := 0, buf := [], polls := none, base := none, seen := [], walked := none, cur := none, ahead := none } ∧
      (s.trap pk x pc).mem = s.mem ∧ ∀ k, k ≠ pk → (s.trap pk x pc).proc k = s.proc k := by
  rw [State.trap_entered hv h0 hin]
  refine ⟨?_, rfl, fun k hk => ?_⟩
  · rw [State.proc_setProc_same]
    rfl
  · exact State.proc_setProc_other _ _ hk
/-- Settles O59. -/
theorem trapEntry : Obligations.TrapEntry := by
  unfold Obligations.TrapEntry
  refine ⟨fun s pk x pc => ⟨fun hc hin h0 => ?_, fun hc h0 => ?_, fun hc hin => ?_, fun hc hin h0 => ?_, fun hc h0 => ?_⟩, rfl⟩
  · exact State.trap_enters (if_neg hc) h0 (fun h => by simp [hin] at h)
  · exact State.trap_enters (if_pos hc) h0 (fun _ => hc)
  · dsimp only
    rw [State.trap_inside hc hin]
    exact State.endProcess_ends s pk x pc 2
  · dsimp only
    rw [State.trap_unhandled (by rwa [if_neg hc]) (fun h => by simp [hin] at h)]
    exact State.endProcess_ends s pk x pc 1
  · dsimp only
    rw [State.trap_unhandled (by rwa [if_pos hc]) (fun _ => hc)]
    exact State.endProcess_ends s pk x pc 1
end Sys2Proof.Machine
end

section
/-! Proofs about the turn of a process (spec/00_scope.md, Pseudocode; R41, R42, R167, R249). -/
set_option Elab.async false
namespace Sys2Proof.Machine
open Sys2Proof Sys2Proof.Safety

/-- What a turn of a process ends with. -/
def afterTurn (s : State) (pk : Nat) (o : Host.Outcome State Fault Refusal) : Host.Outcome State Fault Refusal :=
  match o with
  | .next t => .next ((t.multiBlock pk).close s.pace)
  | .fault f => .fault f
  | .refused x => .refused x

theorem State.multiGo_none {s : State} {pk : Nat} (h : (s.proc pk).multi = none) : s.multiGo pk = s := by
  unfold State.multiGo
  rw [h]
theorem State.multiBlock_none {s : State} {pk : Nat} (h : (s.proc pk).multi = none) : s.multiBlock pk = s := by
  unfold State.multiBlock
  dsimp only
  rw [h]
theorem State.resident_of_mayRun {s : State} {pk : Nat} (h : s.mayRun pk = true) : s.resident pk = true := by
  simp only [State.mayRun, Bool.and_eq_true] at h
  exact h.1.1.1.2

@[simp] theorem State.keepWord_proc (s : State) (c pa k : Nat) (w : Word32) : (s.keepWord c pa w).proc k = s.proc k := by
  unfold State.keepWord
  split <;> rfl
@[simp] theorem State.keepWord_tileWait (s : State) (c pa k : Nat) (w : Word32) : ((s.keepWord c pa w).core k).tileWait = (s.core k).tileWait := by
  unfold State.keepWord
  split
  · rfl
  · by_cases hk : k = c
    · subst hk
      simp
    · rw [State.modCore, State.core_setCore_other _ _ hk]
@[simp] theorem State.keepWord_entering (s : State) (c pa k : Nat) (w : Word32) : (s.keepWord c pa w).entering k = s.entering k := by
  unfold State.entering
  rw [State.keepWord_tileWait]

/-- A trap leaves the MKCH, ALT or ALTF of its process as it is. -/
@[simp] theorem State.trap_multi (s : State) (pk : Nat) (x : Trap) (pc : Word) : ((s.trap pk x pc).proc pk).multi = (s.proc pk).multi := by
  unfold State.trap
  dsimp only
  repeat' split
  all_goals simp [State.endProcess, State.postOther, Proc.settled]
@[simp] theorem State.count_multi (s : State) (pk : Nat) : ((s.count pk).proc pk).multi = (s.proc pk).multi := by
  simp [State.count]

section turn
variable {s s0 : State} {pk : Nat} {rest : List Move} (hplan : s.plan = .issue pk :: rest) (hfit : pk < 1536 * 256) (hs0 : s0 = { s with plan := rest, turn := pk })
  (hrun : s0.mayRun pk = true) (hmulti : (s0.proc pk).multi = none)
include hplan hfit hs0

/-- A planned turn is the process's turn and what every step ends with. -/
theorem step_issue : step s = (match ({ s with plan := rest } : State).issueTurn pk with
    | .next t => .next (t.close s0.pace)
    | .fault f => .fault f
    | .refused x => .refused x) := by
  subst hs0
  unfold step
  rw [hplan]
  dsimp only
  unfold State.moveOn State.play
  have hf : moveFits (.issue pk) = true := decide_eq_true hfit
  rw [hf]
  rfl
include hrun hmulti
/-- The turn of a process that may run: the trap that pends, the run ahead, the end, or the next word. -/
theorem issueTurn_running : ({ s with plan := rest } : State).issueTurn pk =
    match (s0.proc pk).pend, (s0.proc pk).ahead with
    | some t, _ => .next (s0.enterTrap pk t)
    | none, some a => .next (s0.aheadGo pk a)
    | none, none =>
      if (s0.proc pk).ending ≠ 0 then .next (s0.exitStep pk)
      else match s0.issueNext pk with
        | .next t => .next (t.multiBlock pk)
        | .fault f => .fault f
        | .refused r => .refused r := by
  subst hs0
  unfold State.issueTurn
  dsimp only
  have hgo := State.multiGo_none hmulti
  have hres := State.resident_of_mayRun hrun
  rw [hgo, if_neg (by simpa using hres), if_neg (by simpa using hrun)] <;> rfl
/-- The turn issues a word, from s1. -/
theorem step_issueWord {s1 : State} {w : Word32} (hpend : (s0.proc pk).pend = none) (hahead : (s0.proc pk).ahead = none) (hend : (s0.proc pk).ending = 0)
    (hnext : s0.issueNext pk = s1.issueWord pk w) : step s = afterTurn s0 pk (s1.issueWord pk w) := by
  rw [step_issue hplan hfit hs0, issueTurn_running hplan hfit hs0 hrun hmulti, hpend, hahead]
  dsimp only
  rw [if_neg (by simp [hend]), hnext]
  unfold afterTurn
  cases s1.issueWord pk w <;> rfl
/-- What issuing a word comes to, by what the word is. -/
theorem step_runs {s1 : State} {w : Word32} (hpend : (s0.proc pk).pend = none) (hahead : (s0.proc pk).ahead = none) (hend : (s0.proc pk).ending = 0)
    (hnext : s0.issueNext pk = s1.issueWord pk w) (hproc : s1.proc pk = s0.proc pk) (hent : s1.entering pk = s0.entering pk) :
    (∀ i, (guardOf w.toNat).never = false → decode w = .ok i → step s = (match exec i s1 with
      | .next t => .next (((t.afterWord pk w).multiBlock pk).close s0.pace)
      | .fault f => .fault f
      | .refused x => .refused x)) ∧
    ((guardOf w.toNat).never = true → (s0.proc pk).mayIssue false false = true → s0.entering pk = false →
      step s = .next ((if (s0.proc pk).transferred then (s1.count pk).trap pk ⟨.illegal, w.setWidth 64, 0, 0⟩ (s0.proc pk).pc else s1.setProc pk (s0.proc pk).pass).close s0.pace)) ∧
    (∀ e, (guardOf w.toNat).never = false → decode w = .error e → (s0.proc pk).mayIssue false false = true → s0.entering pk = false →
      step s = .next (((s1.count pk).trap pk ⟨.illegal, w.setWidth 64, 0, 0⟩ (s0.proc pk).pc).close s0.pace)) := by
  have hm1 : (s1.proc pk).multi = none := by rw [hproc, hmulti]
  rw [step_issueWord hplan hfit hs0 hrun hmulti hpend hahead hend hnext]
  unfold State.issueWord
  refine ⟨fun i hn hd => ?_, fun hn hmay he => ?_, fun e hn hd hmay he => ?_⟩
  · rw [if_neg (by simp [hn]), hd]
    dsimp only
    unfold afterTurn
    cases exec i s1 <;> rfl
  · rw [if_pos hn]
    unfold afterTurn State.neverWord
    dsimp only
    rw [hproc, hent, hmay, he, if_neg (by simp)]
    split
    · rw [State.multiBlock_none (by simp [hm1])]
    · rw [State.multiBlock_none (by simpa [Proc.pass, Proc.passTo, Proc.settled] using hmulti)]
  · rw [if_neg (by simp [hn]), hd]
    unfold afterTurn State.illegalWord
    dsimp only
    rw [hproc, hent, hmay, he, if_neg (by simp)]
    rw [State.multiBlock_none (by simp [hm1])]
end turn

/-- The word in hand of a process that has begun one is not fetched again. -/
theorem State.issueNext_begun {s : State} {pk : Nat} {w : Word32} (hb : (s.proc pk).begun = true) (hc : (s.proc pk).cur = some w) : s.issueNext pk = s.issueWord pk w := by
  unfold State.issueNext
  dsimp only
  rw [if_pos hb, hc]
/-- The word at a pc whose page is here: the one that the core holds, or the four bytes. -/
theorem State.fetch_here {s : State} {pk va pa : Nat} {u : Under} (hx : s.xlate (s.ctxOf pk) .x va = .ok pa u) (hp : placeOf (paLocal pa) = .hbm ∨ placeOf (paLocal pa) = .host)
    (hh : s.isHere pa = true) (hm : s.migrating (paLocal pa) = false) (hg : s.hurt (paLocal pa) 4 = false) :
    s.fetch false pk va = .word (match (s.core (coreOf pk)).ibuf.find? (fun e => decide (e.1 = pa)) with
      | some e => e.2
      | none => BitVec.ofNat 32 (s.mem.readN (paLocal pa) 4)) pa := by
  unfold State.fetch
  dsimp only
  rw [if_neg (by simp), hx]
  dsimp only
  have hcore : (s.ctxOf pk).core = coreOf pk := rfl
  rcases hp with hp | hp
  all_goals
    rw [hp, hcore]
    dsimp only
    cases (s.core (coreOf pk)).ibuf.find? (fun e => decide (e.1 = pa)) with
    | some e => rfl
    | none =>
      dsimp only
      rw [hh, hm, hg]
      rfl
/-- A process that has begun no word fetches one. -/
theorem State.issueNext_word {s : State} {pk pa : Nat} {w : Word32} (hb : (s.proc pk).begun = false) (hf : s.fetch false pk (s.proc pk).pc.toNat = .word w pa) :
    s.issueNext pk = (s.keepWord (coreOf pk) pa w).issueWord pk w := by
  unfold State.issueNext
  dsimp only
  rw [if_neg (by simp [hb])]
  dsimp only
  rw [hf]

/-- Settles O55. -/
theorem stepRunsDecoded : Obligations.StepRunsDecoded := by
  unfold Obligations.StepRunsDecoded
  intro s pk rest hplan hfit s0 p hrun hmulti
  have hstep := step_issue hplan hfit (s0 := s0) rfl
  have hturn := issueTurn_running hplan hfit (s0 := s0) rfl hrun hmulti
  refine ⟨fun x hx => ?_, fun hpend => ⟨fun a ha => ?_, fun hahead => ⟨fun hend => ?_, fun hend => ?_⟩⟩⟩
  · rw [hstep, hturn, show (s0.proc pk).pend = some x from hx]
    rfl
  · rw [hstep, hturn, show (s0.proc pk).pend = none from hpend, show (s0.proc pk).ahead = some a from ha]
  · rw [hstep, hturn, show (s0.proc pk).pend = none from hpend, show (s0.proc pk).ahead = none from hahead]
    dsimp only
    rw [if_pos hend]
  · intro runs
    refine ⟨fun w hb hc => ?_, fun pa u hb hx hp hh hm hg => ?_⟩
    · exact step_runs hplan hfit rfl hrun hmulti hpend hahead hend (State.issueNext_begun hb hc) rfl rfl
    · exact step_runs hplan hfit rfl hrun hmulti hpend hahead hend (State.issueNext_word hb (State.fetch_here hx hp hh hm hg))
        (State.keepWord_proc _ _ _ _ _) (State.keepWord_entering _ _ _ _ _)
end Sys2Proof.Machine
end

section
/-! Proofs about the words that ask a home for memory (spec/08_scalar.md, R168 to R170, spec/05_tags.md, R88 to R90, spec/14_atomics_fences.md, R238 to
R245, spec/10_vector.md, R190 to R192, spec/15_causeway.md, R262). -/
set_option Elab.async false
namespace Sys2Proof.Machine
open Sys2Proof Sys2Proof.Safety

/-! ## Addresses -/

theorem eaSigned_eq {n : Nat} (a : Word) (d : BitVec n) (z : Nat) : eaSigned a d z = a + BitVec.ofInt 64 (d.toInt * z) := by
  have h : (BitVec.ofInt 64 (z : Int)) = BitVec.ofNat 64 z := BitVec.ofInt_natCast 64 z
  rw [eaSigned, BitVec.ofInt_mul, h]
  rfl
theorem eaUnsigned_eq {n : Nat} (a : Word) (d : BitVec n) (z : Nat) : eaUnsigned a d z = a + BitVec.ofNat 64 (d.toNat * z) := by
  rw [eaUnsigned, BitVec.ofNat_mul, BitVec.ofNat_toNat]

/-! ## A request on its way -/

/-- The request has left, and its number is taken. -/
def State.asking (s : State) (pk : Nat) (rop : ROp) (va : Word) (pa : Nat) (u : Under) (limit : Nat) : State :=
  ({ s with nextId := s.nextId + 1 } : State).request pk s.nextId rop va pa u limit
theorem State.asking_procs (s : State) (pk : Nat) (rop : ROp) (va : Word) (pa : Nat) (u : Under) (limit : Nat) :
    (s.asking pk rop va pa u limit).procs = s.procs := by
  unfold State.asking State.request State.route State.routeFor
  dsimp only
  split
  · rfl
  · split <;> rfl
theorem State.asking_cores (s : State) (pk : Nat) (rop : ROp) (va : Word) (pa : Nat) (u : Under) (limit : Nat) :
    (s.asking pk rop va pa u limit).cores = s.cores := by
  unfold State.asking State.request State.route State.routeFor
  dsimp only
  split
  · rfl
  · split <;> rfl
@[simp] theorem State.asking_mem (s : State) (pk : Nat) (rop : ROp) (va : Word) (pa : Nat) (u : Under) (limit : Nat) :
    (s.asking pk rop va pa u limit).mem = s.mem := by
  unfold State.asking State.request State.route State.routeFor
  dsimp only
  split
  · rfl
  · split <;> rfl
@[simp] theorem State.asking_proc (s : State) (pk k : Nat) (rop : ROp) (va : Word) (pa : Nat) (u : Under) (limit : Nat) :
    (s.asking pk rop va pa u limit).proc k = s.proc k := by
  unfold State.proc
  rw [State.asking_procs]
@[simp] theorem State.asking_core (s : State) (pk k : Nat) (rop : ROp) (va : Word) (pa : Nat) (u : Under) (limit : Nat) :
    (s.asking pk rop va pa u limit).core k = s.core k := by
  unfold State.core
  rw [State.asking_cores]
/-- What has left is the request that `asks` speaks of. -/
theorem State.asks_asking (s : State) (pk : Nat) (rop : ROp) (va : Word) (pa : Nat) (u : Under) (limit : Nat) :
    asks s (s.asking pk rop va pa u limit) pk s.nextId rop va pa := by
  refine ⟨({ s with nextId := s.nextId + 1 } : State).mkReq pk s.nextId rop va (s.homeOf pa) u limit, rfl, rfl, rfl, rfl, rfl, ?_⟩
  have hask : s.asking pk rop va pa u limit = ({ s with nextId := s.nextId + 1 } : State).route (.core (coreOf pk)) (coreOf pk) pk (s.proc pk).asid
      (s.askey.get 0 (s.proc pk).asid) (s.homeOf pa) (.req (({ s with nextId := s.nextId + 1 } : State).mkReq pk s.nextId rop va (s.homeOf pa) u limit)) := rfl
  rw [hask]
  unfold State.route State.routeFor
  generalize s.homeOf pa = h
  cases h with
  | remote m => exact ⟨rfl, _, rfl, rfl, rfl, rfl⟩
  | _ =>
    dsimp only
    split
    · next hg => exact ⟨rfl, _, congrArg (fun c => s.net ++ [Msg.mk _ _ _ _ c _]) (if_pos hg).symm⟩
    · next hg => exact ⟨rfl, _, congrArg (fun c => s.net ++ [Msg.mk _ _ _ _ c _]) (if_neg hg).symm⟩
/-- `asks` looks at the net and the ports alone. -/
theorem asks_congr {s t t' : State} {pk op : Nat} {rop : ROp} {va : Word} {pa : Nat} (h : asks s t pk op rop va pa) (hn : t'.net = t.net) (ho : t'.outbox = t.outbox) :
    asks s t' pk op rop va pa := by
  unfold asks at h ⊢
  rw [hn, ho]
  exact h

/-- The state after a request of the process has left and the process is as f makes it. -/
theorem asks_modProc (s : State) (pk : Nat) (rop : ROp) (va : Word) (pa : Nat) (u : Under) (limit : Nat) (f : Proc → Proc) :
    let t := (s.asking pk rop va pa u limit).modProc pk f
    asks s t pk s.nextId rop va pa ∧ t.mem = s.mem ∧ t.proc pk = f (s.proc pk) :=
  ⟨asks_congr (s.asks_asking pk rop va pa u limit) rfl rfl, by simp, by simp⟩

/-! ## Loads (R88, R168, R190, R244) -/

theorem State.translated_ok {s : State} {pk : Nat} {a : Access} {va pa : Nat} {u : Under} (h : s.xlate (s.ctxOf pk) a va = .ok pa u) (cls : Nat)
    (body : Nat → Under → State → State) : s.translated pk a cls va body = body pa u s := by
  unfold State.translated
  dsimp only
  rw [h]
/-- A load past its checks: up to the request or the travel packet. -/
theorem loadBody_sends {f : LoadForm} {check : Bool → Nat → Option Cause} {ea : Word} {s : State} {pa : Nat} {u : Under} (hz : ea.toNat % f.size = 0)
    (hr : Reaches s .rd ea pa u) (hc : check (s.proc s.turn).priv pa = none) :
    loadBody f check ea s.turn s =
      let p := s.proc s.turn
      let moves := f.mayTravel && s.travels s.turn pa
      let s1 := { s with nextId := s.nextId + 1 }
      let s2 :=
        if moves then
          let t : Travel := ⟨s.originWord s.turn, s.nextId, wordModule (s.originWord s.turn), s.modid, p.pc, p.prio, p.need, p.asid, (s.rootOf (s.ctxOf s.turn)).getD 0, p.wev, p.task,
            p.r, p.unacked.map (fun u => { u with op := carryOp s.modid u.op }), s.leftOpen s.turn,
            s1.carriedStreams (s.originWord s.turn) (paModule pa), pa⟩
          s1.sendAway (coreOf s.turn) (s.originWord s.turn) (paModule pa) p.asid (s.askey.get 0 p.asid) (.travel t)
        else s.asking s.turn (.load pa f.size f.ldx f.sync) ea pa u (if f.ldx || f.sync then s.limitFor s.turn pa else 0)
      s2.modProc s.turn (fun p =>
        let q := p.open_ s.nextId (if moves then 0 else f.l) false (if f.ldx || f.sync then .sync else .load) f.dest ea f.acquire f.writes (some (s.homeOf pa))
        if f.dirties then { q with r := { q.r with flags := q.r.flags &&& ~~~ fVCLEAN } } else q) := by
  unfold loadBody
  rw [if_neg (by simp [hz]), State.translated_ok hr.translates]
  dsimp only
  rw [hc]
  dsimp only
  rw [hr.runs, hr.free]
  rfl
/-- A load that does not move its process sends its request and opens its window. -/
theorem loadBody_asks {f : LoadForm} {check : Bool → Nat → Option Cause} {ea : Word} {s : State} {pa : Nat} {u : Under} (hz : ea.toNat % f.size = 0)
    (hr : Reaches s .rd ea pa u) (hc : check (s.proc s.turn).priv pa = none) (hm : (f.mayTravel && s.travels s.turn pa) = false) :
    let t := loadBody f check ea s.turn s
    asks s t s.turn s.nextId (.load pa f.size f.ldx f.sync) ea pa ∧ t.mem = s.mem ∧
      t.proc s.turn =
        let q := (s.proc s.turn).open_ s.nextId f.l false (if f.ldx || f.sync then .sync else .load) f.dest ea f.acquire f.writes (some (s.homeOf pa))
        if f.dirties then { q with r := { q.r with flags := q.r.flags &&& ~~~ fVCLEAN } } else q := by
  rw [loadBody_sends hz hr hc]
  dsimp only
  rw [hm]
  exact asks_modProc _ _ _ _ _ _ _ _
/-- A load that moves its process sends it away in a travel packet. -/
theorem loadBody_travels {f : LoadForm} {check : Bool → Nat → Option Cause} {ea : Word} {s : State} {pa : Nat} {u : Under} (hz : ea.toNat % f.size = 0)
    (hr : Reaches s .rd ea pa u) (hc : check (s.proc s.turn).priv pa = none) (hm : (f.mayTravel && s.travels s.turn pa) = true) :
    ∃ x r, (loadBody f check ea s.turn s).net = s.net ∧ (loadBody f check ea s.turn s).outbox = s.outbox ++ [x] ∧ x.target = paModule pa ∧ x.body = .travel r ∧
      r.pc = (s.proc s.turn).pc ∧ r.r = (s.proc s.turn).r ∧ r.pa = pa ∧ r.who = s.originWord s.turn ∧ r.op = s.nextId := by
  rw [loadBody_sends hz hr hc]
  dsimp only
  rw [hm]
  exact ⟨_, _, rfl, rfl, rfl, rfl, rfl, rfl, rfl, rfl, rfl⟩

/-! ### The plain loads -/

/-- The form of a plain load. -/
def plainForm (o : LD) (z : Nat) (sgn : Bool) : LoadForm := { size := z, l := o.l.toNat, dest := .g o.d z sgn, writes := [(0, o.d.toNat)], cls := 0, acquire := 0 }
/-- The form of a synchronising load. -/
def syncForm (o : LD) (ldx : Bool) : LoadForm :=
  { size := 8, l := o.l.toNat, dest := .g o.d 8 false, writes := [(0, o.d.toNat)], cls := 3, acquire := 3, ldx := ldx, sync := true }
/-- The form of LDA. -/
def ldaForm (o : LA) : LoadForm :=
  { size := 8, l := o.l.toNat, dest := .g o.d 8 false, writes := [(0, o.d.toNat)], cls := 6, acquire := ldaLevel o.scope }
/-- The form of VLD, with the bytes that it writes. -/
def vldForm (o : VL) (bytes : BitVec 128) : LoadForm :=
  { size := 128, l := o.l.toNat, dest := .v o.vd bytes, writes := [(1, o.vd.toNat)], cls := 5, acquire := 0, mayTravel := false, dirties := true }

theorem plainLoad_clear {w z : Nat} {o : LD} {sgn : Bool} {s : State} {ea : Word} (hea : ea = (s.proc s.turn).r.getG o.a + BitVec.ofInt 64 (o.disp.toInt * z))
    (h : Clear { infoLD o 0 with ext := s.toMmio s.turn ea } s) :
    plainLoad w o z sgn s = .next (loadBody (plainForm o z sgn) (fun priv pa => loadCheck priv pa z) ea s.turn s) := by
  rw [← eaSigned_eq] at hea
  subst hea
  exact issue_clear (clear_withWord h w) _
theorem syncLoad_clear {w : Nat} {o : LD} {ldx : Bool} {s : State} {ea : Word} (hea : ea = (s.proc s.turn).r.getG o.a + BitVec.ofInt 64 (o.disp.toInt * (8 : Nat)))
    (h : Clear { infoLD o 0 with ext := true } s) :
    syncLoad w o ldx s = .next (loadBody (syncForm o ldx) (fun _ pa => syncCheck false pa) ea s.turn s) := by
  rw [← eaSigned_eq] at hea
  subst hea
  exact issue_clear (clear_withWord h w) _
theorem execLda_clear {o : LA} {s : State} {ea : Word} (hea : ea = (s.proc s.turn).r.getG o.a + BitVec.ofNat 64 (o.disp.toNat * 8)) (h : Clear (infoLA o 0) s) :
    execLda o s = .next (loadBody (ldaForm o) (fun priv pa => ldaCheck priv pa) ea s.turn s) := by
  rw [← eaUnsigned_eq] at hea
  subst hea
  exact issue_clear (clear_withWord h (packLA 0x22 o)) _
/-- The bytes that a VLD writes: those that its mask selects, spread over the lanes of a window that converts, once the address is translated. -/
def State.vldMask (s : State) (o : VL) (ea : Word) : BitVec 128 :=
  match s.xlate (s.ctxOf s.turn) .rd ea.toNat with
  | .ok pa _ => vldBytes pa ((s.proc s.turn).r.getQ o.q)
  | _ => (s.proc s.turn).r.getQ o.q
theorem execVld_clear {o : VL} {s : State} {ea : Word} (hea : ea = (s.proc s.turn).r.getG o.a + BitVec.ofInt 64 (o.disp.toInt * (128 : Nat)))
    (h : Clear { infoVL o 0 with ext := s.toMmio s.turn ea } s) :
    execVld o s = .next (loadBody (vldForm o (s.vldMask o ea)) (fun priv pa => loadCheck priv pa 128) ea s.turn s) := by
  rw [← eaSigned_eq] at hea
  subst hea
  have hw : Clear { infoVL o (packVL 0x38 o) with ext := s.toMmio s.turn (eaSigned ((s.proc s.turn).r.getG o.a) o.disp 128) } s := clear_withWord h _
  unfold execVld
  dsimp only
  exact (issue_clear hw _).trans rfl

/-- Settles O11: the body of a plain load is a load of its form. -/
theorem plainLoadsAsk : Obligations.PlainLoadsAsk := by
  unfold Obligations.PlainLoadsAsk
  intro o s pa u p load
  have go (i : Instr) (w z : Nat) (sgn : Bool) (hi : exec i s = plainLoad w o z sgn s) : load i z sgn := by
    intro hcl hz hr hc ht
    exact ⟨_, hi.trans (plainLoad_clear rfl hcl), loadBody_asks (f := plainForm o z sgn) hz hr hc ht⟩
  exact ⟨go _ _ _ _ rfl, go _ _ _ _ rfl, go _ _ _ _ rfl, go _ _ _ _ rfl, go _ _ _ _ rfl, go _ _ _ _ rfl, go _ _ _ _ rfl⟩
/-- Settles O12. -/
theorem synchronisingLoadsAsk : Obligations.SynchronisingLoadsAsk := by
  unfold Obligations.SynchronisingLoadsAsk
  refine ⟨?_, ?_⟩
  all_goals intro o s pa u p ea hcl hz hr hc ht
  refine ⟨?_, ?_⟩
  · exact ⟨_, syncLoad_clear (w := packLD 0x1E o) (ldx := true) rfl hcl, loadBody_asks (f := syncForm o true) hz hr hc ht⟩
  · exact ⟨_, syncLoad_clear (w := packLD 0x1F o) (ldx := false) rfl hcl, loadBody_asks (f := syncForm o false) hz hr hc ht⟩
  · obtain ⟨ha, hm, hp⟩ := loadBody_asks (f := ldaForm o) (check := fun priv pa => ldaCheck priv pa) hz hr hc ht
    refine ⟨_, execLda_clear rfl hcl, ha, hm, hp.trans ?_⟩
    cases hs : o.scope <;> simp [ldaForm, ldaLevel, hs] <;> rfl
/-- Settles O13. -/
theorem remoteLoadTravels : Obligations.RemoteLoadTravels := by
  unfold Obligations.RemoteLoadTravels
  intro s pa u p moves
  have go (i : Instr) (w : Issue) (z : Nat) (ea : Word) (f : LoadForm) (check : Bool → Nat → Option Cause) (hz : f.size = z) (hm : f.mayTravel = true)
      (hi : Clear w s → exec i s = .next (loadBody f check ea s.turn s)) : moves i w z ea (check p.priv pa) := by
    intro hcl hal hr hc ht
    subst hz
    obtain ⟨x, r, hx⟩ := loadBody_travels (f := f) hal hr hc (by rw [hm, ht]; rfl)
    exact ⟨_, x, r, hi hcl, hx⟩
  refine ⟨fun o => ?_, fun o => go _ _ _ _ (ldaForm o) (fun priv pa => ldaCheck priv pa) rfl rfl (execLda_clear rfl)⟩
  have plain (i : Instr) (w z : Nat) (sgn : Bool) (hi : exec i s = plainLoad w o z sgn s) :
      moves i { infoLD o 0 with ext := s.toMmio s.turn (p.r.getG o.a + BitVec.ofInt 64 (o.disp.toInt * z)) } z
        (p.r.getG o.a + BitVec.ofInt 64 (o.disp.toInt * z)) (loadCheck p.priv pa z) :=
    go _ _ _ _ (plainForm o z sgn) (fun priv pa => loadCheck priv pa z) rfl rfl fun hcl => hi.trans (plainLoad_clear rfl hcl)
  exact ⟨plain _ _ _ _ rfl, plain _ _ _ _ rfl, plain _ _ _ _ rfl, plain _ _ _ _ rfl, plain _ _ _ _ rfl, plain _ _ _ _ rfl, plain _ _ _ _ rfl,
    go _ _ _ _ (syncForm o true) (fun _ pa => syncCheck false pa) rfl rfl (syncLoad_clear rfl),
    go _ _ _ _ (syncForm o false) (fun _ pa => syncCheck false pa) rfl rfl (syncLoad_clear rfl)⟩

/-! ## Stores (R88, R169, R170, R190, R245) -/

/-- A store past its checks sends its request, and is counted. -/
theorem storeSend_sends {ea : Word} {pa n : Nat} {u : Under} {ws : List (Nat × Byte × Byte)} {fl : Flags} {stl : Bool} {s : State} (hr : Reaches s .wr ea pa u)
    (hf : (s.proc s.turn).storesFull = false) :
    storeSend s.turn ea pa n u ws fl stl s = (s.asking s.turn (.store pa n ws false stl) ea pa u 0).modProc s.turn
      (fun p => { (p.pass.sent s.nextId (s.homeOf pa) false pa) with r := p.r.orFlags fl }) := by
  unfold storeSend
  dsimp only
  rw [hr.runs, hr.free, hf]
  rfl
theorem storeSend_asks {ea : Word} {pa n : Nat} {u : Under} {ws : List (Nat × Byte × Byte)} {fl : Flags} {stl : Bool} {s : State} (hr : Reaches s .wr ea pa u)
    (hf : (s.proc s.turn).storesFull = false) :
    let t := storeSend s.turn ea pa n u ws fl stl s
    asks s t s.turn s.nextId (.store pa n ws false stl) ea pa ∧ t.mem = s.mem ∧
      t.proc s.turn = { (s.proc s.turn).pass with r := (s.proc s.turn).r.orFlags fl, unacked := (s.proc s.turn).unacked ++ [⟨s.nextId, s.homeOf pa, false, pa⟩] } := by
  rw [storeSend_sends hr hf]
  exact asks_modProc _ _ _ _ _ _ _ _

/-- What a plain store does at the address ea. -/
theorem plainStore_clear {w z : Nat} {o : ST} {s : State} {ea : Word} (hea : ea = (s.proc s.turn).r.getG o.a + BitVec.ofInt 64 (o.disp.toInt * z))
    (h : Clear (infoST o 0) s) :
    plainStore w o z s = .next (storeBody ea z (((s.proc s.turn).r.getG o.s).toNat % 2 ^ (8 * z)) s.turn s) := by
  rw [← eaSigned_eq] at hea
  subst hea
  exact issue_clear (clear_withWord h w) _
theorem storeBody_asks {ea : Word} {z x pa : Nat} {u : Under} {s : State} (hz : ea.toNat % z = 0) (hr : Reaches s .wr ea pa u) (hc : storeCheck false pa z = none)
    (hf : (s.proc s.turn).storesFull = false) :
    let f := storeForm (paLocal pa) z x
    let t := storeBody ea z x s.turn s
    asks s t s.turn s.nextId (.store pa z f.1 false false) ea pa ∧ t.mem = s.mem ∧
      t.proc s.turn = { (s.proc s.turn).pass with r := (s.proc s.turn).r.orFlags f.2, unacked := (s.proc s.turn).unacked ++ [⟨s.nextId, s.homeOf pa, false, pa⟩] } := by
  unfold storeBody
  rw [if_neg (by simp [hz]), State.translated_ok hr.translates]
  dsimp only
  rw [hc]
  exact storeSend_asks hr hf

/-- What STL does at the address ea (R245). -/
def stlBody (o : SL) (ea : Word) (pk : Nat) (s : State) : State :=
  if ea.toNat % 8 ≠ 0 then s.raise pk ⟨.misalign, ea, 0, 0⟩
  else s.translated pk .wr 6 ea.toNat (fun pa u s1 =>
    match stlCheck pa with
    | some c => s1.raise pk ⟨c, ea, 0, 0⟩
    | none =>
      if !(s1.proc pk).clearScope (coreOf pk) (scopeLevel o.scope) then s1
      else storeSend pk ea pa 8 u (storeWrites (paLocal pa) 8 ((s.proc pk).r.getG o.s).toNat) 0 (decide (o.scope = .auto)) s1)
theorem execStl_clear {o : SL} {s : State} {ea : Word} (hea : ea = (s.proc s.turn).r.getG o.a + BitVec.ofNat 64 (o.disp.toNat * 8)) (h : Clear (infoSL o 0) s) :
    execStl o s = .next (stlBody o ea s.turn s) := by
  rw [← eaUnsigned_eq] at hea
  subst hea
  exact issue_clear (clear_withWord h (packSL 0x23 o)) _
/-- What STX does at the address ea (R88, R90). -/
def stxBody (o : ST) (ea : Word) (pk : Nat) (s : State) : State :=
  if ea.toNat % 8 ≠ 0 then s.raise pk ⟨.misalign, ea, 0, 0⟩
  else s.translated pk .wr 3 ea.toNat (fun pa u s1 =>
    match syncCheck true pa with
    | some c => s1.raise pk ⟨c, ea, 0, 0⟩
    | none =>
      let p := s1.proc pk
      let h := s1.homeOf pa
      if s1.awayWait pk h then s1.awayBlock pk h
      else if p.acquires (coreOf pk) h || !p.clearHere then s1
      else (s1.asking pk (.store pa 8 (storeWrites (paLocal pa) 8 ((s.proc pk).r.getG o.s).toNat) true false) ea pa u (s1.limitFor pk pa)).modProc pk
        (fun p => p.open_ s1.nextId 0 false .sync .none ea 0 [] (some h)))
theorem execStx_clear {o : ST} {s : State} {ea : Word} (hea : ea = (s.proc s.turn).r.getG o.a + BitVec.ofInt 64 (o.disp.toInt * (8 : Nat))) (h : Clear (infoST o 0) s) :
    execStx o s = .next (stxBody o ea s.turn s) := by
  rw [← eaSigned_eq] at hea
  subst hea
  exact issue_clear (clear_withWord h (packST 0x20 o)) _
/-- What VST does at the address ea (R190 to R192). -/
def vstBody (o : VS) (ea : Word) (pk : Nat) (s : State) : State :=
  if ea.toNat % 128 ≠ 0 then s.raise pk ⟨.misalign, ea, 0, 0⟩
  else s.translated pk .wr 5 ea.toNat (fun pa u s1 =>
    match storeCheck true pa 128 with
    | some c => s1.raise pk ⟨c, ea, 0, 0⟩
    | none =>
      let f := vstForm (paLocal pa) ((s.proc pk).r.getV o.vs) ((s.proc pk).r.getQ o.q) o.rm
      storeSend pk ea pa 128 u f.1 f.2 false s1)
theorem execVst_clear {o : VS} {s : State} {ea : Word} (hea : ea = (s.proc s.turn).r.getG o.a + BitVec.ofInt 64 (o.disp.toInt * (128 : Nat))) (h : Clear (infoVS o 0) s) :
    execVst o s = .next (vstBody o ea s.turn s) := by
  rw [← eaSigned_eq] at hea
  subst hea
  exact issue_clear (clear_withWord h (packVS 0x39 o)) _

/-- Settles O14. -/
theorem storesAsk : Obligations.StoresAsk := by
  unfold Obligations.StoresAsk
  refine ⟨⟨?plain, ?stl⟩, ?stx⟩
  case plain =>
    intro o s pa u p store
    have go (i : Instr) (w z : Nat) (hi : exec i s = plainStore w o z s) : store i z := by
      intro hcl hz hr hc hf
      exact ⟨_, hi.trans (plainStore_clear rfl hcl), storeBody_asks hz hr hc hf⟩
    exact ⟨go _ _ _ rfl, go _ _ _ rfl, go _ _ _ rfl, go _ _ _ rfl⟩
  case stl =>
    intro o s pa u p ea hcl hz hr hc hf hun
    refine ⟨_, execStl_clear (ea := ea) rfl hcl, ?_⟩
    have hscope : p.clearScope (coreOf s.turn) (scopeLevel o.scope) = true := by
      simp only [Proc.clearScope, List.all_eq_true]
      exact fun x hx => by rw [hun x hx]; rfl
    unfold stlBody
    rw [if_neg (by exact fun h => h hz), State.translated_ok hr.translates]
    dsimp only
    rw [hc]
    dsimp only
    rw [if_neg (by simpa using hscope)]
    obtain ⟨ha, hm, hp⟩ := storeSend_asks (n := 8) (ws := storeWrites (paLocal pa) 8 (p.r.getG o.s).toNat) (fl := 0) (stl := decide (o.scope = .auto)) hr hf
    rw [orFlags_zero] at hp
    exact ⟨ha, hm, hp⟩
  case stx =>
    intro o s pa u p ea hcl hz hr hc hun
    refine ⟨_, execStx_clear (ea := ea) rfl hcl, ?_⟩
    have hclear : (s.proc s.turn).clearHere = true := by
      simp only [Proc.clearHere, List.all_eq_true]
      intro x hx
      obtain ⟨m, hm⟩ := hun x hx
      rw [hm]
    unfold stxBody
    rw [if_neg (by exact fun h => h hz), State.translated_ok hr.translates]
    dsimp only
    rw [hc]
    dsimp only
    simp only [hr.runs, hr.free, hclear, Bool.false_eq_true, if_false, Bool.not_true, Bool.or_self]
    exact asks_modProc _ _ _ _ _ _ _ _
/-- Settles O15. -/
theorem vectorMemoryAsks : Obligations.VectorMemoryAsks := by
  unfold Obligations.VectorMemoryAsks
  refine ⟨?_, ?_⟩
  · intro o s pa u p ea q hcl hz hr hc
    refine ⟨_, execVld_clear (ea := ea) rfl hcl, ?_⟩
    have hmask : s.vldMask o ea = vldBytes pa (p.r.getQ o.q) := by
      unfold State.vldMask
      rw [hr.translates]
    obtain ⟨ha, hm, hp⟩ := loadBody_asks (f := vldForm o (s.vldMask o ea)) (check := fun priv pa => loadCheck priv pa 128) hz hr hc rfl
    exact ⟨ha, hm, hp.trans (by rw [hmask]; rfl)⟩
  · intro o s pa u p ea f hcl hz hr hc hf
    refine ⟨_, execVst_clear (ea := ea) rfl hcl, ?_⟩
    unfold vstBody
    rw [if_neg (by exact fun h => h hz), State.translated_ok hr.translates]
    dsimp only
    rw [hc]
    exact storeSend_asks hr hf

/-! ## Atomics (R238, R239, R243) -/

/-- What an AMO does at its address. -/
def amoBody (o : RRR) (f : Nat) (pk : Nat) (s : State) : State :=
  let r := (s.proc pk).r
  let ea := r.getG o.a
  if ea.toNat % 8 ≠ 0 then s.raise pk ⟨.misalign, ea, 0, 0⟩
  else s.translated pk .rw 4 ea.toNat (fun pa u s =>
    match amoCheck f pa with
    | some c => s.raise pk ⟨c, ea, 0, 0⟩
    | none =>
      let p := s.proc pk
      let h := s.homeOf pa
      let noReturn := decide (o.d = 0 ∧ f < 8)
      let me := coreOf pk
      let m := paModule pa
      if s.awayWait pk h then s.awayBlock pk h
      else if p.acquires me h then s
      else if noReturn && p.storesFull then s.setProc pk p.awaitStore
      else if !s.isHere pa && decide (64 ≤ ((s.core me).amoOut.filter (fun x => decide (x.1 = m))).length) then s
      else
        let s1 := s.asking pk (.amo pa f (r.getG o.b) (r.nextG o.b) (!noReturn)) ea pa u 0
        let s2 := if s.isHere pa then s1
          else s1.modCore me (fun k => { k with
            amoSeq := k.amoSeq.set m ((k.amoSeq.get 0 m + 1) % 2 ^ 16)
            amoOut := k.amoOut ++ [(m, s.nextId, k.amoSeq.get 0 m)] })
        s2.modProc pk (fun p => if noReturn then p.pass.sent s.nextId h true pa else p.open_ s.nextId 0 false .amo (.g o.d 8 false) ea 0 [(0, o.d.toNat)] (some h)))
/-- What an AMO names: AMOCAS the register after b too (R238). -/
def amoInfo (o : RRR) (f w : Nat) : Issue :=
  let base := infoRRR o w
  if f = 9 then { base with gs := base.gs ++ [o.b.toNat + 1], reads := base.reads ++ [(0, o.b.toNat + 1)] } else base
theorem amoWord_clear {w f : Nat} {o : RRR} {s : State} (h : Clear { amoInfo o f 0 with ext := true } s) : amoWord w o f s = .next (amoBody o f s.turn s) := by
  have hw : Clear { amoInfo o f w with ext := true } s := by
    refine cast ?_ (clear_withWord h w)
    unfold amoInfo
    split <;> rfl
  unfold amoWord
  exact (issue_clear hw _).trans rfl
/-- An AMO past its checks. -/
theorem amoBody_asks {f pa : Nat} {u : Under} {o : RRR} {s : State} (hz : ((s.proc s.turn).r.getG o.a).toNat % 8 = 0)
    (hr : Reaches s .rw ((s.proc s.turn).r.getG o.a) pa u) (hc : amoCheck f pa = none) (hf : decide (o.d = 0 ∧ f < 8) = true → (s.proc s.turn).storesFull = false)
    (hn : s.isHere pa = false → ((s.core (coreOf s.turn)).amoOut.filter (fun x => decide (x.1 = paModule pa))).length < 64) :
    let p := s.proc s.turn
    let noReturn := decide (o.d = 0 ∧ f < 8)
    let t := amoBody o f s.turn s
    asks s t s.turn s.nextId (.amo pa f (p.r.getG o.b) (p.r.nextG o.b) (!noReturn)) (p.r.getG o.a) pa ∧ t.mem = s.mem ∧
      (t.core (coreOf s.turn)).amoOut = (s.core (coreOf s.turn)).amoOut ++
        (if s.isHere pa then [] else [(paModule pa, s.nextId, (s.core (coreOf s.turn)).amoSeq.get 0 (paModule pa))]) ∧
      t.proc s.turn = if noReturn then { p.pass with unacked := p.unacked ++ [⟨s.nextId, s.homeOf pa, true, pa⟩] }
        else p.open_ s.nextId 0 false .amo (.g o.d 8 false) (p.r.getG o.a) 0 [(0, o.d.toNat)] (some (s.homeOf pa)) := by
  have hfull : (decide (o.d = 0 ∧ f < 8) && (s.proc s.turn).storesFull) = false := by
    cases hd : decide (o.d = 0 ∧ f < 8)
    · rfl
    · exact hf hd
  have hmany : (!s.isHere pa && decide (64 ≤ ((s.core (coreOf s.turn)).amoOut.filter (fun x => decide (x.1 = paModule pa))).length)) = false := by
    cases hh : s.isHere pa
    · simpa using hn hh
    · rfl
  unfold amoBody
  dsimp only
  rw [if_neg (fun h => h hz), State.translated_ok hr.translates, hc]
  dsimp only
  rw [hr.runs, hr.free, hfull, hmany]
  simp only [Bool.false_eq_true, if_false]
  cases hh : s.isHere pa with
  | true =>
    simp only [if_true, List.append_nil]
    refine ⟨asks_congr (s.asks_asking _ _ _ _ u 0) rfl rfl, by simp, by simp, ?_⟩
    rw [State.modProc, State.proc_setProc_same, State.asking_proc]
    rfl
  | false =>
    simp only [Bool.false_eq_true, if_false]
    refine ⟨asks_congr (s.asks_asking _ _ _ _ u 0) rfl rfl, by simp, by simp, ?_⟩
    rw [State.modProc, State.proc_setProc_same, State.proc_modCore, State.asking_proc]
    rfl

/-- Settles O17. -/
theorem atomicsAsk : Obligations.AtomicsAsk := by
  unfold Obligations.AtomicsAsk
  intro o s pa u p ea amo w
  have go (i : Instr) (w0 f : Nat) (w : Issue) (hw : amoInfo o f 0 = w) (hi : exec i s = amoWord w0 o f s) : amo i f w := by
    intro hcl hz hr hc hf hn
    subst hw
    exact ⟨_, hi.trans (amoWord_clear hcl), amoBody_asks hz hr hc hf hn⟩
  exact ⟨go _ _ _ _ rfl rfl, go _ _ _ _ rfl rfl, go _ _ _ _ rfl rfl, go _ _ _ _ rfl rfl, go _ _ _ _ rfl rfl, go _ _ _ _ rfl rfl, go _ _ _ _ rfl rfl,
    go _ _ _ _ rfl rfl, go _ _ _ _ rfl rfl, go _ _ _ _ rfl rfl⟩
end Sys2Proof.Machine
end

section
/-! Proofs about where an access traps (R56 to R58, R65, R88, R94, R168, R169, R190, R238, R244, R245, R305). -/
set_option Elab.async false
namespace Sys2Proof.Machine
open Sys2Proof Sys2Proof.Safety

/-! ## Traps that a word raises -/

theorem State.raise_trap {s : State} {pk : Nat} {x : Trap} (h : x.cause ≠ .page ∨ (s.proc pk).priv = true) : s.raise pk x = (s.count pk).trap pk x (s.proc pk).pc := by
  unfold State.raise
  refine if_neg fun hp => ?_
  rcases h with h | h
  · exact h hp.1
  · simp [h] at hp
theorem State.raise_page {s : State} {pk : Nat} {x : Trap} (hc : x.cause = .page) (hp : (s.proc pk).priv = false) :
    s.raise pk x = s.setProc pk { (s.proc pk).settled with pend := some x } := if_pos ⟨hc, hp⟩
theorem State.translated_fail {s : State} {pk : Nat} {a : Access} {va l : Nat} {c : Cause} (h : s.xlate (s.ctxOf pk) a va = .fail c l) (cls : Nat)
    (body : Nat → Under → State → State) : s.translated pk a cls va body = s.raise pk (xlateTrap c l cls va) := by
  unfold State.translated
  dsimp only
  rw [h]

/-- Where an access traps that is checked for its alignment, then translated, then checked for its address. -/
theorem access_traps {i : Instr} {s t : State} {z cls : Nat} {a : Access} {ea : Word} {check : Nat → Option Cause} {body : Nat → Under → State → State}
    (hexec : exec i s = .next t) (hmis : ea.toNat % z ≠ 0 → t = s.raise s.turn ⟨.misalign, ea, 0, 0⟩)
    (hok : ea.toNat % z = 0 → t = s.translated s.turn a cls ea.toNat body) (hcheck : ∀ pa u c, check pa = some c → body pa u s = s.raise s.turn ⟨c, ea, 0, 0⟩)
    (hnot : ∀ pa, check pa ≠ some .page) :
    let p := s.proc s.turn
    let trapped (x : Trap) : Prop := exec i s = .next ((s.count s.turn).trap s.turn x p.pc)
    (ea.toNat % z ≠ 0 → trapped ⟨.misalign, ea, 0, 0⟩) ∧
    (ea.toNat % z = 0 →
      (∀ c l, s.xlate (s.ctxOf s.turn) a ea.toNat = .fail c l → (c ≠ .page ∨ p.priv = true) → trapped ⟨c, ea, cls, l⟩) ∧
      (∀ l, s.xlate (s.ctxOf s.turn) a ea.toNat = .fail .page l → p.priv = false →
        exec i s = .next (s.setProc s.turn { p.settled with pend := some ⟨.page, ea, cls, l⟩ })) ∧
      (∀ pa u c, s.xlate (s.ctxOf s.turn) a ea.toNat = .ok pa u → check pa = some c → trapped ⟨c, ea, 0, 0⟩)) := by
  have hva : BitVec.ofNat 64 ea.toNat = ea := by simp
  intro p trapped
  refine ⟨fun h => ?_, fun hz => ⟨fun c l hx hc => ?_, fun l hx hp => ?_, fun pa u c hx hc => ?_⟩⟩
  · exact hexec.trans (congrArg _ ((hmis h).trans (State.raise_trap (.inl nofun))))
  · refine hexec.trans (congrArg _ (((hok hz).trans (State.translated_fail hx _ _)).trans ?_))
    rw [xlateTrap, hva]
    exact State.raise_trap hc
  · refine hexec.trans (congrArg _ (((hok hz).trans (State.translated_fail hx _ _)).trans ?_))
    rw [xlateTrap, hva]
    exact State.raise_page rfl hp
  · refine hexec.trans (congrArg _ (((hok hz).trans (State.translated_ok hx _ _)).trans ?_))
    exact (hcheck pa u c hc).trans (State.raise_trap (.inl fun h => hnot pa (h ▸ hc)))

/-! ## What the checks answer -/

theorem loadCheck_ne_page (priv : Bool) (pa n : Nat) : loadCheck priv pa n ≠ some .page := by
  unfold loadCheck
  dsimp only
  repeat' split
  all_goals simp
theorem storeCheck_ne_page (vec : Bool) (pa n : Nat) : storeCheck vec pa n ≠ some .page := by
  unfold storeCheck
  dsimp only
  repeat' split
  all_goals simp
theorem syncCheck_ne_page (stx : Bool) (pa : Nat) : syncCheck stx pa ≠ some .page := by
  unfold syncCheck
  repeat' split
  all_goals simp
theorem ldaCheck_ne_page (priv : Bool) (pa : Nat) : ldaCheck priv pa ≠ some .page := by
  unfold ldaCheck
  split
  · simp
  · exact loadCheck_ne_page _ _ _
theorem stlCheck_ne_page (pa : Nat) : stlCheck pa ≠ some .page := by
  unfold stlCheck
  split
  · simp
  · exact storeCheck_ne_page _ _ _
theorem amoCheck_ne_page (f pa : Nat) : amoCheck f pa ≠ some .page := by
  unfold amoCheck
  repeat' split
  all_goals simp
theorem tagRange_ne_page (f n pa : Nat) : tagRange f n pa ≠ .error .page := by
  unfold tagRange
  dsimp only
  repeat' split
  all_goals simp

/-- `tagCause` is what `tagRange` fails with. -/
theorem tagRange_of_tagCause {f n pa : Nat} {c : Cause} (h : tagCause f n pa = some c) : tagRange f n pa = .error c := by
  unfold tagCause at h
  split at h
  · next c' hr =>
    cases h
    exact hr
  · cases h
theorem tagCause_ne_page (f n pa : Nat) : tagCause f n pa ≠ some .page := fun h => tagRange_ne_page f n pa (tagRange_of_tagCause h)

/-! ## Scratchpad windows (R56 to R58) -/

section windows
variable {pa c off : Nat} (hp : placeOf (paLocal pa) = .scratch c off)
include hp

theorem offWindow0_scratch : offWindow0 pa = decide (off / 2 ^ 21 ≠ 0) := by
  unfold offWindow0
  rw [hp]
  rfl
theorem bufOf_scratch : bufOf pa = some (bufAt (off % 2 ^ 21)) := by
  unfold bufOf
  rw [hp]
  rfl
theorem checks_otherWindow (priv : Bool) (hw : off / 2 ^ 21 ≠ 0) :
    (∀ x, syncCheck x pa = some .misalign) ∧ ldaCheck priv pa = some .misalign ∧ stlCheck pa = some .misalign ∧ ∀ f, amoCheck f pa = some .misalign := by
  have h0 : offWindow0 pa = true := by rw [offWindow0_scratch hp]; exact decide_eq_true hw
  refine ⟨fun x => ?_, ?_, ?_, fun f => ?_⟩
  · rw [syncCheck, if_pos h0]
  · rw [ldaCheck, if_pos h0]
  · rw [stlCheck, if_pos h0]
  · rw [amoCheck, if_pos h0]
/-- What a store answers, by its buffer. -/
theorem storeCheck_scratch (x : Bool) (n : Nat) : storeCheck x pa n =
    match bufAt (off % 2 ^ 21) with
    | .gs | .act =>
      if (off / 2 ^ 21 = 1 ∨ off / 2 ^ 21 = 2 ∨ off / 2 ^ 21 = 3 ∨ off / 2 ^ 21 = 6) ∧ !x then some .misalign
      else if (off / 2 ^ 21 = 4 ∨ off / 2 ^ 21 = 5) ∧ n = 1 then some .misalign
      else if storedFits (off / 2 ^ 21) (off % 2 ^ 21) n then none else some .prot
    | _ => some .prot := by
  unfold storeCheck
  rw [hp]
  rfl
/-- What a load answers, by its buffer. -/
theorem loadCheck_scratch (priv : Bool) (n : Nat) : loadCheck priv pa n =
    match bufAt (off % 2 ^ 21) with
    | .gs | .act => if storedFits (off / 2 ^ 21) (off % 2 ^ 21) n then none else some .prot
    | .wt => if off / 2 ^ 21 = 0 ∨ off / 2 ^ 21 = 7 then none else some .prot
    | .procst => if off / 2 ^ 21 ≠ 0 then some .prot else if priv then none else some .priv
    | .acc | .park | .none => some .prot := by
  unfold loadCheck
  rw [hp]
  rfl
end windows

/-- The buffers below the weights. -/
theorem bufAt_store {o : Nat} (h : o < 0x60000) : bufAt o = .gs ∨ bufAt o = .act := by
  unfold bufAt
  split
  · exact .inl rfl
  · exact .inr rfl
theorem bufAt_noStore {o : Nat} (h : 0x60000 ≤ o) : bufAt o ≠ .gs ∧ bufAt o ≠ .act := by
  unfold bufAt
  rw [if_neg (by omega), if_neg (by omega)]
  repeat' split
  all_goals simp
theorem bufAt_wt {o : Nat} (h : 0x60000 ≤ o) (h1 : o < 0xA0000) : bufAt o = .wt := by
  unfold bufAt
  rw [if_neg (by omega), if_neg (by omega), if_pos h1]
theorem bufAt_procst {o : Nat} (h : 0xC0000 ≤ o) (h1 : o < 0xD0000) : bufAt o = .procst := by
  unfold bufAt
  rw [if_neg (by omega), if_neg (by omega), if_neg (by omega), if_neg (by omega), if_neg (by omega), if_neg (by omega), if_pos h1]
theorem bufAt_hidden {o : Nat} (h : (0xA0000 ≤ o ∧ o < 0xC0000) ∨ 0xD0000 ≤ o) : bufAt o = .acc ∨ bufAt o = .park ∨ bufAt o = .none := by
  unfold bufAt
  rw [if_neg (by omega), if_neg (by omega), if_neg (by omega)]
  split
  · exact .inl rfl
  split
  · exact .inr (.inl rfl)
  split
  · exact .inr (.inr rfl)
  · rw [if_neg (by omega)]
    exact .inr (.inr rfl)
theorem bufAt_noWt {o : Nat} (h : 0xA0000 ≤ o) : bufAt o ≠ .gs ∧ bufAt o ≠ .act ∧ bufAt o ≠ .wt := by
  unfold bufAt
  rw [if_neg (by omega), if_neg (by omega), if_neg (by omega)]
  repeat' split
  all_goals simp

/-- What the checks answer at each range of a window. -/
theorem checks_windows (priv : Bool) (pa n c off : Nat) (hp : placeOf (paLocal pa) = .scratch c off) :
    let w := off / 2 ^ 21
    let o := off % 2 ^ 21
    (w ≠ 0 → (∀ x, syncCheck x pa = some .misalign) ∧ ldaCheck priv pa = some .misalign ∧ stlCheck pa = some .misalign ∧ ∀ f, amoCheck f pa = some .misalign) ∧
    ((w = 1 ∨ w = 2 ∨ w = 3 ∨ w = 6) → o < 0x60000 → storeCheck false pa n = some .misalign) ∧
    ((w = 4 ∨ w = 5) → o < 0x60000 → ∀ x, storeCheck x pa 1 = some .misalign) ∧
    (0x60000 ≤ o → ∀ x, storeCheck x pa n = some .prot) ∧
    (0x60000 ≤ o → o < 0xA0000 → (w = 0 ∨ w = 7 → loadCheck priv pa n = none) ∧ (w ≠ 0 → w ≠ 7 → loadCheck priv pa n = some .prot)) ∧
    ((0xA0000 ≤ o ∧ o < 0xC0000) ∨ 0xD0000 ≤ o → loadCheck priv pa n = some .prot) ∧
    (w = 0 → 0xC0000 ≤ o → o < 0xD0000 → loadCheck false pa n = some .priv ∧ loadCheck true pa n = none) ∧
    (w = 0 → 0x60000 ≤ o → syncCheck true pa = some .prot ∧ (∀ f, amoCheck f pa = some .prot) ∧ (0xA0000 ≤ o → syncCheck false pa = some .prot)) := by
  intro w o
  refine ⟨checks_otherWindow hp priv, fun hw ho => ?_, fun hw ho x => ?_, fun ho x => ?_, fun ho h1 => ⟨fun hw => ?_, fun h0 h7 => ?_⟩, fun ho => ?_,
    fun hw ho h1 => ⟨?_, ?_⟩, fun hw ho => ⟨?_, fun f => ?_, fun h1 => ?_⟩⟩
  · rw [storeCheck_scratch hp]
    rcases bufAt_store ho with hb | hb
    all_goals rw [hb]; exact if_pos ⟨hw, rfl⟩
  · rw [storeCheck_scratch hp]
    rcases bufAt_store ho with hb | hb
    all_goals rw [hb]; dsimp only; rw [if_neg (by omega), if_pos ⟨hw, rfl⟩]
  · rw [storeCheck_scratch hp]
    have hb := bufAt_noStore ho
    split
    · next h => exact absurd h hb.1
    · next h => exact absurd h hb.2
    · rfl
  · rw [loadCheck_scratch hp, bufAt_wt ho h1]
    exact if_pos hw
  · rw [loadCheck_scratch hp, bufAt_wt ho h1]
    exact if_neg (by omega)
  · rw [loadCheck_scratch hp]
    rcases bufAt_hidden ho with hb | hb | hb
    all_goals rw [hb]
  · rw [loadCheck_scratch hp, bufAt_procst ho h1]
    exact if_neg (fun h => h hw)
  · rw [loadCheck_scratch hp, bufAt_procst ho h1]
    exact if_neg (fun h => h hw)
  all_goals have h0 : offWindow0 pa = false := by rw [offWindow0_scratch hp]; exact decide_eq_false (fun h => h hw)
  · rw [syncCheck, if_neg (by simp [h0]), bufOf_scratch hp]
    have hb := bufAt_noStore ho
    split
    · next h => exact absurd (Option.some.inj h) hb.1
    · next h => exact absurd (Option.some.inj h) hb.2
    · rfl
    · rfl
  · rw [amoCheck, if_neg (by simp [h0]), hp]
    have hb := bufAt_noStore ho
    dsimp only
    split
    · next h => exact absurd h hb.1
    · next h => exact absurd h hb.2
    · rfl
  · rw [syncCheck, if_neg (by simp [h0]), bufOf_scratch hp]
    have hb := bufAt_noWt h1
    split
    · next h => exact absurd (Option.some.inj h) hb.1
    · next h => exact absurd (Option.some.inj h) hb.2.1
    · next h => exact absurd (Option.some.inj h) hb.2.2
    · rfl

/-- An address beyond the space, or in a space that has no root, has no translation (R61, R64). -/
theorem State.xlate_outside {s : State} {x : Ctx} {va : Nat} (a : Access) (h : 2 ^ 56 ≤ va ∨ (va / 2 ^ 52 ≠ 15 ∧ s.rootOf x = none)) : s.xlate x a va = .fail .prot 0 := by
  unfold State.xlate
  dsimp only
  split
  · rfl
  · next hv =>
    obtain ⟨h1, h2⟩ := h.resolve_left hv
    rw [if_neg h1, h2]

/-! ## Each word -/

section words
variable (s : State)

/-- What TQRY does (R95). -/
def tqryBody (o : RRR) (pk : Nat) (s : State) : State :=
  let p := s.proc pk
  let n := (p.r.getG o.b).toNat
  let ea := p.r.getG o.a
  if n = 0 then s.modProc pk (fun p => p.retire [(0, o.d.toNat)] (p.r.setG o.d 0) (p.pc + 4) false)
  else s.translated pk .rd 3 ea.toNat (fun pa u s =>
    match tagRange 2 n pa with
    | .error c => s.raise pk ⟨c, ea, 0, 0⟩
    | .ok (c, t) => tagSend 2 (min n 16) 0 ea pa u c t (.g o.d 8 false) [(0, o.d.toNat)] pk s)
theorem execTqry_clear {o : RRR} {s : State} (h : Clear { infoRRR o 0 with ext := true } s) : execTqry o s = .next (tqryBody o s.turn s) := by
  have hw : Clear { infoRRR o (packRRR 0x21 2 o) with ext := true } s := clear_withWord h _
  unfold execTqry
  exact (issue_clear hw _).trans rfl

/-- What `AccessTraps` says of one word. -/
def trapsAt (i : Instr) (w : Issue) (z : Nat) (a : Access) (cls : Nat) (ea : Word) (check : Nat → Option Cause) : Prop := Clear w s →
  let p := s.proc s.turn
  let trapped (x : Trap) : Prop := exec i s = .next ((s.count s.turn).trap s.turn x p.pc)
  (ea.toNat % z ≠ 0 → trapped ⟨.misalign, ea, 0, 0⟩) ∧
  (ea.toNat % z = 0 →
    (∀ c l, s.xlate (s.ctxOf s.turn) a ea.toNat = .fail c l → (c ≠ .page ∨ p.priv = true) → trapped ⟨c, ea, cls, l⟩) ∧
    (∀ l, s.xlate (s.ctxOf s.turn) a ea.toNat = .fail .page l → p.priv = false →
      exec i s = .next (s.setProc s.turn { p.settled with pend := some ⟨.page, ea, cls, l⟩ })) ∧
    (∀ pa u c, s.xlate (s.ctxOf s.turn) a ea.toNat = .ok pa u → check pa = some c → trapped ⟨c, ea, 0, 0⟩))

theorem trapsAt_load {i : Instr} {w : Issue} {ea : Word} {f : LoadForm} {check : Bool → Nat → Option Cause}
    (hexec : Clear w s → exec i s = .next (loadBody f check ea s.turn s)) (hnot : ∀ priv pa, check priv pa ≠ some .page) :
    trapsAt s i w f.size .rd f.cls ea (check (s.proc s.turn).priv) := by
  intro hcl
  refine access_traps (hexec hcl) (fun h => if_pos h) (fun h => if_neg (not_not_intro h)) (fun pa u c hc => ?_) (hnot _)
  dsimp only
  rw [hc]
theorem trapsAt_store {i : Instr} {w z : Nat} {o : ST} {ea : Word} (hea : ea = (s.proc s.turn).r.getG o.a + BitVec.ofInt 64 (o.disp.toInt * z))
    (hexec : exec i s = plainStore w o z s) : trapsAt s i (infoST o 0) z .wr 1 ea (fun pa => storeCheck false pa z) := by
  intro hcl
  refine access_traps (hexec.trans (plainStore_clear hea hcl)) (fun h => if_pos h) (fun h => if_neg (not_not_intro h)) (fun pa u c hc => ?_)
    (fun pa => storeCheck_ne_page _ _ _)
  dsimp only
  rw [hc]
theorem trapsAt_stx {o : ST} {ea : Word} (hea : ea = (s.proc s.turn).r.getG o.a + BitVec.ofInt 64 (o.disp.toInt * (8 : Nat))) :
    trapsAt s (.stx o) (infoST o 0) 8 .wr 3 ea (syncCheck true) := by
  intro hcl
  refine access_traps (execStx_clear hea hcl) (fun h => if_pos h) (fun h => if_neg (not_not_intro h)) (fun pa u c hc => ?_) (syncCheck_ne_page _)
  dsimp only
  rw [hc]
theorem trapsAt_stl {o : SL} {ea : Word} (hea : ea = (s.proc s.turn).r.getG o.a + BitVec.ofNat 64 (o.disp.toNat * 8)) :
    trapsAt s (.stl o) (infoSL o 0) 8 .wr 6 ea stlCheck := by
  intro hcl
  refine access_traps (execStl_clear hea hcl) (fun h => if_pos h) (fun h => if_neg (not_not_intro h)) (fun pa u c hc => ?_) stlCheck_ne_page
  rw [hc]
theorem trapsAt_vst {o : VS} {ea : Word} (hea : ea = (s.proc s.turn).r.getG o.a + BitVec.ofInt 64 (o.disp.toInt * (128 : Nat))) :
    trapsAt s (.vst o) (infoVS o 0) 128 .wr 5 ea (fun pa => storeCheck true pa 128) := by
  intro hcl
  refine access_traps (execVst_clear hea hcl) (fun h => if_pos h) (fun h => if_neg (not_not_intro h)) (fun pa u c hc => ?_) (fun pa => storeCheck_ne_page _ _ _)
  dsimp only
  rw [hc]
theorem trapsAt_amo {i : Instr} {w0 : Nat} {o : RRR} (f : Nat) {w : Issue} (hw : amoInfo o f 0 = w) (hexec : exec i s = amoWord w0 o f s) :
    trapsAt s i { w with ext := true } 8 .rw 4 ((s.proc s.turn).r.getG o.a) (amoCheck f) := by
  subst hw
  intro hcl
  refine access_traps (hexec.trans (amoWord_clear hcl)) (fun h => if_pos h) (fun h => if_neg (not_not_intro h)) (fun pa u c hc => ?_) (amoCheck_ne_page f)
  rw [hc]
theorem trapsAt_tag {i : Instr} {w f : Nat} {o : TG} {a : Access} (ha : a = if f = 0 ∨ f = 1 ∨ f = 5 then .wr else .rd) (hn : (s.proc s.turn).r.getG o.b ≠ 0)
    (hexec : exec i s = tagWord w o f s) :
    trapsAt s i (infoTG o 0) 1 a 3 ((s.proc s.turn).r.getG o.a) (tagCause f ((s.proc s.turn).r.getG o.b).toNat) := by
  intro hcl
  subst ha
  have hb : ((s.proc s.turn).r.getG o.b).toNat ≠ 0 := fun h => hn (BitVec.eq_of_toNat_eq h)
  refine access_traps (hexec.trans (issue_clear (clear_withWord hcl w) _)) (fun h => absurd (Nat.mod_one _) h) (fun h => if_neg hb) (fun pa u c hc => ?_)
    (tagCause_ne_page _ _)
  rw [tagRange_of_tagCause hc]
theorem trapsAt_tqry {o : RRR} (hn : (s.proc s.turn).r.getG o.b ≠ 0) :
    trapsAt s (.tqry o) { infoRRR o 0 with ext := true } 1 .rd 3 ((s.proc s.turn).r.getG o.a) (tagCause 2 ((s.proc s.turn).r.getG o.b).toNat) := by
  intro hcl
  have hb : ((s.proc s.turn).r.getG o.b).toNat ≠ 0 := fun h => hn (BitVec.eq_of_toNat_eq h)
  refine access_traps (execTqry_clear hcl) (fun h => absurd (Nat.mod_one _) h) (fun h => if_neg hb) (fun pa u c hc => ?_)
    (tagCause_ne_page _ _)
  rw [tagRange_of_tagCause hc]
end words

/-- Settles O16. -/
theorem accessTraps : Obligations.AccessTraps := by
  unfold Obligations.AccessTraps
  refine ⟨fun s => ?_, checks_windows, fun s x a va h => State.xlate_outside a h⟩
  intro p r traps
  refine ⟨fun o => ?_, fun o => ?_, fun o => ?_, fun o => trapsAt_stl s rfl, fun o => ?_, fun o => ?_, fun o => trapsAt_vst s rfl, fun o hn => ?_, fun o hn => trapsAt_tqry s hn⟩
  · have load {i : Instr} {w z : Nat} {sgn : Bool} (hi : exec i s = plainLoad w o z sgn s) :=
      trapsAt_load s (f := plainForm o z sgn) (check := fun priv pa => loadCheck priv pa z) (fun hcl => hi.trans (plainLoad_clear rfl hcl)) (fun _ _ => loadCheck_ne_page _ _ _)
    exact ⟨load rfl, load rfl, load rfl, load rfl, load rfl, load rfl, load rfl,
      trapsAt_load s (f := syncForm o true) (check := fun _ => syncCheck false) (syncLoad_clear rfl) (fun _ => syncCheck_ne_page _),
      trapsAt_load s (f := syncForm o false) (check := fun _ => syncCheck false) (syncLoad_clear rfl) (fun _ => syncCheck_ne_page _)⟩
  · exact ⟨trapsAt_store s rfl rfl, trapsAt_store s rfl rfl, trapsAt_store s rfl rfl, trapsAt_store s rfl rfl, trapsAt_stx s rfl⟩
  · exact trapsAt_load s (f := ldaForm o) (check := ldaCheck) (execLda_clear rfl) ldaCheck_ne_page
  · exact ⟨trapsAt_amo s 0 rfl rfl, trapsAt_amo s 1 rfl rfl, trapsAt_amo s 2 rfl rfl, trapsAt_amo s 3 rfl rfl, trapsAt_amo s 4 rfl rfl, trapsAt_amo s 5 rfl rfl,
      trapsAt_amo s 6 rfl rfl, trapsAt_amo s 7 rfl rfl, trapsAt_amo s 8 rfl rfl, trapsAt_amo s 9 rfl rfl⟩
  · exact trapsAt_load s (f := vldForm o (s.vldMask o _)) (check := fun priv pa => loadCheck priv pa 128) (execVld_clear rfl) (fun _ _ => loadCheck_ne_page _ _ _)
  · exact ⟨trapsAt_tag s rfl hn rfl, trapsAt_tag s rfl hn rfl, trapsAt_tag s rfl hn rfl, trapsAt_tag s rfl hn rfl, trapsAt_tag s rfl hn rfl, trapsAt_tag s rfl hn rfl⟩
end Sys2Proof.Machine
end

section
/-! Proofs about what the words that hand work to memory, to the tile queue and to the copy unit leave unchanged (R32, R36, R43, R169, R190, R214). -/
set_option Elab.async false
namespace Sys2Proof.Machine
open Sys2Proof Sys2Proof.Safety

/-- Control registers that differ in what a trap writes alone. -/
def CtlFrame (a b : Ctl) : Prop := { b with code := a.code, inh := a.inh, nest := a.nest, trappc := a.trappc, trapinfo := a.trapinfo } = a
/-- The registers r after are those before, but for the flags, which fl relates, and for what a trap writes. -/
structure RegFrame (fl : Flags → Flags → Prop) (r x : Regs) : Prop where
  g : x.g = r.g
  p : x.p = r.p
  v : x.v = r.v
  q : x.q = r.q
  sh : x.sh = r.sh
  flags : fl r.flags x.flags
  ctl : CtlFrame r.ctl x.ctl
/-- From s to t memory, flash and every process but pk are as they were, and the registers of pk are framed. -/
structure Framed (fl : Flags → Flags → Prop) (pk : Nat) (s t : State) : Prop where
  mem : t.mem = s.mem
  flash : t.flash = s.flash
  others : ∀ k, k ≠ pk → t.proc k = s.proc k
  regs : RegFrame fl (s.proc pk).r (t.proc pk).r

section frame
variable {fl : Flags → Flags → Prop} (hfl : ∀ a, fl a a) {pk : Nat} {s t u : State}
include hfl

theorem RegFrame.refl (r : Regs) : RegFrame fl r r := ⟨rfl, rfl, rfl, rfl, rfl, hfl _, rfl⟩
/-- Nothing of memory and of the processes has changed. -/
theorem framed_of_procs (hm : t.mem = s.mem) (hf : t.flash = s.flash) (hp : t.procs = s.procs) : Framed fl pk s t := by
  have hproc (k : Nat) : t.proc k = s.proc k := by rw [State.proc, hp, State.proc]
  exact ⟨hm, hf, fun k _ => hproc k, by rw [hproc]; exact RegFrame.refl hfl _⟩
theorem Framed.refl : Framed fl pk s s := framed_of_procs hfl rfl rfl rfl
/-- The process alone has changed, and its registers have not. -/
theorem framed_setProc {q : Proc} (hr : q.r = (s.proc pk).r) : Framed fl pk s (s.setProc pk q) :=
  ⟨rfl, rfl, fun _ hk => State.proc_setProc_other s q hk, by rw [State.proc_setProc_same, hr]; exact RegFrame.refl hfl _⟩
theorem framed_pass : Framed fl pk s (s.setProc pk (s.proc pk).pass) := framed_setProc hfl rfl
omit hfl in
/-- The process alone has changed, after a step that touches no process. -/
theorem framed_modProc (hm : t.mem = s.mem) (hf : t.flash = s.flash) (hp : t.procs = s.procs) {f : Proc → Proc} (hr : RegFrame fl (s.proc pk).r (f (s.proc pk)).r) :
    Framed fl pk s (t.modProc pk f) := by
  have hproc (k : Nat) : t.proc k = s.proc k := by rw [State.proc, hp, State.proc]
  refine ⟨hm, hf, fun k hk => ?_, ?_⟩
  · rw [State.modProc, State.proc_setProc_other _ _ hk, hproc]
  · rw [State.modProc, State.proc_setProc_same, hproc]
    exact hr
omit hfl in
theorem Framed.after_procs (hm : t.mem = s.mem) (hf : t.flash = s.flash) (hp : t.procs = s.procs) (h : Framed fl pk t u) : Framed fl pk s u := by
  have hproc (k : Nat) : t.proc k = s.proc k := by rw [State.proc, hp, State.proc]
  exact ⟨h.mem.trans hm, h.flash.trans hf, fun k hk => (h.others k hk).trans (hproc k), by rw [← hproc pk]; exact h.regs⟩

/-! ## Traps and waits -/

theorem framed_endProcess (x : Trap) (pc : Word) (reason : Nat) : Framed fl pk s (s.endProcess pk x pc reason) := by
  obtain ⟨_, hr, hm, _⟩ := State.endProcess_ends s pk x pc reason
  refine ⟨hm, ?_, fun k hk => ?_, by rw [hr]; exact RegFrame.refl hfl _⟩
  · unfold State.endProcess State.postOther State.post
    dsimp only
    split <;> rfl
  · rw [State.endProcess, State.postOther, State.post_proc, State.proc_setProc_other _ _ hk]
theorem framed_trap (x : Trap) (pc : Word) : Framed fl pk s (s.trap pk x pc) := by
  unfold State.trap
  extract_lets p c v
  split
  · exact framed_endProcess hfl _ _ _
  split
  · exact framed_endProcess hfl _ _ _
  · exact framed_modProc (f := fun _ => _) rfl rfl rfl ⟨rfl, rfl, rfl, rfl, rfl, hfl _, rfl⟩
theorem framed_countTrap (x : Trap) (pc : Word) : Framed fl pk s ((s.count pk).trap pk x pc) := by
  have hc : (s.count pk).proc pk = { s.proc pk with outs := (s.proc pk).outs.map (fun o => { o with issued := o.issued + 1 }) } := State.proc_setProc_same _ _ _
  have ht := framed_trap hfl (s := s.count pk) (pk := pk) x pc
  refine ⟨ht.mem, ht.flash, fun k hk => (ht.others k hk).trans (State.proc_setProc_other _ _ hk), ?_⟩
  have hr := ht.regs
  rw [hc] at hr
  exact hr
theorem framed_raise (x : Trap) : Framed fl pk s (s.raise pk x) := by
  unfold State.raise
  dsimp only
  split
  · exact framed_setProc hfl rfl
  · exact framed_countTrap hfl _ _
/-- A process that runs, and waits now. -/
theorem framed_block (hrun : (s.proc pk).state = .running) (why : Nat) (edge : Word) (on : Nat) : Framed fl pk s (s.block pk why edge on) := by
  unfold State.block
  dsimp only
  rw [hrun]
  dsimp only
  refine framed_setProc hfl ?_
  split <;> rfl
theorem framed_stall (hrun : (s.proc pk).state = .running) (long ext : Bool) : Framed fl pk s (s.stall pk long ext) := by
  unfold State.stall
  extract_lets p0 s1 p k entry holds
  have hs1 : s1 = s ∨ ∃ q : Proc, q.r = p0.r ∧ q.state = p0.state ∧ s1 = s.setProc pk q := by
    unfold s1
    split
    · exact .inr ⟨{ p0 with fifth := (p0.outs.head?).map (·.id) }, rfl, rfl, rfl⟩
    · exact .inl rfl
  have h1 : Framed fl pk s s1 := by
    rcases hs1 with h | ⟨q, hr, _, h⟩
    · rw [h]
      exact Framed.refl hfl
    · rw [h]
      exact framed_setProc hfl hr
  have hr1 : (s1.proc pk).state = .running := by
    rcases hs1 with h | ⟨q, _, hq, h⟩
    · rw [h, hrun]
    · rw [h, State.proc_setProc_same, hq]
      exact hrun
  have hr2 : (s1.proc pk).r = (s.proc pk).r := by
    rcases hs1 with h | ⟨q, hq, _, h⟩
    · rw [h]
    · rw [h, State.proc_setProc_same, hq]
  have go (why : Nat) (edge : Word) (on : Nat) : Framed fl pk s (s1.block pk why edge on) := by
    have hb := framed_block hfl hr1 why edge on
    exact ⟨hb.mem.trans h1.mem, hb.flash.trans h1.flash, fun k hk => (hb.others k hk).trans (h1.others k hk), by rw [← hr2]; exact hb.regs⟩
  split
  · exact go _ _ _
  split
  · split
    · exact go _ _ _
    · exact h1
  · exact h1
theorem framed_awayBlock (hrun : (s.proc pk).state = .running) (h : Home) : Framed fl pk s (s.awayBlock pk h) := by
  unfold State.awayBlock
  split
  · split
    · exact framed_block hfl hrun _ _ _
    · exact Framed.refl hfl
  · exact framed_block hfl hrun _ _ _
theorem framed_queueWalk (c : Ctx) (va : Nat) : Framed fl pk s (s.queueWalk c va) := by
  unfold State.queueWalk
  split
  · exact Framed.refl hfl
  · exact framed_of_procs hfl rfl rfl rfl

/-- A word is framed that is framed where it has its effect. -/
theorem framed_issue {w : Issue} {body : Nat → State → State} (hrun : (s.proc s.turn).state = .running) (hbody : Framed fl s.turn s (body s.turn s))
    (h : issue w body s = .next t) : Framed fl s.turn s t := by
  rcases issue_cases h with ⟨long, ext, rfl⟩ | rfl | ⟨x, rfl⟩ | ⟨_, rfl⟩
  · exact framed_stall hfl hrun _ _
  · exact framed_pass hfl
  · exact framed_countTrap hfl _ _
  · exact hbody
theorem framed_translated {a : Access} {cls va : Nat} {body : Nat → Under → State → State} (hbody : ∀ pa u, Framed fl pk s (body pa u s)) :
    Framed fl pk s (s.translated pk a cls va body) := by
  unfold State.translated
  dsimp only
  split
  · exact hbody _ _
  · exact framed_raise hfl _
  · exact framed_queueWalk hfl _ _
end frame

/-! ## Requests -/

@[simp] theorem State.asking_flash (s : State) (pk : Nat) (rop : ROp) (va : Word) (pa : Nat) (u : Under) (limit : Nat) :
    (s.asking pk rop va pa u limit).flash = s.flash := by
  unfold State.asking State.request State.route State.routeFor
  dsimp only
  split
  · rfl
  · split <;> rfl
/-- A request has left, and the process is as f makes it. -/
theorem framed_asking {fl : Flags → Flags → Prop} {s : State} {pk : Nat} {rop : ROp} {va : Word} {pa : Nat} {u : Under} {limit : Nat} {f : Proc → Proc}
    (hr : RegFrame fl (s.proc pk).r (f (s.proc pk)).r) : Framed fl pk s ((s.asking pk rop va pa u limit).modProc pk f) :=
  framed_modProc (by simp) (by simp) (State.asking_procs _ _ _ _ _ _ _) hr

/-- The flags that a load leaves: a VLD clears VCLEAN. -/
theorem framed_loadBody {fl : Flags → Flags → Prop} (hfl : ∀ a, fl a a) {f : LoadForm} (hd : f.dirties = true → ∀ a, fl a (a &&& ~~~fVCLEAN))
    {check : Bool → Nat → Option Cause} {ea : Word} {pk : Nat} {s : State} (hrun : (s.proc pk).state = .running) : Framed fl pk s (loadBody f check ea pk s) := by
  unfold loadBody
  split
  · exact framed_raise hfl _
  refine framed_translated hfl fun pa u => ?_
  dsimp only
  split
  · exact framed_raise hfl _
  split
  · exact framed_awayBlock hfl hrun _
  split
  · exact Framed.refl hfl
  have hregs (op l : Nat) (committed : Bool) (kind : OutKind) (home : Option Home) :
      let q := (s.proc pk).open_ op l committed kind f.dest ea f.acquire f.writes home
      RegFrame fl (s.proc pk).r (if f.dirties = true then { q with r := { q.r with flags := q.r.flags &&& ~~~ fVCLEAN } } else q).r := by
    intro q
    split
    · next h => exact ⟨rfl, rfl, rfl, rfl, rfl, hd h _, rfl⟩
    · exact RegFrame.refl hfl _
  cases f.mayTravel && s.travels pk pa
  · refine framed_asking ?_
    exact hregs _ _ _ _ _
  · refine framed_modProc ?_ ?_ ?_ ?_
    · rfl
    · rfl
    · rfl
    · exact hregs _ _ _ _ _
theorem framed_storeSend {fl : Flags → Flags → Prop} (hfl : ∀ a, fl a a) {pk : Nat} {ea : Word} {pa n : Nat} {u : Under} {ws : List (Nat × Byte × Byte)} {f : Flags}
    (hf : ∀ a, fl a (a ||| f)) {stl : Bool} {s : State} (hrun : (s.proc pk).state = .running) : Framed fl pk s (storeSend pk ea pa n u ws f stl s) := by
  unfold storeSend
  dsimp only
  split
  · exact framed_awayBlock hfl hrun _
  split
  · exact Framed.refl hfl
  split
  · refine framed_setProc hfl ?_
    unfold Proc.awaitStore
    split <;> rfl
  · exact framed_asking ⟨rfl, rfl, rfl, rfl, rfl, hf _, rfl⟩
theorem framed_storeBody {fl : Flags → Flags → Prop} (hfl : ∀ a, fl a a) (hor : ∀ a b, fl a (a ||| b)) {ea : Word} {z x pk : Nat} {s : State}
    (hrun : (s.proc pk).state = .running) : Framed fl pk s (storeBody ea z x pk s) := by
  unfold storeBody
  split
  · exact framed_raise hfl _
  refine framed_translated hfl fun pa u => ?_
  split
  · exact framed_raise hfl _
  · exact framed_storeSend hfl (fun a => hor a _) hrun
theorem framed_vstBody {fl : Flags → Flags → Prop} (hfl : ∀ a, fl a a) (hor : ∀ a b, fl a (a ||| b)) {o : VS} {ea : Word} {pk : Nat} {s : State}
    (hrun : (s.proc pk).state = .running) : Framed fl pk s (vstBody o ea pk s) := by
  unfold vstBody
  split
  · exact framed_raise hfl _
  refine framed_translated hfl fun pa u => ?_
  split
  · exact framed_raise hfl _
  · exact framed_storeSend hfl (fun a => hor a _) hrun

theorem State.post_flash (s : State) (d kind asid w : Nat) (dw : List Word) : (s.post d kind asid w dw).flash = s.flash := by
  unfold State.post
  dsimp only
  split <;> rfl

section same
variable {fl : Flags → Flags → Prop} (hfl : ∀ a, fl a a) {pk : Nat} {s : State}
include hfl
theorem framed_stlBody {o : SL} {ea : Word} (hrun : (s.proc pk).state = .running) : Framed fl pk s (stlBody o ea pk s) := by
  unfold stlBody
  split
  · exact framed_raise hfl _
  refine framed_translated hfl fun pa u => ?_
  split
  · exact framed_raise hfl _
  split
  · exact Framed.refl hfl
  · exact framed_storeSend hfl (fun a => by simpa using hfl a) hrun
theorem framed_stxBody {o : ST} {ea : Word} (hrun : (s.proc pk).state = .running) : Framed fl pk s (stxBody o ea pk s) := by
  unfold stxBody
  split
  · exact framed_raise hfl _
  refine framed_translated hfl fun pa u => ?_
  dsimp only
  split
  · exact framed_raise hfl _
  split
  · exact framed_awayBlock hfl hrun _
  split
  · exact Framed.refl hfl
  · exact framed_asking (RegFrame.refl hfl _)
theorem framed_amoBody {o : RRR} {f : Nat} (hrun : (s.proc pk).state = .running) : Framed fl pk s (amoBody o f pk s) := by
  unfold amoBody
  dsimp only
  split
  · exact framed_raise hfl _
  refine framed_translated hfl fun pa u => ?_
  split
  · exact framed_raise hfl _
  split
  · exact framed_awayBlock hfl hrun _
  split
  · exact Framed.refl hfl
  split
  · refine framed_setProc hfl ?_
    unfold Proc.awaitStore
    split <;> rfl
  split
  · exact Framed.refl hfl
  have hregs : RegFrame fl (s.proc pk).r (if decide (o.d = 0 ∧ f < 8) = true then (s.proc pk).pass.sent s.nextId (s.homeOf pa) true pa
      else (s.proc pk).open_ s.nextId 0 false .amo (.g o.d 8 false) ((s.proc pk).r.getG o.a) 0 [(0, o.d.toNat)] (some (s.homeOf pa))).r := by
    split <;> exact RegFrame.refl hfl _
  cases s.isHere pa
  · refine framed_modProc ?_ ?_ ?_ ?_
    · exact State.asking_mem _ _ _ _ _ _ _
    · exact State.asking_flash _ _ _ _ _ _ _
    · exact State.asking_procs _ _ _ _ _ _ _
    · exact hregs
  · refine framed_asking ?_
    exact hregs

/-! ## Tile words and copies -/

theorem framed_enqueueTop (l : Nat) (e : TileOp) (dest : Dest) (ws : List RegRef) (va : Word) : Framed fl pk s (s.enqueueTop pk l e dest ws va) := by
  unfold State.enqueueTop
  dsimp only
  split
  · exact (framed_raise hfl _).after_procs (State.post_mem _ _ _ _ _ _) (State.post_flash _ _ _ _ _ _) (State.post_procs _ _ _ _ _ _)
  · refine framed_modProc ?_ ?_ ?_ ?_
    · rfl
    · rfl
    · rfl
    · exact RegFrame.refl hfl _
theorem framed_sumBody (w sub role l : Nat) (ga gb : BitVec 6) : Framed fl pk s (sumBody w sub role l ga gb pk s) := by
  unfold sumBody
  dsimp only
  split
  · exact framed_raise hfl _
  split
  · exact framed_raise hfl _
  split
  · exact framed_raise hfl _
  split
  · exact framed_raise hfl _
  · exact framed_enqueueTop hfl _ _ _ _ _
theorem framed_packBody (w sub l : Nat) (ga gb : BitVec 6) : Framed fl pk s (packBody w sub l ga gb pk s) := by
  unfold packBody
  extract_lets p a b x n T
  split
  · exact framed_raise hfl _
  split
  · exact framed_raise hfl _
  split
  · exact framed_raise hfl _
  split
  · exact framed_raise hfl _
  · exact framed_enqueueTop hfl _ _ _ _ _
theorem framed_copyBody (form : Nat) (o : TC) : Framed fl pk s (copyBody form o pk s) := by
  unfold copyBody
  extract_lets p w a b ctl g r group members
  split
  · exact framed_raise hfl _
  split
  · exact framed_raise hfl _
  split
  · exact framed_raise hfl _
  split
  · exact framed_raise hfl _
  · unfold State.handCopy
    refine framed_modProc ?_ ?_ ?_ ?_
    · rfl
    · rfl
    · rfl
    · exact RegFrame.refl hfl _
end same

/-! ## The words -/

section words
variable {fl : Flags → Flags → Prop} (hfl : ∀ a, fl a a) {s t : State} (hrun : (s.proc s.turn).state = .running)
include hfl hrun

theorem framed_plainLoad {w z : Nat} {o : LD} {sgn : Bool} (h : plainLoad w o z sgn s = .next t) : Framed fl s.turn s t :=
  framed_issue hfl hrun (framed_loadBody hfl (fun h => absurd h Bool.false_ne_true) hrun) h
theorem framed_syncLoad {w : Nat} {o : LD} {ldx : Bool} (h : syncLoad w o ldx s = .next t) : Framed fl s.turn s t := by
  unfold syncLoad at h
  refine framed_issue hfl hrun ?_ h
  exact framed_loadBody hfl (fun h => absurd h Bool.false_ne_true) hrun
theorem framed_plainStore (hor : ∀ a b, fl a (a ||| b)) {w z : Nat} {o : ST} (h : plainStore w o z s = .next t) : Framed fl s.turn s t :=
  framed_issue (body := fun pk s => storeBody (eaSigned ((s.proc pk).r.getG o.a) o.disp z) z (((s.proc pk).r.getG o.s).toNat % 2 ^ (8 * z)) pk s) hfl hrun
    (framed_storeBody hfl hor hrun) h
theorem framed_amoWord {w f : Nat} {o : RRR} (h : amoWord w o f s = .next t) : Framed fl s.turn s t :=
  framed_issue hfl hrun (framed_amoBody hfl (o := o) (f := f) hrun) h
theorem framed_execVld (hclear : ∀ a, fl a (a &&& ~~~fVCLEAN)) {o : VL} (h : execVld o s = .next t) : Framed fl s.turn s t := by
  unfold execVld at h
  refine framed_issue hfl hrun ?_ h
  exact framed_loadBody hfl (fun _ => hclear) hrun
theorem framed_execVst (hor : ∀ a b, fl a (a ||| b)) {o : VS} (h : execVst o s = .next t) : Framed fl s.turn s t := by
  unfold execVst at h
  refine framed_issue hfl hrun ?_ h
  exact framed_vstBody hfl hor hrun
theorem framed_execStx {o : ST} (h : execStx o s = .next t) : Framed fl s.turn s t := by
  unfold execStx at h
  refine framed_issue hfl hrun ?_ h
  exact framed_stxBody hfl hrun
theorem framed_execStl {o : SL} (h : execStl o s = .next t) : Framed fl s.turn s t := by
  unfold execStl at h
  refine framed_issue hfl hrun ?_ h
  exact framed_stlBody hfl hrun
theorem framed_execLda {o : LA} (h : execLda o s = .next t) : Framed fl s.turn s t := by
  unfold execLda at h
  refine framed_issue hfl hrun ?_ h
  exact framed_loadBody hfl (fun h => absurd h Bool.false_ne_true) hrun
theorem framed_execRowsum {o : T2} (h : execRowsum o s = .next t) : Framed fl s.turn s t := by
  unfold execRowsum at h
  refine framed_issue hfl hrun ?_ h
  exact framed_sumBody hfl _ _ _ _ _ _
theorem framed_execColsum {o : T2} (h : execColsum o s = .next t) : Framed fl s.turn s t := by
  unfold execColsum at h
  refine framed_issue hfl hrun ?_ h
  exact framed_sumBody hfl _ _ _ _ _ _
theorem framed_execPack {o : T2} (h : execPack o s = .next t) : Framed fl s.turn s t := by
  unfold execPack at h
  refine framed_issue hfl hrun ?_ h
  exact framed_packBody hfl _ _ _ _ _
theorem framed_execUnpack {o : T2} (h : execUnpack o s = .next t) : Framed fl s.turn s t := by
  unfold execUnpack at h
  refine framed_issue hfl hrun ?_ h
  exact framed_packBody hfl _ _ _ _ _
theorem framed_execCopy {o : TC} (h : execCopy o s = .next t) : Framed fl s.turn s t := by
  unfold execCopy at h
  refine framed_issue hfl hrun ?_ h
  exact framed_copyBody hfl _ _
theorem framed_execCopys {o : TC} (h : execCopys o s = .next t) : Framed fl s.turn s t := by
  unfold execCopys at h
  refine framed_issue hfl hrun ?_ h
  exact framed_copyBody hfl _ _
theorem framed_execCopya {o : TC} (h : execCopya o s = .next t) : Framed fl s.turn s t := by
  unfold execCopya at h
  refine framed_issue hfl hrun ?_ h
  exact framed_copyBody hfl _ _
theorem framed_execMcast {o : TC} (h : execMcast o s = .next t) : Framed fl s.turn s t := by
  unfold execMcast at h
  refine framed_issue hfl hrun ?_ h
  exact framed_copyBody hfl _ _
theorem framed_execRedg {o : TC} (h : execRedg o s = .next t) : Framed fl s.turn s t := by
  unfold execRedg at h
  refine framed_issue hfl hrun ?_ h
  exact framed_copyBody hfl _ _
theorem framed_execMma {o : MM} (h : execMma o s = .next t) : Framed fl s.turn s t := by
  unfold execMma at h
  refine framed_issue hfl hrun ?_ h
  dsimp only
  split
  · exact framed_raise hfl _
  split
  · exact framed_raise hfl _
  split
  · exact framed_raise hfl _
  · exact framed_enqueueTop hfl _ _ _ _ _
theorem framed_execAcz {o : T1} (h : execAcz o s = .next t) : Framed fl s.turn s t := by
  unfold execAcz at h
  refine framed_issue hfl hrun ?_ h
  dsimp only
  split
  · exact framed_raise hfl _
  · exact framed_enqueueTop hfl _ _ _ _ _
theorem framed_execDrain {o : T2} (h : execDrain o s = .next t) : Framed fl s.turn s t := by
  unfold execDrain at h
  refine framed_issue hfl hrun ?_ h
  extract_lets p cmd dst c out T
  split
  · exact framed_raise hfl _
  split
  · exact framed_raise hfl _
  · exact framed_enqueueTop hfl _ _ _ _ _
theorem framed_execTable {o : T2} (h : execTable o s = .next t) : Framed fl s.turn s t := by
  unfold execTable at h
  refine framed_issue hfl hrun ?_ h
  dsimp only
  split
  · exact framed_raise hfl _
  split
  · exact framed_raise hfl _
  · exact framed_enqueueTop hfl _ _ _ _ _
theorem framed_execAread {o : T2} (h : execAread o s = .next t) : Framed fl s.turn s t := by
  unfold execAread at h
  refine framed_issue hfl hrun ?_ h
  dsimp only
  split
  · exact framed_raise hfl _
  · exact framed_enqueueTop hfl _ _ _ _ _
end words

/-- What the statement says of one word. -/
theorem Framed.frame {fl : Flags → Flags → Prop} {s t : State} (h : Framed fl s.turn s t) :
    let r := (s.proc s.turn).r
    let x := (t.proc s.turn).r
    t.mem = s.mem ∧ t.flash = s.flash ∧ (∀ k, k ≠ s.turn → t.proc k = s.proc k) ∧ x.g = r.g ∧ x.p = r.p ∧ x.v = r.v ∧ x.q = r.q ∧ x.sh = r.sh ∧ fl r.flags x.flags ∧
      { x.ctl with code := r.ctl.code, inh := r.ctl.inh, nest := r.ctl.nest, trappc := r.ctl.trappc, trapinfo := r.ctl.trapinfo } = r.ctl :=
  ⟨h.mem, h.flash, h.others, h.regs.g, h.regs.p, h.regs.v, h.regs.q, h.regs.sh, h.regs.flags, h.regs.ctl⟩

/-- Settles O60: each word by what its body leaves, and by the three ways in which it does not come to its body. -/
theorem frameOfHandingWords : Obligations.FrameOfHandingWords := by
  unfold Obligations.FrameOfHandingWords
  intro frame same raised cleared
  have hsame : ∀ a, same a a := fun _ => rfl
  have hraised : ∀ a, raised a a := fun _ _ h => h
  have hcleared : ∀ a, cleared a a := fun _ => .inl rfl
  have hor : ∀ a b, raised a (a ||| b) := fun a b i h => by simp [h]
  refine ⟨fun o i hi => ?_, fun o i hi => ?_, fun o => ?_, fun o => ?_, fun o => ?_, fun o i hi => ?_, fun o => ?_, fun o => ?_, fun o => ?_, fun o => ?_,
    fun o i hi => ?_, fun o i hi => ?_⟩
  · simp only [List.mem_cons, List.not_mem_nil, or_false] at hi
    rcases hi with rfl | rfl | rfl | rfl | rfl | rfl | rfl | rfl | rfl
    case inr.inr.inr.inr.inr.inr.inr.inl => exact fun s t hrun h => (framed_syncLoad hsame hrun (w := packLD 0x1E o) (ldx := true) h).frame
    case inr.inr.inr.inr.inr.inr.inr.inr => exact fun s t hrun h => (framed_syncLoad hsame hrun (w := packLD 0x1F o) (ldx := false) h).frame
    all_goals exact fun s t hrun h => (framed_plainLoad hsame hrun h).frame
  · simp only [List.mem_cons, List.not_mem_nil, or_false] at hi
    rcases hi with rfl | rfl | rfl | rfl
    all_goals exact fun s t hrun h => (framed_plainStore hraised hrun hor h).frame
  · exact fun s t hrun h => (framed_execStx hsame hrun h).frame
  · exact fun s t hrun h => (framed_execLda hsame hrun h).frame
  · exact fun s t hrun h => (framed_execStl hsame hrun h).frame
  · simp only [List.mem_cons, List.not_mem_nil, or_false] at hi
    rcases hi with rfl | rfl | rfl | rfl | rfl | rfl | rfl | rfl | rfl | rfl
    all_goals exact fun s t hrun h => (framed_amoWord hsame hrun h).frame
  · exact fun s t hrun h => (framed_execVld hcleared hrun (fun _ => .inr rfl) (o := o) h).frame
  · exact fun s t hrun h => (framed_execVst hraised hrun hor (o := o) h).frame
  · exact fun s t hrun h => (framed_execMma hsame hrun h).frame
  · exact fun s t hrun h => (framed_execAcz hsame hrun h).frame
  · simp only [List.mem_cons, List.not_mem_nil, or_false] at hi
    rcases hi with rfl | rfl | rfl | rfl | rfl | rfl | rfl
    · exact fun s t hrun h => (framed_execDrain hsame hrun h).frame
    · exact fun s t hrun h => (framed_execTable hsame hrun h).frame
    · exact fun s t hrun h => (framed_execRowsum hsame hrun h).frame
    · exact fun s t hrun h => (framed_execColsum hsame hrun h).frame
    · exact fun s t hrun h => (framed_execPack hsame hrun h).frame
    · exact fun s t hrun h => (framed_execUnpack hsame hrun h).frame
    · exact fun s t hrun h => (framed_execAread hsame hrun h).frame
  · simp only [List.mem_cons, List.not_mem_nil, or_false] at hi
    rcases hi with rfl | rfl | rfl | rfl | rfl
    · exact fun s t hrun h => (framed_execCopy hsame hrun h).frame
    · exact fun s t hrun h => (framed_execCopys hsame hrun h).frame
    · exact fun s t hrun h => (framed_execCopya hsame hrun h).frame
    · exact fun s t hrun h => (framed_execMcast hsame hrun h).frame
    · exact fun s t hrun h => (framed_execRedg hsame hrun h).frame
end Sys2Proof.Machine
end

section
/-! Proofs about the words that queue tile operations (R214, R217 to R225, R228). -/
set_option Elab.async false
namespace Sys2Proof.Machine
open Sys2Proof Sys2Proof.Safety

/-- What the statement says of a word that hands an entry to the queue. -/
def queuesEntry (i : Instr) (s : State) (l : Nat) (e : TileOp) (dest : Dest) (ws : List RegRef) (va : Word) : Prop :=
  let p := s.proc s.turn
  (s.topBar s.turn e = none → ∃ t, exec i s = .next t ∧ t.mem = s.mem ∧ t.proc s.turn = p.open_ s.nextId l (decide (e.sub ≠ 2)) .tileOp dest va 0 ws ∧
    (t.core (coreOf s.turn)).tileq = (s.core (coreOf s.turn)).tileq ++ [{ e with id := s.nextId, pk := s.turn, op := s.nextId, pc := p.pc, priv := p.priv }]) ∧
  (∀ cls off n c, s.topBar s.turn e = some (cls, off, n, c) →
    exec i s = .next ((s.barNotice s.turn cls (scratchAddr (coreOf s.turn) off) n c).raise s.turn ⟨c, localVa off, 0, 0⟩))

theorem State.enqueueTop_barred {s : State} {pk cls off n : Nat} {c : Cause} {e : TileOp} (h : s.topBar pk e = some (cls, off, n, c)) (l : Nat) (dest : Dest) (ws : List RegRef)
    (va : Word) : s.enqueueTop pk l e dest ws va = (s.barNotice pk cls (scratchAddr (coreOf pk) off) n c).raise pk ⟨c, localVa off, 0, 0⟩ := by
  unfold State.enqueueTop
  dsimp only
  rw [h]
/-- The core with an entry more in its queue. -/
def Core.queueing (c : Core) (e : TileOp) : Core := { c with tileq := c.tileq ++ [e] }
theorem State.enqueueTop_queued {s : State} {pk : Nat} {e : TileOp} (h : s.topBar pk e = none) (hlen : (s.core (coreOf pk)).tileq.length < 8)
    (hwait : (s.core (coreOf pk)).tileWait = []) (l : Nat) (dest : Dest) (ws : List RegRef) (va : Word) :
    s.enqueueTop pk l e dest ws va = (({ s with nextId := s.nextId + 1 } : State).setCore (coreOf pk) ((s.core (coreOf pk)).queueing
      { e with id := s.nextId, pk := pk, op := s.nextId, pc := (s.proc pk).pc, priv := (s.proc pk).priv })).modProc pk
        (fun p => p.open_ s.nextId l (decide (e.sub ≠ 2)) .tileOp dest va 0 ws) := by
  unfold State.enqueueTop
  dsimp only
  rw [h]
  dsimp only
  rw [if_neg (by simp [hwait, hlen])]
  rfl
theorem queuesEntry_of_exec {i : Instr} {s : State} {l : Nat} {e : TileOp} {dest : Dest} {ws : List RegRef} {va : Word} (hlen : (s.core (coreOf s.turn)).tileq.length < 8)
    (hwait : (s.core (coreOf s.turn)).tileWait = []) (h : exec i s = .next (s.enqueueTop s.turn l e dest ws va)) : queuesEntry i s l e dest ws va := by
  refine ⟨fun hb => ⟨_, h, ?_⟩, fun cls off n c hb => h.trans (congrArg _ (State.enqueueTop_barred hb _ _ _ _))⟩
  rw [State.enqueueTop_queued hb hlen hwait]
  refine ⟨rfl, State.proc_setProc_same _ _ _, ?_⟩
  exact congrArg Core.tileq (State.core_setCore_same _ _ _)

/-! ## The words with their checks passed -/

theorem fld_zero (x n : Nat) : fld x 0 n = x % 2 ^ n := by simp [fld]
theorem fld_zero_three (x : Nat) : fld x 0 3 = x % 8 := fld_zero x 3
theorem thenCheck_none {a b : Option Trap} (ha : a = none) (hb : b = none) : thenCheck a b = none := by rw [ha, hb, thenCheck]

theorem execMma_clear {o : MM} {s : State} {a b : Word} {nA : BitVec 3} {shA shB : BitVec 256} (hnA : nA = BitVec.ofNat 3 (2 * o.pair.toNat))
    (hA : shA = (s.proc s.turn).r.getSh nA) (hB : shB = (s.proc s.turn).r.getSh (nA + 1)) (ha : a = (s.proc s.turn).r.getG o.a) (hb : b = (s.proc s.turn).r.getG o.b)
    (h : Clear { infoMM o 0 with reads := (infoMM o 0).reads ++ [(3, nA.toNat), (3, (nA + 1).toNat)] } s) (hkA : shKind shA = 3) (hrA : opRole shA = 0) (hkB : shKind shB = 3)
    (hrB : opRole shB = 1) (hk : opK shA = opK shB) (hrows : rowsCheck a shA 32 (opK shA) = none) (hpacked : packedCheck b shB = none) :
    execMma o s = .next (s.enqueueTop s.turn o.l.toNat { TileOp.blank with sub := 15, acc := o.acc.toNat, a := a, b := b, shA := shA, shB := shB, red := o.r } .none [] a) := by
  subst hnA hA hB ha hb
  unfold execMma
  refine (issue_clear (clear_withWord h (packMM 0x3A o)) _).trans (congrArg _ ?_)
  dsimp only
  rw [if_neg (by simp [hkA, hrA]), if_neg (by rintro (h | h | h); exacts [h hkB, h hrB, h hk]), thenCheck_none hrows hpacked]
theorem execAcz_clear {o : T1} {s : State} {x : Word} (hx : x = (s.proc s.turn).r.getG o.a) (h : Clear (infoT1 o 0) s) (h0 : x.toNat / 8 % 2 ^ 5 = 0)
    (hhigh : x.toNat / 2 ^ 16 = 0) (hlow : -112 ≤ (x.extractLsb' 8 8).toInt) (htop : (x.extractLsb' 8 8).toInt ≤ 32) :
    execAcz o s = .next (s.enqueueTop s.turn o.l.toNat { TileOp.blank with sub := 1, acc := x.toNat % 8, a := x } .none [] 0) := by
  subst hx
  unfold execAcz
  refine (issue_clear (clear_withWord h (packT1 0x3B 1 o)) _).trans (congrArg _ ?_)
  dsimp only
  have hf : fld ((s.proc s.turn).r.getG o.a).toNat 3 5 = 0 := h0
  have he : BitVec.ofNat 8 (fld ((s.proc s.turn).r.getG o.a).toNat 8 8) = ((s.proc s.turn).r.getG o.a).extractLsb' 8 8 := by
    apply BitVec.eq_of_toNat_eq
    simp [fld, Nat.shiftRight_eq_div_pow]
  rw [he, if_neg (by simp only [hf, hhigh]; omega), fld_zero_three]
theorem execTable_clear {o : T2} {s : State} (h : Clear (infoT2 o 0) s) (hb : ((s.proc s.turn).r.getG o.b).toNat < 4)
    (hc : localCheck ((s.proc s.turn).r.getG o.a) 64 1024 [.gs] = none) : execTable o s = .next (s.enqueueTop s.turn o.l.toNat
      { TileOp.blank with sub := 3, a := (s.proc s.turn).r.getG o.a, b := (s.proc s.turn).r.getG o.b } .none [] ((s.proc s.turn).r.getG o.a)) := by
  unfold execTable
  refine (issue_clear (clear_withWord h (packT2 0x3B 3 o)) _).trans (congrArg _ ?_)
  dsimp only
  rw [if_neg (by omega), hc]
theorem execAread_clear {o : T2} {s : State} {x : Word} (hx : x = (s.proc s.turn).r.getG o.a)
    (h : Clear { infoT2 o 0 with reads := [(0, o.a.toNat)], writes := [(0, o.b.toNat)] } s) (hlt : x.toNat < 2 ^ 15) (h3 : x.toNat / 2 ^ 13 ≠ 3) :
    execAread o s = .next (s.enqueueTop s.turn o.l.toNat { TileOp.blank with sub := 8, acc := x.toNat % 8, a := x } (.g o.b 8 false) [(0, o.b.toNat)] x) := by
  subst hx
  unfold execAread
  refine (issue_clear (clear_withWord h (packT2 0x3B 8 o)) _).trans (congrArg _ ?_)
  dsimp only
  rw [if_neg (by unfold fld; omega), fld_zero_three]
theorem execDrain_clear {o : T2} {s : State} {a b : Word} {c : Ctl} {out T : Nat} (ha : a = (s.proc s.turn).r.getG o.a) (hb : b = (s.proc s.turn).r.getG o.b)
    (hc : c = (s.proc s.turn).r.ctl) (hout : out = c.dfmt.toNat % 2 ^ 4) (hT : T = if bufAt (vaOff b) = .act then 1024 else 64) (h : Clear (infoT2 o 0) s)
    (h1 : a.toNat < 2 ^ 13) (h2 : a.toNat / 2 ^ 10 ≤ 4) (h3 : c.dfmt.toNat < 32) (h4 : out ≤ 12) (h5 : c.dtable.toNat < 2 ^ 26) (h6 : c.dtable.toNat % 2 ^ 8 = 0)
    (hdst : localCheck b T (padTo (outZ out) T) [.gs, .act] = none) (hbias : a.getLsbD 3 = true → localCheck c.dbias 8 256 [.gs] = none)
    (hmult : a.getLsbD 7 = true → localCheck c.dmult 8 256 [.gs] = none) :
    execDrain o s = .next (s.enqueueTop s.turn o.l.toNat { TileOp.blank with
      sub := 2, acc := a.toNat % 8, a := a, b := b, dfmt := c.dfmt, dbias := c.dbias, dmult := c.dmult, dtable := c.dtable, dabs := c.dabs,
      shB := BitVec.ofNat 256 (packT2 0x3B 2 o) } .none [] b) := by
  subst hout ha hb hc
  unfold execDrain
  refine (issue_clear (clear_withWord h (packT2 0x3B 2 o)) _).trans (congrArg _ ?_)
  dsimp only
  rw [if_neg (by rw [fld_zero, fld_zero]; unfold fld; omega), ← hT]
  have hopt {p : Bool} {q : Option Trap} (hq : p = true → q = none) : (if p = true then q else none) = none := by
    split
    · next hp => exact hq hp
    · rfl
  rw [fld_zero_three, fld_zero, thenCheck_none hdst (thenCheck_none (hopt hbias) (hopt hmult))]
theorem shapeOf_good {p : Proc} {n : BitVec 3} (h : (3, n.toNat) ∉ p.struck) : shapeOf p n = .ok (p.r.getSh n) := if_neg (by simpa using h)
theorem sumBody_queues {w sub role l : Nat} {ga gb : BitVec 6} {s : State} {a b : Word} {sh : BitVec 256} (ha : a = (s.proc s.turn).r.getG ga)
    (hb : b = (s.proc s.turn).r.getG gb) (hsh : sh = (s.proc s.turn).r.getSh (BitVec.ofNat 3 (b.toNat / 8)))
    (hgood : (3, (BitVec.ofNat 3 (b.toNat / 8)).toNat) ∉ (s.proc s.turn).struck) (h0 : b.toNat / 2 ^ 6 % 2 ^ 26 = 0) (hk : shKind sh = 3) (hrole : opRole sh = role)
    (hc : (if role = 1 then packedCheck a sh else rowsCheck a sh 32 (opK sh)) = none) :
    sumBody w sub role l ga gb s.turn s = s.enqueueTop s.turn l { TileOp.blank with sub := sub, acc := b.toNat % 8, a := a, b := b, shA := sh } .none [] a := by
  subst ha hb hsh
  have hf : fld ((s.proc s.turn).r.getG gb).toNat 6 26 = 0 := h0
  unfold sumBody
  dsimp only
  rw [if_neg (by simp [hf]), shapeOf_good hgood]
  dsimp only
  rw [if_neg (by simp [hk, hrole]), hc, fld_zero_three]
theorem packBody_queues {w sub l : Nat} {ga gb : BitVec 6} {s : State} {a b x : Word} {sh : BitVec 256} {T : Nat} (ha : a = (s.proc s.turn).r.getG ga)
    (hb : b = (s.proc s.turn).r.getG gb) (hx : x = (s.proc s.turn).r.nextG gb) (hsh : sh = (s.proc s.turn).r.getSh (BitVec.ofNat 3 x.toNat))
    (hT : T = if bufAt (vaOff b) = .act then 1024 else 64) (hlt : x.toNat < 8) (hgood : (3, x.toNat) ∉ (s.proc s.turn).struck) (hk : shKind sh = 3) (hrole : opRole sh = 1)
    (hc : (if sub = 6 then thenCheck (rowsCheck a sh (opK sh) 32) (localCheck b 1024 (padTo (packedZ sh) 1024) [.wt])
      else thenCheck (packedCheck a sh) (localCheck b T (padTo (opK sh * 128) T) [.gs, .act])) = none) :
    packBody w sub l ga gb s.turn s = s.enqueueTop s.turn l { TileOp.blank with sub := sub, a := a, b := b, shA := sh } .none [] a := by
  subst ha hb hx hsh
  have hn : (BitVec.ofNat 3 ((s.proc s.turn).r.nextG gb).toNat).toNat = ((s.proc s.turn).r.nextG gb).toNat := by
    rw [BitVec.toNat_ofNat]
    omega
  unfold packBody
  dsimp only
  rw [if_neg (by omega), shapeOf_good (by rw [hn]; exact hgood), ← hT]
  dsimp only
  rw [if_neg (by rintro (h | h); exacts [h hk, h hrole]), hc]
theorem execRowsum_clear {o : T2} {s : State} (h : Clear (infoT2 o 0) s) : execRowsum o s = .next (sumBody (packT2 0x3B 4 o) 4 1 o.l.toNat o.a o.b s.turn s) :=
  issue_clear (clear_withWord h (packT2 0x3B 4 o)) _
theorem execColsum_clear {o : T2} {s : State} (h : Clear (infoT2 o 0) s) : execColsum o s = .next (sumBody (packT2 0x3B 5 o) 5 0 o.l.toNat o.a o.b s.turn s) :=
  issue_clear (clear_withWord h (packT2 0x3B 5 o)) _
theorem execPack_clear {o : T2} {s : State} (h : Clear (infoPk o 0) s) : execPack o s = .next (packBody (packT2 0x3B 6 o) 6 o.l.toNat o.a o.b s.turn s) :=
  issue_clear (clear_withWord h (packT2 0x3B 6 o)) _
theorem execUnpack_clear {o : T2} {s : State} (h : Clear (infoPk o 0) s) : execUnpack o s = .next (packBody (packT2 0x3B 7 o) 7 o.l.toNat o.a o.b s.turn s) :=
  issue_clear (clear_withWord h (packT2 0x3B 7 o)) _

/-- Settles O27: each word, its checks passed, hands its entry to `State.enqueueTop`. -/
theorem tileWordsQueue : Obligations.TileWordsQueue := by
  unfold Obligations.TileWordsQueue
  intro s p k queued hlen hwait
  have hq {i l e dest ws va} (h : exec i s = .next (s.enqueueTop s.turn l e dest ws va)) : queued i l e dest ws va := queuesEntry_of_exec hlen hwait h
  refine ⟨?_, ?_, ?_, ?_, ?_⟩
  · intro o nA shA shB a b hcl hkA hrA hkB hrB hk hrows hpacked
    exact hq (execMma_clear rfl rfl rfl rfl rfl hcl hkA hrA hkB hrB hk hrows hpacked)
  · intro o x hcl h0 hhigh hlow htop
    exact hq (execAcz_clear rfl hcl h0 hhigh hlow htop)
  · intro o hcl a b c out T sh named
    refine ⟨fun h1 h2 h3 h4 h5 h6 hdst hbias hmult => ?_, fun hb hc => ?_, fun hn hrole hc => ?_, fun hn hrole hc => ?_⟩
    · exact hq (execDrain_clear rfl rfl rfl rfl rfl hcl h1 h2 h3 h4 h5 h6 hdst hbias hmult)
    · exact hq (execTable_clear hcl hb hc)
    · obtain ⟨hgood, h0, hk⟩ := hn
      exact hq ((execRowsum_clear hcl).trans (congrArg _ (sumBody_queues rfl rfl rfl hgood h0 hk hrole ((if_pos rfl).trans hc))))
    · obtain ⟨hgood, h0, hk⟩ := hn
      exact hq ((execColsum_clear hcl).trans (congrArg _ (sumBody_queues rfl rfl rfl hgood h0 hk hrole ((if_neg Nat.zero_ne_one).trans hc))))
  · intro o hcl a b x T sh hlt hgood hk hrole
    refine ⟨fun hsrc hdst => ?_, fun hsrc hdst => ?_⟩
    · exact hq ((execPack_clear hcl).trans (congrArg _ (packBody_queues rfl rfl rfl rfl rfl hlt hgood hk hrole (thenCheck_none hsrc hdst))))
    · exact hq ((execUnpack_clear hcl).trans (congrArg _ (packBody_queues rfl rfl rfl rfl rfl hlt hgood hk hrole (thenCheck_none hsrc hdst))))
  · intro o hcl x hlt h3
    exact hq (execAread_clear rfl hcl hlt h3)
end Sys2Proof.Machine
end

section
/-! Proofs about the words that hand copies to the copy unit and requests to Borer, and about groups (R107, R110, R112, R113, R119 to R123). -/
set_option Elab.async false
namespace Sys2Proof.Machine
open Sys2Proof Sys2Proof.Safety

/-! ## Copies -/

/-- The core with a copy more that waits. -/
def Core.copying (k : Core) (c : Copy) : Core := { k with copyWait := k.copyWait ++ [c] }
/-- The copy that the process hands over. -/
def State.copyOfWord (s : State) (pk form : Nat) (a b ctl : Word) (r : BitVec 256) (members : List Word) : Copy :=
  ⟨s.nextId, pk, s.nextId, (s.proc pk).pc, (s.proc pk).asid, form, a, b, r, ctl, members, (s.proc pk).priv, s.originWord pk, (s.ctxOf pk).origin, (s.proc pk).guestRoot, 0,
    pieceCount form r members.length, [], false⟩
theorem State.handCopy_hands (s : State) (pk l form : Nat) (a b ctl : Word) (r : BitVec 256) (members : List Word) :
    (s.handCopy pk l form a b ctl r members).mem = s.mem ∧
    (s.handCopy pk l form a b ctl r members).proc pk = (s.proc pk).open_ s.nextId l true .copy .none a 0 [] ∧
    ((s.handCopy pk l form a b ctl r members).core (coreOf pk)).copyWait = (s.core (coreOf pk)).copyWait ++ [s.copyOfWord pk form a b ctl r members] := by
  refine ⟨rfl, State.proc_setProc_same _ _ _, ?_⟩
  exact congrArg Core.copyWait (State.core_setCore_same _ _ ((s.core (coreOf pk)).copying (s.copyOfWord pk form a b ctl r members)))
/-- A copy word whose checks pass hands its copy over. -/
theorem copyBody_hands {form pk : Nat} {o : TC} {s : State} {a b ctl : Word} {r : BitVec 256} {members : List Word} (ha : a = (s.proc pk).r.getG o.a)
    (hb : b = (s.proc pk).r.getG o.b) (hctl : ctl = (s.proc pk).r.nextG o.b) (hr : r = (s.proc pk).r.getSh o.sh) (h0 : ctl.toNat / 2 ^ 11 % 2 ^ 12 = 0)
    (hgroup : (decide (form = 3 ∨ form = 4) = false ∧ ctlGroup ctl = 0 ∧ members = []) ∨
      (decide (form = 3 ∨ form = 4) = true ∧ s.groupOpen pk (ctlGroup ctl) = true ∧ members = (s.groupAt pk (ctlGroup ctl)).bases))
    (hfits : recordFits form r = true) (hchecks : operandChecks form r members a b (pieceCount form r members.length) = none) :
    copyBody form o pk s = s.handCopy pk o.l.toNat form a b ctl r members := by
  subst ha hb hctl hr
  have hf : ¬ fld ((s.proc pk).r.nextG o.b).toNat 11 12 ≠ 0 := fun h => h h0
  unfold copyBody
  extract_lets p w a b ctl g r group ms
  have hm : ms = members := by
    rcases hgroup with ⟨hg, _, hm⟩ | ⟨hg, _, hm⟩
    · exact (if_neg (by simp [group, hg])).trans hm.symm
    · exact (if_pos hg).trans hm.symm
  have h1 : ¬ (fld ctl.toNat 11 12 ≠ 0 ∨ group = false ∧ g ≠ 0) := by
    rintro (h | ⟨h, hg⟩)
    · exact hf h
    · rcases hgroup with ⟨_, h0, _⟩ | ⟨ht, _, _⟩
      · exact hg h0
      · exact absurd (ht.symm.trans h) (by decide)
  have h2 : ¬ (group && !s.groupOpen pk g) = true := by
    rcases hgroup with ⟨hg, _, _⟩ | ⟨_, ho, _⟩
    · have hg : group = false := hg
      simp [hg]
    · have ho : s.groupOpen pk g = true := ho
      simp [ho]
  have h3 : recordFits form r = true := hfits
  rw [if_neg h1, if_neg h2, if_neg (by simp [h3]), hm]
  dsimp only [r, a, b]
  rw [hchecks]

/-- What the statement says of a copy word. -/
def handsCopy (i : Instr) (s : State) (l form n : Nat) (a b ctl : Word) (r : BitVec 256) (members : List Word) : Prop :=
  ∃ t, exec i s = .next t ∧ t.mem = s.mem ∧ t.proc s.turn = (s.proc s.turn).open_ s.nextId l true .copy .none a 0 [] ∧
    (t.core (coreOf s.turn)).copyWait = (s.core (coreOf s.turn)).copyWait ++
      [⟨s.nextId, s.turn, s.nextId, (s.proc s.turn).pc, (s.proc s.turn).asid, form, a, b, r, ctl, members, (s.proc s.turn).priv, s.originWord s.turn, (s.ctxOf s.turn).origin,
        (s.proc s.turn).guestRoot, 0, n, [], false⟩]
theorem handsCopy_of_exec {i : Instr} {s : State} {l form : Nat} {a b ctl : Word} {r : BitVec 256} {members : List Word}
    (h : exec i s = .next (s.handCopy s.turn l form a b ctl r members)) : handsCopy i s l form (pieceCount form r members.length) a b ctl r members :=
  ⟨_, h, State.handCopy_hands _ _ _ _ _ _ _ _ _⟩

/-! ## Borer -/

theorem flashChecks_word {s : State} {w : Nat} {ctl word frame : Word} {push : Bool} (h : flashChecks s 0 ctl word frame push = none) :
    flashChecks s w ctl word frame push = none := by
  unfold flashChecks at h ⊢
  dsimp only at h ⊢
  split at h
  · cases h
  next h1 =>
  split at h
  · cases h
  next h2 =>
  rw [if_neg h1, if_neg h2]
  exact h
/-- Of a request whose words are legal, a check finds the frame at fault alone. -/
theorem flashChecks_frame {s : State} {w : Nat} {ctl word frame frame' : Word} {push : Bool} (h : flashChecks s 0 ctl word frame push = none) :
    flashChecks s w ctl word frame' push = none ∨ ∃ c, (c = .copyAlign ∨ c = .prot) ∧ flashChecks s w ctl word frame' push = some ⟨c, frame', 0, 0⟩ := by
  unfold flashChecks at h ⊢
  dsimp only at h ⊢
  split at h
  · cases h
  next h1 =>
  split at h
  · cases h
  next h2 =>
  rw [if_neg h1, if_neg h2]
  split
  · exact .inr ⟨_, .inl rfl, rfl⟩
  split
  · exact .inr ⟨_, .inr rfl, rfl⟩
  · exact .inl rfl
/-- What the statement says of a request to Borer. -/
def asksBorer (i : Instr) (s : State) (form : Nat) (word frame push ctl : Word) (r : BitVec 256) : Prop :=
  ∃ t, exec i s = .next t ∧ t.mem = s.mem ∧ t.flash = s.flash ∧ t.proc s.turn = (s.proc s.turn).pass ∧
    t.borer = s.borer ++ [⟨s.nextId, coreOf s.turn, s.turn, (s.proc s.turn).pc, form, word, paLocal frame.toNat, push, r, ctl.toNat % 2 ^ 11, (s.proc s.turn).asid,
      s.originWord s.turn, (s.ctxOf s.turn).origin, (s.proc s.turn).guestRoot, 0, []⟩]
theorem asksBorer_of_exec {i : Instr} {s : State} {form : Nat} {word frame push ctl : Word} {r : BitVec 256}
    (h : exec i s = .next (s.handFlash s.turn form word frame push ctl r)) : asksBorer i s form word frame push ctl r := by
  have ht : ctlTile ctl = ctl.toNat % 2 ^ 11 := by simp [ctlTile, fld]
  refine ⟨_, h, rfl, rfl, State.proc_setProc_same _ _ _, ?_⟩
  rw [← ht]
  rfl
theorem execFlushout_asks {o : T2} {s : State} (h : Clear { infoPk o 0 with priv := true } s)
    (hc : flashChecks s 0 ((s.proc s.turn).r.nextG o.b) ((s.proc s.turn).r.getG o.b) ((s.proc s.turn).r.getG o.a) false = none) :
    execFlushout o s = .next (s.handFlash s.turn 5 ((s.proc s.turn).r.getG o.b) ((s.proc s.turn).r.getG o.a) 0 ((s.proc s.turn).r.nextG o.b) 0) := by
  unfold execFlushout
  refine (issue_clear (clear_withWord h (packT2 0x3C 40 o)) _).trans (congrArg _ ?_)
  dsimp only
  rw [flashChecks_word hc]
/-- The body of FETCHIN past the checks of its words. -/
def fetchinBody (o : TC) (s : State) : State :=
  let p := s.proc s.turn
  let word := p.r.getG o.a
  let ctl := p.r.nextG o.b
  let frame := p.r.getG o.b
  let dst := p.r.nextG o.a
  if word.getLsbD 36 = true ∧ gAllot (s.core (coreOf s.turn)).partition ≤ o.a.toNat + 1 then s.raise s.turn ⟨.regallot, BitVec.ofNat 64 (packTC 0x3C 6 o), 0, 0⟩
  else if !word.getLsbD 36 then s.handFlash s.turn 6 word frame 0 ctl 0
  else if p.struck.contains (0, o.a.toNat + 1) then s.raise s.turn ⟨.ecc, regInfo (0, o.a.toNat + 1), 0, 0⟩
  else match shapeOf p o.sh with
    | .error t => s.raise s.turn t
    | .ok r =>
      if !recordFits 6 r then s.raise s.turn (badShape o.sh)
      else match operandChecks 6 r [] 0 dst (pieceCount 6 r 0) with
        | some t => s.raise s.turn t
        | none =>
          if 65536 < (shRows r - 1) * shSstride r + shRowBytes r then s.raise s.turn ⟨.copyAlign, dst, 0, 0⟩
          else s.handFlash s.turn 6 word frame dst ctl r
theorem execFetchin_clear {o : TC} {s : State} (h : Clear { infoTC o 0 with priv := true, reads := [(0, o.a.toNat), (0, o.b.toNat), (0, o.b.toNat + 1)] } s)
    (hc : flashChecks s 0 ((s.proc s.turn).r.nextG o.b) ((s.proc s.turn).r.getG o.a) ((s.proc s.turn).r.getG o.b) true = none) :
    execFetchin o s = .next (fetchinBody o s) := by
  unfold execFetchin
  refine (issue_clear (clear_withWord h (packTC 0x3C 6 o)) _).trans (congrArg _ ?_)
  dsimp only
  rw [flashChecks_word hc]
  rcases flashChecks_frame (w := packTC 0x3C 6 o) (frame' := 0) hc with h0 | ⟨c, hcause, h0⟩
  · rw [h0]
    rfl
  · rw [h0]
    rcases hcause with rfl | rfl
    · rfl
    · rfl

/-- Settles O30: a copy word hands its copy to `State.handCopy`, a word of Borer its request to `State.handFlash`. -/
theorem copyGroupHandsRequest : Obligations.CopyGroupHandsRequest := by
  unfold Obligations.CopyGroupHandsRequest
  refine ⟨?_, ?_, ?_⟩
  · intro o s hcl p a b ctl r g hands rows h0
    have hg : ctl.toNat / 2 ^ 24 % 2 ^ 8 = ctlGroup ctl := rfl
    refine ⟨fun hng => ⟨fun hfits hchecks => ?_, fun hfits hchecks => ?_, fun hfits hchecks => ?_⟩, fun hst hasid horg => ⟨fun hfits hchecks => ?_, fun hfits hchecks => ?_⟩⟩
    · exact handsCopy_of_exec ((issue_clear (clear_withWord hcl (packTC 0x3C 0 o)) _).trans (congrArg _ (copyBody_hands rfl rfl rfl rfl h0 (.inl ⟨rfl, hng, rfl⟩) hfits hchecks)))
    · exact handsCopy_of_exec ((issue_clear (clear_withWord hcl (packTC 0x3C 1 o)) _).trans (congrArg _ (copyBody_hands rfl rfl rfl rfl h0 (.inl ⟨rfl, hng, rfl⟩) hfits hchecks)))
    · exact handsCopy_of_exec ((issue_clear (clear_withWord hcl (packTC 0x3C 2 o)) _).trans (congrArg _ (copyBody_hands rfl rfl rfl rfl h0 (.inl ⟨rfl, hng, rfl⟩) hfits hchecks)))
    · have hopen : s.groupOpen s.turn (ctlGroup ctl) = true := decide_eq_true ⟨hst, hasid, horg⟩
      exact handsCopy_of_exec ((issue_clear (clear_withWord hcl (packTC 0x3C 3 o)) _).trans (congrArg _ (copyBody_hands rfl rfl rfl rfl h0 (.inr ⟨rfl, hopen, rfl⟩) hfits hchecks)))
    · have hopen : s.groupOpen s.turn (ctlGroup ctl) = true := decide_eq_true ⟨hst, hasid, horg⟩
      exact handsCopy_of_exec ((issue_clear (clear_withWord hcl (packTC 0x3C 4 o)) _).trans (congrArg _ (copyBody_hands rfl rfl rfl rfl h0 (.inr ⟨rfl, hopen, rfl⟩) hfits hchecks)))
  · intro o s hcl p frame word ctl hc
    exact asksBorer_of_exec (execFlushout_asks hcl hc)
  · intro o s hcl p word frame ctl dst r asked hc
    have hexec := execFetchin_clear hcl hc
    refine ⟨fun hpush => ?_, fun hpush hallot hg hsh hfits hchecks hlen => ?_⟩
    · have hbody : fetchinBody o s = s.handFlash s.turn 6 word frame 0 ctl 0 := by
        unfold fetchinBody
        dsimp only
        rw [if_neg (by intro h; exact absurd (hpush.symm.trans h.1) (by decide)), if_pos (by simpa using hpush)]
      obtain ⟨t, ht, hm, _, hp, hb⟩ := asksBorer_of_exec (i := .fetchin o) (hexec.trans (congrArg _ hbody))
      exact ⟨t, ht, hm, hp, hb⟩
    · have hbody : fetchinBody o s = s.handFlash s.turn 6 word frame dst ctl r := by
        unfold fetchinBody
        dsimp only
        rw [if_neg (by omega), if_neg (by simpa using hpush), if_neg (by simpa using hg), shapeOf, if_neg (by simpa using hsh)]
        dsimp only
        rw [if_neg (by simpa using hfits), hchecks]
        dsimp only
        rw [if_neg (Nat.not_lt.mpr hlen)]
      obtain ⟨t, ht, hm, _, hp, hb⟩ := asksBorer_of_exec (i := .fetchin o) (hexec.trans (congrArg _ hbody))
      exact ⟨t, ht, hm, hp, hb⟩
end Sys2Proof.Machine
end

section
/-! Proofs about GOPEN, GFREE and the end of a drain, and about SHAPE (R108, R121 to R123, R218). -/
set_option Elab.async false
namespace Sys2Proof.Machine
open Sys2Proof Sys2Proof.Safety

theorem going_withWord {w : Issue} {s : State} (h : Going w s) (n : Nat) : Going { w with word := n } s := ⟨h.mark, h.begun, h.open_, h.queue⟩
/-- A word in progress goes on with its body. -/
theorem issue_going {w : Issue} {s : State} (h : Going w s) (body : Nat → State → State) : issue w body s = .next (body s.turn s) := by
  obtain ⟨hmark, hbegun, hopen, hqueue⟩ := h
  have hmay := (Proc.mayIssue_iff _ _ _).mpr hopen
  unfold issue
  dsimp only
  simp only [hmark, hbegun, Bool.not_false, Bool.true_or, Bool.and_true, hmay, hqueue, Bool.not_true, Bool.or_self, Bool.false_eq_true, ↓reduceIte]

/-! ## Groups -/

/-- The die with a group set. -/
def Die.withGroup (v : Die) (id : Nat) (g : Group) : Die := { v with groups := v.groups.set id g }
theorem State.group_modDie (s : State) (d id : Nat) (g : Group) : ((s.modDie d (fun v => v.withGroup id g)).die d).groups.get Group.free id = g := by
  rw [State.die_modDie_same, Die.withGroup, Table.get_set_same]

theorem getLast?_cons_getLastD {l : List Word} (n : Word) (h : l ≠ []) : l.getLast? = some ((n :: l).getLastD 0) := by
  cases l with
  | nil => exact absurd rfl h
  | cons x l => rw [List.getLast?_cons, List.getLastD_cons, List.getLastD_cons, List.getLastD_eq_getLast?]

theorem execGopen_opens {o : RR} {s : State} {n : Word} {bases : List Word} {va : Word} (hva : va = (s.proc s.turn).word.getG o.a)
    (h : Going { word := 0, gu := o.gu, gs := [o.d.toNat, o.a.toNat], reads := [(0, o.d.toNat), (0, o.a.toNat)], ext := true } s)
    (hfree : ((s.die (dieOfCore (coreOf s.turn))).groups.get Group.free (((s.proc s.turn).word.getG o.d).toNat % 256)).state = 0) (hal : va.toNat % 8 = 0)
    (hin : inLocalStore va.toNat 8 = true) (hbuf : (s.proc s.turn).buf = n :: bases) (hn : 0 < n.toNat) (hmax : n.toNat ≤ 64) (hlen : bases.length = n.toNat)
    (hlast : ∀ b ∈ bases.getLast?, b.toNat % 1024 = 0) :
    execGopen o s = .next ((s.setProc s.turn (s.proc s.turn).pass).modDie (dieOfCore (coreOf s.turn)) (fun v =>
      v.withGroup (((s.proc s.turn).word.getG o.d).toNat % 256) ⟨1, (s.proc s.turn).asid, (s.ctxOf s.turn).origin, bases⟩)) := by
  subst hva
  have hne : bases ≠ [] := by
    rintro rfl
    simp at hlen
    omega
  have hl : ((n :: bases).getLastD 0).toNat % 1024 = 0 := hlast _ (getLast?_cons_getLastD n hne)
  unfold execGopen
  refine (issue_going (going_withWord h (packRR 0x3E 16 o)) _).trans (congrArg _ ?_)
  dsimp only
  rw [if_neg (by exact fun h => h hfree), if_neg (fun h => h hal), if_neg (by simp [hin]), hbuf, if_neg (by simp), if_neg (by simp; omega), if_neg (by simp [hlen]),
    if_neg (fun h => h hl)]
  rfl
theorem State.block_running {s : State} {pk : Nat} (h : (s.proc pk).state = .running) (why : Nat) (edge : Word) (on : Nat) :
    ∃ q : Proc, s.block pk why edge on = s.setProc pk q ∧ q.state = .blocked ∧ q.pc = (s.proc pk).pc := by
  unfold State.block
  dsimp only
  rw [h]
  dsimp only
  refine ⟨_, rfl, ?_, ?_⟩
  · split <;> rfl
  · split <;> rfl
theorem execGfree_clear {o : D1} {s : State} (h : Clear { word := 0, gu := o.gu, gs := [o.d.toNat], reads := [(0, o.d.toNat)], ext := true } s)
    (hopen : s.groupOpen s.turn (((s.proc s.turn).word.getG o.d).toNat % 256) = true) :
    execGfree o s = .next (((s.modDie (dieOfCore (coreOf s.turn)) (fun v => v.withGroup (((s.proc s.turn).word.getG o.d).toNat % 256)
      { (s.groupAt s.turn (((s.proc s.turn).word.getG o.d).toNat % 256)) with state := 2 })).setProc s.turn ((s.proc s.turn).going 1)).block s.turn 4
        (edgeGroup (dieOfCore (coreOf s.turn)) (((s.proc s.turn).word.getG o.d).toNat % 256))) := by
  have hprog : ¬ (s.proc s.turn).prog = 1 := by
    intro hp
    have hs := h.start
    rw [Proc.midWord, hp] at hs
    simp at hs
  unfold execGfree
  refine (issue_clear (clear_withWord h (packD1 0x3E 17 o)) _).trans (congrArg _ ?_)
  dsimp only
  rw [if_neg hprog, if_neg (by simp [hopen])]
  rfl

/-! ## Waking -/

/-- The queue links of a core are in descriptors alone. -/
theorem State.relink_proc (s : State) (c k : Nat) : ∃ d, (s.relink c).proc k = { s.proc k with desc := d } := by
  unfold State.relink
  dsimp only
  generalize (s.core c).queues = qs
  induction qs.flatten generalizing s with
  | nil => exact ⟨_, rfl⟩
  | cons pid rest ih =>
    rw [List.foldl_cons]
    obtain ⟨d, hd⟩ := ih (s.modProc (c * 256 + pid) (fun p =>
      if p.state = .ready then { p with desc := p.status (nextIn (qs.find? (·.contains pid) |>.getD []) pid) :: p.desc.drop 1 } else p))
    by_cases hk : k = c * 256 + pid
    · subst hk
      rw [hd, State.modProc, State.proc_setProc_same]
      split
      · exact ⟨d, rfl⟩
      · exact ⟨d, rfl⟩
    · rw [hd, State.modProc, State.proc_setProc_other _ _ hk]
      exact ⟨d, rfl⟩
/-- A process that has waited waits no more, and stands where it stood. -/
theorem State.wake_proc {s : State} {pk : Nat} (h : (s.proc pk).state = .blocked ∨ (s.proc pk).state = .sleeping) :
    ((s.wake pk).proc pk).pc = (s.proc pk).pc ∧ (((s.wake pk).proc pk).state = .running ∨ ((s.wake pk).proc pk).state = .ready) := by
  have go : ∀ q : Proc, q.state = .ready → q.pc = (s.proc pk).pc →
      (((((s.setProc pk q).modCore (coreOf pk) (·.enqueue (s.proc pk).prio (pidOf pk))).relink (coreOf pk)).proc pk).pc = (s.proc pk).pc ∧
        ((((s.setProc pk q).modCore (coreOf pk) (·.enqueue (s.proc pk).prio (pidOf pk))).relink (coreOf pk)).proc pk).state = .ready) := by
    intro q hq hpc
    obtain ⟨d, hd⟩ := State.relink_proc ((s.setProc pk q).modCore (coreOf pk) (·.enqueue (s.proc pk).prio (pidOf pk))) (coreOf pk) pk
    have hp : ((s.setProc pk q).modCore (coreOf pk) (·.enqueue (s.proc pk).prio (pidOf pk))).proc pk = q := State.proc_setProc_same s pk q
    rw [hd, hp]
    exact ⟨hpc, hq⟩
  unfold State.wake
  dsimp only
  rcases h with h | h
  all_goals
    rw [h]
    dsimp only
    split
    · rw [State.proc_setProc_same]
      exact ⟨rfl, .inl rfl⟩
    · refine ⟨(go _ ?_ ?_).1, .inr (go _ ?_ ?_).2⟩
      all_goals rfl

/-- What GROUP_DRAIN_COMPLETE does with a group that drains and has no pieces. -/
theorem execGroupDrainComplete_drained {s : State} {die group : Nat} (hst : ((s.die die).groups.get Group.free group).state = 2)
    (hno : ∀ k ∈ s.cores, ∀ c ∈ k.2.copyq ++ k.2.copyWait, c.ofGroup group = false) :
    execGroupDrainComplete die group s = .next (
      match s.procs.find? (fun e => decide (e.2.state = .blocked ∧ e.2.why = 4 ∧ e.2.wait = edgeGroup die group)) with
      | some (pk, _) => ((s.modDie die (fun v => v.withGroup group Group.free)).modProc pk (·.pass)).wake pk
      | none => s.modDie die (fun v => v.withGroup group Group.free)) := by
  have hbusy : s.cores.any (fun k => decide (dieOfCore k.1 = die) && (k.2.copyq ++ k.2.copyWait).any (fun c => c.ofGroup group)) = false := by
    rw [List.any_eq_false]
    intro k hk hany
    rw [Bool.and_eq_true, List.any_eq_true] at hany
    obtain ⟨_, c, hc, hof⟩ := hany
    exact absurd (hof.symm.trans (hno k hk c hc)) (by decide)
  unfold execGroupDrainComplete
  dsimp only
  rw [if_neg (by simp only [hst, hbusy]; simp)]
  rfl

/-- Settles O31: GOPEN and GFREE by what their bodies come to, the end of a drain by the one process that waits for it. -/
theorem groupWords : Obligations.GroupWords := by
  unfold Obligations.GroupWords
  refine ⟨?_, ?_, ?_⟩
  · intro o s n bases p id d va hgo hfree hal hin hbuf hn hmax hlen hlast
    refine ⟨_, execGopen_opens rfl hgo hfree hal hin hbuf hn hmax hlen hlast, State.proc_setProc_same _ _ _, rfl, ?_⟩
    exact State.group_modDie _ _ _ _
  · intro o s p id d g w hcl hrun hst hasid horg
    refine ⟨_, execGfree_clear hcl (decide_eq_true ⟨hst, hasid, horg⟩), ?_⟩
    have hr : (((s.modDie d (fun v => v.withGroup id { (s.groupAt s.turn id) with state := 2 })).setProc s.turn (p.going 1)).proc s.turn) = p.going 1 :=
      State.proc_setProc_same _ _ _
    obtain ⟨q, hq, hqs, hqp⟩ := State.block_running (by rw [hr]; exact hrun) 4 (edgeGroup d id) 0
    rw [hq, State.proc_setProc_same]
    refine ⟨hqs, hqp.trans (by rw [hr]; rfl), rfl, ?_⟩
    exact State.group_modDie _ _ _ _
  · intro s die group pk waits hst hno hmem hw huniq
    have hfind : ∃ q, s.procs.find? (fun e => decide (e.2.state = .blocked ∧ e.2.why = 4 ∧ e.2.wait = edgeGroup die group)) = some (pk, q) := by
      have hsome : (s.procs.find? (fun e => decide (e.2.state = .blocked ∧ e.2.why = 4 ∧ e.2.wait = edgeGroup die group))).isSome := by
        rw [List.find?_isSome]
        exact ⟨_, hmem, decide_eq_true hw⟩
      obtain ⟨⟨k, q⟩, he⟩ := Option.isSome_iff_exists.mp hsome
      have hk : k = pk := huniq _ (List.mem_of_find?_eq_some he) (by simpa using List.find?_some he)
      exact ⟨q, hk ▸ he⟩
    obtain ⟨q, hfind⟩ := hfind
    refine ⟨_, (execGroupDrainComplete_drained hst hno).trans (by rw [hfind]), ?_⟩
    have hp : ((s.modDie die (fun v => v.withGroup group Group.free)).modProc pk (·.pass)).proc pk = (s.proc pk).pass :=
      State.proc_setProc_same _ _ _
    obtain ⟨hpc, hstate⟩ := State.wake_proc (s := (s.modDie die (fun v => v.withGroup group Group.free)).modProc pk (·.pass)) (pk := pk)
      (.inl (by rw [hp]; exact hw.1))
    refine ⟨hpc.trans (by rw [hp]; rfl), ?_, (State.memory_wake _ _).1⟩
    rcases hstate with h | h
    · rw [h]
      nofun
    · rw [h]
      nofun

/-! ## SHAPE -/

/-- Tiles of which none is PENDING or VIA let a load go, and it leaves them. -/
theorem State.touchAll_load {s : State} {ts : List (Nat × Nat)} (h : ∀ e ∈ ts, s.tag e.1 e.2 ≠ .pending ∧ s.tag e.1 e.2 ≠ .via) : s.touchAll .load ts = (s, true) := by
  unfold State.touchAll
  induction ts with
  | nil => rfl
  | cons e ts ih =>
    have he := h e List.mem_cons_self
    rw [List.foldl_cons]
    have hrow : TagEvent.load.row (s.tag e.1 e.2) = .go (s.tag e.1 e.2) false := by
      cases ht : s.tag e.1 e.2
      case pending => exact absurd ht he.1
      case via => exact absurd ht he.2
      all_goals rfl
    dsimp only
    rw [hrow]
    exact ih (fun x hx => h x (List.mem_cons_of_mem _ hx))
theorem execShape_reads {o : SH} {s : State} (h : Clear (infoSH o 0) s) {c lo : Nat} {va : Word} {x : BitVec 256} (hc : c = coreOf s.turn)
    (hva : va = (s.proc s.turn).r.getG o.a) (hlo : lo = scratchAddr c (vaOff va)) (hx : x = BitVec.ofNat 256 (s.mem.readN lo 32))
    (hlocal : localCheck va 32 32 [.gs] = none) (hbusy : s.busyTo (.core c) (s.originWord s.turn) (.core c) = false) (hacq : (s.proc s.turn).acquires c (.core c) = false)
    (hturn : s.atTurn (tilesUnder c (vaOff va) 32) (.proc s.turn) = true) (hbar : s.guestBar s.turn 0 lo 32 = none)
    (htags : ∀ e ∈ tilesUnder c (vaOff va) 32, s.tag e.1 e.2 ≠ .pending ∧ s.tag e.1 e.2 ≠ .via) (hhurt : s.hurt lo 32 = false) :
    execShape o s = .next (if shapeBad x then s.raise s.turn ⟨.shapeAlign, va, 0, 0⟩
      else s.modProc s.turn (fun p => p.retire [(3, o.n.toNat)] (p.r.setSh o.n x) (p.pc + 4) false)) := by
  unfold execShape
  have hw : Clear (infoSH o (packSH 0x3B 0 o)) s := clear_withWord h _
  refine (issue_clear hw _).trans (congrArg _ ?_)
  beta_reduce
  extract_lets p va' c'
  have hv : va' = va := hva.symm
  have hc' : c' = c := hc.symm
  rw [hv, hlocal, hc', ← hlo, hbar, State.touchAll_load htags]
  dsimp only
  rw [if_neg (by simp [p, hbusy, hacq, hturn]), ← hx, if_neg (by simp [hhurt])]

/-- Settles O28. -/
theorem shapeLoadsRecord : Obligations.ShapeLoadsRecord := by
  unfold Obligations.ShapeLoadsRecord
  intro o s hcl p c va lo x hlocal hbusy hacq hturn hbar htags hhurt
  have hexec := execShape_reads hcl rfl rfl rfl rfl hlocal hbusy hacq hturn hbar htags hhurt
  refine ⟨fun hx => hexec.trans ?_, fun hx => hexec.trans ?_⟩
  · exact congrArg _ (if_neg (by exact fun h => absurd (h.symm.trans hx) (by decide)))
  · exact congrArg _ (if_pos hx)
end Sys2Proof.Machine
end

section
/-! Counterexample to the statement about the TAG group (R94, R95): the answer of a TFULL goes where `State.keyOf` finds the issuer, and the processes that the
TFULL wakes are written back into the table that `State.keyOf` reads. -/
set_option Elab.async false
namespace Sys2Proof.Machine
open Sys2Proof Sys2Proof.Safety Sys2Proof.Tests

/-- A guest context with the origin of process 0 of core 0. -/
def wTwin (p : Proc) : Proc := { p with guest := true, origin := 66584576 }
/-- One tile of core 0, EMPTY, that g1 names. The table of processes has key 0 twice, and key 5 behind key 9: a process that waits in an ALT, and that the table
moves before key 9 when it is written. -/
def wTwins : State :=
  let s := wTag 1 [] [] []
  { s.modCore 0 (fun k => { k with slots := k.slots ++ [5] }) with
    procs := [(0, s.proc 0), (9, Proc.reset), (0, wTwin Proc.reset), (5, { wTwin Proc.reset with state := .blocked, why := 2 })] }
/-- What the TFULL leaves on its way: an answer, for process 5. -/
theorem wTwins_answer : (after (exec (.tfull ⟨Tests.always, 1, 2⟩) wTwins)).net.all (fun m => match m.body with | .answer k _ _ => decide (k = 5) | _ => true) = true := holds

/-- Refutes O18: TFULL of an EMPTY tile wakes the processes that wait in an ALT. The process table of `wTwins` is out of order and holds two guests with the origin of the
issuer; the one that is woken comes to stand before the other, and the answer goes to it. -/
theorem not_tagWordsTakeEffect : ¬ Obligations.TagWordsTakeEffect := by
  unfold Obligations.TagWordsTakeEffect
  intro h
  have hclear : Clear (infoTG ⟨Tests.always, 1, 2⟩ 0) wTwins := clear_of holds
  obtain ⟨t, ht, _, m, hm, hb⟩ := (h ⟨Tests.always, 1, 2⟩ wTwins wTagPa (Under.plain 0 127) 0 16 hclear).2.2.1 holds holds holds holds holds ⟨holds, holds, holds⟩ holds holds holds
    holds
  have hall := wTwins_answer
  rw [ht, after, List.all_eq_true] at hall
  have hk := hall m hm
  rw [hb] at hk
  exact absurd hk holds
end Sys2Proof.Machine
end

section
/-! Proofs about TQRY, WAITW, FENCE and IFENCE (R95, R247, R249). -/
set_option Elab.async false
namespace Sys2Proof.Machine
open Sys2Proof Sys2Proof.Safety

/-! ## Where a process is known to run, after a write of its context -/

theorem find?_set {α : Type} {t : Table α} {d v : α} {k : Nat} {f : Nat × α → Bool} (hv : f (k, v) = false) (hd : f (k, t.get d k) = false) :
    (t.set k v).find? f = t.find? f := by
  induction t with
  | nil => simp [Table.set, hv]
  | cons e r ih =>
    obtain ⟨j, w⟩ := e
    rw [Table.set]
    split
    · rw [List.find?_cons_of_neg (by simp [hv])]
    split
    · next hk =>
      subst hk
      have hw : f (k, w) = false := by simpa [Table.get] using hd
      rw [List.find?_cons_of_neg (by simp [hv]), List.find?_cons_of_neg (by simp [hw])]
    · next hk =>
      have hg : f (k, Table.get r d k) = false := by
        rw [Table.get, if_neg (fun h => hk h.symm)] at hd
        exact hd
      rw [List.find?_cons, List.find?_cons, ih hg]
theorem any_set {α : Type} {t : Table α} {d v : α} {k : Nat} {f : Nat × α → Bool} (hv : f (k, v) = false) (hd : f (k, t.get d k) = false) : (t.set k v).any f = t.any f := by
  rw [Bool.eq_iff_iff, List.any_eq_true, List.any_eq_true, ← List.find?_isSome, ← List.find?_isSome, find?_set hv hd]
section
variable {s : State} {k : Nat} {q : Proc} (hq : q.guest = false) (hp : (s.proc k).guest = false)
include hq hp
theorem State.keyOf_setProc (w : Nat) : (s.setProc k q).keyOf w = s.keyOf w := by
  have hk : (s.procs.get Proc.reset k).guest = false := hp
  unfold State.keyOf State.setProc
  dsimp only
  rw [find?_set (d := Proc.reset) (by simp [hq]) (by simp [hk])]
theorem State.moduleOf_setProc (ha : q.away = (s.proc k).away) (w : Nat) : (s.setProc k q).moduleOf w = s.moduleOf w := by
  have haway : ((s.setProc k q).proc (wordKey w)).away = (s.proc (wordKey w)).away := by
    by_cases h : wordKey w = k
    · rw [h, State.proc_setProc_same, ha]
    · rw [State.proc_setProc_other _ _ h]
  have hk : (s.procs.get Proc.reset k).guest = false := hp
  unfold State.moduleOf
  rw [haway]
  unfold State.setProc
  dsimp only
  rw [any_set (d := Proc.reset) (by simp [hq]) (by simp [hk])]
end

/-! ## One request of the TAG group, at its home -/

/-- The tiles of a range lie in the scratchpad of a core, which is their home. -/
theorem homeOf_of_tagRange {s : State} {f n pa c t : Nat} (hr : tagRange f n pa = .ok (c, t)) (hh : s.isHere pa = true) : s.homeOf pa = .core c := by
  unfold tagRange at hr
  split at hr
  · cases hr
  split at hr
  case h_2 => cases hr
  next c' off hp =>
    unfold State.homeOf
    rw [hh, hp]
    dsimp only at hr
    split at hr
    · cases hr
    split at hr
    · cases hr
    split at hr
    · cases hr
    split at hr
    · cases hr
    cases hr
    rfl
/-- The request of a word of the TAG group for one tile. -/
def State.tagReq (s : State) (f : Nat) (ea : Word) (pa : Nat) (u : Under) (c t pk : Nat) : Req :=
  ⟨0, .core (coreOf pk), s.originWord pk, s.nextId, s.homeOf pa, .tag f c t 1, ea, u, false, false, none, (s.proc pk).pc, if f = 3 ∨ f = 4 then s.limitFor pk pa else 0, false, false⟩
theorem State.tagReqs_one {s : State} {f : Nat} {ea : Word} {pa : Nat} {u : Under} {c t pk : Nat} (hh : s.isHere pa = true) :
    s.tagReqs f 1 ea pa u c t s.nextId pk = [s.tagReq f ea pa u c t pk] := by
  unfold State.tagReqs
  dsimp only
  rw [if_neg (by simp [hh])]
  rfl
/-- The process with the operation of a word of the TAG group. -/
def Proc.tagOpen (p : Proc) (op l : Nat) (dest : Dest) (ea : Word) (writes : List RegRef) (h : Home) : Proc := p.open_ op l false .sync dest ea 0 writes (some h)
theorem tagSend_one {s : State} {a : Access} {f l : Nat} {ea : Word} {pa : Nat} {u : Under} {c t : Nat} {dest : Dest} {writes : List RegRef} (hr : Reaches s a ea pa u)
    (hh : s.isHere pa = true) (hbusy : s.busyTo (.core (coreOf s.turn)) (s.originWord s.turn) (s.homeOf pa) = false) :
    tagSend f 1 l ea pa u c t dest writes s.turn s =
      (({ s with nextId := s.nextId + 1 } : State).setProc s.turn ((s.proc s.turn).tagOpen s.nextId l dest ea writes (s.homeOf pa))).sendPart s.turn
        (s.tagReq f ea pa u c t s.turn) := by
  unfold tagSend
  dsimp only
  rw [if_neg (by simp [hr.runs]), if_neg (by simp [hr.free, hbusy]), State.tagReqs_one hh]
  rfl
theorem State.settle_nil {s : State} (h : s.held = []) : s.settle = s := by
  rw [State.settle, h, List.length_nil, State.settleN, h, State.sweep]
/-- A request of this module with a translation is at its home at once. -/
theorem sendPart_here {s : State} {pk c : Nat} {r : Req} (hstale : r.stale = false) (hhome : r.home = .core c) (hguest : (s.proc pk).guest = false) :
    s.sendPart pk r = ({ s with nextId := s.nextId + 1 } : State).arriveReq { r with id := s.nextId } := by
  have hg : ¬ (false || (({ s with nextId := s.nextId + 1 } : State).proc pk).guest) = true := by
    rw [show ({ s with nextId := s.nextId + 1 } : State).proc pk = s.proc pk from rfl, hguest]
    decide
  unfold State.sendPart
  dsimp only
  rw [hstale, hhome]
  exact (if_neg Bool.false_ne_true).trans (if_neg hg)
/-- The message that answers a request of the process of a key. -/
theorem State.reply_here {s : State} {r : Req} {k : Nat} (hsrc : r.src = .core k) (hm : s.moduleOf r.who = s.modid) (a : Answer) :
    s.reply r a = s.send r.home.src (.core (coreOf (s.keyOf r.who))) (.answer (s.keyOf r.who) r.op a) := by
  unfold State.reply State.answer
  rw [hsrc]
  exact if_pos hm
theorem State.send_last (s : State) (a : Src) (d : Home) (b : Body) : ∃ m ∈ (s.send a d b).net, m.body = b :=
  ⟨_, List.mem_append_right _ (List.mem_singleton_self _), rfl⟩

/-- What a TQRY of one tile comes to at its home. -/
theorem arriveReq_query {s : State} {r : Req} {c t k : Nat} (hrop : r.rop = .tag 2 c t 1) (hheld : s.held = []) (hstale : r.stale = false) (hsrc : r.src = .core k)
    (hm : s.moduleOf r.who = s.modid) :
    s.arriveReq r = s.send r.home.src (.core (coreOf (s.keyOf r.who))) (.answer (s.keyOf r.who) r.op (.vals [BitVec.ofNat 1024 (s.snapshot c t)])) := by
  have hv : (List.range 1).foldl (fun a i => a + s.snapshot c (t + i) * 16 ^ i) 0 = s.snapshot c t := by simp
  have htry (r' : Req) (h1 : r'.rop = r.rop) (h2 : r'.stale = r.stale) (h3 : r'.src = r.src) (h4 : r'.who = r.who) (h5 : r'.op = r.op) (h6 : r'.home = r.home) :
      s.tryReq r' = (s.send r.home.src (.core (coreOf (s.keyOf r.who))) (.answer (s.keyOf r.who) r.op (.vals [BitVec.ofNat 1024 (s.snapshot c t)])), true) := by
    unfold State.tryReq
    rw [h2, hstale, if_neg Bool.false_ne_true, h1, hrop]
    dsimp only
    rw [if_pos rfl, hv, State.reply_here (h3.trans hsrc) (h4 ▸ hm), h4, h5, h6]
  unfold State.arriveReq
  extract_lets pulls r'
  rw [hheld, List.any_nil, if_neg Bool.false_ne_true, htry r' rfl rfl rfl rfl rfl rfl]
  exact State.settle_nil hheld

/-- The state once the request of a word of the TAG group has left the process. -/
def State.tagAsked (s : State) (q : Proc) : State := ({ s with nextId := s.nextId + 2 } : State).setProc s.turn q
/-- A TQRY of one tile of this module, with nothing held, is answered at once. -/
theorem tagSend_query {s : State} {a : Access} {l : Nat} {ea : Word} {pa : Nat} {u : Under} {c t : Nat} {dest : Dest} {writes : List RegRef} (hr : Reaches s a ea pa u)
    (hh : s.isHere pa = true) (hbusy : s.busyTo (.core (coreOf s.turn)) (s.originWord s.turn) (s.homeOf pa) = false) (hrange : tagRange 2 1 pa = .ok (c, t))
    (hguest : (s.proc s.turn).guest = false) (hkey : s.keyOf (s.originWord s.turn) = s.turn) (hmod : s.moduleOf (s.originWord s.turn) = s.modid) (hheld : s.held = []) :
    tagSend 2 1 l ea pa u c t dest writes s.turn s =
      (s.tagAsked ((s.proc s.turn).tagOpen s.nextId l dest ea writes (s.homeOf pa))).send (s.homeOf pa).src (.core (coreOf s.turn))
        (.answer s.turn s.nextId (.vals [BitVec.ofNat 1024 (s.snapshot c t)])) := by
  rw [tagSend_one hr hh hbusy]
  generalize hq : (s.proc s.turn).tagOpen s.nextId l dest ea writes (s.homeOf pa) = q
  have hqg : q.guest = false := by
    rw [← hq]
    exact hguest
  have hqa : q.away = (s.proc s.turn).away := by
    rw [← hq]
    rfl
  have hsame : (({ s with nextId := s.nextId + 1 } : State).setProc s.turn q).proc s.turn = q := State.proc_setProc_same _ _ _
  have hk : (s.tagAsked q).keyOf (s.originWord s.turn) = s.turn := (State.keyOf_setProc (s := { s with nextId := s.nextId + 2 }) hqg hguest _).trans hkey
  have hm : (s.tagAsked q).moduleOf (s.originWord s.turn) = (s.tagAsked q).modid :=
    (State.moduleOf_setProc (s := { s with nextId := s.nextId + 2 }) hqg hguest hqa _).trans hmod
  rw [sendPart_here (r := s.tagReq 2 ea pa u c t s.turn) rfl (homeOf_of_tagRange hrange hh) (by rw [hsame, hqg])]
  refine (arriveReq_query (s := s.tagAsked q) (r := { s.tagReq 2 ea pa u c t s.turn with id := s.nextId + 1 }) (k := coreOf s.turn) rfl hheld rfl rfl hm).trans ?_
  dsimp only [State.tagReq]
  rw [hk]
  rfl

/-- Settles O19. -/
theorem tagQueriesAndFences : Obligations.TagQueriesAndFences := by
  unfold Obligations.TagQueriesAndFences
  refine ⟨⟨fun o s pa u c tile hcl => ?_, fun g s hcl hw => ?_⟩, fun o s hcl hno => ?_, fun g s hcl hun => ?_⟩
  · intro p
    have hexec := execTqry_clear hcl
    refine ⟨fun hn => ?_, fun hn hguest hkey hmod hheld hh hr hrange hbusy => ?_⟩
    · refine hexec.trans (congrArg _ ?_)
      unfold tqryBody
      dsimp only
      have h0 : ((s.proc s.turn).r.getG o.b).toNat = 0 := congrArg BitVec.toNat hn
      rw [if_pos h0]
      rfl
    · have hbody : tqryBody o s.turn s = tagSend 2 1 0 (p.r.getG o.a) pa u c tile (.g o.d 8 false) [(0, o.d.toNat)] s.turn s := by
        have h1 : (p.r.getG o.b).toNat = 1 := congrArg BitVec.toNat hn
        unfold tqryBody
        dsimp only
        rw [h1, if_neg Nat.one_ne_zero, State.translated_ok hr.translates, hrange]
        rfl
      have hsend := hexec.trans (congrArg _ (hbody.trans (tagSend_query hr hh hbusy hrange hguest hkey hmod hheld)))
      obtain ⟨m, hm, hb⟩ := State.send_last (s.tagAsked (p.tagOpen s.nextId 0 (.g o.d 8 false) (p.r.getG o.a) [(0, o.d.toNat)] (s.homeOf pa))) (s.homeOf pa).src
        (.core (coreOf s.turn)) (.answer s.turn s.nextId (.vals [BitVec.ofNat 1024 (s.snapshot c tile)]))
      exact ⟨_, m, hsend, hm, hb, State.proc_setProc_same _ _ _⟩
  · have hw' : Clear { word := packG0 0x21 7 g, gu := g, ext := true } s := clear_withWord hcl _
    change execWaitw g s = _
    unfold execWaitw
    refine (issue_clear hw' _).trans (congrArg _ ?_)
    exact if_pos hw
  · have hempty : ((List.range 6).filter (fun b => o.before.getLsbD b && s.incomplete s.turn (scopeLevel o.scope) b)) = [] := by
      rw [List.filter_eq_nil_iff]
      intro b hb
      have hb6 := List.mem_range.mp hb
      cases hbit : o.before.getLsbD b
      · simp
      · simp [hno b hb6 hbit]
    have hw : Clear (infoFN o (packFN 0x29 o)) s := clear_withWord hcl _
    change execFence o s = _
    unfold execFence
    refine (issue_clear hw _).trans (congrArg _ ?_)
    dsimp only
    rw [hempty]
    rfl
  · have hw : Clear { word := packG0 0x3E 11 g, gu := g, ext := true } s := clear_withWord hcl _
    have hexec : execIfence g s = .next ((s.modCore (coreOf s.turn) (fun c => { c with ibuf := [] })).modProc s.turn Proc.pass) := by
      unfold execIfence
      refine (issue_clear hw _).trans (congrArg _ ?_)
      exact if_neg (by simp [hun])
    refine ⟨_, hexec, ?_, State.proc_setProc_same _ _ _, rfl⟩
    rw [State.core_modProc, State.core_modCore_same]
end Sys2Proof.Machine
end

section
/-! Proofs about PULL of one tile (R100, R147). -/
set_option Elab.async false
namespace Sys2Proof.Machine
open Sys2Proof Sys2Proof.Safety

/-! ## What waiting leaves: messages and tags -/

/-- From s to t no message has been sent and no tag has changed. -/
def Quiet (s t : State) : Prop := t.net = s.net ∧ ∀ c n, t.tag c n = s.tag c n
theorem Quiet.refl (s : State) : Quiet s s := ⟨rfl, fun _ _ => rfl⟩
theorem Quiet.trans {s t u : State} (h : Quiet s t) (h' : Quiet t u) : Quiet s u := ⟨h'.1.trans h.1, fun c n => (h'.2 c n).trans (h.2 c n)⟩
theorem Quiet.of_cores {s t : State} (hn : t.net = s.net) (hc : t.cores = s.cores) : Quiet s t :=
  ⟨hn, fun c n => by rw [State.tag, State.core, hc, State.tag, State.core]⟩
theorem Quiet.foldl {α : Type} {f : State → α → State} (hf : ∀ s a, Quiet s (f s a)) (l : List α) (s : State) : Quiet s (l.foldl f s) := by
  induction l generalizing s with
  | nil => exact Quiet.refl s
  | cons a l ih => exact (hf s a).trans (ih _)
theorem quiet_setProc (s : State) (pk : Nat) (p : Proc) : Quiet s (s.setProc pk p) := Quiet.of_cores rfl rfl
theorem quiet_modCore (s : State) (c : Nat) {f : Core → Core} (hf : ∀ n, (f (s.core c)).tag n = (s.core c).tag n) : Quiet s (s.modCore c f) := by
  refine ⟨rfl, fun k n => ?_⟩
  by_cases h : k = c
  · subst h
    rw [State.tag, State.core_modCore_same, hf, State.tag]
  · rw [State.tag, State.core_modCore_other _ _ h, State.tag]
theorem quiet_relink (s : State) (c : Nat) : Quiet s (s.relink c) := Quiet.foldl (fun _ _ => quiet_setProc _ _ _) _ s
theorem quiet_writeSave (s : State) (pk : Nat) (parked : Bool) : Quiet s (s.writeSave pk parked) := by
  unfold State.writeSave
  extract_lets p base at_ items rec0 m1 m2
  refine Quiet.trans (t := (((0x60, 0x100, 0) :: items).foldl (fun (s : State) e => s.heal (at_ e.1) e.2.1) ({ s with mem := m2, fresh := s.fresh + rec0.length } : State))) ?_ ?_
  · refine Quiet.trans (t := { s with mem := m2, fresh := s.fresh + rec0.length }) (Quiet.of_cores rfl rfl) ?_
    refine Quiet.foldl (fun s e => ?_) _ _
    exact Quiet.of_cores rfl rfl
  · exact quiet_setProc _ _ _
theorem quiet_block (s : State) (pk why : Nat) (edge : Word) (on : Nat) : Quiet s (s.block pk why edge on) := by
  unfold State.block
  extract_lets p q out s1
  have h1 : Quiet s (((((s1).setProc pk out).writeSave pk false).heal (scratchAddr (coreOf pk) (0xC0000 + 256 * pidOf pk)) 256).relink (coreOf pk)) := by
    refine Quiet.trans (t := s1) (quiet_modCore _ _ fun _ => rfl) ?_
    refine Quiet.trans (t := s1.setProc pk out) (quiet_setProc _ _ out) ?_
    refine Quiet.trans (quiet_writeSave _ pk false) ?_
    exact Quiet.trans (t := (((s1).setProc pk out).writeSave pk false).heal (scratchAddr (coreOf pk) (0xC0000 + 256 * pidOf pk)) 256) (Quiet.of_cores rfl rfl) (quiet_relink _ _)
  split
  · exact h1
  · exact h1
  · exact quiet_setProc _ _ _
/-- A request of the TAG group that waits tells nobody, and leaves the tags. -/
theorem quiet_notify {s : State} {r : Req} {f c t n : Nat} (hrop : r.rop = .tag f c t n) : Quiet s (s.notify r) := by
  have hp : s.promotionHeld r = false := by
    unfold State.promotionHeld
    rw [hrop]
  unfold State.notify
  rw [hp, Bool.false_and, if_neg Bool.false_ne_true]
  split
  · exact Quiet.refl s
  extract_lets mark lent
  rw [hrop]
  dsimp only
  split
  · exact (quiet_block _ _ _ _ _).trans (Quiet.of_cores rfl rfl)
  · exact Quiet.refl s
theorem quiet_hold {s : State} {r : Req} {f c t n : Nat} (hrop : r.rop = .tag f c t n) (hsync : r.isSync = false) : Quiet s (s.hold r) := by
  unfold State.hold
  rw [hsync, Bool.false_and, Bool.false_and, if_neg Bool.false_ne_true]
  exact Quiet.trans (t := { s with held := s.held ++ [r] }) (Quiet.of_cores rfl rfl) (quiet_notify hrop)

/-! ## A pull -/

theorem Core.tag_setTag (k : Core) (t : Nat) (v : Tag) : (k.setTag t v).tag t = v := by
  unfold Core.setTag Core.tag
  by_cases h : t < 2560
  · rw [if_pos h, if_pos h, Table.get_set_same]
  · rw [if_neg h, if_neg h, Table.get_set_same]
theorem quiet_leaveVia (s : State) (c i : Nat) (m : Mark) (t : Nat) : Quiet s (s.leaveVia c i m t) := by
  unfold State.leaveVia
  dsimp only
  split
  · exact quiet_modCore _ _ fun _ => rfl
  · exact quiet_modCore _ _ fun _ => rfl
theorem startPull_asks {s : State} {c t i : Nat} {m : Mark} (hm : (s.core c).markOf t = some (i, m)) :
    (s.startPull c t).tag c t = .pending ∧
    ∃ x ∈ (s.startPull c t).net, x.dst = m.lender ∧ x.body = .pullRead m.lend (m.src + (t - m.tile) * m.tsize) c t (s.markHandle c i m) := by
  unfold State.startPull
  rw [hm]
  dsimp only
  obtain ⟨hnet, htag⟩ := quiet_leaveVia ((s.modCore c (·.setTag t .pending)).send (.core c) m.lender
    (.pullRead m.lend (m.src + (t - m.tile) * m.tsize) c t ((s.modCore c (·.setTag t .pending)).markHandle c i m))) c i
    { m with pristine := false, pulling := m.pulling ++ [(t, s.nextId)] } t
  refine ⟨?_, ?_⟩
  · refine (htag c t).trans ?_
    rw [State.tag, State.core_send, State.core_modCore_same, Core.tag_setTag]
  · refine ⟨⟨s.nextId, .core c, m.lender, .pullRead m.lend (m.src + (t - m.tile) * m.tsize) c t (s.markHandle c i m), none, false⟩, ?_, rfl, rfl⟩
    rw [show (s.modCore c (·.setTag t .pending)).markHandle c i m = s.markHandle c i m from rfl] at hnet
    rw [hnet]
    exact List.mem_append_right _ (List.mem_singleton_self _)

section arrive
variable {s : State} {r : Req} {c t : Nat} (hrop : r.rop = .tag 7 c t 1) (hheld : s.held = []) (hstale : r.stale = false)
include hrop hheld hstale
/-- A PULL of a FULL tile is answered at once. -/
theorem arriveReq_pull_full {k : Nat} (htag : s.tag c t = .full) (hsrc : r.src = .core k) (hm : s.moduleOf r.who = s.modid) (hrel : r.released = false) :
    s.arriveReq r = s.send r.home.src (.core (coreOf (s.keyOf r.who))) (.answer (s.keyOf r.who) r.op (.vals [])) := by
  have htry (r' : Req) (h1 : r'.rop = r.rop) (h2 : r'.stale = r.stale) (h3 : r'.src = r.src) (h4 : r'.who = r.who) (h5 : r'.op = r.op) (h6 : r'.home = r.home) :
      s.tryReq r' = (s.send r.home.src (.core (coreOf (s.keyOf r.who))) (.answer (s.keyOf r.who) r.op (.vals [])), true) := by
    unfold State.tryReq
    rw [h2, hstale, if_neg Bool.false_ne_true, h1, hrop]
    dsimp only
    rw [if_neg (by decide), if_neg (by decide), if_neg (by decide), if_pos rfl, if_neg (by simp [htag]), if_neg (by simp [htag]), State.reply_here (h3.trans hsrc) (h4 ▸ hm), h4, h5, h6]
  unfold State.arriveReq
  extract_lets pulls r'
  rw [hheld, List.any_nil, if_neg Bool.false_ne_true, htry r' rfl rfl rfl rfl rfl rfl]
  exact State.settle_nil hheld
/-- A PULL of a VIA tile starts its pull, and waits. -/
theorem arriveReq_pull_via {i : Nat} {m : Mark} (htag : s.tag c t = .via) (hm : (s.core c).markOf t = some (i, m)) : Quiet (s.startPull c t) (s.arriveReq r) := by
  have htry (r' : Req) (h1 : r'.rop = r.rop) (h2 : r'.stale = r.stale) (h3 : r'.released = true) : s.tryReq r' = (s.startPull c t, false) := by
    unfold State.tryReq
    rw [h2, hstale, if_neg Bool.false_ne_true, h1, hrop]
    dsimp only
    rw [if_neg (by decide), if_neg (by decide), if_neg (by decide), if_pos rfl, if_pos ⟨htag, h3⟩]
  unfold State.arriveReq
  extract_lets pulls r'
  have hpulls : pulls = true := by
    unfold pulls
    rw [hrop]
    simp [htag]
  have hrel : r'.released = true := by
    show (r.released || pulls) = true
    rw [hpulls, Bool.or_true]
  have hr' : r'.rop = .tag 7 c t 1 := hrop
  have hsync : r'.isSync = false := by
    unfold Req.isSync
    rw [hr']
    rfl
  rw [hheld, List.any_nil, if_neg Bool.false_ne_true, htry r' rfl rfl hrel]
  exact quiet_hold hr' hsync
end arrive

/-- What PULL does (R147). -/
def pullBody (o : T2) (pk : Nat) (s : State) : State :=
  let p := s.proc pk
  let n := (p.r.getG o.b).toNat
  let ea := p.r.getG o.a
  if n = 0 then s.setProc pk p.pass
  else s.translated pk .rd 7 ea.toNat (fun pa u s =>
    match tagRange 7 n pa with
    | .error c => s.raise pk ⟨c, ea, 0, 0⟩
    | .ok (c, t) => tagSend 7 n o.l.toNat ea pa u c t .none [] pk s)
theorem execPull_clear {o : T2} {s : State} (h : Clear (infoT2 o 0) s) : execPull o s = .next (pullBody o s.turn s) := by
  have hw : Clear (infoT2 o (packT2 0x3D 9 o)) s := clear_withWord h _
  unfold execPull
  exact (issue_clear hw _).trans rfl

/-- Where a request of the TAG group comes to, of a process of this module. -/
theorem tagSend_arrives {s : State} {a : Access} {f l : Nat} {ea : Word} {pa : Nat} {u : Under} {c t : Nat} {dest : Dest} {writes : List RegRef} (hr : Reaches s a ea pa u)
    (hh : s.isHere pa = true) (hbusy : s.busyTo (.core (coreOf s.turn)) (s.originWord s.turn) (s.homeOf pa) = false) (hrange : tagRange f 1 pa = .ok (c, t))
    (hguest : (s.proc s.turn).guest = false) :
    tagSend f 1 l ea pa u c t dest writes s.turn s = (s.tagAsked ((s.proc s.turn).tagOpen s.nextId l dest ea writes (s.homeOf pa))).arriveReq
      { s.tagReq f ea pa u c t s.turn with id := s.nextId + 1 } := by
  rw [tagSend_one hr hh hbusy]
  generalize hq : (s.proc s.turn).tagOpen s.nextId l dest ea writes (s.homeOf pa) = q
  have hqg : q.guest = false := by
    rw [← hq]
    exact hguest
  have hsame : (({ s with nextId := s.nextId + 1 } : State).setProc s.turn q).proc s.turn = q := State.proc_setProc_same _ _ _
  rw [sendPart_here (r := s.tagReq f ea pa u c t s.turn) rfl (homeOf_of_tagRange hrange hh) (by rw [hsame, hqg])]
  rfl
/-- The context of the issuer is found where it was, once its operation is outstanding. -/
theorem State.keyOf_tagAsked {s : State} {q : Proc} (hq : q.guest = false) (hguest : (s.proc s.turn).guest = false) (w : Nat) : (s.tagAsked q).keyOf w = s.keyOf w :=
  State.keyOf_setProc (s := { s with nextId := s.nextId + 2 }) hq hguest w
theorem State.moduleOf_tagAsked {s : State} {q : Proc} (hq : q.guest = false) (ha : q.away = (s.proc s.turn).away) (hguest : (s.proc s.turn).guest = false) (w : Nat) :
    (s.tagAsked q).moduleOf w = s.moduleOf w :=
  State.moduleOf_setProc (s := { s with nextId := s.nextId + 2 }) hq hguest ha w

/-- Settles O35: the request of the tile is at its home at once, and is answered there or starts the pull. -/
theorem pullOneTile : Obligations.PullOneTile := by
  unfold Obligations.PullOneTile
  intro o s pa u c tile hcl p ea
  have hexec := execPull_clear hcl
  refine ⟨fun hn => ?_, fun hn hguest hkey hmod hheld hr hh hrange hbusy => ?_⟩
  · have h0 : ((s.proc s.turn).r.getG o.b).toNat = 0 := congrArg BitVec.toNat hn
    refine hexec.trans (congrArg _ ?_)
    unfold pullBody
    exact if_pos h0
  have hbody : pullBody o s.turn s = tagSend 7 1 o.l.toNat ea pa u c tile .none [] s.turn s := by
    have h1 : (p.r.getG o.b).toNat = 1 := congrArg BitVec.toNat hn
    unfold pullBody
    dsimp only
    rw [h1, if_neg Nat.one_ne_zero, State.translated_ok hr.translates, hrange]
  have hsend := hexec.trans (congrArg _ (hbody.trans (tagSend_arrives hr hh hbusy hrange hguest)))
  generalize hq : (s.proc s.turn).tagOpen s.nextId o.l.toNat .none ea [] (s.homeOf pa) = q at hsend
  have hqg : q.guest = false := by
    rw [← hq]
    exact hguest
  have hqa : q.away = (s.proc s.turn).away := by
    rw [← hq]
    rfl
  refine ⟨fun htag => ?_, fun i m htag hm => ?_⟩
  · have harr := arriveReq_pull_full (s := s.tagAsked q) (r := { s.tagReq 7 ea pa u c tile s.turn with id := s.nextId + 1 }) (k := coreOf s.turn) rfl hheld rfl htag rfl
      ((State.moduleOf_tagAsked hqg hqa hguest _).trans hmod) rfl
    dsimp only [State.tagReq] at harr
    rw [State.keyOf_tagAsked hqg hguest, hkey] at harr
    refine ⟨_, hsend.trans (congrArg _ harr), htag, State.send_last _ _ _ _⟩
  · have harr := arriveReq_pull_via (s := s.tagAsked q) (r := { s.tagReq 7 ea pa u c tile s.turn with id := s.nextId + 1 }) (i := i) (m := m) rfl hheld rfl htag hm
    obtain ⟨ht, x, hx, hd, hb⟩ := startPull_asks (s := s.tagAsked q) (c := c) (t := tile) (i := i) (m := m) hm
    refine ⟨_, hsend, (harr.2 c tile).trans ht, x, ?_, hd, hb⟩
    rw [harr.1]
    exact hx
end Sys2Proof.Machine
end

section
/-! Proofs about the words of the CHAN group that leave for a channel home (R130, R133, R140, R145, R150). -/
set_option Elab.async false
namespace Sys2Proof.Machine
open Sys2Proof Sys2Proof.Safety

/-- The fields of an operation that its operand's translation leaves. -/
structure ChanOp.Same (q o : ChanOp) : Prop where
  form : o.form = q.form
  handle : o.handle = q.handle
  who : o.who = q.who
  op : o.op = q.op
  asid : o.asid = q.asid
  priv : o.priv = q.priv
  limit : o.limit = q.limit
theorem chanVa_same {s : State} {x : Ctx} {now : Bool} {q o : ChanOp} {ty : BitVec 16} (h : s.chanVa x now q ty = some o) : q.Same o := by
  unfold State.chanVa at h
  extract_lets T len no a at h
  have hno (c : Cause) (h : no c = some o) : q.Same o := by
    cases h
    exact ⟨rfl, rfl, rfl, rfl, rfl, rfl, rfl⟩
  split at h
  · cases h
    exact ⟨rfl, rfl, rfl, rfl, rfl, rfl, rfl⟩
  split at h
  · split at h
    · cases h
      exact ⟨rfl, rfl, rfl, rfl, rfl, rfl, rfl⟩
    · exact hno _ h
  split at h
  · exact hno _ h
  split at h
  · cases h
  · cases h
    exact ⟨rfl, rfl, rfl, rfl, rfl, rfl, rfl⟩
  · extract_lets good at h
    split at h
    · exact hno _ h
    split at h
    · exact hno _ h
    · cases h
      exact ⟨rfl, rfl, rfl, rfl, rfl, rfl, rfl⟩

/-- The operation of a word of the CHAN group, before its operand is translated. -/
def State.chanAsked (s : State) (form : Nat) (h v x : Word) : ChanOp :=
  { blankOp with
    id := s.nextId, who := s.originWord s.turn, op := s.nextId, form := form, handle := h, val := v, va := x, asid := (s.proc s.turn).asid, priv := (s.proc s.turn).priv
    limit := (s.proc s.turn).r.ctl.timeout.toNat % 2 ^ 40, via := .core (coreOf s.turn) }
/-- The channel home of a handle. -/
def State.chanHome (s : State) (h : Word) : Home :=
  if decide (hModule h ≠ s.modid) then .remote (hModule h) else if hKind h = 0 ∨ hKind h = 3 then .core (hHome h) else .mmio 1
/-- What carries an operation to its home. -/
def chanCarrier (form : Nat) (h : Word) (o : ChanOp) : Body := if form = 5 ∨ form = 7 then .chanRecv (hHome h) o else .chanSend (hHome h) o
/-- The process with its operation on a channel outstanding. -/
def Proc.chanOpen (p : Proc) (op form l : Nat) (h : Word) (dest : Dest) (ws : List RegRef) (away : Bool) (o : ChanOp) : Proc :=
  let q := p.open_ op l false .chan dest h (if form = 5 ∨ form = 7 then 3 else 0) ws none [] o.under
  if away && decide (form = 4 ∨ form = 6 ∨ form = 8) then { q with far := q.far ++ [(5, op)] } else q
/-- The state once the operation has left. -/
def State.chanSent (s : State) (form l : Nat) (h : Word) (dest : Dest) (ws : List RegRef) (o : ChanOp) : State :=
  (({ s with nextId := s.nextId + 1 } : State).route (.core (coreOf s.turn)) (coreOf s.turn) s.turn (s.proc s.turn).asid (s.askey.get 0 (s.proc s.turn).asid) (s.chanHome h)
    (chanCarrier form h o)).modProc s.turn (fun p => p.chanOpen s.nextId form l h dest ws (decide (hModule h ≠ s.modid)) o)

section leaves
variable {s : State} {form word l : Nat} {h v x : Word} {dest : Dest} {ws : List RegRef} {o : ChanOp}
theorem chanBody_sends (hv : v = if form = 5 then BitVec.ofNat 64 word else x) (hnamed : s.handleNamed form h = true)
    (hclose : form = 1 → hKind h ≠ 0 → (s.proc s.turn).priv = true)
    (hrecv : form = 5 → hKind h = 1 → decide (hModule h ≠ s.modid) = false → (s.unit (hSlot h)).unit = 9 → (s.proc s.turn).priv = true)
    (haway : s.awayWait s.turn (s.chanHome h) = false) (hclear : form = 4 ∨ form = 6 ∨ form = 8 → (s.proc s.turn).clearHere = true)
    (hva : s.chanVa (s.ctxOf s.turn) false (s.chanAsked form h v x) (hType h) = some o) : chanBody form word l h x dest ws s.turn s = s.chanSent form l h dest ws o := by
  have h1 : ¬ (form = 1 ∧ hKind h ≠ 0 ∧ (s.proc s.turn).priv = false) := by
    rintro ⟨hf, hk, hp⟩
    exact absurd (hp.symm.trans (hclose hf hk)) (by decide)
  have h2 : ¬ (form = 5 ∧ hKind h = 1 ∧ hModule h = s.modid ∧ (s.unit (hSlot h)).unit = 9 ∧ (s.proc s.turn).priv = false) := by
    rintro ⟨hf, hk, hm, hu, hp⟩
    exact absurd (hp.symm.trans (hrecv hf hk (by simp [hm]) hu)) (by decide)
  have h3 : ¬ (decide (form = 4 ∨ form = 6 ∨ form = 8) && !(s.proc s.turn).clearHere) = true := by
    intro hb
    rw [Bool.and_eq_true, decide_eq_true_eq] at hb
    rw [hclear hb.1] at hb
    exact absurd hb.2 (by decide)
  subst hv
  unfold chanBody
  extract_lets p away sends dst op blank q
  rw [if_neg (by simp [hnamed]), if_neg h1, if_neg h2]
  have hdst : dst = s.chanHome h := rfl
  have hq : q = s.chanAsked form h (if form = 5 then BitVec.ofNat 64 word else x) x := rfl
  rw [hdst, hq, if_neg (by simp [haway]), if_neg h3, hva]
  rfl
/-- The operation leaves by a message on this module. -/
theorem chanSent_here (hm : decide (hModule h ≠ s.modid) = false) : (s.chanSent form l h dest ws o).outbox = s.outbox ∧
    ∃ n, (s.chanSent form l h dest ws o).net = s.net ++ [⟨n, .core (coreOf s.turn), s.chanHome h, chanCarrier form h o, none, false⟩] := by
  have hacc : (chanCarrier form h o).access.1 = 6 := by
    unfold chanCarrier
    split <;> rfl
  have hhome : ∀ m, s.chanHome h ≠ .remote m := by
    intro m
    unfold State.chanHome
    rw [hm, if_neg Bool.false_ne_true]
    split <;> nofun
  unfold State.chanSent State.route State.routeFor
  cases hh : s.chanHome h
  case remote m => exact absurd hh (hhome m)
  all_goals
    rw [hacc]
    dsimp only
    rw [if_neg (by simp)]
    exact ⟨rfl, s.nextId + 1, rfl⟩
/-- It leaves by a packet for another module. -/
theorem chanSent_away (hm : decide (hModule h ≠ s.modid) = true) : (s.chanSent form l h dest ws o).net = s.net ∧
    ∃ k : Packet, (s.chanSent form l h dest ws o).outbox = s.outbox ++ [k] ∧ k.target = hModule h ∧ k.body = chanCarrier form h o := by
  unfold State.chanSent State.chanHome State.route State.routeFor
  rw [if_pos hm]
  exact ⟨rfl, _, rfl, rfl, rfl⟩
theorem chanSent_mem : (s.chanSent form l h dest ws o).mem = s.mem := by
  unfold State.chanSent State.route State.routeFor
  dsimp only
  split
  · rfl
  · split <;> rfl
theorem chanSent_proc : (s.chanSent form l h dest ws o).proc s.turn = (s.proc s.turn).chanOpen s.nextId form l h dest ws (decide (hModule h ≠ s.modid)) o := by
  unfold State.chanSent
  rw [State.proc_modProc_same]
  congr 1
  unfold State.route State.routeFor
  dsimp only
  split
  · rfl
  · split <;> rfl
end leaves

/-- What the statement says of a word of the CHAN group. -/
def chanLeaves (s : State) (i : Instr) (w : Issue) (form l : Nat) (h v x : Word) (dest : Dest) (ws : List RegRef) : Prop :=
  let p := s.proc s.turn
  let me := coreOf s.turn
  let receives := decide (form = 5 ∨ form = 7)
  let away := decide (hModule h ≠ s.modid)
  let dst : Home := if away then .remote (hModule h) else if hKind h = 0 ∨ hKind h = 3 then .core (hHome h) else .mmio 1
  let body (o : ChanOp) : Body := if receives then .chanRecv (hHome h) o else .chanSend (hHome h) o
  Safety.Clear w s → s.handleNamed form h = true → (form = 1 → hKind h ≠ 0 → p.priv = true) →
    (form = 5 → hKind h = 1 → away = false → (s.unit (hSlot h)).unit = 9 → p.priv = true) → s.awayWait s.turn dst = false →
    (form = 4 ∨ form = 6 ∨ form = 8 → p.clearHere = true) →
    let asked : ChanOp := { blankOp with
      id := s.nextId, who := s.originWord s.turn, op := s.nextId, form := form, handle := h, val := v, va := x, asid := p.asid, priv := p.priv
      limit := p.r.ctl.timeout.toNat % 2 ^ 40, via := .core me }
    let opened (o : ChanOp) := p.open_ s.nextId l false .chan dest h (if receives then 3 else 0) ws none [] o.under
    (form < 6 ∨ 8 < form → s.chanVa (s.ctxOf s.turn) false asked (hType h) = some asked) ∧
    ∀ o, s.chanVa (s.ctxOf s.turn) false asked (hType h) = some o → ∃ t, exec i s = .next t ∧ t.mem = s.mem ∧
      t.proc s.turn = (if away = true ∧ (form = 4 ∨ form = 6 ∨ form = 8) then { (opened o) with far := (opened o).far ++ [(5, s.nextId)] } else opened o) ∧
      o.form = form ∧ o.handle = h ∧ o.who = s.originWord s.turn ∧ o.op = s.nextId ∧ o.asid = p.asid ∧ o.priv = p.priv ∧
      o.limit = p.r.ctl.timeout.toNat % 2 ^ 40 ∧
      (away = false → t.outbox = s.outbox ∧ ∃ n, t.net = s.net ++ [⟨n, .core me, dst, body o, none, false⟩]) ∧
      (away = true → t.net = s.net ∧ ∃ x : Packet, t.outbox = s.outbox ++ [x] ∧ x.target = hModule h ∧ x.body = body o)
theorem chanLeaves_of_exec {s : State} {i : Instr} {w : Issue} {form word l : Nat} {h v x : Word} {dest : Dest} {ws : List RegRef}
    (hv : v = if form = 5 then BitVec.ofNat 64 word else x) (hexec : Clear w s → exec i s = .next (chanBody form word l h x dest ws s.turn s)) :
    chanLeaves s i w form l h v x dest ws := by
  unfold chanLeaves
  intro p me receives away dst body hcl hnamed hclose hrecv haway hclear asked opened
  refine ⟨fun hf => if_pos hf, fun o hva => ?_⟩
  obtain ⟨hform, hhandle, hwho, hop, hasid, hpriv, hlimit⟩ := chanVa_same hva
  have hbody (q : ChanOp) : chanCarrier form h q = body q := by
    unfold chanCarrier body receives
    simp
  have hproc : p.chanOpen s.nextId form l h dest ws away o =
      if away = true ∧ (form = 4 ∨ form = 6 ∨ form = 8) then { (opened o) with far := (opened o).far ++ [(5, s.nextId)] } else opened o := by
    have ho : p.open_ s.nextId l false .chan dest h (if form = 5 ∨ form = 7 then 3 else 0) ws none [] o.under = opened o := by
      unfold opened receives
      simp
    unfold Proc.chanOpen
    rw [ho]
    simp
  refine ⟨_, (hexec hcl).trans (congrArg _ (chanBody_sends hv hnamed hclose hrecv haway hclear hva)), chanSent_mem, chanSent_proc.trans hproc, hform, hhandle, hwho, hop, hasid,
    hpriv, hlimit, fun hm => ?_, fun hm => ?_⟩
  · obtain ⟨hout, n, hnet⟩ := chanSent_here (form := form) (l := l) (dest := dest) (ws := ws) (o := o) hm
    exact ⟨hout, n, hnet.trans (by rw [hbody]; rfl)⟩
  · obtain ⟨hnet, k, hout, ht, hb⟩ := chanSent_away (form := form) (l := l) (dest := dest) (ws := ws) (o := o) hm
    exact ⟨hnet, k, hout, ht, hb.trans (hbody o)⟩

/-- Settles O33: every word that names a handle is `chanBody` of its form. -/
theorem channelWordsLeave : Obligations.ChannelWordsLeave := by
  unfold Obligations.ChannelWordsLeave
  intro s p me leaves
  have hl {i w form l h v x dest ws} (hc : chanLeaves s i w form l h v x dest ws) : leaves i w form l h v x dest ws := hc
  refine ⟨fun o => ⟨?_, ?_, ?_⟩, fun o => ⟨?_, ?_, ?_, ?_, ?_, ?_, ?_⟩⟩
  · exact hl (chanLeaves_of_exec (word := packT1 0x3D 1 o) rfl fun hcl => issue_clear (clear_withWord hcl (packT1 0x3D 1 o)) _)
  · exact hl (chanLeaves_of_exec (word := packT1 0x3D 2 o) rfl fun hcl => issue_clear (clear_withWord hcl (packT1 0x3D 2 o)) _)
  · exact hl (chanLeaves_of_exec (word := packT1 0x3D 10 o) rfl fun hcl => issue_clear (clear_withWord hcl (packT1 0x3D 10 o)) _)
  · exact hl (chanLeaves_of_exec (word := packT2 0x3D 3 o) rfl fun hcl => issue_clear (clear_withWord hcl (packT2 0x3D 3 o)) _)
  · exact hl (chanLeaves_of_exec (word := packT2 0x3D 4 o) rfl fun hcl => issue_clear (clear_withWord hcl (packT2 0x3D 4 o)) _)
  · exact hl (chanLeaves_of_exec (word := packT2 0x3D 6 o) rfl fun hcl => issue_clear (clear_withWord hcl (packT2 0x3D 6 o)) _)
  · exact hl (chanLeaves_of_exec (word := packT2 0x3D 8 o) rfl fun hcl => issue_clear (clear_withWord hcl (packT2 0x3D 8 o)) _)
  · exact hl (chanLeaves_of_exec (word := packT2 0x3D 5 o) rfl fun hcl => issue_clear (clear_withWord hcl (packT2 0x3D 5 o)) _)
  · exact hl (chanLeaves_of_exec (word := packT2 0x3D 7 o) rfl fun hcl => issue_clear (clear_withWord hcl (packT2 0x3D 7 o)) _)
  · exact hl (chanLeaves_of_exec (word := packT2 0x3D 13 o) rfl fun hcl => issue_clear (clear_withWord hcl (packT2 0x3D 13 o)) _)
end Sys2Proof.Machine
end

section
/-! Proofs about ALT and ALTF whose guards are deadlines (R148), and about an operation that completes as it issues. -/
set_option Elab.async false
namespace Sys2Proof.Machine
open Sys2Proof Sys2Proof.Safety

theorem set_set {α : Type} (t : Table α) (k : Nat) (v w : α) : (t.set k v).set k w = t.set k w := by
  induction t with
  | nil => simp [Table.set]
  | cons e r ih =>
    obtain ⟨j, x⟩ := e
    by_cases h : k < j
    · simp [Table.set, h]
    by_cases h' : k = j
    · simp [Table.set, h']
    · simp [Table.set, h, h', ih]
theorem State.setProc_setProc (s : State) (k : Nat) (v w : Proc) : (s.setProc k v).setProc k w = s.setProc k w := by
  unfold State.setProc
  dsimp only
  rw [set_set]

/-! ## An operation that completes as its word issues -/

/-- The operation that a word opens (R43, R46). -/
def Proc.opened (p : Proc) (id l : Nat) (committed : Bool) (kind : OutKind) (dest : Dest) (va : Word) (acquire : Nat) (home : Option Home) (more : List Req) (under : Under) : OutOp :=
  ⟨id, p.pc, l, 0, committed, kind, dest, true, p.r, (p.outs.filter (fun x : OutOp => x.live)).map (fun x : OutOp => (x.id, x.dest)), va, acquire, home, more, [], under⟩
theorem Proc.open_outs (p : Proc) (id l : Nat) (committed : Bool) (kind : OutKind) (dest : Dest) (va : Word) (acquire : Nat) (ws : List RegRef) (home : Option Home) (more : List Req)
    (under : Under) : (p.open_ id l committed kind dest va acquire ws home more under).outs = (p.kill ws).pass.outs ++ [p.opened id l committed kind dest va acquire home more under] := rfl

/-- No operation of a process has the number op, and no snapshot waits for it. -/
def Fresh (op : Nat) (outs : List OutOp) : Prop := ∀ e ∈ outs, e.id ≠ op ∧ ∀ y ∈ e.older, y.1 ≠ op
theorem Fresh.map {op : Nat} {outs : List OutOp} (h : Fresh op outs) {f : OutOp → OutOp} (hf : ∀ o, (f o).id = o.id ∧ (f o).older = o.older) : Fresh op (outs.map f) := by
  intro e he
  obtain ⟨o, ho, rfl⟩ := List.mem_map.mp he
  rw [(hf o).1, (hf o).2]
  exact h o ho
theorem Fresh.kill_pass {op : Nat} {p : Proc} (h : Fresh op p.outs) (ws : List RegRef) : Fresh op (p.kill ws).pass.outs := by
  refine Fresh.map (Fresh.map h fun o => ?_) fun o => ⟨rfl, rfl⟩
  split
  · exact ⟨rfl, rfl⟩
  · exact ⟨rfl, rfl⟩
/-- A general register takes the number that an operation answers. -/
theorem Dest.write_number (d : BitVec 6) (n : Nat) (r : Regs) : (Dest.g d 8 false).write [BitVec.ofNat 1024 n] r = r.setG d (BitVec.ofNat 64 n) := by
  have h : BitVec.ofNat 64 ((BitVec.ofNat 1024 n).toNat % 2 ^ (8 * 8)) = BitVec.ofNat 64 n := by
    apply BitVec.eq_of_toNat_eq
    rw [BitVec.toNat_ofNat, BitVec.toNat_ofNat, BitVec.toNat_ofNat, Nat.mod_mod, Nat.mod_mod_of_dvd _ (Nat.pow_dvd_pow 2 (by decide))]
  exact congrArg (r.setG d) h
/-- The last of the operations of a process that does not wait completes. -/
theorem State.complete_last {s : State} {pk op : Nat} {vs : List (BitVec 1024)} {outs : List OutOp} {o : OutOp} (houts : (s.proc pk).outs = outs ++ [o]) (hid : o.id = op)
    (hmore : o.more = []) (hgot : o.got = []) (hlive : o.live = true) (hfresh : Fresh op outs) (hrun : (s.proc pk).state = .running) :
    ∃ q : Proc, s.complete pk op vs = s.setProc pk q ∧ q.outs = outs ∧ q.r = o.dest.write vs (s.proc pk).r ∧ q.pc = (s.proc pk).pc := by
  have hfind : (s.proc pk).outs.find? (fun o => decide (o.id = op)) = some o := by
    rw [houts, List.find?_append, List.find?_eq_none.mpr fun e he => by simpa using (hfresh e he).1]
    simp [hid]
  have hfilter : (s.proc pk).outs.filter (fun x => x.id != op) = outs := by
    rw [houts, List.filter_append, List.filter_eq_self.mpr fun e he => by simpa using (hfresh e he).1]
    simp [hid]
  have hwhole : o.whole vs = vs := if_pos (by rw [hgot]; rfl)
  unfold State.complete
  extract_lets p
  rw [hfind]
  dsimp only
  rw [hmore, hwhole]
  dsimp only
  rw [if_neg (by rw [hrun]; simp), hlive, if_pos rfl, hfilter]
  refine ⟨_, rfl, ?_, rfl, rfl⟩
  refine (List.map_congr_left (g := id) fun e he => ?_).trans (List.map_id _)
  rw [List.find?_eq_none.mpr fun y hy => by simpa using (hfresh e he).2 y hy]
  rfl

/-! ## ALT and ALTF -/

theorem State.guardReady_deadline (s : State) (pk : Nat) (v : Word) (known : Option Nat) :
    s.guardReady pk 3 v known = .ok (s, decide (v.toNat ≤ s.dtime) && !(s.core (coreOf pk)).halted) := rfl
theorem State.guardAway_deadline (s : State) (pk : Nat) (v : Word) : s.guardAway pk 3 v = none := rfl

section list
variable {list : List Word} {n : Nat} (hkind : ∀ j < n, list.getD (2 * j) 0 = 3)
include hkind
theorem guardKind_deadline {j : Nat} (hj : j < n) : guardKind list j = 3 := by rw [guardKind, hkind j hj]; rfl
theorem State.guardChecks_deadlines {s : State} {pk w : Nat} {is : List Nat} (his : ∀ j ∈ is, j < n) : s.guardChecks pk w list is = .ok () := by
  induction is with
  | nil => rfl
  | cons j rest ih =>
    have hj := his j List.mem_cons_self
    have h3 : (3 : Word).toNat = 3 := rfl
    rw [State.guardChecks, hkind j hj, h3, if_neg (by decide), guardKind_deadline hkind hj, State.guardReady_deadline]
    exact ih fun k hk => his k (List.mem_cons_of_mem _ hk)
/-- The first guard of the list whose deadline has passed. -/
theorem State.search_deadlines {s : State} {pk i : Nat} {far : List (Nat × Nat)} {pre rest : List Nat} (hpre : ∀ j ∈ pre, j < n ∧ s.dtime < (guardVal list j).toNat) (hi : i < n)
    (hdue : (guardVal list i).toNat ≤ s.dtime) (hgo : (s.core (coreOf pk)).halted = false) : State.search pk list far (pre ++ i :: rest) s = .ok (s, some i) := by
  induction pre with
  | nil =>
    rw [List.nil_append, State.search, guardKind_deadline hkind hi, State.guardReady_deadline, hgo, decide_eq_true hdue]
    rfl
  | cons j pre ih =>
    obtain ⟨hj, hlate⟩ := hpre j List.mem_cons_self
    rw [List.cons_append, State.search, guardKind_deadline hkind hj, State.guardReady_deadline, decide_eq_false (by omega)]
    exact ih fun k hk => hpre k (List.mem_cons_of_mem _ hk)
theorem State.askGuards_deadlines {s : State} {pk : Nat} {m : Multi} (hargs : m.args.drop 1 = list) (hlen : list.length = 2 * n) : s.askGuards pk m = s := by
  unfold State.askGuards
  dsimp only
  rw [hargs, hlen, Nat.mul_div_cancel_left n (by decide)]
  rw [List.filter_eq_nil_iff.mpr fun j hj => by
    rw [guardKind_deadline hkind (List.mem_range.mp hj), State.guardAway_deadline]
    simp]
  rfl
end list
theorem State.dropGuards_none {s : State} {pk : Nat} {m : Multi} (h : m.far = []) : s.dropGuards pk m = s := by
  unfold State.dropGuards
  dsimp only
  rw [h]
  rfl
/-- The guards from st on, in turn: those before the m-th, the m-th, the rest. -/
theorem range_rotate {n m : Nat} (hm : m < n) (st : Nat) : ∃ rest, (List.range n).map (fun j => (st + j) % n) =
    (List.range m).map (fun j => (st + j) % n) ++ (st + m) % n :: rest := by
  obtain ⟨k, rfl⟩ : ∃ k, n = m + (k + 1) := ⟨n - m - 1, by omega⟩
  rw [List.range_add, List.map_append, List.range_succ_eq_map]
  exact ⟨_, rfl⟩
/-- An ALT or ALTF whose guards are deadlines takes the first from its start whose deadline has passed. -/
theorem State.altGo_deadlines {s : State} {pk n st m i x : Nat} {mu : Multi} {list : List Word} (hmulti : (s.proc pk).multi = some mu)
    (hargs : mu.args = BitVec.ofNat 64 x :: list) (hfar : mu.far = []) (hkind : ∀ j < n, list.getD (2 * j) 0 = 3) (hlen : list.length = 2 * n) (hx : x < 2 ^ 64)
    (hn : fld x 0 4 = n) (hst : fld x 4 3 = st) (hm : m < n) (hi : i = (st + m) % n) (hdue : (guardVal list i).toNat ≤ s.dtime)
    (hlate : ∀ k < m, s.dtime < (guardVal list ((st + k) % n)).toNat) (hgo : (s.core (coreOf pk)).halted = false) :
    s.altGo pk = s.complete pk mu.op [BitVec.ofNat 1024 (n + (if mu.form = 2 then (i + 1) % n else 0) * 16 + i * 256)] := by
  have hdrop : mu.args.drop 1 = list := by rw [hargs]; rfl
  have hhead : (mu.args.headD 0).toNat = x := by
    rw [hargs]
    exact (BitVec.toNat_ofNat x 64).trans (Nat.mod_eq_of_lt hx)
  have hpos : 0 < n := by omega
  have hin : i < n := by rw [hi]; exact Nat.mod_lt _ hpos
  obtain ⟨rest, hrest⟩ := range_rotate hm st
  have hsearch : State.search pk list [] ((List.range n).map (fun j => (st + j) % n)) s = .ok (s, some i) := by
    rw [hrest, ← hi]
    refine State.search_deadlines hkind (fun j hj => ?_) hin hdue hgo
    obtain ⟨k, hk, rfl⟩ := List.mem_map.mp hj
    exact ⟨Nat.mod_lt _ hpos, hlate k (List.mem_range.mp hk)⟩
  unfold State.altGo
  rw [hmulti]
  dsimp only
  rw [State.askGuards_deadlines hkind hdrop hlen, hmulti, Option.getD_some, hfar, hdrop, hhead, hn, hst, List.any_nil, if_neg Bool.false_ne_true, List.find?_nil]
  dsimp only
  rw [hsearch]
  dsimp only
  rw [guardKind_deadline hkind hin, State.guardAway_deadline, Option.isSome_none, if_neg Bool.false_ne_true, if_neg (by decide)]
  unfold State.altDone
  rw [hhead, hn, State.dropGuards_none hfar]

/-- The process with its ALT or ALTF outstanding. -/
def Proc.altOpen (p : Proc) (op w x : Nat) (fair : Bool) (o : T2) (va : Word) : Proc :=
  { p.open_ op o.l.toNat false .chan (.g o.b 8 false) va 3 [(0, o.b.toNat)] with multi := some ⟨op, if fair then 2 else 1, w, BitVec.ofNat 64 x :: p.buf, 0, []⟩ }
theorem altWord_going {w x n st : Nat} {fair : Bool} {o : T2} {s : State} {va : Word} (hx : x = ((s.proc s.turn).word.getG o.b).toNat)
    (hva : va = (s.proc s.turn).word.getG o.a) (h : Going { infoCH o 0 with writes := [(0, o.b.toNat)] } s) (hn : fld x 0 4 = n) (hst : fld x 4 3 = st) (h7 : fld x 7 1 = 0)
    (hlt : x < 2 ^ 11) (hpos : 0 < n) (hmax : n ≤ 8) (hstn : st < n) (hfair : fair = false → st = 0) (hal : va.toNat % 16 = 0) (hin : inLocalStore va.toNat (16 * n) = true)
    (hlen : (s.proc s.turn).buf.length = 2 * n) (hkind : ∀ j < n, (s.proc s.turn).buf.getD (2 * j) 0 = 3) :
    altWord w fair o s = .next ((({ s with nextId := s.nextId + 1 } : State).setProc s.turn ((s.proc s.turn).altOpen s.nextId w x fair o va)).altGo s.turn) := by
  have hw : Going { infoCH o w with writes := [(0, o.b.toNat)] } s := going_withWord h _
  have h1 : ¬ (n = 0 ∨ 8 < n ∨ n ≤ st ∨ fld x 7 1 ≠ 0 ∨ x / 2 ^ 11 ≠ 0 ∨ (fair = false ∧ st ≠ 0)) := by
    rintro (h | h | h | h | h | ⟨h, h'⟩)
    · omega
    · omega
    · omega
    · exact h h7
    · exact h (Nat.div_eq_of_lt hlt)
    · exact h' (hfair h)
  unfold altWord
  refine (issue_going hw _).trans (congrArg _ ?_)
  dsimp only
  rw [← hx, ← hva, hn, hst, if_neg h1, if_neg (fun h => h hal), if_neg (by simp [hin]), if_neg (by omega),
    State.guardChecks_deadlines hkind fun j hj => List.mem_range.mp hj]
  rfl

/-- Settles O36: the guards are searched in turn, and the operation completes as its word issues. -/
theorem altTakesReadyGuard : Obligations.AltTakesReadyGuard := by
  unfold Obligations.AltTakesReadyGuard
  intro o s n st i m p va ws took due hgo hrun hhalt hfresh hpos hmax hstn hsel hlt hal hin hlen hkind hm hi hdue hlate
  generalize hx : (p.word.getG o.b).toNat = x at hsel hlt
  have hn : fld x 0 4 = n := by unfold fld; omega
  have hst : fld x 4 3 = st := by unfold fld; omega
  have h7 : fld x 7 1 = 0 := by unfold fld; omega
  have hmain (w : Nat) (fair : Bool) (hfair : fair = false → st = 0) : ∃ q : Proc, altWord w fair o s = .next (({ s with nextId := s.nextId + 1 } : State).setProc s.turn q) ∧
      q.pc = p.pc + 4 ∧ q.outs = (p.kill ws).pass.outs ∧ q.r = p.r.setG o.b (BitVec.ofNat 64 (n + (if fair then (i + 1) % n else 0) * 16 + i * 256)) := by
    have hexec := altWord_going (w := w) (fair := fair) (va := va) hx.symm rfl hgo hn hst h7 hlt hpos hmax hstn hfair hal hin hlen hkind
    generalize hs1 : ({ s with nextId := s.nextId + 1 } : State).setProc s.turn ((s.proc s.turn).altOpen s.nextId w x fair o va) = s1 at hexec
    have hp1 : s1.proc s.turn = p.altOpen s.nextId w x fair o va := by
      rw [← hs1]
      exact State.proc_setProc_same _ _ _
    have hgo1 := State.altGo_deadlines (s := s1) (pk := s.turn) (list := p.buf) (congrArg Proc.multi hp1) rfl rfl hkind hlen (by omega) hn hst hm hi
      (by rw [← hs1]; exact hdue) (by rw [← hs1]; exact fun k hk => Nat.lt_of_not_le (hlate k hk)) (by rw [← hs1]; exact hhalt)
    obtain ⟨q, hq, houts, hr, hpc⟩ := State.complete_last (s := s1) (pk := s.turn) (op := s.nextId)
      (vs := [BitVec.ofNat 1024 (n + (if (if fair then 2 else 1) = 2 then (i + 1) % n else 0) * 16 + i * 256)]) (outs := (p.kill ws).pass.outs)
      (o := p.opened s.nextId o.l.toNat false .chan (.g o.b 8 false) va 3 none [] Under.none)
      (congrArg Proc.outs hp1) rfl rfl rfl rfl (Fresh.kill_pass hfresh ws) ((congrArg Proc.state hp1).trans hrun)
    refine ⟨q, hexec.trans (congrArg _ ((hgo1.trans hq).trans ?_)), hpc.trans ((congrArg Proc.pc hp1).trans rfl), houts, hr.trans ?_⟩
    · rw [← hs1]
      exact State.setProc_setProc _ _ _ _
    · have hform : ((if fair then 2 else 1) = 2) = (fair = true) := by cases fair <;> simp
      rw [hp1]
      simp only [hform]
      exact Dest.write_number _ _ _
  refine ⟨fun h0 => ?_, ?_⟩
  · obtain ⟨q, hexec, hpc, houts, hr⟩ := hmain (packT2 0x3D 11 o) false fun _ => h0
    have hp : (({ s with nextId := s.nextId + 1 } : State).setProc s.turn q).proc s.turn = q := State.proc_setProc_same _ _ _
    refine ⟨_, hexec, rfl, ?_, ?_, ?_⟩
    · rw [hp, hpc]
    · rw [hp, houts]
    · rw [hp, hr]
      simp
  · obtain ⟨q, hexec, hpc, houts, hr⟩ := hmain (packT2 0x3D 12 o) true nofun
    have hp : (({ s with nextId := s.nextId + 1 } : State).setProc s.turn q).proc s.turn = q := State.proc_setProc_same _ _ _
    refine ⟨_, hexec, rfl, ?_, ?_, ?_⟩
    · rw [hp, hpc]
    · rw [hp, houts]
    · rw [hp, hr]
      simp
end Sys2Proof.Machine
end

section
/-! Proofs about MKCH (R43, R128, R129, R132, R141). -/
set_option Elab.async false
namespace Sys2Proof.Machine
open Sys2Proof Sys2Proof.Safety

/-! ## Emptying a ring -/

/-- What a process finds as it was, while others are woken: memory, the held requests, the cores but for the tags, and its own context. -/
structure Undisturbed (pk : Nat) (s t : State) : Prop where
  mem : t.mem = s.mem
  held : t.held = s.held
  modid : t.modid = s.modid
  eps : ∀ c slot, t.ep c slot = s.ep c slot
  proc : t.proc pk = s.proc pk
theorem Undisturbed.refl (pk : Nat) (s : State) : Undisturbed pk s s := ⟨rfl, rfl, rfl, fun _ _ => rfl, rfl⟩
theorem Undisturbed.trans {pk : Nat} {s t u : State} (h : Undisturbed pk s t) (h' : Undisturbed pk t u) : Undisturbed pk s u :=
  ⟨h'.mem.trans h.mem, h'.held.trans h.held, h'.modid.trans h.modid, fun c n => (h'.eps c n).trans (h.eps c n), h'.proc.trans h.proc⟩
theorem State.wake_resident {s : State} {k : Nat} (hb : (s.proc k).state = .blocked) (hres : s.resident k = true) :
    s.wake k = s.setProc k { s.proc k with state := .running, wait := 0 } := by
  have hslot : (s.core (coreOf k)).slots.contains (pidOf k) = true := hres
  unfold State.wake
  dsimp only
  rw [hb]
  dsimp only
  rw [if_pos hslot]
/-- Waking the resident processes of a list that wait for a ring tile leaves the cores, and a process that does not wait. -/
theorem wakeSaved_undisturbed {s : State} {pk c n : Nat} (h : (s.proc pk).state ≠ .blocked) : Undisturbed pk s (s.wakeSaved c n) ∧ (s.wakeSaved c n).cores = s.cores := by
  unfold State.wakeSaved
  extract_lets e
  generalize (s.procs.map (·.1)) = ks
  induction ks generalizing s with
  | nil => exact ⟨Undisturbed.refl pk s, rfl⟩
  | cons k rest ih =>
    rw [List.foldl_cons]
    dsimp only
    split
    · next hk =>
      obtain ⟨hb, _, _, hres⟩ := hk
      have hne : pk ≠ k := fun he => h (he ▸ hb)
      rw [State.wake_resident hb hres]
      have hp : (s.setProc k { s.proc k with state := .running, wait := 0 }).proc pk = s.proc pk := State.proc_setProc_other _ _ hne
      obtain ⟨hu, hc⟩ := ih (s := s.setProc k { s.proc k with state := .running, wait := 0 }) (by rw [hp]; exact h)
      exact ⟨Undisturbed.trans (t := s.setProc k { s.proc k with state := .running, wait := 0 }) ⟨rfl, rfl, rfl, fun _ _ => rfl, hp⟩ hu, hc⟩
    · exact ih h
theorem Core.tag_setTag_other {k : Core} {m n : Nat} (h : m ≠ n) (v : Tag) : (k.setTag n v).tag m = k.tag m := by
  unfold Core.setTag Core.tag
  by_cases hn : n < 2560
  · rw [if_pos hn]
    split
    · exact Table.get_set_other _ _ _ h
    · rfl
  · rw [if_neg hn]
    split
    · rfl
    · rw [Table.get_set_other _ _ _ (by omega)]
theorem Core.eps_setTag (k : Core) (n : Nat) (v : Tag) : (k.setTag n v).eps = k.eps := by
  unfold Core.setTag
  split <;> rfl
/-- A tile of a ring that is EMPTY or FULL takes the TEMPTY row. -/
theorem applyRow_tempty {s : State} {pk c n : Nat} (h : (s.proc pk).state ≠ .blocked) (ht : s.tag c n = .empty ∨ s.tag c n = .full) :
    ∃ t, s.applyRow .tempty c n = (t, true) ∧ Undisturbed pk s t ∧ t.tag c n = .empty ∧ ∀ m, m ≠ n → t.tag c m = s.tag c m := by
  have hrow : TagEvent.tempty.row (s.tag c n) = .go .empty false := by
    rcases ht with h | h
    · rw [h]; rfl
    · rw [h]; rfl
  obtain ⟨hu, hc⟩ := wakeSaved_undisturbed (s := s.modCore c (·.setTag n .empty)) (pk := pk) (c := c) (n := n) h
  have htag (m : Nat) : ((s.modCore c (·.setTag n .empty)).wakeSaved c n).tag c m = ((s.core c).setTag n .empty).tag m := by
    rw [State.tag, State.core, hc]
    exact congrArg (Core.tag · m) (State.core_modCore_same s c _)
  refine ⟨(s.modCore c (·.setTag n .empty)).wakeSaved c n, ?_, ?_, ?_, fun m hm => ?_⟩
  · unfold State.applyRow
    rw [hrow]
    rfl
  · refine Undisturbed.trans (t := s.modCore c (·.setTag n .empty)) ⟨rfl, rfl, rfl, fun k slot => ?_, rfl⟩ hu
    by_cases hk : k = c
    · subst hk
      rw [State.ep, State.core_modCore_same, Core.eps_setTag, State.ep]
    · rw [State.ep, State.core_modCore_other _ _ hk, State.ep]
  · rw [htag, Core.tag_setTag]
  · rw [htag, Core.tag_setTag_other hm, State.tag]
/-- With nothing held, every EMPTY or FULL tile of a ring is emptied. -/
theorem emptyRing_all {pk c n : Nat} : ∀ {s : State} {tile : Nat}, (s.proc pk).state ≠ .blocked → s.held = [] → (∀ j < n, s.tag c (tile + j) = .empty ∨ s.tag c (tile + j) = .full) →
    ∃ t, s.emptyRing pk c tile n = (t, n) ∧ Undisturbed pk s t ∧ (∀ j < n, t.tag c (tile + j) = .empty) ∧ ∀ m < tile, t.tag c m = s.tag c m := by
  induction n with
  | zero => exact fun {s tile} _ _ _ => ⟨s, rfl, Undisturbed.refl pk s, nofun, fun _ _ => rfl⟩
  | succ n ih =>
    intro s tile hrun hheld htags
    have hturn : s.atTurn [(c, tile)] (.proc pk) = true := by
      unfold State.atTurn
      rw [hheld]
      rfl
    obtain ⟨t, hrow, hu, hempty, hother⟩ := applyRow_tempty hrun (htags 0 (Nat.succ_pos n))
    obtain ⟨u, hring, hv, hall, hbelow⟩ := ih (s := t) (tile := tile + 1) (by rw [hu.proc]; exact hrun) (hu.held.trans hheld) (fun j hj => by
      rw [hother _ (by omega), show tile + 1 + j = tile + (j + 1) by omega]
      exact htags (j + 1) (by omega))
    refine ⟨u, ?_, hu.trans hv, fun j hj => ?_, fun m hm => (hbelow m (by omega)).trans (hother m (by omega))⟩
    · unfold State.emptyRing
      have hrow' : s.applyRow .tempty c tile = (t, true) := hrow
      rw [hturn, Bool.not_true, if_neg Bool.false_ne_true, hrow']
      dsimp only
      rw [hring]
    · cases j with
      | zero => exact (hbelow tile (by omega)).trans hempty
      | succ j =>
        rw [show tile + (j + 1) = tile + 1 + j by omega]
        exact hall j (by omega)

/-! ## MKCH -/

/-- The process with its MKCH outstanding. -/
def Proc.mkchOpen (p : Proc) (op w : Nat) (o : T2) : Proc :=
  { p.open_ op o.l.toNat false .chan (.gg o.a (o.a + 1)) (p.r.getG o.b) 0 [(0, o.a.toNat), (0, o.a.toNat + 1)] with
    multi := some ⟨op, 0, w, [BitVec.ofNat 64 (p.r.getG o.b).toNat], 0, []⟩ }
theorem execMkch_clear {o : T2} {s : State} {x cap ring : Nat} {ty : BitVec 16} (hx : x = ((s.proc s.turn).r.getG o.b).toNat) (hty : ty = BitVec.ofNat 16 x)
    (hcap : cap = x / 2 ^ 40 % 2 ^ 8) (hring : ring = x / 2 ^ 48 % 2 ^ 11)
    (h : Clear { infoCH o 0 with gs := (infoCH o 0).gs ++ [o.a.toNat + 1], reads := [(0, o.b.toNat)], writes := [(0, o.a.toNat), (0, o.a.toNat + 1)] } s) (h59 : x / 2 ^ 59 = 0)
    (h34 : x / 2 ^ 34 % 2 ^ 6 = 0) (h16 : x / 2 ^ 16 % 2 ^ 16 = 0) (hmax : cap ≤ 64) (h0 : cap = 0 → ring = 0) (hgood : tyGood ty = true)
    (hfits : ring + cap * tySlotTiles ty ≤ 2048) (hbar : s.guestBar s.turn 1 (tileAddr (coreOf s.turn) ring) (cap * tySlotTiles ty * 64) = none) :
    execMkch o s = .next ((({ s with nextId := s.nextId + 1 } : State).setProc s.turn ((s.proc s.turn).mkchOpen s.nextId (packT2 0x3D 0 o) o)).mkchGo s.turn) := by
  have hf40 : fld x 40 8 = cap := hcap.symm
  have hf48 : fld x 48 11 = ring := hring.symm
  have hbad : ¬ (fld x 59 5 ≠ 0 ∨ fld x 34 6 ≠ 0 ∨ fld x 16 16 ≠ 0 ∨ 64 < cap ∨ (cap = 0 ∧ ring ≠ 0) ∨ tyGood ty = false) := by
    rintro (h | h | h | h | ⟨h, h'⟩ | h)
    · exact h (by rw [fld, h59, Nat.zero_mod])
    · exact h h34
    · exact h h16
    · omega
    · exact h' (h0 h)
    · exact absurd (h.symm.trans hgood) (by decide)
  unfold execMkch
  refine (issue_clear (clear_withWord h (packT2 0x3D 0 o)) _).trans (congrArg _ ?_)
  dsimp only
  rw [← hx, ← hty, hf40, hf48, if_neg hbad, if_neg (by omega), hbar, hx]
  rfl
theorem State.freePair_none {s : State} {c : Nat} (h : ∀ j < 256, ¬ ((s.ep c (2 * j)).state = 0 ∧ (s.ep c (2 * j + 1)).state = 0)) : s.freePair c = none := by
  refine List.find?_eq_none.mpr fun j hj => ?_
  simpa using h j (List.mem_range.mp hj)
theorem State.freePair_first {s : State} {c i : Nat} (hi : i < 256) (h : (s.ep c (2 * i)).state = 0 ∧ (s.ep c (2 * i + 1)).state = 0)
    (hfirst : ∀ j < i, ¬ ((s.ep c (2 * j)).state = 0 ∧ (s.ep c (2 * j + 1)).state = 0)) : s.freePair c = some i := by
  unfold State.freePair
  rw [List.find?_range_eq_some]
  exact ⟨decide_eq_true h, List.mem_range.mpr hi, fun j hj => by rw [Bool.not_eq_true']; exact decide_eq_false (hfirst j hj)⟩
/-- An end that MKCH makes. -/
def mkchEnd (s : State) (pk d c slot flag : Nat) : Endpoint :=
  { Endpoint.free with
    state := if decide (fld d flag 1 = 1) then 1 else 2, gen := (s.ep c slot).gen, owner := if decide (fld d flag 1 = 1) then 0 else s.originWord pk, maker := s.originWord pk
    asid := (s.proc pk).asid, ty := BitVec.ofNat 16 d, cap := fld d 40 8, ring := fld d 48 11 }
theorem State.ep_setEp_same (s : State) (c n : Nat) (e : Endpoint) : (s.setEp c n e).ep c n = e := by
  rw [State.ep, State.setEp, State.core_modCore_same, Table.get_set_same]
theorem State.ep_setEp_other (s : State) (c : Nat) {m n : Nat} (h : m ≠ n) (e : Endpoint) : (s.setEp c n e).ep c m = s.ep c m := by
  rw [State.ep, State.setEp, State.core_modCore_same]
  exact Table.get_set_other _ _ _ h
theorem quiet_setEp (s : State) (c n : Nat) (e : Endpoint) : Quiet s (s.setEp c n e) := quiet_modCore _ _ fun _ => rfl

/-- While no pair is free the operation of a MKCH stays outstanding. -/
theorem mkchGo_waits {s : State} {pk : Nat} {m : Multi} (hm : (s.proc pk).multi = some m) (h : s.freePair (coreOf pk) = none) : s.mkchGo pk = s := by
  unfold State.mkchGo
  rw [hm]
  dsimp only
  rw [h]
/-- What a MKCH leaves whose pair is there and whose ring can be emptied, before its process has the handles. -/
def mkchEnds (s t : State) (pk d i : Nat) : State :=
  (((t.setEp (coreOf pk) (2 * i) (mkchEnd s pk d (coreOf pk) (2 * i) 32)).setEp (coreOf pk) (2 * i + 1) (mkchEnd s pk d (coreOf pk) (2 * i + 1) 33))).unqueue (.proc pk)
theorem mkchGo_makes {s t : State} {pk i d cap ring : Nat} {ty : BitVec 16} {m : Multi} {v : Word} (hm : (s.proc pk).multi = some m) (hargs : m.args = [v]) (hd : d = v.toNat)
    (hprog : m.prog = 0) (hty : ty = BitVec.ofNat 16 d) (hcap : cap = fld d 40 8) (hring : ring = fld d 48 11) (hpair : s.freePair (coreOf pk) = some i)
    (hempty : s.emptyRing pk (coreOf pk) ring (cap * tySlotTiles ty) = (t, cap * tySlotTiles ty)) (hheld : t.held = []) :
    s.mkchGo pk = (mkchEnds s t pk d i).complete pk m.op
      [((mkchEnds s t pk d i).epHandle (coreOf pk) (2 * i)).setWidth 1024, ((mkchEnds s t pk d i).epHandle (coreOf pk) (2 * i + 1)).setWidth 1024] := by
  have hs2 : (if cap * tySlotTiles ty = 0 then t else t.settle) = t := by
    split
    · rfl
    · exact State.settle_nil hheld
  unfold State.mkchGo
  rw [hm]
  dsimp only
  rw [hpair, hargs, List.headD_cons, ← hd, ← hty, ← hcap, ← hring, hprog, Nat.add_zero, Nat.sub_zero, Nat.zero_add]
  dsimp only
  rw [hempty]
  dsimp only
  rw [hs2, if_neg (Nat.lt_irrefl _)]
  subst hty hcap hring
  rfl

/-- Two general registers take the handles that an operation answers. -/
theorem Dest.write_handles (a b : BitVec 6) (x y : Word) (r : Regs) : (Dest.gg a b).write [x.setWidth 1024, y.setWidth 1024] r = (r.setG a x).setG b y := by
  have h (z : Word) : (z.setWidth 1024).setWidth 64 = z := by
    rw [BitVec.setWidth_setWidth_of_le _ (by decide), BitVec.setWidth_eq]
  show (r.setG a ((x.setWidth 1024).setWidth 64)).setG b ((y.setWidth 1024).setWidth 64) = _
  rw [h, h]
/-- The two ends, where they stand. -/
theorem mkchEnds_eps {s t : State} {pk d i : Nat} :
    (mkchEnds s t pk d i).ep (coreOf pk) (2 * i) = mkchEnd s pk d (coreOf pk) (2 * i) 32 ∧ (mkchEnds s t pk d i).ep (coreOf pk) (2 * i + 1) = mkchEnd s pk d (coreOf pk) (2 * i + 1) 33 := by
  refine ⟨?_, ?_⟩
  · refine (State.ep_setEp_other _ _ (by omega) _).trans ?_
    exact State.ep_setEp_same _ _ _ _
  · exact State.ep_setEp_same _ _ _ _
theorem quiet_mkchEnds (s t : State) (pk d i : Nat) : Quiet t (mkchEnds s t pk d i) := by
  have h1 := quiet_setEp t (coreOf pk) (2 * i) (mkchEnd s pk d (coreOf pk) (2 * i) 32)
  have h2 := quiet_setEp (t.setEp (coreOf pk) (2 * i) (mkchEnd s pk d (coreOf pk) (2 * i) 32)) (coreOf pk) (2 * i + 1) (mkchEnd s pk d (coreOf pk) (2 * i + 1) 33)
  exact (h1.trans h2).trans (Quiet.of_cores rfl rfl)

/-- Settles O34: a pair that is free is made as the word issues, and its operation completes; with none the operation stays. -/
theorem mkchMakesPair : Obligations.MkchMakesPair := by
  unfold Obligations.MkchMakesPair
  intro o s i p c x ty cap ring h free made ws hcl hrun hheld hfresh h59 h34 h16 hmax h0 hgood hfits hbar
  have hexec := execMkch_clear (x := x) (ty := ty) (cap := cap) (ring := ring) rfl rfl rfl rfl hcl h59 h34 h16 hmax h0 hgood hfits hbar
  generalize hs1 : ({ s with nextId := s.nextId + 1 } : State).setProc s.turn ((s.proc s.turn).mkchOpen s.nextId (packT2 0x3D 0 o) o) = s1 at hexec
  have hp1 : s1.proc s.turn = p.mkchOpen s.nextId (packT2 0x3D 0 o) o := by
    rw [← hs1]
    exact State.proc_setProc_same _ _ _
  have heps (k slot : Nat) : s1.ep k slot = s.ep k slot := by rw [← hs1]; rfl
  have htags (k n : Nat) : s1.tag k n = s.tag k n := by rw [← hs1]; rfl
  have hmem : s1.mem = s.mem := by rw [← hs1]; rfl
  have hheld1 : s1.held = [] := by rw [← hs1]; exact hheld
  have hmod : s1.modid = s.modid := by rw [← hs1]; rfl
  refine ⟨fun hi hfree hfirst hring => ?_, fun hnone => ?_⟩
  · have hpair : s1.freePair c = some i := State.freePair_first hi (by rw [heps, heps]; exact hfree) fun j hj => by rw [heps, heps]; exact hfirst j hj
    have hrun1 : (s1.proc s.turn).state = .running := (congrArg Proc.state hp1).trans hrun
    obtain ⟨t, hempty, hu, hall, _⟩ := emptyRing_all (pk := s.turn) (c := c) (n := cap * tySlotTiles ty) (s := s1) (tile := ring) (by rw [hrun1]; nofun) hheld1
      fun j hj => by rw [htags]; exact hring j hj
    have hgo := mkchGo_makes (s := s1) (pk := s.turn) (d := x) (congrArg Proc.multi hp1) rfl (by simp [x, p]) rfl rfl rfl rfl hpair hempty (hu.held.trans hheld1)
    obtain ⟨he0, he1⟩ := mkchEnds_eps (s := s1) (t := t) (pk := s.turn) (d := x) (i := i)
    have hq := quiet_mkchEnds s1 t s.turn x i
    have hproc : (mkchEnds s1 t s.turn x i).proc s.turn = p.mkchOpen s.nextId (packT2 0x3D 0 o) o := (show _ = t.proc s.turn from rfl).trans (hu.proc.trans hp1)
    have hmodid : (mkchEnds s1 t s.turn x i).modid = s.modid := (show _ = t.modid from rfl).trans (hu.modid.trans hmod)
    have hmem2 : (mkchEnds s1 t s.turn x i).mem = s.mem := (show _ = t.mem from rfl).trans (hu.mem.trans hmem)
    have hh0 : (mkchEnds s1 t s.turn x i).epHandle c (2 * i) = h (2 * i) := by
      rw [State.epHandle, he0, hmodid, mkchEnd, heps]
    have hh1 : (mkchEnds s1 t s.turn x i).epHandle c (2 * i + 1) = h (2 * i + 1) := by
      rw [State.epHandle, he1, hmodid, mkchEnd, heps]
    have horg : s1.originWord s.turn = s.originWord s.turn := by
      rw [State.originWord, hp1, State.word, hmod, State.originWord, State.word]
      rfl
    generalize mkchEnds s1 t s.turn x i = u at *
    obtain ⟨q, hcomp, houts, hr, hpc⟩ := State.complete_last (s := u) (pk := s.turn) (op := s.nextId)
      (vs := [(u.epHandle c (2 * i)).setWidth 1024, (u.epHandle c (2 * i + 1)).setWidth 1024]) (outs := (p.kill ws).pass.outs)
      (o := p.opened s.nextId o.l.toNat false .chan (.gg o.a (o.a + 1)) (p.r.getG o.b) 0 none [] Under.none)
      (congrArg Proc.outs hproc) rfl rfl rfl rfl (Fresh.kill_pass hfresh ws) ((congrArg Proc.state hproc).trans hrun)
    have hpq : (u.setProc s.turn q).proc s.turn = q := State.proc_setProc_same _ _ _
    have hends (slot flag : Nat) (he : u.ep c slot = mkchEnd s1 s.turn x c slot flag) : made (u.setProc s.turn q) slot flag := by
      have he' : (u.setProc s.turn q).ep c slot = mkchEnd s1 s.turn x c slot flag := he
      have hflag : (decide (fld x flag 1 = 1) = true) = (x / 2 ^ flag % 2 = 1) := by simp [fld]
      unfold made
      intro e
      have hee : e = mkchEnd s1 s.turn x c slot flag := he'
      rw [hee]
      unfold mkchEnd
      simp only [hflag]
      refine ⟨trivial, fun h2 => ?_, rfl, rfl, rfl, congrArg Endpoint.gen (heps _ _), (congrArg Proc.asid hp1).trans rfl⟩
      split at h2
      · next hx => exact absurd h2 (by decide)
      · next hx => exact (if_neg hx).trans horg
    refine ⟨u.setProc s.turn q, hexec.trans (congrArg _ (hgo.trans hcomp)), hends _ _ he0, hends _ _ he1, hmem2, fun j hj => ?_, ?_, ?_, ?_⟩
    · exact (hq.2 c (ring + j)).trans (hall j hj)
    · rw [hpq, hpc, hproc]
      rfl
    · rw [hpq, houts]
    · rw [hpq, hr, hproc, hh0, hh1]
      exact Dest.write_handles _ _ _ _ _
  · have hno : s1.freePair c = none := State.freePair_none fun j hj => by rw [heps, heps]; exact hnone j hj
    have hgo := mkchGo_waits (s := s1) (pk := s.turn) (congrArg Proc.multi hp1) hno
    refine ⟨s1, p.opened s.nextId o.l.toNat false .chan (.gg o.a (o.a + 1)) (p.r.getG o.b) 0 none [] Under.none, hexec.trans (congrArg _ hgo), hmem, ?_, ?_, ?_, rfl, rfl, rfl, rfl⟩
    · rw [hp1]; rfl
    · rw [hp1]; rfl
    · rw [hp1]; rfl
end Sys2Proof.Machine
end

section
/-! Proofs about the system words that act on their process or its core alone (R292 to R296, R298, R303). -/
set_option Elab.async false
namespace Sys2Proof.Machine
open Sys2Proof Sys2Proof.Safety

/-! ## Predicates packed and unpacked (R296) -/

theorem Regs.getP_setP (r : Regs) {d : BitVec 3} (hd : d ≠ 0) (x : Bool) (i : BitVec 3) : (r.setP d x).getP i = if i = d then x else r.getP i := by
  by_cases hi : i = d
  · subst hi
    rw [if_pos rfl, Regs.getP, if_neg hd, Regs.setP, if_neg hd]
    exact Vector.getElem_set_self _
  · rw [if_neg hi, Regs.getP, Regs.getP, Regs.setP, if_neg hd]
    by_cases h0 : i = 0
    · rw [if_pos h0, if_pos h0]
    · rw [if_neg h0, if_neg h0]
      exact Vector.getElem_set_ne d.isLt i.isLt fun h => hi (BitVec.eq_of_toNat_eq h.symm)

/-- The predicates p1 to pn written one after another. -/
def Regs.putPreds (r : Regs) (f : Nat → Bool) (n : Nat) : Regs := (List.range n).foldl (fun x i => x.setP (BitVec.ofNat 3 (i + 1)) (f (i + 1))) r

theorem Regs.putPreds_succ (r : Regs) (f : Nat → Bool) (n : Nat) : r.putPreds f (n + 1) = (r.putPreds f n).setP (BitVec.ofNat 3 (n + 1)) (f (n + 1)) := by
  rw [Regs.putPreds, List.range_succ, List.foldl_append]
  rfl

theorem Regs.putPreds_frame (r : Regs) (f : Nat → Bool) (n : Nat) : r.putPreds f n = { r with p := (r.putPreds f n).p } := by
  induction n with
  | zero => rfl
  | succ n ih =>
    rw [Regs.putPreds_succ, ih]
    unfold Regs.setP
    split <;> rfl

theorem Regs.getP_putPreds (r : Regs) (f : Nat → Bool) {n : Nat} (hn : n ≤ 7) (i : BitVec 3) :
    (r.putPreds f n).getP i = if i ≠ 0 ∧ i.toNat ≤ n then f i.toNat else r.getP i := by
  induction n with
  | zero =>
    rw [if_neg fun h => h.1 (BitVec.eq_of_toNat_eq (Nat.le_zero.mp h.2))]
    rfl
  | succ n ih =>
    have hlast : (BitVec.ofNat 3 (n + 1)).toNat = n + 1 := by rw [BitVec.toNat_ofNat]; omega
    have hne : BitVec.ofNat 3 (n + 1) ≠ 0 := fun h => by rw [h] at hlast; exact absurd hlast (by simp)
    rw [Regs.putPreds_succ, Regs.getP_setP _ hne, ih (by omega)]
    by_cases hi : i = BitVec.ofNat 3 (n + 1)
    · rw [if_pos hi, if_pos ⟨hi ▸ hne, by rw [hi, hlast]⟩, hi, hlast]
    · have hto : i.toNat ≠ n + 1 := fun h => hi (BitVec.eq_of_toNat_eq (h.trans hlast.symm))
      rw [if_neg hi]
      exact if_congr (and_congr_right fun _ => by omega) rfl rfl

/-- Bit i of the packed predicates is predicate i, and there are no others. -/
theorem packed_bits : ∀ b1 b2 b3 b4 b5 b6 b7 : Bool, ∀ i : BitVec 3,
    let n := 1 + (0 + b1.toNat * 2 + b2.toNat * 4 + b3.toNat * 8 + b4.toNat * 16 + b5.toNat * 32 + b6.toNat * 64 + b7.toNat * 128)
    n < 256 ∧ n.testBit i.toNat = [true, b1, b2, b3, b4, b5, b6, b7].getD i.toNat false := by
  decide

theorem Regs.packPreds_bits (r : Regs) : r.packPreds.toNat < 2 ^ 8 ∧ ∀ i : BitVec 3, r.packPreds.getLsbD i.toNat = r.getP i := by
  have hb := packed_bits (r.getP 1) (r.getP 2) (r.getP 3) (r.getP 4) (r.getP 5) (r.getP 6) (r.getP 7)
  extract_lets n at hb
  have hn : r.packPreds = BitVec.ofNat 64 n := rfl
  have hlt : n < 256 := (hb 0).1
  refine ⟨by rw [hn, BitVec.toNat_ofNat]; omega, fun i => ?_⟩
  rw [hn, BitVec.getLsbD_ofNat, (hb i).2, decide_eq_true (by omega), Bool.true_and]
  generalize hg : r.getP = g
  have h0 : g 0 = true := hg ▸ rfl
  have hall : ∀ i : BitVec 3, i = 0 ∨ i = 1 ∨ i = 2 ∨ i = 3 ∨ i = 4 ∨ i = 5 ∨ i = 6 ∨ i = 7 := by decide
  rcases hall i with rfl | rfl | rfl | rfl | rfl | rfl | rfl | rfl
  · exact h0.symm
  all_goals rfl

/-! ## What a process that runs keeps while others wake -/

/-- Process pk stands where it stood: with its state, its pc and its registers. -/
structure Stands (pk : Nat) (s t : State) : Prop where
  state : (t.proc pk).state = (s.proc pk).state
  pc : (t.proc pk).pc = (s.proc pk).pc
  r : (t.proc pk).r = (s.proc pk).r
theorem Stands.of_proc {pk : Nat} {s t : State} (h : t.proc pk = s.proc pk) : Stands pk s t := ⟨by rw [h], by rw [h], by rw [h]⟩
theorem Stands.refl (pk : Nat) (s : State) : Stands pk s s := ⟨rfl, rfl, rfl⟩
theorem Stands.trans {pk : Nat} {s t u : State} (h : Stands pk s t) (h' : Stands pk t u) : Stands pk s u :=
  ⟨h'.state.trans h.state, h'.pc.trans h.pc, h'.r.trans h.r⟩
theorem Stands.foldl {α : Type} {pk : Nat} {x : PState} {f : State → α → State} (hf : ∀ s a, (s.proc pk).state = x → Stands pk s (f s a)) (l : List α) :
    ∀ {s : State}, (s.proc pk).state = x → Stands pk s (l.foldl f s) := by
  induction l with
  | nil => exact fun _ => Stands.refl _ _
  | cons a l ih => exact fun h => (hf _ a h).trans (ih ((hf _ a h).state.trans h))

theorem stands_relink (pk : Nat) (s : State) (c : Nat) : Stands pk s (s.relink c) := by
  obtain ⟨d, hd⟩ := s.relink_proc c pk
  exact ⟨by rw [hd], by rw [hd], by rw [hd]⟩
theorem stands_wake {pk : Nat} {s : State} (h : (s.proc pk).state = .running) (k : Nat) : Stands pk s (s.wake k) := by
  by_cases hk : pk = k
  · subst hk
    unfold State.wake
    dsimp only
    rw [h]
    exact Stands.refl _ _
  · unfold State.wake
    dsimp only
    split
    · split
      · exact .of_proc (State.proc_setProc_other _ _ hk)
      · refine Stands.trans (.of_proc ?_) (stands_relink _ _ _)
        exact State.proc_setProc_other _ _ hk
    · split
      · exact .of_proc (State.proc_setProc_other _ _ hk)
      · refine Stands.trans (.of_proc ?_) (stands_relink _ _ _)
        exact State.proc_setProc_other _ _ hk
    · exact Stands.refl _ _
theorem stands_pullOps {pk : Nat} {s : State} (h : (s.proc pk).state = .running) : Stands pk s (s.pullOps pk) := by
  unfold State.pullOps
  extract_lets c mine ops s1 s2
  have h1 : Stands pk s s1 := ⟨by rw [State.proc_modProc_same]; rfl, by rw [State.proc_modProc_same]; rfl, by rw [State.proc_modProc_same]; rfl⟩
  have hr1 : (s1.proc pk).state = .running := h1.state.trans h
  have hplaced : Stands pk s1 (s1.placed (coreOf pk) c) := by
    unfold State.placed
    refine Stands.foldl (x := .running) (fun s t hs => ?_) _ hr1
    split
    · exact stands_wake hs _
    · exact Stands.refl _ _
  have h2 : Stands pk (s1.placed (coreOf pk) c) s2 := by
    refine Stands.foldl (x := .running) (fun s t hs => ?_) _ (hplaced.state.trans hr1)
    exact .of_proc rfl
  refine (h1.trans (hplaced.trans h2)).trans (Stands.foldl (x := .running) (fun s k hs => ?_) _ ((hplaced.trans h2).state.trans hr1))
  split
  · exact stands_wake hs _
  · exact Stands.refl _ _
theorem stands_heal (pk : Nat) (s : State) (lo n : Nat) : Stands pk s (s.heal lo n) := .of_proc rfl
theorem stands_writeSave (pk : Nat) (s : State) (parked : Bool) : Stands pk s (s.writeSave pk parked) := by
  unfold State.writeSave
  extract_lets p base at_ items rec0 m1 m2
  have hfold : ∀ (l : List (Nat × Nat × Nat)) (s : State), (l.foldl (fun (s : State) e => s.heal (at_ e.1) e.2.1) s).proc pk = s.proc pk := by
    intro l
    induction l with
    | nil => exact fun _ => rfl
    | cons e l ih => exact fun s => (ih _).trans rfl
  refine ⟨?_, ?_, ?_⟩ <;> rw [State.proc_modProc_same, hfold] <;> rfl

/-! ## Leaving a slot (R274) -/

theorem State.relink_cores (s : State) (c : Nat) : (s.relink c).cores = s.cores := by
  unfold State.relink
  dsimp only
  generalize (s.core c).queues = qs
  induction qs.flatten generalizing s with
  | nil => rfl
  | cons pid rest ih => rw [List.foldl_cons, ih]; rfl
theorem State.writeSave_cores (s : State) (pk : Nat) (parked : Bool) : (s.writeSave pk parked).cores = s.cores := by
  unfold State.writeSave
  extract_lets p base at_ items rec0 m1 m2
  have hfold : ∀ (l : List (Nat × Nat × Nat)) (s : State), (l.foldl (fun (s : State) e => s.heal (at_ e.1) e.2.1) s).cores = s.cores := by
    intro l
    induction l with
    | nil => exact fun _ => rfl
    | cons e l ih => exact fun s => (ih _).trans rfl
  exact hfold _ _
theorem State.synced_cores (s : State) (pk : Nat) : (s.synced pk).cores = s.cores := by
  unfold State.synced
  dsimp only
  split
  · rfl
  · split
    · exact State.writeSave_cores _ _ _
    · rw [State.relink_cores]
      exact State.writeSave_cores _ _ _
theorem stands_synced (pk : Nat) (s : State) : Stands pk s (s.synced pk) := by
  unfold State.synced
  dsimp only
  split
  · exact Stands.refl _ _
  · split
    · exact stands_writeSave _ _ _
    · refine Stands.trans ?_ ((stands_writeSave pk _ false).trans ((stands_heal pk _ _ _).trans (stands_relink pk _ _)))
      refine ⟨?_, ?_, ?_⟩ <;> rw [State.proc_setProc_same]

/-- A process that runs leaves its slot READY or PARKED, with its pc and its registers. -/
theorem State.leave_running {s : State} {pk : Nat} (h : (s.proc pk).state = .running) (ha : (s.proc pk).ahead = none) :
    pidOf pk ∉ ((s.leave pk).core (coreOf pk)).slots ∧ (((s.leave pk).proc pk).state = .ready ∨ ((s.leave pk).proc pk).state = .parked) ∧
      ((s.leave pk).proc pk).pc = (s.proc pk).pc ∧ ((s.leave pk).proc pk).r = (s.proc pk).r := by
  have hend : s.endAhead pk = s := by rw [State.endAhead, ha]
  have hp := stands_pullOps h
  have hrun : ((s.pullOps pk).proc pk).state = .running := hp.state.trans h
  unfold State.leave
  rw [hend]
  extract_lets t c p k c1
  have hout : ∀ x : Core, x.slots = c1.slots → pidOf pk ∉ x.slots := fun x hx hm => by
    rw [hx] at hm
    exact absurd (List.mem_filter.mp hm).2 (by simp)
  rw [show p.state = .running from hrun]
  dsimp only
  split
  · next i hi =>
    have hs := (stands_writeSave pk ((t.setCore (coreOf pk) { (c1.enqueue p.prio (pidOf pk)) with parkMap := c.parkMap ++ [(pidOf pk, i, k)] }).setProc pk
      { p with state := .parked, since := t.dtime, extents := [] }) true).trans ((stands_heal pk _ (scratchAddr (coreOf pk) (0xB4000 + 512 * i)) (512 * k)).trans
        (stands_relink pk _ (coreOf pk)))
    obtain ⟨hstate, hpc, hr⟩ := hs
    rw [State.proc_setProc_same] at hstate hpc hr
    refine ⟨?_, .inr hstate, hpc.trans hp.pc, hr.trans hp.r⟩
    rw [State.core, State.relink_cores, State.heal, State.writeSave_cores]
    refine hout _ ?_
    exact Eq.trans (congrArg Core.slots (State.core_setCore_same t (coreOf pk) _)) rfl
  · have hs := stands_synced pk ((t.setCore (coreOf pk) (c1.enqueue p.prio (pidOf pk))).setProc pk { p with state := .ready, since := t.dtime, extents := [] })
    obtain ⟨hstate, hpc, hr⟩ := hs
    rw [State.proc_setProc_same] at hstate hpc hr
    refine ⟨?_, .inl hstate, hpc.trans hp.pc, hr.trans hp.r⟩
    rw [State.core, State.synced_cores]
    refine hout _ ?_
    exact Eq.trans (congrArg Core.slots (State.core_setCore_same t (coreOf pk) _)) rfl

/-! ## Halting a core (R310) -/

/-- Core c is halted as it was, and a halt that has reached it still stands. -/
def Stops (c : Nat) (s t : State) : Prop := (t.core c).halted = (s.core c).halted ∧ (t.core c).halting = (s.core c).halting
theorem Stops.of_cores {c : Nat} {s t : State} (h : t.cores = s.cores) : Stops c s t := by
  have hc : t.core c = s.core c := by rw [State.core, h]; rfl
  exact ⟨by rw [hc], by rw [hc]⟩
theorem Stops.trans {c : Nat} {s t u : State} (h : Stops c s t) (h' : Stops c t u) : Stops c s u := ⟨h'.1.trans h.1, h'.2.trans h.2⟩
theorem Stops.of_modCore {c : Nat} {s : State} {k : Nat} {f : Core → Core} (hf : ∀ x, (f x).halted = x.halted ∧ (f x).halting = x.halting) : Stops c s (s.modCore k f) := by
  by_cases h : c = k
  · subst h
    rw [Stops, State.core_modCore_same]
    exact hf _
  · rw [Stops, State.core_modCore_other _ _ h]
    exact ⟨rfl, rfl⟩
theorem stops_block (c : Nat) (s : State) (pk why : Nat) (edge : Word) (on : Nat) : Stops c s (s.block pk why edge on) := by
  unfold State.block
  extract_lets p q out s1
  have hout : Stops c s ((((s1.setProc pk out).writeSave pk false).heal (scratchAddr (coreOf pk) (0xC0000 + 256 * pidOf pk)) 256).relink (coreOf pk)) := by
    refine Stops.trans (t := s1) (.of_modCore fun x => ⟨rfl, rfl⟩) (.of_cores ?_)
    rw [State.relink_cores]
    exact State.writeSave_cores _ _ _
  split
  · exact hout
  · exact hout
  · exact .of_cores rfl
theorem State.post_cores (s : State) (d kind asid w : Nat) (dw : List Word) : (s.post d kind asid w dw).cores = s.cores := by
  unfold State.post
  extract_lets v hdr rec8
  split <;> rfl
theorem stops_endAhead (c : Nat) (s : State) (pk : Nat) : Stops c s (s.endAhead pk) := by
  unfold State.endAhead
  split
  · unfold State.postBatch
    extract_lets p who dw wait d hdr s1
    have hwait : ∀ (seq : Nat) (t : State), Stops c t (wait seq t) := fun seq t => stops_block c (t.modProc pk _) _ _ _ _
    clear_value wait
    split
    · have hpost : Stops c s (s.post d 2 p.asid who dw) := .of_cores (State.post_cores _ _ _ _ _ _)
      exact hpost.trans (hwait _ _)
    · have htell : Stops c s ((s.bump 1).tell (wordModule who) (portOf (coreOf pk)) who p.asid (.batch (dieOfCore (coreOf (wordKey who))) (hdr :: dw))) := ⟨rfl, rfl⟩
      exact htell.trans (hwait _ _)
  · exact .of_cores rfl
/-- Runs ahead end where there are none: nothing changes. -/
theorem endAhead_none {l : List Nat} {s : State} (h : ∀ k ∈ l, (s.proc k).ahead = none) : l.foldl State.endAhead s = s := by
  induction l with
  | nil => rfl
  | cons k l ih =>
    rw [List.foldl_cons, State.endAhead, h k List.mem_cons_self]
    exact ih fun j hj => h j (List.mem_cons_of_mem _ hj)

/-- A halt command to one core: it is halted or halting, whatever runs ahead end there. -/
theorem State.halt_one (s : State) (d c : Nat) : ((s.halt d [c]).core c).halted = true ∨ ((s.halt d [c]).core c).halting = true := by
  have hfold : ∀ (l : List Nat) (t : State), Stops c t (l.foldl State.endAhead t) := by
    intro l
    induction l with
    | nil => exact fun _ => ⟨rfl, rfl⟩
    | cons k l ih => exact fun t => Stops.trans (stops_endAhead c t k) (ih _)
  have h := hfold ((s.core c).slots.map (fun pid => c * 256 + pid)) (s.modCore c (fun k => if k.halted then k else { k with halting := true }))
  rw [Stops, State.core_modCore_same] at h
  change ((State.core _ c).halted = true ∨ (State.core _ c).halting = true)
  by_cases hh : (s.core c).halted = true
  · rw [if_pos hh] at h
    exact .inl (h.1.trans hh)
  · rw [if_neg hh] at h
    exact .inr h.2
/-- Where nothing runs ahead on the core, that is all it does. -/
theorem State.halt_quiet {s : State} {d c : Nat} (h : ∀ pid ∈ (s.core c).slots, (s.proc (c * 256 + pid)).ahead = none) :
    (s.halt d [c]).mem = s.mem ∧ (s.halt d [c]).procs = s.procs ∧ ∀ k, k ≠ c → (s.halt d [c]).core k = s.core k := by
  unfold State.halt
  rw [List.foldl_cons, List.foldl_nil, endAhead_none]
  · exact ⟨rfl, rfl, fun k hk => (State.core_modCore_other s _ hk : (s.modCore c (fun k => if k.halted then k else { k with halting := true })).core k = s.core k)⟩
  · intro k hk
    obtain ⟨pid, hpid, rfl⟩ := List.mem_map.mp hk
    exact h pid hpid

/-- Settles O40: each word by its body at issue; a HALT ends no run ahead where none stands, and YIELD leaves the slot by `State.leave_running`. -/
theorem systemWords : Obligations.SystemWords := by
  unfold Obligations.SystemWords
  intro s
  intro p r c
  refine ⟨fun o => ⟨fun h => ⟨?_, fun hin => ?_⟩, fun h => ?_, fun h => ⟨fun hr => ?_, fun hr hrun => ?_⟩⟩,
    fun o h hin hv => ?_, fun o h hv hmay => ?_, fun o h => ⟨fun hv => ?_, fun hv => ?_⟩, fun o h => ?_, fun o h => ?_, fun o h => ?_⟩
  · have hx : execNop o s = _ := computes_of_issuePure h _ rfl
    exact hx
  · have hx : execTrapret o s = _ := issue_clear (clear_withWord h _) _
    refine ⟨_, hx, ?_⟩
    dsimp only
    rw [if_pos hin, State.trapReturn, State.proc_setProc_same, State.modProc, State.proc_setProc_same]
    exact ⟨rfl, rfl, rfl, rfl⟩
  · have hx : execHalt o s = _ := issue_clear (clear_withWord h _) _
    refine ⟨_, hx, State.halt_one _ _ _, fun hq => ?_⟩
    obtain ⟨hm, hp, hk⟩ := State.halt_quiet (s := s.modProc s.turn Proc.pass) (d := dieOfCore (coreOf s.turn)) (c := coreOf s.turn) fun pid hpid => by
      by_cases ht : coreOf s.turn * 256 + pid = s.turn
      · rw [ht, State.proc_modProc_same]
        rfl
      · rw [State.proc_modProc_other _ _ ht]
        exact hq pid hpid ht
    refine ⟨hm, ?_, hk⟩
    rw [State.proc, hp]
    exact State.proc_modProc_same _ _ _
  · have hx : execYield o s = _ := issue_clear (clear_withWord h _) _
    refine hx.trans ?_
    dsimp only
    rw [hr]
    rfl
  · have hx : execYield o s = _ := issue_clear (clear_withWord h _) _
    refine ⟨_, hx, ?_⟩
    dsimp only
    rw [if_pos hr]
    have hl := State.leave_running (s := s.setProc s.turn p.pass) (pk := s.turn) (by rw [State.proc_setProc_same]; exact hrun) (by rw [State.proc_setProc_same]; rfl)
    rw [State.proc_setProc_same] at hl
    exact hl
  · have hx : execTrap o s = _ := issue_clear (clear_withWord h _) _
    refine ⟨_, hx, ?_⟩
    have hc : (s.count s.turn).proc s.turn = { p with outs := p.outs.map (fun o => { o with issued := o.issued + 1 }) } := State.proc_setProc_same _ _ _
    have ht := State.trap_enters (s := s.count s.turn) (pk := s.turn) (x := ⟨.soft, o.imm.setWidth 64, 0, 0⟩) (pc := p.pc + 4) (v := r.ctl.trapv) (by rw [hc]; rfl) hv
      (by rw [hc]; exact fun h => absurd h (by rw [hin]; exact Bool.false_ne_true))
    obtain ⟨hp, hm, -⟩ := ht
    refine ⟨hm, ?_⟩
    dsimp only
    rw [hp, hc]
    exact ⟨rfl, rfl, by rw [hin]; rfl⟩
  · change execPrio o s = _
    have hw : Clear { infoRR o (packRR 0x3E 9 o) with ext := true } s := clear_withWord h _
    unfold execPrio
    refine (issue_clear hw _).trans ?_
    have hmod : (r.getG o.a).toNat % 4 = (r.getG o.a).toNat := Nat.mod_eq_of_lt hv
    have hn : prioTrap p (r.getG o.a) (packRR 0x3E 9 o) = none := by
      rw [prioTrap, if_neg (not_not.mpr (Nat.div_eq_of_lt hv)), hmod]
      refine if_neg fun hx => ?_
      simp only [Bool.and_eq_true, Bool.not_eq_true', decide_eq_true_eq] at hx
      obtain ⟨⟨hpriv, h2⟩, hp⟩ := hx
      rcases hmay with hm | hm | hm
      · rw [hm] at hpriv
        exact Bool.noConfusion hpriv
      · omega
      · omega
    dsimp only
    rw [hn, hmod]
  · have hx : execSleep o s = _ := issue_clear (clear_withWord h _) _
    refine hx.trans ?_
    exact congrArg _ (if_pos hv)
  · have hx : execSleep o s = _ := issue_clear (clear_withWord h _) _
    refine hx.trans ?_
    exact congrArg _ (if_neg (Nat.not_le.mpr hv))
  · have hw : ∀ x, o.sel ≠ 3 → s.whoami s.turn o.sel = x → execWhoami o s = computes s [(0, o.d.toNat)] (r.setG o.d x) := fun x h3 hx => by
      have hw : Clear (infoWH o (packWH 0x3E 18 o)) s := clear_withWord h _
      unfold execWhoami
      refine (issue_clear hw _).trans ?_
      rw [if_neg h3, hx]
      rfl
    refine ⟨fun hs => hw _ ?_ ?_, fun hs => hw _ ?_ ?_, fun hs => hw _ ?_ ?_⟩
    all_goals rw [hs]
    · decide
    · rfl
    · decide
    · rfl
    · decide
    · rfl
  · have hx : execPget o s = _ := computes_of_issuePure h _ rfl
    exact ⟨r.packPreds, hx, r.packPreds_bits⟩
  · have hx : execPset o s = computes s [] (r.putPreds (fun i => (r.getG o.a).getLsbD i) 7) := computes_of_issuePure h _ rfl
    refine ⟨r.putPreds (fun i => (r.getG o.a).getLsbD i) 7, hx, Regs.putPreds_frame _ _ _, fun i hi => ?_⟩
    exact (Regs.getP_putPreds r _ (le_refl 7) i).trans (if_pos ⟨hi, by omega⟩)

end Sys2Proof.Machine
end

section
/-! Counterexample to the statement about CTLR and CTLW (R304, R307): a PGNOTE that is forwarded names the operation that sends it, and 0 names none. -/
set_option Elab.async false
namespace Sys2Proof.Machine
open Sys2Proof Sys2Proof.Safety Sys2Proof.Tests

/-- A PGNOTE for a process of another module, in a state whose next operation has number 0. -/
def wNotedFirst : State := { wNoted with nextId := 0 }
/-- What the CTLW forwards: a note that names neither a process nor an operation. -/
theorem wNotedFirst_notes : (after (exec (.ctlw ⟨Tests.always, 1, 0x150⟩) wNotedFirst)).outbox.all (fun y => match y.body with | .pgnote _ k _ => decide (k = 0) | _ => true) = true := holds

/-- Refutes O41: the forwarded note names the process that waits for it only where the number of its operation is not 0. In `wNotedFirst` the next number is 0, and the note
carries 0 in place of the process word. -/
theorem not_controlRegisters : ¬ Obligations.ControlRegisters := by
  unfold Obligations.ControlRegisters
  intro h
  have hclear : Clear { infoCRW ⟨Tests.always, 1, 0x150⟩ 0 with ext := decide (0x012 ≤ 0x150 ∨ 0x150 = 2) } wNotedFirst := clear_of holds
  obtain ⟨-, -, -, -, -, -, -, -, -, -, -, -, -, -, -, -, -, -, hnote⟩ := (h ⟨Tests.always, 1, 0x150⟩ wNotedFirst).2 hclear
  obtain ⟨t, ht, y, hy, -, hb⟩ := hnote holds holds holds 5 holds
  have hall := wNotedFirst_notes
  rw [ht, after, List.all_eq_true] at hall
  have hk := hall y hy
  rw [hb] at hk
  exact absurd hk holds
end Sys2Proof.Machine
end

section
/-! Counterexample to the statement about the rendezvous of a word (R131, R133): the end of a transfer first tells the sender's process, which is written back into the
table by which the receiver's process is then found. -/
set_option Elab.async false
namespace Sys2Proof.Machine
open Sys2Proof Sys2Proof.Safety Sys2Proof.Tests

/-- A guest context with the origin of process 0 of core 0. -/
def wTwinOf (p : Proc) : Proc := { p with guest := true, origin := wMe }
/-- A send of process 5 of core 0, which `wTwinEnd` knows as far work of that process. -/
def wSendFive : ChanOp := { wSend with who := wMe + 5 }
/-- A transfer at its end. The table of processes has key 9 before key 5, both guests with the origin of the receiver; the first of them waits for the word. -/
def wTwinEnd : State := { wAtEnd with
  xfers := [{ wXfer with send := some wSendFive }]
  procs := [(9, wTwinOf { Proc.reset with outs := [wOut 8 (.g 5 8 false)] }), (5, wTwinOf { Proc.reset with far := [(5, 7)] })] }
/-- After the transfer the receiver still waits: the word went to key 5, which then stood before key 9. -/
theorem wTwinEnd_waits : ((after (exec (.transferFinish 0 4) wTwinEnd)).proc 9).outs.isEmpty = false := holds

/-- Refutes O37: in `wTwinEnd` the word of the finished transfer does not reach the process that `State.keyOf` gave for the receiver. -/
theorem not_rendezvousOfAWord : ¬ Obligations.RendezvousOfAWord := by
  unfold Obligations.RendezvousOfAWord
  intro h
  obtain ⟨t, ht, -, -, -, houts⟩ := h.2.2 wTwinEnd { wXfer with send := some wSendFive } wSendFive wRecv 0 4 (wOut 8 (.g 5 8 false)) 5
    holds holds holds holds holds holds holds holds holds holds holds holds holds holds holds holds holds holds holds holds holds holds
  have hw := wTwinEnd_waits
  rw [ht, after] at hw
  have hk : wTwinEnd.keyOf wRecv.who = 9 := holds
  rw [hk] at houts
  rw [houts] at hw
  exact absurd hw holds
end Sys2Proof.Machine
end

section
/-! Counterexample to the statement about Firefly (R304, R331): the change of clock halts the cores of die 0, which ends each run ahead of a fault there, and a process whose run
ahead ends while its state is READY has its registers written to its save area. -/
set_option Elab.async false
namespace Sys2Proof.Machine
open Sys2Proof Sys2Proof.Safety Sys2Proof.Tests

/-- All dies in service, and in slot 0 of core 0 a process that runs ahead of a fault though its state is READY. -/
def wAheadReady : State := { wServed with
  cores := [(0, { (State.reset.core 0) with slots := [0] })]
  procs := [(0, { Proc.reset with state := .ready, ahead := some ⟨⟨.page, 0, 0, 0⟩, 0, false, Proc.reset.r, [], 0, [], 0⟩ })] }
/-- The change of clock ends the run ahead, and SYNCLIM, 4096 at reset, is written to the save area. -/
theorem wAheadReady_saves : (after (exec .fullService wAheadReady)).mem.isEmpty = false := holds

/-- Refutes O50: in `wAheadReady`, where memory is empty, full service leaves memory that is not. -/
theorem not_fireflyRows : ¬ Obligations.FireflyRows := by
  unfold Obligations.FireflyRows
  intro h
  obtain ⟨t, ht, -, hmem, -⟩ := h.2.2.2.2.2.1 wAheadReady holds holds holds holds
  have hsaves := wAheadReady_saves
  rw [ht, after, hmem] at hsaves
  exact absurd hsaves holds
end Sys2Proof.Machine
end

section
/-! Proofs about I/O endpoints, timers, frames and host messages (R139, R329). -/
set_option Elab.async false
namespace Sys2Proof.Machine
open Sys2Proof Sys2Proof.Safety

/-! ## What waking a process leaves of the units -/
/-- The unit slots and the count of dropped frames are as they were. -/
def UnitsStand (s t : State) : Prop := t.units = s.units ∧ t.ethDropped = s.ethDropped
theorem UnitsStand.trans {s t u : State} (h : UnitsStand s t) (h' : UnitsStand t u) : UnitsStand s u := ⟨h'.1.trans h.1, h'.2.trans h.2⟩
theorem UnitsStand.foldl {α : Type} {f : State → α → State} (hf : ∀ s a, UnitsStand s (f s a)) (l : List α) (s : State) : UnitsStand s (l.foldl f s) := by
  induction l generalizing s with
  | nil => exact ⟨rfl, rfl⟩
  | cons a l ih => exact (hf s a).trans (ih _)
theorem unitsStand_relink (s : State) (c : Nat) : UnitsStand s (s.relink c) := by
  unfold State.relink
  extract_lets qs
  exact .foldl (f := fun s pid => s.modProc (c * 256 + pid) _) (fun _ _ => ⟨rfl, rfl⟩) _ _
theorem unitsStand_wake (s : State) (pk : Nat) : UnitsStand s (s.wake pk) := by
  have hready : ∀ (p : Proc) (f : Core → Core), UnitsStand s (((s.setProc pk p).modCore (coreOf pk) f).relink (coreOf pk)) :=
    fun p f => UnitsStand.trans (t := (s.setProc pk p).modCore (coreOf pk) f) ⟨rfl, rfl⟩ (unitsStand_relink _ _)
  unfold State.wake
  extract_lets p q
  split
  · split
    · exact ⟨rfl, rfl⟩
    · exact hready _ _
  · split
    · exact ⟨rfl, rfl⟩
    · exact hready _ _
  · exact ⟨rfl, rfl⟩
theorem unitsStand_wakeAlts (s : State) : UnitsStand s s.wakeAlts := by
  refine .foldl (fun s pk => ?_) _ _
  split
  · exact unitsStand_wake s pk
  · exact ⟨rfl, rfl⟩

/-! ## One unit slot -/
theorem State.unit_setUnit_same (s : State) (i : Nat) (u : UnitSlot) : (s.setUnit i u).unit i = u := Table.get_set_same _ _ _ _
/-- A unit for which no operation waits does nothing. -/
theorem State.kickUnit_idle {s : State} {i : Nat} (hw : (s.unit i).waiting = none) (hs : (s.unit i).sender = none) : s.kickUnit i = s := by
  unfold State.kickUnit
  extract_lets u x s1 v
  have h1 : s1 = s := by
    change (match u.waiting with | none => s | some o => _) = s
    rw [show u.waiting = none from hw]
  have hv : v.sender = none := by
    change (s1.unit i).sender = none
    rw [h1]
    exact hs
  rw [hv]
  exact h1
/-- A queue of an idle unit changes: the unit is as written, and the processes in an ALT look again. -/
theorem State.unit_kicked {s : State} {i : Nat} {u : UnitSlot} (hw : u.waiting = none) (hs : u.sender = none) : ((s.setUnit i u).kickUnit i).unit i = u := by
  rw [State.kickUnit_idle] <;> rw [State.unit_setUnit_same]
  · exact hw
  · exact hs
theorem State.unit_kicked_alts {s : State} {i : Nat} {u : UnitSlot} (hw : u.waiting = none) (hs : u.sender = none) :
    ((s.setUnit i u).kickUnit i).wakeAlts.unit i = u := by
  rw [State.unit, (unitsStand_wakeAlts _).1]
  exact State.unit_kicked hw hs

/-! ## A request to IOEPNEW -/
/-- The first free slot is taken by a request that is good. -/
theorem State.ioepnew_makes {s : State} {v : Word} {i : Nat} {ty : BitVec 16} (hty : ty = BitVec.ofNat 16 (v.toNat / 2 ^ 16)) (hgood : tyGood ty = true) (hcls : tyClass ty = 0)
    (hz : v.toNat / 2 ^ 32 % 2 ^ 10 = 0 ∧ v.toNat % 2 ^ 16 = 0) (hcap : v.toNat / 2 ^ 42 % 2 ^ 8 = 0) {kind unit : Nat} (hk : v.toNat / 2 ^ 60 = kind) (hu : v.toNat / 2 ^ 56 % 2 ^ 4 = unit)
    (hkind : kind = 1 ∧ unit = 9 ∨ kind = 2 ∧ unit = 10) (hi : i < 512) (hfree : (s.unit i).state = 0) (hbelow : ∀ j < i, (s.unit j).state ≠ 0) :
    s.ioepnew v = (s.setUnit i { UnitSlot.free with unit := unit, kind := kind, gen := (s.unit i).gen, state := 1, asid := v.toNat / 2 ^ 50 % 2 ^ 6, ty := ty, cap := 64 },
      handleOf kind s.modid 0 i ty (s.unit i).gen) := by
  unfold State.ioepnew
  extract_lets x k un cap ty' cls typeOk capOk good
  have htyEq : ty' = ty := by
    rw [hty]
    apply BitVec.eq_of_toNat_eq
    change (BitVec.setWidth 16 (v >>> 16)).toNat = _
    rw [BitVec.toNat_setWidth, BitVec.toNat_ushiftRight, BitVec.toNat_ofNat, Nat.shiftRight_eq_div_pow]
  have hkEq : k = kind := by
    change v.toNat / 2 ^ 60 % 2 ^ 4 = kind
    have := v.isLt
    omega
  have huEq : un = unit := hu
  have hpos : un ≠ 0 ∧ ¬ un ≤ 8 := by omega
  have hgood' : good = true := by
    have h1 : typeOk = true := by
      change (tyGood ty' && if un = 0 then _ else if un ≤ 8 then _ else decide (cls = 0)) = true
      rw [if_neg hpos.1, if_neg hpos.2, htyEq, hgood]
      exact decide_eq_true (show tyClass ty' = 0 by rw [htyEq]; exact hcls)
    have h2 : capOk = true := by
      change (if un = 0 then _ else decide (cap = 0)) = true
      rw [if_neg hpos.1]
      exact decide_eq_true hcap
    change (typeOk && capOk && decide (fld x 32 10 = 0 ∧ fld x 0 16 = 0) && (decide (k = 1 ∧ un ≤ 9) || decide (k = 2 ∧ un = 10))) = true
    rw [h1, h2, decide_eq_true (show fld x 32 10 = 0 ∧ fld x 0 16 = 0 from ⟨hz.1, by have := hz.2; unfold fld; rwa [Nat.pow_zero, Nat.div_one]⟩)]
    rw [hkEq, huEq]
    rcases hkind with ⟨rfl, rfl⟩ | ⟨rfl, rfl⟩ <;> decide
  have hfind : (List.range 512).find? (fun i => decide ((s.unit i).state = 0)) = some i := by
    rw [List.find?_range_eq_some]
    refine ⟨decide_eq_true hfree, List.mem_range.mpr hi, fun j hj => ?_⟩
    rw [decide_eq_false (hbelow j hj)]
    rfl
  rw [if_pos hgood', hfind]
  beta_reduce
  rw [htyEq, hkEq, huEq, if_neg (huEq ▸ hpos.1)]
  rfl

/-- An AMOSWAP at IOEPNEW whose turn it is makes its slot and is answered with the handle. -/
theorem State.ioepStep_answers {s : State} {id kind pa : Nat} {m : Msg} {r : Req} {v e : Word} {ret : Bool} (hturn : s.inTurn id = some m) (hbody : m.body = .req r)
    (hrop : r.rop = .amo pa 8 v e ret) (hpa : isIoepnew (paLocal pa) = true) (hkind : (if fld v.toNat 60 4 = 2 then 2 else 1) = kind) :
    s.ioepStep kind id = ((s.take id).ioepnew v).1.reply r (.vals [((s.take id).ioepnew v).2.setWidth 1024]) := by
  unfold State.ioepStep
  simp only [hturn, hbody, hrop]
  rw [if_neg]
  rw [hpa, decide_eq_true hkind]
  exact Bool.false_ne_true

/-- Settles O39: IOEPNEW by `State.ioepnew_makes`, the rest by an idle unit's queues. -/
theorem unitRows : Obligations.UnitRows := by
  unfold Obligations.UnitRows
  refine ⟨fun s id pa i v e r from_ to_ here => ?_, fun s slot u hu hkind hstate hw hs => ?_⟩
  · intro m x ty hm hfirst hrop hpa hgood hcls hz hz' hi hfree hbelow hmod n hsrc
    have hturn : s.inTurn id = some m := by
      rw [State.inTurn, hm, Option.filter_some, if_pos hfirst]
    have hstep : ∀ kind unit : Nat, (kind = 1 ∧ unit = 9 ∨ kind = 2 ∧ unit = 10) → x / 2 ^ 60 = kind → x / 2 ^ 56 % 2 ^ 4 = unit → x / 2 ^ 42 % 2 ^ 8 = 0 →
        (s.ioepStep kind id).unit i = { UnitSlot.free with unit := unit, kind := kind, gen := (s.unit i).gen, state := 1, asid := x / 2 ^ 50 % 2 ^ 6, ty := ty, cap := 64 } ∧
          ∃ y ∈ (s.ioepStep kind id).net, ∃ pk, y.body = .answer pk r.op (.vals [(handleOf kind s.modid 0 i ty (s.unit i).gen).setWidth 1024]) := by
      intro kind unit hkind hk hu hcap
      have hmake := State.ioepnew_makes (s := s.take id) (v := v) rfl hgood hcls ⟨hz, hz'⟩ hcap hk hu hkind hi hfree hbelow
      have h60 : fld v.toNat 60 4 = kind := by
        change v.toNat / 2 ^ 60 % 2 ^ 4 = kind
        have := v.isLt
        have hk' : v.toNat / 2 ^ 60 = kind := hk
        omega
      have hkk : (if fld v.toNat 60 4 = 2 then 2 else 1) = kind := by
        rw [h60]
        split <;> omega
      rw [State.ioepStep_answers hturn rfl hrop hpa hkk, hmake]
      dsimp only
      rw [State.reply_here (s := (s.take id).setUnit i _) hsrc hmod]
      exact ⟨State.unit_setUnit_same _ _ _, (State.send_last _ _ _ _).imp fun y hy => ⟨hy.1, _, hy.2⟩⟩
    refine ⟨fun hk hu hcap => ?_, fun hk hu hcap => ?_⟩
    · obtain ⟨hun, hy⟩ := hstep 1 9 (.inl ⟨rfl, rfl⟩) hk hu hcap
      exact ⟨_, rfl, by rw [hun], by rw [hun], by rw [hun], by rw [hun], hy⟩
    · obtain ⟨hun, hy⟩ := hstep 2 10 (.inr ⟨rfl, rfl⟩) hk hu hcap
      exact ⟨_, rfl, by rw [hun], by rw [hun], by rw [hun], hy⟩
  · have hunit : s.unit slot = u := by
      rw [State.unit, hu]
      exact Table.get_set_same [] UnitSlot.free u slot
    have hfind : ∀ p : Nat × UnitSlot → Bool, p (slot, u) = true → s.units.find? p = some (slot, u) := fun p hp => by
      rw [hu, List.find?_cons_of_pos hp]
    have hinq : ∀ q : List (List Byte), (((s.setUnit slot { u with inq := q }).kickUnit slot).wakeAlts.unit slot).inq = q := fun q => by
      rw [State.unit_kicked_alts] <;> assumption
    have hdrop : ∀ q : List (List Byte), ((s.setUnit slot { u with inq := q }).kickUnit slot).wakeAlts.ethDropped = s.ethDropped := fun q => by
      rw [(unitsStand_wakeAlts _).2, State.kickUnit_idle]
      · rfl
      · rw [State.unit_setUnit_same]
        exact hw
      · rw [State.unit_setUnit_same]
        exact hs
    have houtq : (((s.setUnit slot { u with outq := u.outq.drop 1 }).kickUnit slot).unit slot).outq = u.outq.drop 1 := by
      rw [State.unit_kicked] <;> assumption
    refine ⟨fun msg h0 hroom => ?_, fun h0 => ?_, fun port frame hp hport hlen hroom => ?_, fun port frame hp hport hfull => ?_, fun port hp hport => ?_⟩
    · have hx : execHostQueueMessage slot (some msg) s = .next ((s.setUnit slot { u with inq := u.inq ++ [msg] }).kickUnit slot).wakeAlts := by
        unfold execHostQueueMessage
        rw [hunit]
        dsimp only
        rw [if_neg (by simp [hstate, h0, hkind]), if_pos hroom]
      exact ⟨_, hx, hinq _⟩
    · have hx : execHostQueueMessage slot none s = .next ((s.setUnit slot { u with outq := u.outq.drop 1 }).kickUnit slot) := by
        unfold execHostQueueMessage
        rw [hunit]
        dsimp only
        rw [if_neg (by simp [hstate, h0, hkind])]
      exact ⟨_, hx, houtq⟩
    · have hx : execEthernetFrameReceive port frame s = .next ((s.setUnit slot { u with inq := u.inq ++ [leBytes 8 frame.length ++ frame] }).kickUnit slot).wakeAlts := by
        unfold execEthernetFrameReceive
        rw [hfind _ (decide_eq_true ⟨hkind, hstate, hport, hp⟩)]
        dsimp only
        rw [if_neg (by omega)]
      exact ⟨_, hx, hinq _, hdrop _⟩
    · change execEthernetFrameReceive port frame s = _
      unfold execEthernetFrameReceive
      rw [hfind _ (decide_eq_true ⟨hkind, hstate, hport, hp⟩)]
      dsimp only
      rw [if_pos (.inr hfull)]
    · have hx : execEthernetFrameTransmit port s = .next ((s.setUnit slot { u with outq := u.outq.drop 1 }).kickUnit slot) := by
        unfold execEthernetFrameTransmit
        rw [hfind _ (decide_eq_true ⟨hkind, hstate, hport, hp⟩)]
      exact ⟨_, hx, houtq⟩
end Sys2Proof.Machine
end

section
/-! What becoming ready, waiting and writing out leave of a state (R266, R269, R270): processes may stand elsewhere, nothing else of them or of the module changes. -/
set_option Elab.async false
namespace Sys2Proof.Machine
open Sys2Proof Sys2Proof.Safety

/-- Of a process only its place among the others has changed: its state and its wait, and what of it is written out. -/
def Proc.Moved (p q : Proc) : Prop :=
  q = { p with state := q.state, wait := q.wait, why := q.why, on := q.on, since := q.since, allot := q.allot, desc := q.desc }
theorem Proc.Moved.refl (p : Proc) : p.Moved p := rfl
theorem Proc.Moved.trans {p q r : Proc} (h : p.Moved q) (h' : q.Moved r) : p.Moved r := by
  unfold Proc.Moved at h h' ⊢
  rw [h] at h'
  exact h'

/-- Processes of a state have become ready, wait, or were written out; what else the state holds stands. -/
structure Resched (s t : State) : Prop where
  rest : t = { s with procs := t.procs, cores := t.cores, mem := t.mem, fresh := t.fresh, struck := t.struck }
  core : ∀ c, t.core c = { s.core c with queues := (t.core c).queues, parkMap := (t.core c).parkMap }
  proc : ∀ k, (s.proc k).Moved (t.proc k)
  guest : ∀ w, t.procs.any (fun e => e.2.guest && decide (e.2.origin = w)) = s.procs.any (fun e => e.2.guest && decide (e.2.origin = w))
theorem Resched.refl (s : State) : Resched s s := ⟨rfl, fun _ => rfl, fun _ => rfl, fun _ => rfl⟩
theorem Resched.trans {s t u : State} (h : Resched s t) (h' : Resched t u) : Resched s u := by
  refine ⟨?_, fun c => ?_, fun k => (h.proc k).trans (h'.proc k), fun w => (h'.guest w).trans (h.guest w)⟩
  · have h1 := h.rest
    have h2 := h'.rest
    rw [h1] at h2
    exact h2
  · have h1 := h.core c
    have h2 := h'.core c
    rw [h1] at h2
    exact h2
theorem Resched.foldl {α : Type} {f : State → α → State} (hf : ∀ s a, Resched s (f s a)) (l : List α) (s : State) : Resched s (l.foldl f s) := by
  induction l generalizing s with
  | nil => exact Resched.refl s
  | cons a l ih => exact (hf s a).trans (ih _)
/-- What is read of a key says of f what some entry says, where the default says no. -/
theorem any_of_get {α : Type} {t : Table α} {d : α} {k : Nat} {f : Nat × α → Bool} (hd : f (k, d) = false) (h : f (k, t.get d k) = true) : t.any f = true := by
  induction t with
  | nil => exact absurd (hd.symm.trans h) Bool.false_ne_true
  | cons e r ih =>
    rw [List.any_cons, Bool.or_eq_true]
    by_cases hj : e.1 = k
    · refine .inl ?_
      rw [Table.get, if_pos hj, ← hj] at h
      exact h
    · refine .inr (ih ?_)
      rwa [Table.get, if_neg hj] at h
/-- An entry is written back that says of f what the entry of its key said. -/
theorem any_set_alike {α : Type} {t : Table α} {d v : α} {k : Nat} {f : Nat × α → Bool} (hv : f (k, v) = f (k, t.get d k)) (hd : f (k, d) = false) : (t.set k v).any f = t.any f := by
  induction t with
  | nil => exact (congrArg (· || false) (hv.trans hd)).trans rfl
  | cons e r ih =>
    unfold Table.set
    by_cases hlt : k < e.1
    · rw [if_pos hlt, List.any_cons, hv]
      by_cases hin : f (k, Table.get (e :: r) d k) = true
      · rw [any_of_get hd hin, Bool.or_true]
      · rw [Bool.eq_false_iff.mpr hin, Bool.false_or]
    · rw [if_neg hlt]
      by_cases hj : e.1 = k
      · rw [if_pos hj.symm, List.any_cons, List.any_cons, hv, Table.get, if_pos hj, ← hj]
      · rw [if_neg (Ne.symm hj), List.any_cons, List.any_cons, ih]
        rwa [Table.get, if_neg hj] at hv
/-- The guests of a table of processes stand where a process is written back under its origin. -/
theorem State.guest_setProc {s : State} {pk : Nat} {q : Proc} (hq : q.guest = (s.proc pk).guest ∧ q.origin = (s.proc pk).origin) (w : Nat) :
    (s.setProc pk q).procs.any (fun e => e.2.guest && decide (e.2.origin = w)) = s.procs.any (fun e => e.2.guest && decide (e.2.origin = w)) :=
  any_set_alike (d := Proc.reset) (by rw [hq.1, hq.2]; rfl) rfl
/-- A process is written back moved. -/
theorem resched_setProc {s : State} {pk : Nat} {q : Proc} (hq : (s.proc pk).Moved q) : Resched s (s.setProc pk q) := by
  refine ⟨rfl, fun _ => rfl, fun k => ?_, State.guest_setProc ⟨(congrArg Proc.guest hq).trans rfl, (congrArg Proc.origin hq).trans rfl⟩⟩
  by_cases hk : k = pk
  · subst hk
    rw [State.proc_setProc_same]
    exact hq
  · rw [State.proc_setProc_other _ _ hk]
    exact Proc.Moved.refl _
/-- The ready queues and the park area of a core change. -/
theorem resched_modCore (s : State) (c : Nat) {f : Core → Core} (hf : f (s.core c) = { s.core c with queues := (f (s.core c)).queues, parkMap := (f (s.core c)).parkMap }) :
    Resched s (s.modCore c f) := by
  refine ⟨rfl, fun k => ?_, fun _ => rfl, fun _ => rfl⟩
  by_cases hk : k = c
  · subst hk
    rw [State.core_modCore_same]
    exact hf
  · rw [State.core_modCore_other _ _ hk]
theorem resched_heal (s : State) (lo n : Nat) : Resched s (s.heal lo n) := ⟨rfl, fun _ => rfl, fun _ => rfl, fun _ => rfl⟩
theorem resched_relink (s : State) (c : Nat) : Resched s (s.relink c) := by
  unfold State.relink
  extract_lets qs
  refine Resched.foldl (f := fun s pid => s.modProc (c * 256 + pid) _) (fun s pid => resched_setProc ?_) _ _
  split <;> rfl
theorem resched_writeSave (s : State) (pk : Nat) (parked : Bool) : Resched s (s.writeSave pk parked) := by
  unfold State.writeSave
  extract_lets p base at_ items rec0 m1 m2
  refine Resched.trans (t := { s with mem := m2, fresh := s.fresh + rec0.length }) ⟨rfl, fun _ => rfl, fun _ => rfl, fun _ => rfl⟩ ?_
  have hheal : ∀ (l : List (Nat × Nat × Nat)) (t : State), Resched t (l.foldl (fun (s : State) e => s.heal (at_ e.1) e.2.1) t) := Resched.foldl fun s e => resched_heal s _ _
  exact (hheal _ _).trans (resched_setProc (by rfl))
theorem resched_wake (s : State) (pk : Nat) : Resched s (s.wake pk) := by
  have hready : ∀ p : Proc, (s.proc pk).Moved p → ∀ n, Resched s (((s.setProc pk p).modCore (coreOf pk) (·.enqueue n (pidOf pk))).relink (coreOf pk)) :=
    fun p hp n => ((resched_setProc hp).trans (resched_modCore _ _ rfl)).trans (resched_relink _ _)
  unfold State.wake
  extract_lets p q
  split
  · split
    · exact resched_setProc (by rfl)
    · exact hready _ (by rfl) _
  · split
    · exact resched_setProc (by rfl)
    · exact hready _ (by rfl) _
  · exact Resched.refl _
theorem resched_wakeAlts (s : State) : Resched s s.wakeAlts := by
  refine Resched.foldl (fun s pk => ?_) _ _
  split
  · exact resched_wake s pk
  · exact Resched.refl _
theorem resched_wakeSaved (s : State) (c t : Nat) : Resched s (s.wakeSaved c t) := by
  refine Resched.foldl (fun s pk => ?_) _ _
  dsimp only
  split
  · exact resched_wake s pk
  · exact Resched.refl _
theorem resched_block (s : State) (pk why : Nat) (edge : Word) (on : Nat) : Resched s (s.block pk why edge on) := by
  unfold State.block
  extract_lets p q out s1
  have hout : Resched s ((((s1.setProc pk out).writeSave pk false).heal (scratchAddr (coreOf pk) (0xC0000 + 256 * pidOf pk)) 256).relink (coreOf pk)) :=
    ((((resched_modCore s _ rfl).trans (resched_setProc (by rfl))).trans (resched_writeSave _ _ _)).trans (resched_heal _ _ _)).trans (resched_relink _ _)
  split
  · exact hout
  · exact hout
  · refine resched_setProc ?_
    split <;> rfl
theorem resched_synced (s : State) (pk : Nat) : Resched s (s.synced pk) := by
  unfold State.synced
  dsimp only
  split
  · exact Resched.refl _
  · split
    · exact resched_writeSave _ _ _
    · exact (((resched_setProc (by rfl)).trans (resched_writeSave _ _ _)).trans (resched_heal _ _ _)).trans (resched_relink _ _)

/-! ## What of a state stands -/
theorem Resched.ep {s t : State} (h : Resched s t) (c n : Nat) : t.ep c n = s.ep c n := (congrArg (fun k : Core => k.eps.get Endpoint.free n) (h.core c)).trans rfl
theorem Resched.tag {s t : State} (h : Resched s t) (c n : Nat) : t.tag c n = s.tag c n := (congrArg (fun k : Core => k.tag n) (h.core c)).trans rfl
theorem Resched.unit {s t : State} (h : Resched s t) (i : Nat) : t.unit i = s.unit i := (congrArg (fun x : State => x.units.get UnitSlot.free i) h.rest).trans rfl
theorem Resched.net {s t : State} (h : Resched s t) : t.net = s.net := (congrArg (fun x : State => x.net) h.rest).trans rfl
theorem Resched.held {s t : State} (h : Resched s t) : t.held = s.held := (congrArg (fun x : State => x.held) h.rest).trans rfl
theorem Resched.moduleOf {s t : State} (h : Resched s t) (w : Nat) : t.moduleOf w = s.moduleOf w := by
  unfold State.moduleOf
  rw [h.guest, show t.modid = s.modid from (congrArg State.modid h.rest).trans rfl, show (t.proc (wordKey w)).away = _ from (congrArg Proc.away (h.proc _)).trans rfl]
theorem Resched.regs {s t : State} (h : Resched s t) (k : Nat) : (t.proc k).r = (s.proc k).r := (congrArg Proc.r (h.proc k)).trans rfl
theorem Resched.pc {s t : State} (h : Resched s t) (k : Nat) : (t.proc k).pc = (s.proc k).pc := (congrArg Proc.pc (h.proc k)).trans rfl
theorem Resched.outs {s t : State} (h : Resched s t) (k : Nat) : (t.proc k).outs = (s.proc k).outs := (congrArg Proc.outs (h.proc k)).trans rfl
theorem Resched.pend {s t : State} (h : Resched s t) (k : Nat) : (t.proc k).pend = (s.proc k).pend := (congrArg Proc.pend (h.proc k)).trans rfl

/-! ## An answer that reaches its process (R46, R47) -/

/-- The trap of an operation of the process: it is as it was at the word, and takes the trap when it next issues. -/
theorem State.failed_resched {s : State} {pk op : Nat} {o : OutOp} (h : (s.proc pk).outs.find? (fun o => decide (o.id = op)) = some o) (t : Trap) :
    Resched (s.rollback pk o t) (s.failed pk op t) := by
  unfold State.failed State.failOp
  rw [h]
  dsimp only
  refine Resched.trans ?_ (resched_synced _ _)
  split
  · exact resched_wake _ _
  · exact Resched.refl _
/-- Process p once its operation o, of number op, is answered with the values vs. -/
def Proc.completed (p : Proc) (op : Nat) (o : OutOp) (vs : List (BitVec 1024)) : Proc :=
  let all := o.whole vs
  let v := all.headD 0
  { p with
    outs := (p.outs.filter (fun x => x.id != op)).map (fun y => match y.older.find? (fun e => decide (e.1 = op)) with
      | some e => { y with snap := e.2.write all y.snap, older := y.older.filter (fun x => x.1 != op) }
      | none => y)
    multi := p.multi.filter (fun m => m.op != op)
    r := if o.live then o.dest.write all p.r else p.r
    struck := if o.live then p.struck.filter (fun x => !(match o.dest with
      | .g d _ _ => [(0, d.toNat)]
      | .gg d e => [(0, d.toNat), (0, e.toNat)]
      | _ => [] : List RegRef).contains x) else p.struck
    buf := match o.dest with
      | .buf => p.buf ++ [v.setWidth 64, (v >>> 64).setWidth 64]
      | .dword => p.buf ++ [v.setWidth 64]
      | _ => p.buf }
theorem State.complete_resched {s : State} {pk op : Nat} {o : OutOp} (h : (s.proc pk).outs.find? (fun o => decide (o.id = op)) = some o) (hmore : o.more = [])
    (vs : List (BitVec 1024)) : Resched (s.setProc pk ((s.proc pk).completed op o vs)) (s.complete pk op vs) := by
  unfold State.complete
  extract_lets p
  rw [h]
  dsimp only
  rw [hmore]
  dsimp only
  split
  · exact resched_wake _ _
  · exact Resched.refl _
theorem State.done_resched {s : State} {pk op : Nat} {o : OutOp} (h : (s.proc pk).outs.find? (fun o => decide (o.id = op)) = some o) (hmore : o.more = [])
    (vs : List (BitVec 1024)) : Resched (s.setProc pk ((s.proc pk).completed op o vs)) (s.done pk op vs) :=
  (State.complete_resched h hmore vs).trans (resched_synced _ _)
/-- The one operation of a process, which writes a register, is answered. -/
theorem Proc.completed_one {p : Proc} {op : Nat} {o : OutOp} (houts : p.outs = [o]) (hid : o.id = op) (hgot : o.got = []) (hlive : o.live = true) (vs : List (BitVec 1024)) :
    (p.completed op o vs).outs = [] ∧ (p.completed op o vs).r = o.dest.write vs p.r := by
  have hwhole : o.whole vs = vs := if_pos (by rw [hgot]; rfl)
  refine ⟨?_, ?_⟩
  · unfold Proc.completed
    rw [houts]
    simp [hid]
  · unfold Proc.completed
    dsimp only
    rw [if_pos hlive, hwhole]
end Sys2Proof.Machine
end

section
/-! Proofs about what time does to channel operations, timers and guards, and about unbinding (R136, R139, R148, R297). -/
set_option Elab.async false
namespace Sys2Proof.Machine
open Sys2Proof Sys2Proof.Safety

theorem peerSlot_ne (n : Nat) : peerSlot n ≠ n := by
  unfold peerSlot
  split <;> omega
/-- The trap of a channel operation of this module reaches its process. -/
theorem State.chanTrap_here {s : State} {o : ChanOp} (h : s.ours o = true) (c : Cause) : s.chanTrap o c = s.failed (s.keyOf o.who) o.op ⟨c, o.handle, 0, 0⟩ := by
  unfold State.chanTrap State.chanAnswer
  rw [h]
  rfl
/-- So do its values. -/
theorem State.chanAnswer_here {s : State} {o : ChanOp} (h : s.ours o = true) (vs : List (BitVec 1024)) : s.chanAnswer o (.vals vs) = s.done (s.keyOf o.who) o.op vs := by
  unfold State.chanAnswer
  rw [h]
  rfl
/-- A process that waits is woken by the trap of its operation. -/
theorem State.failed_wakes {s : State} {pk op : Nat} {o : OutOp} (h : (s.proc pk).outs.find? (fun o => decide (o.id = op)) = some o) (hb : (s.proc pk).state = .blocked)
    (t : Trap) : ((s.failed pk op t).proc pk).state ≠ .blocked := by
  have hroll : ((s.rollback pk o t).proc pk).state = .blocked := by
    unfold State.rollback
    rw [State.proc_modProc_same]
    exact hb
  unfold State.failed State.failOp
  rw [(stands_synced _ _).state, h]
  dsimp only
  rw [if_pos hb]
  obtain hs | hs := (State.wake_proc (.inl hroll)).2
  · rw [hs]
    decide
  · rw [hs]
    decide
/-- A late send of a word of a pair without a ring, whose peer does not wait, is withdrawn. -/
theorem State.expireEp_send {s : State} {pk c slot : Nat} {o : ChanOp} (hw : (s.ep c slot).waiting = some o) (hlate : s.late pk o = true) (hcap : (s.ep c slot).cap = 0)
    (hform : o.form = 4) (hpeer : (s.ep c (peerSlot slot)).waiting = none) :
    s.expireEp pk c slot = (((s.modEp c slot (fun e => { e with waiting := none })).modEp c (sendSlot slot) (fun e => { e with pair := .idle })).chanTrap o .chanTimeout) := by
  unfold State.expireEp
  extract_lets e end_ s1 other
  have hin : s.lateIn pk e.waiting = true := by
    rw [show e.waiting = some o from hw]
    exact hlate
  rw [if_pos hin, show e.waiting = some o from hw]
  have hother : other = false := by
    change (s.ep c (peerSlot slot)).waiting.isSome = false
    rw [hpeer]
    rfl
  rw [if_pos hcap, hother]
  change (State.unlend _ o).chanTrap o .chanTimeout = _
  unfold State.unlend
  rw [if_pos (.inl (by rw [hform]; decide))]
  rfl

/-- What the ends of a pair are once an operation that waited there alone is gone. -/
theorem State.ep_ended (s : State) (c slot : Nat) :
    let t := (s.modEp c slot (fun e => { e with waiting := none })).modEp c (sendSlot slot) (fun e => { e with pair := .idle })
    (t.ep c slot).waiting = none ∧ (t.ep c (sendSlot slot)).pair = .idle := by
  intro t
  refine ⟨?_, congrArg Endpoint.pair (State.ep_setEp_same _ _ _ _)⟩
  by_cases h : slot = sendSlot slot
  · change ((State.modEp _ c (sendSlot slot) _).ep c slot).waiting = none
    rw [← h]
    refine (congrArg Endpoint.waiting (State.ep_setEp_same _ _ _ _)).trans ?_
    exact congrArg Endpoint.waiting (State.ep_setEp_same s c slot _)
  · refine (congrArg Endpoint.waiting (State.ep_setEp_other _ _ h _)).trans ?_
    exact congrArg Endpoint.waiting (State.ep_setEp_same s c slot _)
/-- A timer whose deadline has passed answers the RECV that waits for it. -/
theorem State.kickUnit_timer {s : State} {i d : Nat} {o : ChanOp} (hu : (s.unit i).unit = 10) (hw : (s.unit i).waiting = some o) (hd : (s.unit i).deadline = some d)
    (hdue : d ≤ s.dtime) {t : State}
    (ht : t = (s.setUnit i { s.unit i with waiting := none, deadline := none }).chanAnswer o (.vals [BitVec.ofNat 1024 s.dtime])) (hs : (t.unit i).sender = none) : s.kickUnit i = t := by
  unfold State.kickUnit
  extract_lets u x s1 v
  have h1 : s1 = t := by
    change (match u.waiting with | none => s | some o => _) = t
    rw [show u.waiting = some o from hw]
    dsimp only
    rw [if_pos hu, show u.deadline = some d from hd]
    dsimp only
    rw [if_pos hdue, ht]
  have hv : v.sender = none := by
    change (s1.unit i).sender = none
    rw [h1]
    exact hs
  rw [hv]
  exact h1

theorem hSlot_slot {slot : Nat} (h : slot < 512) : hSlot (BitVec.ofNat 64 (slot * 2 ^ 32)) = slot := by
  unfold hSlot fld
  rw [BitVec.toNat_ofNat]
  omega
/-- An unbinding request at an end that nothing is held behind. -/
theorem State.chanGo_unbind {s : State} {c : Nat} {o : ChanOp} (hform : o.form = 20) (hheld : (s.ep c (sendSlot (hSlot o.handle))).held = []) :
    s.chanGo c o = s.unbindEnd c (hSlot o.handle) o.who := by
  have hmust : s.mustHold c (hSlot o.handle) 20 = false := by
    unfold State.mustHold
    beta_reduce
    extract_lets e
    rw [if_neg (by decide), if_neg (by decide), if_pos (by decide), show e.held = [] from hheld]
    rfl
  unfold State.chanGo
  extract_lets slot s0 hold
  rw [if_pos hform, if_neg (by rw [hmust]; exact Bool.false_ne_true)]
/-- An end of this module that its owner still holds becomes unbound. -/
theorem State.unbindNext_owner {s : State} {id who c slot : Nat} (hc : c < 1536) (hslot : slot < 512) (hheld : (s.ep c (sendSlot slot)).held = [])
    (hstate : (s.ep c slot).state = 2) (howner : (s.ep c slot).owner = who) :
    s.unbindNext id who (c, slot) = s.modEp c slot (fun e => { e with state := 1, owner := 0 }) := by
  have hh := hSlot_slot hslot
  have howns : (s.ep c slot).owns who = true := decide_eq_true ⟨hstate, howner⟩
  unfold State.unbindNext
  rw [if_pos hc, hheld, List.any_nil, if_neg Bool.false_ne_true, State.chanGo_unbind rfl (by rw [hh]; exact hheld), hh]
  exact if_pos howns

/-- Settles O38: the late send by `State.expireEp_send`, the timer by `State.kickUnit_timer`, the guard by `State.wake`, the end by `State.unbindNext_owner`. -/
theorem channelTimeRows : Obligations.ChannelTimeRows := by
  unfold Obligations.ChannelTimeRows
  refine ⟨?_, ?_, ?_, ?_⟩
  · intro s c slot core pid e o k x pk hcores heps hw hlate hcap hform hours houts hid hstate
    have hcore : s.core c = k := by
      rw [State.core, hcores]
      exact Table.get_set_same [] _ k c
    have hep : s.ep c slot = e := by
      rw [State.ep, hcore, heps]
      exact Table.get_set_same [] _ e slot
    have hpeer : (s.ep c (peerSlot slot)).waiting = none := by
      rw [State.ep, hcore, heps]
      exact congrArg Endpoint.waiting (Table.get_set_other [] Endpoint.free e (peerSlot_ne slot))
    have hx : execChannelTimeoutExpire core pid s = .next (s.expireEp pk c slot) := by
      unfold execChannelTimeoutExpire
      extract_lets hit
      have hhit : hit e = true := by
        change (s.lateIn pk e.waiting || _ || _) = true
        rw [hw, show s.lateIn pk (some o) = true from hlate]
        rfl
      rw [hcores, List.findSome?_cons, heps, List.find?_cons_of_pos (by exact hhit)]
      rfl
    have hkey : s.keyOf o.who = pk := by
      unfold State.late at hlate
      simp only [Bool.and_eq_true, decide_eq_true_eq] at hlate
      exact hlate.1.1.1.1
    refine ⟨_, hx, ?_⟩
    rw [State.expireEp_send (hep ▸ hw) hlate (hep ▸ hcap) hform hpeer, State.chanTrap_here (by exact hours)]
    have hfind : (s.proc pk).outs.find? (fun y => decide (y.id = o.op)) = some x := by
      rw [houts, List.find?_cons_of_pos (by simpa using hid)]
    have hended := State.ep_ended s c slot
    generalize hs2 : ((s.modEp c slot (fun e => { e with waiting := none })).modEp c (sendSlot slot) (fun e => { e with pair := .idle })) = s2 at hended ⊢
    have hproc : s2.proc pk = s.proc pk := by rw [← hs2]; rfl
    have hkey2 : s2.keyOf o.who = pk := by rw [← hs2]; exact hkey
    rw [← hproc] at hfind hstate
    have hr := State.failed_resched hfind ⟨.chanTimeout, o.handle, 0, 0⟩
    rw [hkey2, hr.ep, hr.ep, hr.pend, hr.pc, hr.regs]
    refine ⟨hended.1, hended.2, ?_, ?_, ?_, State.failed_wakes hfind hstate _⟩ <;> unfold State.rollback <;> rw [State.proc_modProc_same]
  · intro s slot deadline o d e hunit hw hd hsend hdue hlt hours houts hid hmore hgot hdest hlive hd0
    have hone := Proc.completed_one houts hid hgot hlive [BitVec.ofNat 1024 s.dtime]
    have hfind : (s.proc (s.keyOf o.who)).outs.find? (fun o' => decide (o'.id = o.op)) = some e := by
      rw [houts, List.find?_cons_of_pos (by simpa using hid)]
    have hr := State.done_resched (s := s.setUnit slot { s.unit slot with waiting := none, deadline := none }) hfind hmore [BitVec.ofNat 1024 s.dtime]
    have hunits := (hr.unit slot).trans (Table.get_set_same s.units UnitSlot.free _ slot)
    have hkick : s.kickUnit slot = (s.setUnit slot { s.unit slot with waiting := none, deadline := none }).done (s.keyOf o.who) o.op [BitVec.ofNat 1024 s.dtime] := by
      refine State.kickUnit_timer hunit hw hd hdue (State.chanAnswer_here (by exact hours) _).symm ?_
      rw [hunits]
      exact hsend
    have hall := hr.trans (resched_wakeAlts _)
    refine ⟨_, congrArg Host.Outcome.next (if_pos hunit), ?_⟩
    rw [hkick, (resched_wakeAlts _).unit, hunits, hall.regs, State.proc_setProc_same]
    refine ⟨rfl, rfl, ?_⟩
    rw [hdest, Dest.write_number] at hone
    exact (congrArg (Regs.getG · d) hone.2).trans (Regs.getG_setG_same _ _ _ hd0)
  · intro s core pid m p list hpid hgo hstate hwhy hmulti hform hdue
    have hk : coreOf (core * 256 + pid) = core ∧ pidOf (core * 256 + pid) = pid := by
      unfold coreOf pidOf
      omega
    have hx : execAltDeadlineExpire core pid s = .next (s.wake (core * 256 + pid)) := by
      obtain ⟨i, hi, hkind, hval⟩ := hdue
      unfold execAltDeadlineExpire
      extract_lets q due
      refine congrArg Host.Outcome.next (if_pos ⟨hstate, hwhy, ?_, hgo⟩)
      change (match p.multi with | some m => _ | none => false) = true
      rw [hmulti]
      dsimp only
      rw [decide_eq_true hform, Bool.and_true, List.any_eq_true]
      have hlen : 2 * i + 1 < (m.args.drop 1).length := hi
      have hkind' : guardKind (m.args.drop 1) i = 3 := by
        unfold guardKind
        rw [hkind]
        decide
      exact ⟨i, List.mem_range.mpr (by omega), decide_eq_true ⟨hkind', hval⟩⟩
    refine ⟨_, hx, ?_⟩
    unfold State.wake
    extract_lets q
    rw [hstate]
    dsimp only
    rw [hk.1, hk.2]
    split
    · rw [State.proc_setProc_same]
    · rw [(stands_relink _ _ _).state]
      exact congrArg Proc.state (State.proc_setProc_same s _ _)
  · intro s id c slot who pk from_ to_ here m hm hfirst hc hslot hheld hstate howner
    have hturn : s.inTurn id = some m := by
      rw [State.inTurn, hm, Option.filter_some, if_pos hfirst]
    have hx : execUnbindRequest id s = .next ((s.take id).modEp c slot (fun e => { e with state := 1, owner := 0 })) := by
      unfold execUnbindRequest
      rw [hturn]
      refine congrArg Host.Outcome.next ?_
      exact State.unbindNext_owner hc hslot hheld hstate howner
    refine ⟨_, hx, congrArg Endpoint.state (State.ep_setEp_same _ _ _ _), fun x hxm => ?_⟩
    simpa using (List.mem_filter.mp hxm).2
end Sys2Proof.Machine
end

section
/-! What a change of a tile's state brings with it (R82, R92): watch events are raised, messages leave, processes become ready; memory, tags and lends stand. -/
set_option Elab.async false
namespace Sys2Proof.Machine
open Sys2Proof Sys2Proof.Safety

/-- Events have been told and processes have become ready: messages were added, and nothing else of the state has changed than the processes and their queues. -/
structure Told (s t : State) : Prop where
  rest : t = { s with procs := t.procs, cores := t.cores, net := t.net, outbox := t.outbox, nextId := t.nextId }
  core : ∀ c, t.core c = { s.core c with queues := (t.core c).queues, parkMap := (t.core c).parkMap }
  moduleOf : ∀ w, t.moduleOf w = s.moduleOf w
  net : s.net <+: t.net
theorem Told.refl (s : State) : Told s s := ⟨rfl, fun _ => rfl, fun _ => rfl, List.prefix_refl _⟩
theorem Told.trans {s t u : State} (h : Told s t) (h' : Told t u) : Told s u := by
  refine ⟨?_, fun c => ?_, fun w => (h'.moduleOf w).trans (h.moduleOf w), h.net.trans h'.net⟩
  · have h1 := h.rest
    have h2 := h'.rest
    rw [h1] at h2
    exact h2
  · have h1 := h.core c
    have h2 := h'.core c
    rw [h1] at h2
    exact h2
theorem Told.foldl {α : Type} {f : State → α → State} (hf : ∀ s a, Told s (f s a)) (l : List α) (s : State) : Told s (l.foldl f s) := by
  induction l generalizing s with
  | nil => exact Told.refl s
  | cons a l ih => exact (hf s a).trans (ih _)
theorem Told.mem {s t : State} (h : Told s t) : t.mem = s.mem := (congrArg State.mem h.rest).trans rfl
theorem Told.flash {s t : State} (h : Told s t) : t.flash = s.flash := (congrArg State.flash h.rest).trans rfl
theorem Told.held {s t : State} (h : Told s t) : t.held = s.held := (congrArg State.held h.rest).trans rfl
theorem Told.modid {s t : State} (h : Told s t) : t.modid = s.modid := (congrArg State.modid h.rest).trans rfl
theorem Told.tag {s t : State} (h : Told s t) (c n : Nat) : t.tag c n = s.tag c n := (congrArg (fun k : Core => k.tag n) (h.core c)).trans rfl
theorem Told.acc {s t : State} (h : Told s t) (c n : Nat) : t.acc c n = s.acc c n := (congrArg (fun k : Core => k.acc.get Acc.reset n) (h.core c)).trans rfl
theorem Told.lends {s t : State} (h : Told s t) (c : Nat) : (t.core c).lends = (s.core c).lends := (congrArg Core.lends (h.core c)).trans rfl
/-- What becoming ready leaves, where nothing has been written out. -/
theorem Resched.told {s t : State} (h : Resched s t) (hout : t.mem = s.mem ∧ t.fresh = s.fresh ∧ t.struck = s.struck) : Told s t := by
  refine ⟨?_, h.core, h.moduleOf, h.net ▸ List.prefix_refl _⟩
  have hr := h.rest
  rw [hout.1, hout.2.1, hout.2.2] at hr
  rw [hr]
theorem State.relink_out (s : State) (c : Nat) : (s.relink c).mem = s.mem ∧ (s.relink c).fresh = s.fresh ∧ (s.relink c).struck = s.struck := by
  unfold State.relink
  dsimp only
  generalize (s.core c).queues = qs
  induction qs.flatten generalizing s with
  | nil => exact ⟨rfl, rfl, rfl⟩
  | cons pid rest ih =>
    rw [List.foldl_cons]
    exact ih (s.modProc (c * 256 + pid) _)
theorem told_wake (s : State) (pk : Nat) : Told s (s.wake pk) := by
  refine (resched_wake s pk).told ?_
  unfold State.wake
  dsimp only
  split
  · split
    · exact ⟨rfl, rfl, rfl⟩
    · exact State.relink_out _ _
  · split
    · exact ⟨rfl, rfl, rfl⟩
    · exact State.relink_out _ _
  · exact ⟨rfl, rfl, rfl⟩
theorem told_wakeAlts (s : State) : Told s s.wakeAlts := by
  refine Told.foldl (fun s pk => ?_) _ _
  split
  · exact told_wake s pk
  · exact Told.refl _
theorem told_wakeSaved (s : State) (c n : Nat) : Told s (s.wakeSaved c n) := by
  refine Told.foldl (fun s pk => ?_) _ _
  dsimp only
  split
  · exact told_wake s pk
  · exact Told.refl _
theorem told_send (s : State) (a : Src) (d : Home) (b : Body) : Told s (s.send a d b) := ⟨rfl, fun _ => rfl, fun _ => rfl, List.prefix_append _ _⟩
/-- A process is written back where it stood for its origin. -/
theorem told_setProc {s : State} {pk : Nat} {q : Proc} (hq : q.guest = (s.proc pk).guest ∧ q.origin = (s.proc pk).origin) (ha : q.away = (s.proc pk).away) : Told s (s.setProc pk q) := by
  refine ⟨rfl, fun _ => rfl, fun w => ?_, List.prefix_refl _⟩
  have haway : ((s.setProc pk q).proc (wordKey w)).away = (s.proc (wordKey w)).away := by
    by_cases h : wordKey w = pk
    · rw [h, State.proc_setProc_same, ha]
    · rw [State.proc_setProc_other _ _ h]
  unfold State.moduleOf
  rw [State.guest_setProc hq, haway]
  rfl
theorem told_setEvent (s : State) (pk : Nat) : Told s (s.setEvent pk) := by
  unfold State.setEvent
  extract_lets p s1
  have h1 : Told s s1 := told_setProc ⟨rfl, rfl⟩ rfl
  split
  · exact h1.trans (told_wake _ _)
  · exact h1
theorem told_raiseWatch (s : State) (c n : Nat) : Told s (s.raiseWatch c n) := by
  unfold State.raiseWatch
  split
  · exact Told.refl s
  · split
    · exact told_send _ _ _ _
    · split
      · exact told_send _ _ _ _
      · split
        · exact told_setEvent _ _
        · exact told_send _ _ _ _
theorem told_watchWrite (s : State) (r : Req) (ts : List (Nat × Nat)) : Told s (s.watchWrite r ts) := by
  refine Told.foldl (fun s t => ?_) _ _
  split
  · exact Told.refl _
  · exact told_raiseWatch _ _ _
theorem told_farOver {s : State} {who op : Nat} : Told s (s.farOver who op) := by
  unfold State.farOver
  split
  · exact ⟨rfl, fun _ => rfl, fun _ => rfl, List.prefix_refl _⟩
  · extract_lets mine
    split
    · exact told_setProc ⟨rfl, rfl⟩ rfl
    · exact Told.refl _

/-! ## Tags -/
/-- A tile moves to a state other than FULL: nothing is sent. -/
theorem resched_setTag (s : State) (c n : Nat) {v : Tag} (h : v ≠ .full) : Resched (s.modCore c (·.setTag n v)) (s.setTag c n v) := by
  unfold State.setTag
  extract_lets old s1
  rw [if_neg fun hv => h hv.1]
  exact resched_wakeSaved _ _ _
theorem told_setTag (s : State) (c n : Nat) (v : Tag) : Told (s.modCore c (·.setTag n v)) (s.setTag c n v) := by
  unfold State.setTag
  extract_lets old s1
  have h1 : Told (s.modCore c (·.setTag n v)) s1 := told_wakeSaved _ _ _
  split
  · exact (h1.trans (told_raiseWatch _ _ _)).trans (told_wakeAlts _)
  · exact h1
theorem State.tag_modCore_setTag (s : State) (c n : Nat) (v : Tag) : (s.modCore c (·.setTag n v)).tag c n = v := by
  rw [State.tag, State.core_modCore_same, Core.tag_setTag]
theorem State.tag_modCore_setTag_other (s : State) {c n k m : Nat} (h : (k, m) ≠ (c, n)) (v : Tag) : (s.modCore c (·.setTag n v)).tag k m = s.tag k m := by
  rw [State.tag]
  by_cases hk : k = c
  · subst hk
    rw [State.core_modCore_same, Core.tag_setTag_other fun hm => h (by rw [hm])]
    rfl
  · rw [State.core_modCore_other _ _ hk]
    rfl
theorem State.tag_setTag (s : State) (c n : Nat) (v : Tag) : (s.setTag c n v).tag c n = v := by
  rw [(told_setTag s c n v).tag, State.tag_modCore_setTag]
theorem State.tag_setTag_other (s : State) {c n k m : Nat} (h : (k, m) ≠ (c, n)) (v : Tag) : (s.setTag c n v).tag k m = s.tag k m := by
  rw [(told_setTag s c n v).tag, State.tag_modCore_setTag_other s h]
/-- A row that lets its tile proceed without a release. -/
theorem State.applyRow_go {s : State} {e : TagEvent} {c n : Nat} {v : Tag} (h : e.row (s.tag c n) = .go v false) : s.applyRow e c n = (s.setTag c n v, true) := by
  unfold State.applyRow
  rw [h]
  rfl
/-- Every tile of an access lets it proceed. -/
theorem State.touchAll_go {s : State} {e : TagEvent} {ts : List (Nat × Nat)} (h : ∀ t ∈ ts, ∃ v b, e.row (s.tag t.1 t.2) = .go v b) : s.touchAll e ts = (s, true) := by
  unfold State.touchAll
  induction ts with
  | nil => rfl
  | cons t ts ih =>
    obtain ⟨v, b, hv⟩ := h t List.mem_cons_self
    rw [List.foldl_cons]
    dsimp only
    rw [hv]
    exact ih fun u hu => h u (List.mem_cons_of_mem _ hu)
end Sys2Proof.Machine
end

section
/-! Proofs about homes that perform requests (R80, R82, R99 to R103, R114, R228, R233, R237, R238). -/
set_option Elab.async false
namespace Sys2Proof.Machine
open Sys2Proof Sys2Proof.Safety

/-- The die of an HBM address. -/
theorem scarabOf_die {la : Nat} (h : placeOf la = .hbm) : scarabOf la / 32 < 4 := by
  have hla : la < 0x6000000000 := by
    by_contra hn
    rw [placeOf, if_neg hn] at h
    repeat' split at h
    all_goals exact Place.noConfusion h
  have hx : Nat.xor (la % 0xC00000000 / 2 ^ 16 % 16) (la % 0xC00000000 / 2 ^ 20 % 16) < 2 ^ 4 := Nat.xor_lt_two_pow (by omega) (by omega)
  unfold scarabOf
  dsimp only
  generalize Nat.xor _ _ = i at *
  omega
/-- No home counts accesses: a request counts nothing. -/
theorem State.countAccess_off {s : State} (h : ∀ d < 4, (s.die d).migEn = false) (core la : Nat) (u : Under) : s.countAccess core la u = s := by
  unfold State.countAccess
  extract_lets req d page
  by_cases hp : placeOf la = .hbm
  · exact if_pos (.inr (.inl (by rw [show d.migEn = false from h _ (scarabOf_die hp)]; rfl)))
  · exact if_pos (.inl hp)
theorem State.counted_off {s : State} (h : ∀ d < 4, (s.die d).migEn = false) (r : Req) : s.counted r = s := by
  unfold State.counted
  split
  · exact State.countAccess_off h _ _ _
  · exact State.countAccess_off h _ _ _
  · exact State.countAccess_off h _ _ _
  · rfl
/-- A request reaches a home where nothing is held, and is performed. -/
theorem State.arriveReq_performs {s t : State} {r : Req} (hheld : s.held = []) (hrop : ∀ c n k, r.rop ≠ .tag 7 c n k)
    (htry : s.tryReq { r with arrived := some (r.arrived.getD s.dtime) } = (t, true)) (ht : t.held = []) : s.arriveReq r = t := by
  unfold State.arriveReq
  extract_lets pulls r'
  have hpulls : pulls = false := by
    change (match r.rop with | .tag 7 c t _ => _ | _ => false) = false
    split
    · next c n k h => exact absurd h (hrop c n k)
    · rfl
  have hr' : r' = { r with arrived := some (r.arrived.getD s.dtime) } := by
    change ({ r with arrived := _, released := r.released || pulls } : Req) = _
    rw [hpulls, Bool.or_false]
  rw [hheld, List.any_nil, if_neg Bool.false_ne_true, hr', htry]
  exact State.settle_nil ht

/-- Memory, what is on the net and what is held stand, and processes are where they were. -/
structure Kept (s t : State) : Prop where
  mem : t.mem = s.mem
  held : t.held = s.held
  net : t.net = s.net
  modid : t.modid = s.modid
  moduleOf : ∀ w, t.moduleOf w = s.moduleOf w
theorem Kept.refl (s : State) : Kept s s := ⟨rfl, rfl, rfl, rfl, fun _ => rfl⟩
theorem Kept.trans {s t u : State} (h : Kept s t) (h' : Kept t u) : Kept s u :=
  ⟨h'.mem.trans h.mem, h'.held.trans h.held, h'.net.trans h.net, h'.modid.trans h.modid, fun w => (h'.moduleOf w).trans (h.moduleOf w)⟩
theorem kept_setTag (s : State) (c n : Nat) {v : Tag} (h : v ≠ .full) : Kept s (s.setTag c n v) := by
  have ht := told_setTag s c n v
  exact ⟨ht.mem, ht.held, (resched_setTag s c n h).net, ht.modid, ht.moduleOf⟩
/-- The tiles of an LDX become EMPTY. -/
theorem ldxAll_empties {ts : List (Nat × Nat)} : ∀ {s : State}, (∀ e ∈ ts, s.tag e.1 e.2 = .full ∨ s.tag e.1 e.2 = .empty) →
    let t := ts.foldl (fun s e => (s.applyRow .ldx e.1 e.2).1) s
    Kept s t ∧ (∀ e ∈ ts, t.tag e.1 e.2 = .empty) ∧ ∀ k m, s.tag k m = .empty → t.tag k m = .empty := by
  induction ts with
  | nil => exact fun _ => ⟨Kept.refl _, fun e he => absurd he List.not_mem_nil, fun _ _ h => h⟩
  | cons e ts ih =>
    intro s h t
    have hstep : Kept s (s.applyRow .ldx e.1 e.2).1 ∧ (s.applyRow .ldx e.1 e.2).1.tag e.1 e.2 = .empty ∧ ∀ k m, (k, m) ≠ e → (s.applyRow .ldx e.1 e.2).1.tag k m = s.tag k m := by
      obtain hf | he := h e List.mem_cons_self
      · rw [State.applyRow_go (v := .empty) (by rw [hf]; rfl)]
        exact ⟨kept_setTag s e.1 e.2 (v := .empty) (by decide), State.tag_setTag _ _ _ _, fun k m hk => State.tag_setTag_other s hk _⟩
      · unfold State.applyRow
        rw [he]
        exact ⟨Kept.refl s, he, fun _ _ _ => rfl⟩
    obtain ⟨hkept, hempty, hother⟩ := hstep
    have hrest : ∀ k m, s.tag k m = .full ∨ s.tag k m = .empty → (s.applyRow .ldx e.1 e.2).1.tag k m = .full ∨ (s.applyRow .ldx e.1 e.2).1.tag k m = .empty := by
      intro k m hkm
      by_cases hk : (k, m) = e
      · exact .inr (hk ▸ hempty)
      · rw [hother k m hk]
        exact hkm
    obtain ⟨hk, hts, hstay⟩ := ih (s := (s.applyRow .ldx e.1 e.2).1) fun u hu => hrest _ _ (h u (List.mem_cons_of_mem _ hu))
    refine ⟨hkept.trans hk, fun u hu => ?_, fun k m hkm => hstay k m ?_⟩
    · obtain rfl | hu := List.mem_cons.mp hu
      · exact hstay _ _ hempty
      · exact hts u hu
    · by_cases hk : (k, m) = e
      · exact hk ▸ hempty
      · rw [hother k m hk]
        exact hkm

/-- A request of a core of this module is acknowledged there. -/
theorem State.ack_here {s : State} {r : Req} {k : Nat} (hsrc : r.src = .core k) (hm : s.moduleOf r.who = s.modid) :
    s.ack r = s.send r.home.src (.core (coreOf (s.keyOf r.who))) (.ack (s.keyOf r.who) r.op) := by
  unfold State.ack State.answer
  rw [hsrc]
  exact if_pos hm
/-- The table of R237, by the number of the operation. -/
def amoValue (f : Nat) (old v e : Word) : Word := match f with
  | 0 => old + v
  | 1 => if v.toInt < old.toInt then v else old
  | 2 => if old.toInt < v.toInt then v else old
  | 3 => if v.toNat < old.toNat then v else old
  | 4 => if old.toNat < v.toNat then v else old
  | 5 => old &&& v
  | 6 => old ||| v
  | 7 => old ^^^ v
  | 8 => v
  | _ => if old = e then v else old
theorem amoNew_values {f : Nat} (hf : f ≤ 9) {old v e : Word} (h : ¬ (f = 9 ∧ old ≠ e)) : (if f = 9 then v else amoNew f old v) = amoValue f old v e := by
  have hmin : ∀ a b : Word, (if a.slt b then a else b) = if b.toInt < a.toInt then b else a := fun a b => by
    by_cases hab : a.slt b = true
    · rw [if_pos hab, if_neg]
      rw [BitVec.slt_iff_toInt_lt] at hab
      omega
    · rw [if_neg hab]
      rw [BitVec.slt_iff_toInt_lt] at hab
      by_cases hba : b.toInt < a.toInt
      · rw [if_pos hba]
      · rw [if_neg hba]
        exact BitVec.eq_of_toInt_eq (by omega)
  have hminU : ∀ a b : Word, (if a.ult b then a else b) = if b.toNat < a.toNat then b else a := fun a b => by
    by_cases hab : a.ult b = true
    · rw [if_pos hab, if_neg]
      rw [BitVec.ult_iff_toNat_lt] at hab
      omega
    · rw [if_neg hab]
      rw [BitVec.ult_iff_toNat_lt] at hab
      by_cases hba : b.toNat < a.toNat
      · rw [if_pos hba]
      · rw [if_neg hba]
        exact BitVec.eq_of_toNat_eq (by omega)
  have hmax : ∀ a b : Word, (if a.slt b then b else a) = if a.toInt < b.toInt then b else a := fun a b => by simp only [BitVec.slt_iff_toInt_lt]
  have hmaxU : ∀ a b : Word, (if a.ult b then b else a) = if a.toNat < b.toNat then b else a := fun a b => by simp only [BitVec.ult_iff_toNat_lt]
  by_cases h9 : f = 9
  · subst h9
    have hoe : old = e := not_not.mp fun hne => h ⟨rfl, hne⟩
    exact (if_pos hoe).symm
  · rw [if_neg h9]
    interval_cases f
    · rfl
    · exact hmin old v
    · exact hmax old v
    · exact hminU old v
    · exact hmaxU old v
    · rfl
    · rfl
    · rfl
    · rfl
    · exact absurd rfl h9
section home
variable {s : State} (hheld : s.held = []) (hstruck : s.struck = []) (hlends : s.lendsHbm = []) (hmigs : s.migs = [])
include hmigs in
theorem State.migrating_none (la : Nat) : s.migrating la = false := by
  rw [State.migrating, hmigs, List.any_nil, Bool.and_false]
include hstruck in
theorem State.hurt_none (lo n : Nat) : s.hurt lo n = false := by rw [State.hurt, hstruck, List.any_nil]
include hstruck in
theorem State.mergeHurt_none (ws : List (Nat × Byte × Byte)) : s.mergeHurt ws = false := by rw [State.mergeHurt, hstruck, List.any_nil]
include hlends in
theorem State.hbmLent_none (la n : Nat) : s.hbmLent la n = false := by rw [State.hbmLent, hlends, List.any_nil]

include hheld hstruck hmigs in
/-- A load of FULL tiles is answered, and empties them if it is an LDX. -/
theorem arriveReq_load {r : Req} {k pa n : Nat} {ldx sync : Bool} (hsrc : r.src = .core k) (hstale : r.stale = false) (hmod : s.moduleOf r.who = s.modid)
    (hrop : r.rop = .load pa n ldx sync) (hn : 0 < n ∧ n ≤ 128) (htags : ∀ e ∈ touchedTiles (paLocal pa) n, s.tag e.1 e.2 = .full) :
    ∃ t m pk, s.arriveReq r = t ∧ t.mem = s.mem ∧ t.net = s.net ++ [⟨m, r.home.src, .core (coreOf pk), .answer pk r.op (.vals [BitVec.ofNat 1024 (s.view (paLocal pa) n)]), none, false⟩] ∧
      ∀ e ∈ touchedTiles (paLocal pa) n, t.tag e.1 e.2 = if ldx then .empty else .full := by
  have htry : ∀ r' : Req, r'.rop = r.rop → r'.stale = r.stale → s.tryReq r' =
      ((if ldx then (touchedTiles (paLocal pa) n).foldl (fun s t => (s.applyRow .ldx t.1 t.2).1) s else s).reply r' (.vals [BitVec.ofNat 1024 (s.view (paLocal pa) n)]), true) := by
    intro r' h1 h2
    have htouch : s.touchAll (if ldx then .ldx else if sync then .sync else .load) (touchedTiles (paLocal pa) n) = (s, true) := by
      refine State.touchAll_go fun e he => ?_
      rw [htags e he]
      cases ldx <;> cases sync <;> exact ⟨_, _, rfl⟩
    have hone : (List.range ((n + 127) / 128)).map (fun i => BitVec.ofNat 1024 (s.view (paLocal pa) n / 2 ^ (1024 * i))) = [BitVec.ofNat 1024 (s.view (paLocal pa) n)] := by
      rw [show (n + 127) / 128 = 1 by omega]
      simp
    unfold State.tryReq
    rw [h2, hstale, if_neg Bool.false_ne_true, h1, hrop]
    dsimp only
    rw [State.migrating_none hmigs, if_neg Bool.false_ne_true, htouch]
    dsimp only
    rw [State.hurt_none hstruck, if_neg Bool.false_ne_true, hone]
  generalize hs2 : (if ldx then (touchedTiles (paLocal pa) n).foldl (fun s t => (s.applyRow .ldx t.1 t.2).1) s else s) = s2 at htry
  have hk : Kept s s2 ∧ ∀ e ∈ touchedTiles (paLocal pa) n, s2.tag e.1 e.2 = if ldx then .empty else .full := by
    rw [← hs2]
    cases ldx with
    | true =>
      obtain ⟨hk, hts, -⟩ := ldxAll_empties fun e he => .inl (htags e he)
      exact ⟨hk, hts⟩
    | false => exact ⟨Kept.refl s, htags⟩
  obtain ⟨hkept, htag⟩ := hk
  have hreply := State.reply_here (s := s2) (r := { r with arrived := some (r.arrived.getD s.dtime) }) hsrc (by rw [hkept.moduleOf, hkept.modid]; exact hmod)
    (.vals [BitVec.ofNat 1024 (s.view (paLocal pa) n)])
  have hperf := State.arriveReq_performs hheld (by rw [hrop]; exact fun _ _ _ => ROp.noConfusion) (htry _ rfl rfl) (by rw [hreply]; exact hkept.held.trans hheld)
  refine ⟨_, s2.nextId, s2.keyOf r.who, hperf, ?_, ?_, ?_⟩ <;> rw [hreply]
  · exact hkept.mem
  · exact congrArg (· ++ _) hkept.net
  · exact htag

include hheld hstruck hmigs hlends in
/-- A store to FULL tiles, or an STX to an EMPTY one, which then is FULL, writes its bytes and is acknowledged. -/
theorem arriveReq_store {r : Req} {k pa n : Nat} {ws : List (Nat × Byte × Byte)} {stx stl : Bool} (hsrc : r.src = .core k) (hstale : r.stale = false)
    (hmod : s.moduleOf r.who = s.modid) (hrop : r.rop = .store pa n ws stx stl) (hrel : stl = true → r.released = true)
    (htags : (stx = false ∧ ∀ e ∈ touchedTiles (paLocal pa) n, s.tag e.1 e.2 = .full) ∨ (stx = true ∧ ∃ e, touchedTiles (paLocal pa) n = [e] ∧ s.tag e.1 e.2 = .empty)) :
    ∃ t pk, s.arriveReq r = t ∧ t.mem = s.mem.writeMasked ws ∧ (stx = true → ∀ e ∈ touchedTiles (paLocal pa) n, t.tag e.1 e.2 = .full) ∧ ∃ m ∈ t.net, m.body = .ack pk r.op := by
  have htouch : s.touchAll (if stx then .stx else .store) (touchedTiles (paLocal pa) n) = (s, true) := by
    refine State.touchAll_go fun e he => ?_
    obtain ⟨rfl, h⟩ | ⟨rfl, e', h', h⟩ := htags
    · rw [h e he]
      exact ⟨_, _, rfl⟩
    · rw [h', List.mem_singleton] at he
      rw [he, h]
      exact ⟨_, _, rfl⟩
  have htry : ∀ r' : Req, r'.rop = r.rop → r'.stale = r.stale → r'.released = r.released → s.tryReq r' =
      (State.ack (if stx then (touchedTiles (paLocal pa) n).foldl (fun s t => (s.applyRow .stx t.1 t.2).1)
          ({ s with mem := s.mem.writeMasked ws, struck := s.struck.filter (fun a => !ws.any (fun w => decide (w.1 = a))) } : State)
        else State.watchWrite ({ s with mem := s.mem.writeMasked ws, struck := s.struck.filter (fun a => !ws.any (fun w => decide (w.1 = a))) } : State) r' (touchedTiles (paLocal pa) n)) r', true) := by
    intro r' h1 h2 h3
    have hstl : (stl && !r'.released && s.watchedAway r' (touchedTiles (paLocal pa) n)) = false := by
      cases stl with
      | true => rw [h3, hrel rfl]; rfl
      | false => rfl
    unfold State.tryReq
    rw [h2, hstale, if_neg Bool.false_ne_true, h1, hrop]
    dsimp only
    rw [State.migrating_none hmigs, State.hbmLent_none hlends, Bool.false_and, Bool.or_false, if_neg Bool.false_ne_true, hstl, if_neg Bool.false_ne_true, htouch]
    dsimp only
    rw [State.hurt_none hstruck, Bool.and_false, if_neg Bool.false_ne_true, State.mergeHurt_none hstruck, if_neg Bool.false_ne_true]
  obtain ⟨r', hr'⟩ : ∃ r', r' = { r with arrived := some (r.arrived.getD s.dtime) } := ⟨_, rfl⟩
  have htry' := htry r' (by rw [hr']) (by rw [hr']) (by rw [hr'])
  generalize hw : ({ s with mem := s.mem.writeMasked ws, struck := s.struck.filter (fun a => !ws.any (fun w => decide (w.1 = a))) } : State) = s1 at htry'
  generalize hs2 : (if stx then (touchedTiles (paLocal pa) n).foldl (fun s t => (s.applyRow .stx t.1 t.2).1) s1 else s1.watchWrite r' (touchedTiles (paLocal pa) n)) = s2 at htry'
  have hs : s2.mem = s.mem.writeMasked ws ∧ s2.held = s.held ∧ s2.moduleOf r.who = s.moduleOf r.who ∧ s2.modid = s.modid ∧
      (stx = true → ∀ e ∈ touchedTiles (paLocal pa) n, s2.tag e.1 e.2 = .full) := by
    obtain ⟨rfl, -⟩ | ⟨rfl, e, he, h⟩ := htags
    · have ht := told_watchWrite s1 r' (touchedTiles (paLocal pa) n)
      rw [← hs2, ← hw]
      rw [← hw] at ht
      exact ⟨ht.mem, ht.held, (ht.moduleOf _).trans rfl, ht.modid, fun h => absurd h Bool.false_ne_true⟩
    · have ht := told_setTag s1 e.1 e.2 .full
      have h1 : s1.tag e.1 e.2 = .empty := by
        rw [← hw]
        exact h
      have hgo : s1.applyRow .stx e.1 e.2 = (s1.setTag e.1 e.2 .full, true) := by
        refine State.applyRow_go ?_
        rw [h1]
        rfl
      rw [if_pos rfl, he, List.foldl_cons, List.foldl_nil, hgo] at hs2
      rw [← hs2, he]
      refine ⟨ht.mem.trans (by rw [← hw]; rfl), ht.held.trans (by rw [← hw]; rfl), (ht.moduleOf _).trans (by rw [← hw]; rfl), ht.modid.trans (by rw [← hw]; rfl), fun _ u hu => ?_⟩
      rw [List.mem_singleton.mp hu]
      exact State.tag_setTag _ _ _ _
  obtain ⟨hmem, hh, hmo, hid, hfull⟩ := hs
  have hack := State.ack_here (s := s2) (r := r') (k := k) (by rw [hr']; exact hsrc) (by rw [hr', hid]; exact hmo.trans hmod)
  have hperf := State.arriveReq_performs hheld (by rw [hrop]; exact fun _ _ _ => ROp.noConfusion) (by rw [← hr']; exact htry') (by rw [hack]; exact hh.trans hheld)
  refine ⟨_, s2.keyOf r'.who, hperf, ?_, ?_, ?_⟩ <;> rw [hack]
  · exact hmem
  · exact hfull
  · rw [show r.op = r'.op by rw [hr']]
    exact State.send_last _ _ _ _

include hheld hstruck hmigs hlends in
/-- An AMO on FULL tiles writes what its operation gives and answers, or acknowledges. -/
theorem arriveReq_amo {r : Req} {k pa f : Nat} {v e old : Word} {ret : Bool} (hsrc : r.src = .core k) (hstale : r.stale = false)
    (hmod : s.moduleOf r.who = s.modid) (hrop : r.rop = .amo pa f v e ret) (hold : old = BitVec.ofNat 64 (s.view (paLocal pa) 8)) (htags : ∀ e ∈ touchedTiles (paLocal pa) 8, s.tag e.1 e.2 = .full) :
    ∃ t pk, s.arriveReq r = t ∧
      t.mem = (if f = 9 ∧ old ≠ e then s.mem else s.mem.writeMasked (storeWrites (paLocal pa) 8 (if f = 9 then v else amoNew f old v).toNat)) ∧
      ((f = 9 → ret = true) → ∃ m ∈ t.net, m.body = if ret then .answer pk r.op (.vals [old.setWidth 1024]) else .ack pk r.op) := by
  have htouch : s.touchAll .store (touchedTiles (paLocal pa) 8) = (s, true) := State.touchAll_go fun e he => by
    rw [htags e he]
    exact ⟨_, _, rfl⟩
  obtain ⟨r', hr'⟩ : ∃ r', r' = { r with arrived := some (r.arrived.getD s.dtime) } := ⟨_, rfl⟩
  have hsrc' : r'.src = .core k := by rw [hr']; exact hsrc
  have hwho : r'.who = r.who := by rw [hr']
  have hop : r.op = r'.op := by rw [hr']
  have htry : s.tryReq r' = if f = 9 ∧ old ≠ e then (s.reply r' (.vals [old.setWidth 1024]), true) else
      let s2 := ({ s with mem := s.mem.writeMasked (storeWrites (paLocal pa) 8 (if f = 9 then v else amoNew f old v).toNat) } : State).watchWrite r' (touchedTiles (paLocal pa) 8)
      (if ret then s2.reply r' (.vals [old.setWidth 1024]) else s2.ack r', true) := by
    unfold State.tryReq
    rw [show r'.stale = false by rw [hr']; exact hstale, if_neg Bool.false_ne_true, show r'.rop = r.rop by rw [hr'], hrop]
    dsimp only
    rw [State.migrating_none hmigs, State.hbmLent_none hlends, Bool.and_false, Bool.or_false, if_neg Bool.false_ne_true, htouch]
    dsimp only
    rw [State.hurt_none hstruck, if_neg Bool.false_ne_true, ← hold]
  have hgo : ∀ t : State, s.tryReq r' = (t, true) → t.held = [] → s.arriveReq r = t := fun t ht hh =>
    State.arriveReq_performs hheld (by rw [hrop]; exact fun _ _ _ => ROp.noConfusion) (by rw [← hr']; exact ht) hh
  by_cases hne : f = 9 ∧ old ≠ e
  · rw [if_pos hne] at htry
    rw [if_pos hne]
    have hreply := State.reply_here hsrc' (hwho ▸ hmod) (.vals [old.setWidth 1024])
    rw [hreply] at htry
    refine ⟨_, s.keyOf r'.who, hgo _ htry hheld, rfl, fun hret => ?_⟩
    rw [hret hne.1, if_pos rfl, hop]
    exact State.send_last _ _ _ _
  · rw [if_neg hne] at htry
    rw [if_neg hne]
    dsimp only at htry
    have ht := told_watchWrite ({ s with mem := s.mem.writeMasked (storeWrites (paLocal pa) 8 (if f = 9 then v else amoNew f old v).toNat) } : State) r' (touchedTiles (paLocal pa) 8)
    generalize State.watchWrite _ r' _ = s2 at ht htry
    have hmod2 : s2.moduleOf r'.who = s2.modid := by
      rw [ht.moduleOf, ht.modid, hwho]
      exact hmod
    cases ret with
    | true =>
      rw [if_pos rfl, State.reply_here hsrc' hmod2] at htry
      exact ⟨_, s2.keyOf r'.who, hgo _ htry (ht.held.trans hheld), ht.mem, fun _ => hop ▸ State.send_last _ _ _ _⟩
    | false =>
      rw [if_neg Bool.false_ne_true, State.ack_here hsrc' hmod2] at htry
      exact ⟨_, s2.keyOf r'.who, hgo _ htry (ht.held.trans hheld), ht.mem, fun _ => hop ▸ State.send_last _ _ _ _⟩

include hheld in
/-- The claim of a copy piece makes its tile PENDING. -/
theorem arriveReq_claim {r : Req} {k c tile n j cid idx : Nat} (hsrc : r.src = .core k) (hstale : r.stale = false)
    (hrop : r.rop = .claim c tile (.piece n j cid idx)) (htag : s.tag c tile = .empty ∨ s.tag c tile = .full) :
    ∃ t, s.arriveReq r = t ∧ t.mem = s.mem ∧ t.tag c tile = .pending := by
  obtain ⟨r', hr'⟩ : ∃ r', r' = { r with arrived := some (r.arrived.getD s.dtime) } := ⟨_, rfl⟩
  have hgo : s.applyRow .arrivalClaims c tile = (s.setTag c tile .pending, true) := State.applyRow_go (by obtain h | h := htag <;> rw [h] <;> rfl)
  have hdone : (s.setTag c tile .pending).claimDone r' (.piece n j cid idx) (s.tag c tile) = (s.setTag c tile .pending).claimed (.piece n j cid idx) (s.tag c tile) := by
    unfold State.claimDone
    rw [show r'.src = .core k by rw [hr']; exact hsrc]
  have htry : s.tryReq r' = ((s.setTag c tile .pending).claimed (.piece n j cid idx) (s.tag c tile), true) := by
    unfold State.tryReq
    rw [show r'.stale = false by rw [hr']; exact hstale, if_neg Bool.false_ne_true, show r'.rop = r.rop by rw [hr'], hrop]
    dsimp only
    rw [hgo]
    dsimp only
    rw [hdone]
  have ht := told_setTag s c tile .pending
  have hperf := State.arriveReq_performs hheld (by rw [hrop]; exact fun _ _ _ => ROp.noConfusion) (by rw [← hr']; exact htry) (by exact ht.held.trans hheld)
  refine ⟨_, hperf, ht.mem, ?_⟩
  exact ((quiet_modCore (s.setTag c tile .pending) j fun _ => rfl).2 c tile).trans (State.tag_setTag s c tile .pending)

/-! ## Engines' messages -/
include hheld in
theorem State.atTurn_free (ts : List (Nat × Nat)) (w : Waiter) : s.atTurn ts w = true := by
  rw [State.atTurn, hheld]
  rfl
theorem told_merged (s : State) (src : Src) (who op : Nat) : Told s (s.merged src who op) := by
  unfold State.merged
  split
  · exact ⟨rfl, fun _ => rfl, fun _ => rfl, List.prefix_refl _⟩
  · exact told_farOver
include hheld hstruck hlends hmigs in
/-- The merge of a maximum is performed at FULL tiles. -/
theorem execAbsmaxMerge_merges (hmig : ∀ d < 4, (s.die d).migEn = false) {id pa pk op core : Nat} {va pc dest : Word} {u : Under} {v : Word} {from_ : Src} {to_ : Home} {h : Bool}
    (hin : s.inTurn id = some ⟨id, from_, to_, .absmax pa v pk op core va pc dest u, none, h⟩) (htags : ∀ e ∈ touchedTiles (paLocal pa) 8, s.tag e.1 e.2 = .full) :
    ∃ t, execAbsmaxMerge id s = .next t ∧ t.mem = s.mem.writeMasked (storeWrites (paLocal pa) 8 (amoNew 2 (BitVec.ofNat 64 (s.view (paLocal pa) 8)) v).toNat) := by
  have htouch : s.touchAll .store (touchedTiles (paLocal pa) 8) = (s, true) := State.touchAll_go fun e he => by
    rw [htags e he]
    exact ⟨_, _, rfl⟩
  have hx : ∃ r, execAbsmaxMerge id s = .next ((State.watchWrite ({ s.take id with mem := s.mem.writeMasked (storeWrites (paLocal pa) 8
      (amoNew 2 (BitVec.ofNat 64 (s.view (paLocal pa) 8)) v).toNat) } : State) r (touchedTiles (paLocal pa) 8)).merged from_ pk op).settle := by
    unfold execAbsmaxMerge
    rw [hin]
    dsimp only
    rw [State.migrating_none hmigs, State.hbmLent_none hlends, Bool.and_false, Bool.or_false, if_neg Bool.false_ne_true, htouch]
    dsimp only
    rw [State.atTurn_free hheld, if_neg (by decide), State.countAccess_off (s := s.take id) hmig]
    cases from_
    all_goals
      dsimp only
      rw [State.hurt_none (s := s.take id) hstruck]
      exact ⟨_, rfl⟩
  obtain ⟨r, hx⟩ := hx
  have ht := (told_watchWrite ({ s.take id with mem := s.mem.writeMasked (storeWrites (paLocal pa) 8 (amoNew 2 (BitVec.ofNat 64 (s.view (paLocal pa) 8)) v).toNat) } : State) r
    (touchedTiles (paLocal pa) 8)).trans (told_merged _ from_ pk op)
  refine ⟨_, hx, ?_⟩
  rw [State.settle_nil (ht.held.trans hheld), ht.mem]
end home

/-- Every core is changed alike, the ones that hold nothing included. -/
theorem Table.get_mapped {α : Type} (t : Table α) {d : α} {g : α → α} (hd : g d = d) (k : Nat) : Table.get (t.map (fun e => (e.1, g e.2))) d k = g (t.get d k) := by
  induction t with
  | nil => exact hd.symm
  | cons e r ih =>
    rw [List.map_cons, Table.get, Table.get]
    by_cases h : e.1 = k
    · rw [if_pos h, if_pos h]
    · rw [if_neg h, if_neg h, ih]
/-- A core without lends has none to change. -/
theorem Core.lends_none {k : Core} (h : k.lends = []) {g : List Lend → List Lend} (hg : g [] = []) : { k with lends := g k.lends } = k := by
  rw [h, hg, ← h]
/-- A lend's record is changed at every core. -/
theorem State.core_modLend (s : State) (id : Nat) (f : Lend → Lend) (c : Nat) :
    (s.modLend id f).core c = { s.core c with lends := (s.core c).lends.map (fun l => if l.id = id then f l else l) } :=
  Table.get_mapped s.cores (d := Core.reset) (g := fun x : Core => { x with lends := x.lends.map (fun l => if l.id = id then f l else l) })
    (Core.lends_none rfl (g := List.map (fun l => if l.id = id then f l else l)) rfl) c
theorem Core.lends_setTag (k : Core) (n : Nat) (v : Tag) : (k.setTag n v).lends = k.lends := by
  unfold Core.setTag
  split <;> rfl
theorem State.lends_modCore_setTag (s : State) (k n : Nat) (v : Tag) (c : Nat) : ((s.modCore k (·.setTag n v)).core c).lends = (s.core c).lends := by
  by_cases h : c = k
  · rw [h, State.core_modCore_same, Core.lends_setTag]
  · rw [State.core_modCore_other _ _ h]

/-- What an answer to a message leaves of memory and of what is held. -/
theorem kept_sendBack (s : State) (via src : Src) (dst : Home) (b : Body) : (s.sendBack via src dst b).mem = s.mem ∧ (s.sendBack via src dst b).held = s.held := by
  unfold State.sendBack
  split
  · split <;> exact ⟨rfl, rfl⟩
  · exact ⟨rfl, rfl⟩
/-- An answer that does not go back to the module that asked leaves on the net. -/
theorem State.sendBack_send {s : State} {via src : Src} {dst : Home} {b : Body} (h : ∀ j p, via = .remote j p → dst ≠ .remote j) : s.sendBack via src dst b = s.send src dst b := by
  unfold State.sendBack
  split
  · next k p j =>
    rw [if_neg]
    rintro rfl
    exact h j p rfl rfl
  · rfl

/-- Settles O43: what a core asks by `arriveReq_load`, `arriveReq_store`, `arriveReq_amo` and `arriveReq_claim`, the engines' messages each by its row. -/
theorem homesPerform : Obligations.HomesPerform := by
  unfold Obligations.HomesPerform
  intro s id from_ to_ h hheld hstruck hlends hmigs hmig rest
  have hreq : ∀ {r : Req}, s.inTurn id = some ⟨id, from_, to_, .req r, none, h⟩ → s.request? id = some r := fun hin => by rw [State.request?, hin]
  have hperform : ∀ r : Req, s.performReq id r = (s.take id).arriveReq r := fun r => by rw [State.performReq, State.counted_off (s := s.take id) hmig]
  refine ⟨fun r k hin hsrc hstale hmmio hmod => ⟨?_, ?_, ?_, ?_, ?_⟩, ?_, ?_, ?_, ?_, ?_, ?_, ?_⟩
  · intro pa n ldx sync hrop hn hn' htags
    obtain ⟨t, m, pk, ht, hmem, hnet, htag⟩ := arriveReq_load (s := s.take id) hheld hstruck hmigs hsrc hstale hmod hrop ⟨hn, hn'⟩ htags
    have hx : execLoadPerform id s = .next t := by
      unfold execLoadPerform
      rw [hreq hin]
      dsimp only
      rw [hrop]
      dsimp only
      rw [hmmio, ← ht, ← hperform]
      rfl
    exact ⟨t, m, pk, hx, hmem, hnet, htag⟩
  · intro pa n ws stl hrop hrel htags
    obtain ⟨t, pk, ht, hmem, -, hack⟩ := arriveReq_store (s := s.take id) hheld hstruck hlends hmigs hsrc hstale hmod hrop hrel (.inl ⟨rfl, htags⟩)
    have hx : execStorePerform id s = .next t := by
      unfold execStorePerform
      rw [hreq hin]
      dsimp only
      rw [hrop]
      dsimp only
      rw [hmmio, ← ht, ← hperform]
      rfl
    exact ⟨t, pk, hx, hmem, hack⟩
  · intro pa n ws c tile hrop hts htag
    obtain ⟨t, pk, ht, hmem, hfull, hack⟩ := arriveReq_store (s := s.take id) hheld hstruck hlends hmigs hsrc hstale hmod hrop (fun h => absurd h Bool.false_ne_true)
      (.inr ⟨rfl, _, hts, htag⟩)
    have hx : execStorePerform id s = .next t := by
      unfold execStorePerform
      rw [hreq hin]
      dsimp only
      rw [hrop]
      dsimp only
      rw [hmmio, ← ht, ← hperform]
      rfl
    exact ⟨t, pk, hx, hmem, hfull rfl (c, tile) (by rw [hts]; exact List.mem_singleton_self _), hack⟩
  · intro pa f v e ret hrop hf htags old new
    obtain ⟨t, pk, ht, hmem, hack⟩ := arriveReq_amo (s := s.take id) (old := old) hheld hstruck hlends hmigs hsrc hstale hmod hrop rfl htags
    have hx : execAmoPerform id s = .next t := by
      unfold execAmoPerform
      rw [hreq hin]
      dsimp only
      rw [hrop]
      dsimp only
      rw [hmmio, ← ht, ← hperform]
      rfl
    refine ⟨t, pk, hx, hmem.trans ?_, hack⟩
    by_cases hne : f = 9 ∧ old ≠ e
    · rw [if_pos hne, if_pos hne]
      rfl
    · rw [if_neg hne, if_neg hne, amoNew_values hf hne]
      rfl
  · intro c tile n j cid idx hrop htag
    obtain ⟨t, ht, hmem, hp⟩ := arriveReq_claim (s := s.take id) hheld hsrc hstale hrop htag
    have hx : execArrivalClaim id s = .next t := by
      unfold execArrivalClaim
      rw [hin]
      dsimp only
      rw [hrop]
      dsimp only
      rw [ht]
    exact ⟨t, hx, hmem, hp⟩
  · intro pa v pk op core va pc dest u hin htags old
    obtain ⟨t, hx, hmem⟩ := execAbsmaxMerge_merges hheld hstruck hlends hmigs hmig hin htags
    refine ⟨t, hx, hmem.trans ?_⟩
    change _ = s.mem.writeMasked (storeWrites (paLocal pa) 8 (if old.toInt < v.toInt then v else old).toNat)
    simp only [← BitVec.slt_iff_toInt_lt]
    rfl
  · intro r at_ hm hhome hlate
    have hx : execParkRetry id s = .next ((s.take id).send r.src r.home (.req r)) := by
      unfold execParkRetry
      rw [hm]
      dsimp only
      rw [if_neg (by omega)]
      split
      · next n hn => exact absurd hn (hhome n)
      · rfl
    exact hx
  · intro core tile bytes lend hin hcore htag
    have hx : execArrivalComplete id s = .next ((((({ s.take id with mem := s.mem.writeBytes (tileAddr core tile) bytes } : State).heal (tileAddr core tile) bytes.length).setTag core tile .full).landed
        from_ core tile (.pull lend)).settle) := by
      unfold execArrivalComplete
      rw [hin]
      dsimp only
      rw [if_neg (by exact Bool.false_ne_true), show s.claimStands core tile (.pull lend) = true from decide_eq_true htag, if_neg (by exact Bool.false_ne_true), if_neg (by omega)]
    have hset := told_setTag (State.heal ({ s.take id with mem := s.mem.writeBytes (tileAddr core tile) bytes } : State) (tileAddr core tile) bytes.length) core tile .full
    have htag := State.tag_setTag (State.heal ({ s.take id with mem := s.mem.writeBytes (tileAddr core tile) bytes } : State) (tileAddr core tile) bytes.length) core tile .full
    generalize State.setTag _ core tile .full = s1 at hx hset htag
    refine ⟨_, hx, ?_, ?_⟩ <;> rw [State.settle_nil (by exact hset.held.trans hheld)]
    · exact hset.mem
    · have hquiet := quiet_modCore s1 core (f := fun k => { k with marks := k.marks.map (fun e => (e.1, { e.2 with pulling := e.2.pulling.filter (fun t => t.1 != tile) })) }) fun _ => rfl
      exact (hquiet.2 core tile).trans htag
  · intro lend a core tile holder l k hin hl hholder
    have hx : execPullRead id s = .next ((s.take id).send to_.src (.core core) (.push core tile (s.mem.bytes a (tileSize tile)) (.pull lend))) := by
      unfold execPullRead
      rw [hin]
      dsimp only
      rw [hl]
      dsimp only
      rw [if_neg (not_not.mpr hholder), hstruck]
      rfl
    exact hx
  · intro lend c n pull l hin hl hc hid hhbm
    have hx : execLendReleaseMessage id s = .next ((s.take id).lendDown lend n pull) := by
      unfold execLendReleaseMessage
      rw [hin]
    have hlends1 : (((s.take id).modLend lend (fun l => { l with outstanding := l.outstanding - n, pristine := l.pristine && !pull })).core c).lends =
        [{ l with outstanding := l.outstanding - n, pristine := l.pristine && !pull }] := by
      rw [State.core_modLend, show (s.take id).core c = s.core c from rfl, hc, List.map_singleton, if_pos hid]
    refine ⟨fun hlt => ⟨_, hx, ?_⟩, fun hle k tile hts htag => ⟨_, hx, ?_⟩⟩
    · unfold State.lendDown
      rw [show (s.take id).lendOf lend = some l from hl]
      dsimp only
      rw [if_pos hlt]
      exact ⟨rfl, hlends1⟩
    · have htag1 : ((s.take id).modLend lend (fun l => { l with outstanding := l.outstanding - n, pristine := l.pristine && !pull })).tag k tile = .lent := by
        rw [State.tag, State.core_modLend]
        exact htag
      unfold State.lendDown
      rw [show (s.take id).lendOf lend = some l from hl]
      dsimp only
      rw [if_neg (by omega), if_neg (by rw [hhbm]; exact Bool.false_ne_true), hts, List.foldl_cons, List.foldl_nil, State.applyRow_go (v := .full) (by rw [htag1]; rfl)]
      dsimp only
      have hset := told_setTag ((s.take id).modLend lend (fun l => { l with outstanding := l.outstanding - n, pristine := l.pristine && !pull })) k tile .full
      have htag2 := State.tag_setTag ((s.take id).modLend lend (fun l => { l with outstanding := l.outstanding - n, pristine := l.pristine && !pull })) k tile .full
      have hl2 := (hset.lends c).trans (State.lends_modCore_setTag _ k tile .full c)
      rw [hlends1] at hl2
      generalize State.setTag _ k tile .full = s2 at hset htag2 hl2 ⊢
      rw [State.settle_nil (by exact hset.held.trans hheld)]
      have hcore : ∀ c, State.core ({ s2 with
          cores := s2.cores.map (fun (k : Nat × Core) => (k.1, { k.2 with lends := k.2.lends.filter (fun x => x.id != lend) }))
          lendsHbm := s2.lendsHbm.filter (fun e => e.2.id != lend) } : State) c = { s2.core c with lends := (s2.core c).lends.filter (fun x => x.id != lend) } := fun c =>
        Table.get_mapped s2.cores (d := Core.reset) (g := fun x : Core => { x with lends := x.lends.filter (fun x => x.id != lend) })
          (Core.lends_none rfl (g := List.filter (fun x => x.id != lend)) rfl) c
      refine ⟨hset.mem, ?_, ?_⟩
      · rw [hcore, hl2, List.filter_cons_of_neg (by simp [hid]), List.filter_nil]
      · rw [State.tag, hcore]
        exact htag2
  · intro lend c holder l hin hc hid
    have hx : execRelink id s = .next ((s.take id).modLend lend (fun l => { l with holder := holder })) := by
      unfold execRelink
      rw [hin]
    refine ⟨_, hx, rfl, rfl, ?_⟩
    rw [State.core_modLend, show (s.take id).core c = s.core c from rfl, hc, List.map_singleton, if_pos hid]
  · intro b n core cid idx k off m hm hwho huse hfirst hbefore hsum hldx hplace htags hdst push
    have htouch : s.touchAll .sync (touchedTiles (paLocal b.src) b.n) = (s, true) := State.touchAll_go fun e he => by
      rw [htags e he]
      exact ⟨_, _, rfl⟩
    have hbulk : (s.take id).bulkRead m b (s.mem.bytes (paLocal b.src) b.n) = (s.take id).sendBack from_ to_.streamer (s.homeOf b.dst) push := by
      unfold State.bulkRead
      rw [hwho]
      dsimp only
      unfold State.pushTo
      rw [hdst, ← hwho]
      rfl
    have hx : execStreamerRead id s = .next (((s.take id).sendBack from_ to_.streamer (s.homeOf b.dst) push).settle) := by
      unfold execStreamerRead
      rw [hm]
      change Host.Outcome.next (s.streamRead m b) = _
      unfold State.streamRead
      extract_lets la t d a ts row
      rw [huse, if_neg Bool.false_ne_true, hfirst, hbefore, if_neg (by decide), hsum, if_neg Bool.false_ne_true, if_neg hplace, State.migrating_none hmigs, if_neg Bool.false_ne_true,
        show s.touchAll row ts = (s, true) by rw [show row = .sync from if_neg (by rw [hldx]; exact Bool.false_ne_true)]; exact htouch]
      dsimp only
      rw [State.atTurn_free hheld, if_neg (by decide), State.hurt_none hstruck, if_neg Bool.false_ne_true, hldx, if_neg Bool.false_ne_true]
      refine congrArg (fun x : State => Host.Outcome.next x.settle) ((congrArg (fun x : State => x.bulkRead m b _) ?_).trans hbulk)
      split
      · split
        · rfl
        · exact State.countAccess_off (s := s.take id) hmig _ _ _
      · rfl
    refine ⟨_, hx, ?_, fun hother => ?_, fun j p hfrom hhome => ?_⟩
    · rw [State.settle_nil (by rw [(kept_sendBack _ _ _ _ _).2]; exact hheld), (kept_sendBack _ _ _ _ _).1]
      rfl
    · rw [State.sendBack_send hother, State.settle_nil (by exact hheld)]
      exact ⟨_, List.mem_append_right _ (List.mem_singleton_self _), rfl, rfl, rfl⟩
    · rw [hfrom, hhome, State.sendBack, if_pos rfl, State.settle_nil (by exact hheld)]
      exact ⟨_, List.mem_append_right _ (List.mem_singleton_self _), rfl, rfl, rfl⟩
end Sys2Proof.Machine
end

section
/-! Proofs about what a core does with what reaches it (R46, R47, R86, R87, R92, R168, R170, R235, R258). -/
set_option Elab.async false
namespace Sys2Proof.Machine
open Sys2Proof Sys2Proof.Safety

/-! ## A process that has a context slot -/
/-- Nothing of a process with a context slot is written out. -/
theorem State.synced_resident {s : State} {pk : Nat} (h : s.resident pk = true) : s.synced pk = s := by
  unfold State.synced
  exact if_pos (.inl h)
theorem Resched.resident {s t : State} (h : Resched s t) (pk : Nat) : t.resident pk = s.resident pk := by
  unfold State.resident
  rw [(congrArg Core.slots (h.core (coreOf pk))).trans rfl]
/-- The value of an operation of such a process. -/
theorem State.done_mem {s : State} {pk op : Nat} {o : OutOp} (h : (s.proc pk).outs.find? (fun o => decide (o.id = op)) = some o) (hmore : o.more = [])
    (hres : s.resident pk = true) (vs : List (BitVec 1024)) : (s.done pk op vs).mem = s.mem := by
  have hr := State.complete_resched h hmore vs
  rw [State.done, State.synced_resident ((hr.resident pk).trans hres)]
  unfold State.complete
  extract_lets p
  rw [h]
  dsimp only
  rw [hmore]
  dsimp only
  split
  · exact (State.memory_wake _ _).1
  · rfl
theorem State.failed_mem {s : State} {pk op : Nat} {o : OutOp} (h : (s.proc pk).outs.find? (fun o => decide (o.id = op)) = some o) (hres : s.resident pk = true) (t : Trap) :
    (s.failed pk op t).mem = s.mem := by
  have hr : Resched (s.rollback pk o t) (s.failOp pk op t) := by
    unfold State.failOp
    rw [h]
    dsimp only
    split
    · exact resched_wake _ _
    · exact Resched.refl _
  rw [State.failed, State.synced_resident ((hr.resident pk).trans hres)]
  unfold State.failOp
  rw [h]
  dsimp only
  split
  · exact (State.memory_wake _ _).1
  · rfl
/-- The answer of a request is here: of a core only the numbers of its AMOs change. -/
theorem State.resident_unsend (s : State) (op pk : Nat) : (s.unsend op).resident pk = s.resident pk := by
  have hnone : ∀ k : Core, k.amoOut = [] → ({ k with amoOut := k.amoOut.filter (fun x => x.2.1 != op) } : Core) = k := fun k hk => by
    rw [hk, List.filter_nil, ← hk]
  have hcore : (s.unsend op).core (coreOf pk) = _ :=
    Table.get_mapped s.cores (d := Core.reset) (g := fun k : Core => { k with amoOut := k.amoOut.filter (fun x => x.2.1 != op) }) (hnone _ rfl) (coreOf pk)
  unfold State.resident
  rw [hcore]
  rfl

/-- Work that an engine did is over: of a process only its far work changes. -/
theorem State.farOver_proc (s : State) (who op pk : Nat) : (s.farOver who op).proc pk = { s.proc pk with far := ((s.farOver who op).proc pk).far } := by
  unfold State.farOver
  split
  · rfl
  · dsimp only
    split
    · by_cases h : pk = s.keyOf who
      · rw [h, State.proc_modProc_same]
      · rw [State.proc_modProc_other _ _ h]
    · rfl
section replies
variable {s : State} {id pk op : Nat} {from_ : Src} {to_ : Home} {h : Bool} (hres : s.resident pk = true)
include hres
theorem reply_vals {i : Instr} {v : BitVec 1024} {e : OutOp} {d : BitVec 6} {n : Nat} {sgn : Bool} (houts : (s.proc pk).outs = [e]) (hid : e.id = op) (hmore : e.more = []) (hgot : e.got = [])
    (hdest : e.dest = .g d n sgn) (hlive : e.live = true) (hx : exec i s = .next (((s.take id).unsend op).done pk op [v])) :
    ∃ t, exec i s = .next t ∧ t.mem = s.mem ∧ (t.proc pk).outs = [] ∧ (t.proc pk).pc = (s.proc pk).pc ∧
      (t.proc pk).r = (s.proc pk).r.setG d (if sgn then (BitVec.ofNat (8 * n) (v.toNat % 2 ^ (8 * n))).signExtend 64 else BitVec.ofNat 64 (v.toNat % 2 ^ (8 * n))) := by
  have hfind : (((s.take id).unsend op).proc pk).outs.find? (fun o => decide (o.id = op)) = some e := by
    rw [show (((s.take id).unsend op).proc pk).outs = [e] from houts, List.find?_cons_of_pos (by simpa using hid)]
  have hr := State.done_resched hfind hmore [v]
  have hone := Proc.completed_one houts hid hgot hlive [v]
  refine ⟨_, hx, State.done_mem hfind hmore ((State.resident_unsend _ _ _).trans hres) [v], ?_, ?_, ?_⟩
  · rw [hr.outs, State.proc_setProc_same]
    exact hone.1
  · rw [hr.pc, State.proc_setProc_same]
    rfl
  · rw [hr.regs, State.proc_setProc_same]
    refine hone.2.trans ?_
    rw [hdest]
    rfl
theorem reply_trap {i : Instr} {x : Trap} {e : OutOp} (houts : (s.proc pk).outs = [e]) (hid : e.id = op)
    (hx : exec i s = .next ((((s.take id).unsend op).failed pk op (s.named pk op x)).farOver (s.originWord pk) op)) :
    ∃ t, exec i s = .next t ∧ t.mem = s.mem ∧ (t.proc pk).outs = [] ∧ (t.proc pk).pc = e.pc ∧ (t.proc pk).r = e.snap ∧
      (t.proc pk).pend = some { x with info := if e.kind = .load ∧ x.info = 0 then e.va else x.info } := by
  have hfind : (((s.take id).unsend op).proc pk).outs.find? (fun o => decide (o.id = op)) = some e := by
    rw [show (((s.take id).unsend op).proc pk).outs = [e] from houts, List.find?_cons_of_pos (by simpa using hid)]
  have hnamed : s.named pk op x = { x with info := if e.kind = .load ∧ x.info = 0 then e.va else x.info } := by
    unfold State.named
    rw [show (s.proc pk).outs.find? _ = some e from hfind]
    dsimp only
    split <;> rfl
  have hr := State.failed_resched hfind (s.named pk op x)
  have hmem := State.failed_mem hfind ((State.resident_unsend _ _ _).trans hres) (s.named pk op x)
  have hback : ((State.rollback ((s.take id).unsend op) pk e (s.named pk op x)).proc pk).outs = [] := by
    rw [State.rollback, State.proc_modProc_same]
    dsimp only
    rw [show (((s.take id).unsend op).proc pk).outs = [e] from houts, List.filter_cons_of_neg (by simp), List.filter_nil, List.map_nil]
  generalize State.failed _ pk op _ = t1 at hx hr hmem
  have hfar := State.farOver_proc t1 (s.originWord pk) op pk
  refine ⟨_, hx, (State.memory_farOver _ _ _).1.trans hmem, ?_, ?_, ?_, ?_⟩ <;> rw [hfar]
  · exact (hr.outs pk).trans hback
  · refine (hr.pc pk).trans ?_
    rw [State.rollback, State.proc_modProc_same]
  · refine (hr.regs pk).trans ?_
    rw [State.rollback, State.proc_modProc_same]
  · refine (hr.pend pk).trans ?_
    rw [State.rollback, State.proc_modProc_same, hnamed]
theorem reply_ack (hin : s.inTurn id = some ⟨id, from_, to_, .ack pk op, none, h⟩) (hu : ∃ u ∈ (s.proc pk).unacked, u.op = op) :
    ∃ t, exec (.storeAcknowledge id) s = .next t ∧ t.mem = s.mem ∧ (t.proc pk).unacked = (s.proc pk).unacked.filter (fun u => u.op != op) ∧ (t.proc pk).r = (s.proc pk).r := by
  have hx : execStoreAcknowledge id s = .next (((s.take id).unsend op).acked pk op) := by
    unfold execStoreAcknowledge
    rw [hin]
    dsimp only
    rw [if_pos (by simpa using hu)]
  have hr : Resched (((s.take id).unsend op).setProc pk { s.proc pk with unacked := (s.proc pk).unacked.filter (fun u => u.op != op) }) (((s.take id).unsend op).acked pk op) := by
    unfold State.acked
    extract_lets p s1
    split
    · exact resched_wake _ _
    · exact Resched.refl _
  refine ⟨_, hx, ?_, ?_, ?_⟩
  · unfold State.acked
    extract_lets p s1
    split
    · exact (State.memory_wake _ _).1
    · rfl
  · rw [(congrArg Proc.unacked (hr.proc pk)).trans rfl, State.proc_setProc_same]
  · rw [hr.regs, State.proc_setProc_same]
end replies
theorem reply_hold {s : State} {id pk op : Nat} {from_ : Src} {to_ : Home} {h : Bool} {edge : Word} (hin : s.inTurn id = some ⟨id, from_, to_, .hold pk op edge, none, h⟩) (hop : op ≠ 0)
    (hrun : (s.proc pk).state = .running) (hu : ∃ u ∈ (s.proc pk).unacked, u.op = op) :
    ∃ t, exec (.holdNotice id) s = .next t ∧ t.mem = s.mem ∧ (t.proc pk).state = .blocked ∧ (t.proc pk).wait = edge ∧ (t.proc pk).r = (s.proc pk).r := by
  have hx : execHoldNotice id s = .next ((s.take id).block pk 0 edge op) := by
    unfold execHoldNotice
    rw [hin]
    dsimp only
    rw [if_neg hop, if_neg (by simp only [Bool.not_eq_true', Bool.or_eq_false_iff, not_and]; intro hn; simp at hn; obtain ⟨u, hu1, hu2⟩ := hu; exact absurd hu2 (hn u hu1)), hrun]
  refine ⟨_, hx, ?_⟩
  unfold State.block
  extract_lets p q out s1
  rw [show p.state = .running from hrun]
  dsimp only
  rw [State.proc_setProc_same]
  refine ⟨rfl, ?_, ?_, ?_⟩ <;> split <;> rfl
/-! ## A promoted store (R235) -/
theorem State.ack_held (s : State) (r : Req) : (s.ack r).held = s.held := by
  unfold State.ack State.answer
  split
  · rfl
  · rfl
  · rfl
  · split <;> rfl
/-- A released STL to FULL tiles is performed; who is told of it does not matter here. -/
theorem tryReq_released {s : State} {r : Req} {pa n : Nat} {ws : List (Nat × Byte × Byte)} (hstale : r.stale = false) (hrop : r.rop = .store pa n ws false true) (hrel : r.released = true)
    (hstruck : s.struck = []) (hlends : s.lendsHbm = []) (hmigs : s.migs = []) (htags : ∀ e ∈ touchedTiles (paLocal pa) n, s.tag e.1 e.2 = .full) :
    ∃ t, s.tryReq r = (t, true) ∧ t.mem = s.mem.writeMasked ws ∧ t.held = s.held := by
  have htouch : s.touchAll .store (touchedTiles (paLocal pa) n) = (s, true) := State.touchAll_go fun e he => by
    rw [htags e he]
    exact ⟨_, _, rfl⟩
  have ht := told_watchWrite ({ s with mem := s.mem.writeMasked ws, struck := s.struck.filter (fun a => !ws.any (fun w => decide (w.1 = a))) } : State) r (touchedTiles (paLocal pa) n)
  have htry : s.tryReq r = ((State.watchWrite ({ s with mem := s.mem.writeMasked ws, struck := s.struck.filter (fun a => !ws.any (fun w => decide (w.1 = a))) } : State) r
      (touchedTiles (paLocal pa) n)).ack r, true) := by
    unfold State.tryReq
    rw [hstale, if_neg Bool.false_ne_true, hrop]
    dsimp only
    rw [State.migrating_none hmigs, State.hbmLent_none hlends, Bool.false_and, Bool.or_false, if_neg Bool.false_ne_true, hrel, Bool.not_true, Bool.and_false, Bool.false_and, if_neg Bool.false_ne_true, if_neg Bool.false_ne_true, htouch]
    dsimp only
    rw [if_neg (by simp), State.mergeHurt_none hstruck, if_neg Bool.false_ne_true, if_neg Bool.false_ne_true]
  exact ⟨_, htry, (State.memory_ack _ _).1.trans ht.mem, (State.ack_held _ _).trans ht.held⟩
/-- The one request held is performed. -/
theorem State.settle_one {s t : State} {r : Req} (hheld : s.held = [r]) (htry : s.tryReq r = (t, true)) (ht : t.held = s.held) : s.settle = { t with held := [] } := by
  have hbehind : s.behind r = false := by
    rw [State.behind, hheld, List.takeWhile_cons_of_neg (by simp)]
    rfl
  have hempty : t.held.filter (fun h => h.id != r.id) = [] := by
    rw [ht, hheld, List.filter_cons_of_neg (by simp), List.filter_nil]
  have hsweep : State.sweep [r] s = ({ t with held := [] }, true) := by
    rw [State.sweep, hbehind, if_neg Bool.false_ne_true, htry]
    dsimp only
    rw [hempty]
    rfl
  rw [State.settle, hheld, List.length_singleton, State.settleN, hheld, hsweep]
  dsimp only
  rw [State.settleN]
  rfl

/-! ## Streams (R258) -/
/-- A packet that the source of a stream sends again from a number on. -/
def sendsAgain (who target next : Nat) (p : Packet) : Bool :=
  p.request && decide (p.header.who = who ∧ p.target = target) && (match p.header.seq with | some n => !seqBefore n next | none => false)
theorem State.streamTo_who (s : State) (who target : Nat) : (s.streamTo who target).who = who ∧ (s.streamTo who target).target = target := by
  unfold State.streamTo
  cases hf : s.streamsOut.find? (fun x => decide (x.who = who ∧ x.target = target)) with
  | none => exact ⟨rfl, rfl⟩
  | some x =>
    have hx := List.find?_some hf
    simpa using hx
theorem State.streamTo_set (s : State) {x : StreamOut} {who target : Nat} (h : x.who = who ∧ x.target = target) : (s.setStreamOut x).streamTo who target = x := by
  obtain ⟨rfl, rfl⟩ := h
  unfold State.streamTo State.setStreamOut
  dsimp only
  rw [List.find?_append, List.find?_eq_none.mpr fun y hy => by simpa [imp_iff_not_or] using (List.mem_filter.mp hy).2, Option.none_or, List.find?_cons_of_pos (by simp)]
  rfl
theorem State.follow_streamTo (s : State) (w : Nat) (b : Body) (who target : Nat) : (s.follow w b).streamTo who target = s.streamTo who target := by
  unfold State.follow
  split <;> rfl
/-- Settles O44: answers by `reply_vals`, `reply_trap`, `reply_ack` and `reply_hold`, a promoted store by `tryReq_released`, streams by `State.streamTo_set`. -/
theorem coreReplies : Obligations.CoreReplies := by
  unfold Obligations.CoreReplies
  intro s id from_ to_ h rest
  refine ⟨?_, ?_, ?_, ?_, ?_, ?_, ?_⟩
  · intro pk op hres p
    have hx : ∀ a, s.inTurn id = some ⟨id, from_, to_, .answer pk op a, none, h⟩ → p.unacked = [] → execLoadComplete id s = .next (match a with
      | .vals vs => ((s.take id).unsend op).done pk op vs
      | .trap t => (((s.take id).unsend op).failed pk op (s.named pk op t)).farOver (s.originWord pk) op) := by
      intro a hin hun
      unfold execLoadComplete
      rw [hin]
      dsimp only
      rw [show (s.proc pk).unacked = [] from hun, List.any_nil]
      cases a <;> rfl
    refine ⟨?_, ?_, ?_, ?_⟩
    · intro v e d n sgn hin hun houts hid hmore hgot hdest hlive hd
      exact reply_vals hres houts hid hmore hgot hdest hlive (hx _ hin hun)
    · intro x e hin hun houts hid
      exact reply_trap hres houts hid (hx _ hin hun)
    · intro hin hu
      exact reply_ack hres hin hu
    · intro edge hin hop hrun hu
      exact reply_hold hin hop hrun hu
  · intro r k tm hheld hsrc hat hhome hmod hgo hlim hpassed
    have hlate : s.limitPassed r = true := by
      unfold State.limitPassed
      rw [hhome, hat, hmod, hgo, Bool.and_false]
      exact (Bool.and_true _).trans (decide_eq_true ⟨hlim, hpassed⟩)
    have hx : execSyncLimitExpire r.id s = .next (({ s with held := s.held.filter (fun h => h.id != r.id) } : State).reply r (.trap ⟨.syncLimit, r.va, 0, 0⟩)).settle := by
      unfold execSyncLimitExpire
      rw [hheld, List.find?_cons_of_pos (by simp)]
      dsimp only
      rw [if_pos hlate]
    rw [State.reply_here (s := { s with held := s.held.filter (fun h => h.id != r.id) }) hsrc hmod, State.settle_nil (by
      change s.held.filter (fun h => h.id != r.id) = []
      rw [hheld, List.filter_cons_of_neg (by simp), List.filter_nil])] at hx
    refine ⟨_, hx, rfl, ?_, State.send_last _ _ _ _⟩
    change s.held.filter (fun h => h.id != r.id) = []
    rw [hheld, List.filter_cons_of_neg (by simp), List.filter_nil]
  · intro who k hin hmod
    have hx : execWatchEventMessage id s = .next ((s.take id).setEvent (s.keyOf who)) := by
      unfold execWatchEventMessage
      rw [hin]
      dsimp only
      rw [if_pos hmod]
    have hr : Resched ((s.take id).setProc (s.keyOf who) { s.proc (s.keyOf who) with wev := true }) ((s.take id).setEvent (s.keyOf who)) := by
      unfold State.setEvent
      extract_lets p s1
      split
      · exact resched_wake _ _
      · exact Resched.refl _
    refine ⟨_, hx, (State.memory_setEvent _ _).1, ?_, hr.net⟩
    rw [(congrArg Proc.wev (hr.proc _)).trans rfl, State.proc_setProc_same]
  · intro pk op o k hin us released
    have hgo : ∀ before : List Unacked, (if us.any (fun u => decide (u.op = op)) then us.takeWhile (fun u => u.op != op) else us.filter (fun u => decide (u.op < op ∨ 2 ^ 64 ≤ u.op))) = before →
        ((∀ x ∈ before, ∀ m, x.home ≠ .remote m) → released) ∧ ((∃ x ∈ before, ∃ m, x.home = .remote m) → exec (.promotionNotice id) s = .next (s.stay id)) := by
      intro before hb
      have hx : execPromotionNotice id s = .next (if before.any (fun u => match u.home with | .remote _ => true | _ => false) then s.stay id
          else (s.take id).send (.core (coreOf pk)) (.core k) (.promoted o)) := by
        unfold execPromotionNotice
        rw [hin, ← hb]
        rfl
      refine ⟨fun hnear => ?_, fun hfar => ?_⟩
      · refine Eq.trans (show exec (.promotionNotice id) s = _ from hx) ?_
        rw [if_neg]
        · rfl
        · rw [List.any_eq_true]
          rintro ⟨u, hu, hm⟩
          revert hm
          split
          · next m hm => exact fun _ => hnear u hu m hm
          · exact Bool.false_ne_true
      · refine Eq.trans (show exec (.promotionNotice id) s = _ from hx) ?_
        rw [if_pos]
        obtain ⟨u, hu, m, hm⟩ := hfar
        rw [List.any_eq_true]
        exact ⟨u, hu, by rw [hm]⟩
    refine ⟨fun before u after hus huop hbefore => hgo before ?_, fun hno hearlier => (hgo _ rfl).1 ?_⟩
    · rw [if_pos, hus]
      · rw [List.takeWhile_append_of_pos fun x hx => by simpa using hbefore x hx, List.takeWhile_cons_of_neg (by simp [huop]), List.append_nil]
      · rw [List.any_eq_true]
        exact ⟨u, by rw [hus]; simp, decide_eq_true huop⟩
    · rw [if_neg]
      · intro x hx m
        obtain ⟨hx1, hx2⟩ := List.mem_filter.mp hx
        exact hearlier x hx1 (of_decide_eq_true hx2) m
      · rw [List.any_eq_true]
        rintro ⟨u, hu, h⟩
        exact hno u hu (of_decide_eq_true h)
  · intro r pa n ws k hin hheld hsrc hstale hrop hstruck hlends hmigs htags
    obtain ⟨r', hr'⟩ : ∃ r' : Req, r' = { r with released := true } := ⟨_, rfl⟩
    have hx : execPromotedRelease id s = .next ({ s.take id with held := [r'] } : State).settle := by
      unfold execPromotedRelease
      rw [hin]
      dsimp only
      rw [show (s.take id).held = [r] from hheld, List.any_cons, decide_eq_true rfl, Bool.true_or, if_pos rfl, List.map_singleton, if_pos rfl, hr']
    refine ⟨_, hx, ?_⟩
    obtain ⟨t, htry, hmem, hh⟩ := tryReq_released (s := { s.take id with held := [r'] }) (r := r') (by rw [hr']; exact hstale) (by rw [hr']; exact hrop) (by rw [hr']) hstruck hlends hmigs htags
    rw [State.settle_one rfl htry hh]
    exact ⟨rfl, hmem⟩
  · intro who target hin
    have hx : execFrozenNotice id s = .next (((s.take id).setStreamOut { s.streamTo who target with frozen := true }).follow who (.frozenNotice who target)) := by
      unfold execFrozenNotice
      rw [hin]
    have hs := State.streamTo_set (s.take id) (x := { s.streamTo who target with frozen := true }) (State.streamTo_who s who target)
    refine ⟨_, hx, ?_, ?_, ?_⟩
    · exact (State.memory_follow _ _ _).1
    · rw [State.follow_streamTo, hs]
    · rw [State.follow_streamTo, hs]
  · intro who target next hin
    obtain ⟨s1, hs1, hx⟩ : ∃ s1 : State, s1 = { ((s.take id).setStreamOut { s.streamTo who target with frozen := false }) with
        sent := s.sent.filter (fun p => !sendsAgain who target next p)
        outbox := (s.sent.filter (sendsAgain who target next)).map (fun (p : Packet) => { p with left := 0 }) ++ s.outbox } ∧
        execResumeMessage id s = .next (((s1.procs.map (·.1)).foldl (fun s pk => if (s.proc pk).state = .blocked ∧ (s.proc pk).why = 7 ∧ s.originWord pk = who then s.wake pk else s) s1).follow who
          (.resume who target next)) := by
      refine ⟨_, rfl, ?_⟩
      unfold execResumeMessage
      rw [hin]
      rfl
    have hs := State.streamTo_set (s.take id) (x := { s.streamTo who target with frozen := false }) (State.streamTo_who s who target)
    have hwake : ∀ (s : State) (pk : Nat), Resched s (if (s.proc pk).state = .blocked ∧ (s.proc pk).why = 7 ∧ s.originWord pk = who then s.wake pk else s) ∧
        Told s (if (s.proc pk).state = .blocked ∧ (s.proc pk).why = 7 ∧ s.originWord pk = who then s.wake pk else s) := fun s pk => by
      split
      · exact ⟨resched_wake s pk, told_wake s pk⟩
      · exact ⟨Resched.refl s, Told.refl s⟩
    have hr := Resched.foldl (fun s pk => (hwake s pk).1) (s1.procs.map (·.1)) s1
    have ht := Told.foldl (fun s pk => (hwake s pk).2) (s1.procs.map (·.1)) s1
    generalize (s1.procs.map (·.1)).foldl (fun s pk => if (s.proc pk).state = .blocked ∧ (s.proc pk).why = 7 ∧ s.originWord pk = who then s.wake pk else s) s1 = s2 at hx hr ht
    have hstreams : s2.streamsOut = s1.streamsOut := (congrArg State.streamsOut hr.rest).trans rfl
    have hbox : s2.outbox = s1.outbox := (congrArg State.outbox hr.rest).trans rfl
    refine ⟨_, hx, (State.memory_follow _ _ _).1.trans (ht.mem.trans (by rw [hs1]; rfl)), ?_, fun x hx n hreq hw htg hseq hbefore => ?_⟩
    · rw [State.follow_streamTo, State.streamTo, hstreams, hs1]
      exact congrArg StreamOut.frozen hs
    · have hin2 : { x with left := 0 } ∈ s2.outbox := by
        rw [hbox, hs1]
        refine List.mem_append_left _ (List.mem_map.mpr ⟨x, List.mem_filter.mpr ⟨hx, ?_⟩, rfl⟩)
        unfold sendsAgain
        rw [hreq, decide_eq_true ⟨hw, htg⟩, hseq]
        dsimp only
        rw [hbefore]
        rfl
      unfold State.follow
      split
      · exact hin2
      · exact List.mem_append_left _ hin2
end Sys2Proof.Machine
end

section
/-! Counterexample to the statement about the sequencer (R215, R219): the completion of an operation on a range sends the request that its process still has to send, and the
tile that an ACZ has made FULL may be the tile of that request. -/
set_option Elab.async false
namespace Sys2Proof.Machine
open Sys2Proof Sys2Proof.Safety Sys2Proof.Tests

/-- The operation of the entry of `wAcz`, with a TEMPTY of the entry's accumulator tile still to send. -/
def wAczOut : OutOp := { wOut 0 .none with more := [{ wReq (.core 0) (.tag 0 0 2562 1) false with who := wMe }] }
/-- An ACZ at its only step. -/
def wAczMore : State := (wSeq wAcz .full).modProc 0 (fun p => { p with outs := [wAczOut] })
theorem wAczMore_empties : decide ((after (exec (.macroStepComplete 0) wAczMore)).tag 0 (2560 + wAcz.acc) = .full) = false := holds

/-- Refutes O29: in `wAczMore` the tile of the ACZ ends EMPTY. -/
theorem not_sequencerRows : ¬ Obligations.SequencerRows := by
  unfold Obligations.SequencerRows
  intro h
  obtain ⟨t, ht, -, -, htag, -⟩ := (h.2 wAczMore 0 wAcz holds holds holds).1 holds holds holds holds
  have hempties := wAczMore_empties
  rw [ht, after, htag] at hempties
  exact absurd hempties holds
end Sys2Proof.Machine
end

section
/-! Proofs about the rows of the copy unit and of Borer (R72 to R76, R107, R111, R114, R120, R123). -/
set_option Elab.async false
namespace Sys2Proof.Machine
open Sys2Proof Sys2Proof.Safety

/-! ## Accumulator cells -/
theorem get_filter_map (f : Nat → BitVec 88) (k : Nat) (l : List Nat) : Table.get ((l.map (fun j => (j, f j))).filter (fun e => e.2 != 0)) 0 k = if k ∈ l then f k else 0 := by
  induction l with
  | nil => rfl
  | cons j l ih =>
    rw [List.map_cons]
    by_cases h0 : f j = 0
    · rw [List.filter_cons_of_neg (by simp [h0]), ih]
      by_cases hk : k = j
      · subst hk
        simp [h0]
      · simp [hk]
    · rw [List.filter_cons_of_pos (by simpa using h0), Table.get]
      by_cases hk : j = k
      · subst hk
        simp
      · rw [if_neg hk, ih]
        simp [Ne.symm hk]
theorem Acc.cell_withCells (a : Acc) (f : Nat → BitVec 88) {k : Nat} (hk : k < 1024) : (a.withCells f).cell k = f k := by
  unfold Acc.withCells Acc.cell
  generalize hl : List.range 1024 = l
  have hin : k ∈ l := hl ▸ List.mem_range.mpr hk
  dsimp only
  rw [get_filter_map, if_pos hin]
theorem Acc.cell_addCells {a : Acc} (h : a.ecce = false) (fresh : Nat) (f : Nat → Int) {k : Nat} (hk : k < 1024) : (a.addCells fresh f).cell k = a.cell k + BitVec.ofInt 88 (f k) := by
  unfold Acc.addCells
  rw [Acc.cell_withCells _ _ hk, h]
  rfl

/-! ## Translation -/
/-- A translation looks at no queue of a core. -/
theorem State.xlate_modCore {s : State} {c : Nat} {f : Core → Core} (hf : (f (s.core c)).tlb = (s.core c).tlb) (x : Ctx) (a : Access) (va : Nat) :
    (s.modCore c f).xlate x a va = s.xlate x a va := by
  have htlb : ((s.modCore c f).core x.core).tlb = (s.core x.core).tlb := by
    by_cases h : x.core = c
    · rw [h, State.core_modCore_same, hf]
    · rw [State.core_modCore_other _ _ h]
  unfold State.xlate
  dsimp only
  rw [htlb]
  rfl

/-! ## Pieces -/
/-- The net and the accumulator tiles are as they were. -/
def AccStands (s t : State) : Prop := t.net = s.net ∧ ∀ c n, t.acc c n = s.acc c n
theorem AccStands.refl (s : State) : AccStands s s := ⟨rfl, fun _ _ => rfl⟩
theorem AccStands.trans {s t u : State} (h : AccStands s t) (h' : AccStands t u) : AccStands s u := ⟨h'.1.trans h.1, fun c n => (h'.2 c n).trans (h.2 c n)⟩
theorem accStands_modCore (s : State) (c : Nat) {f : Core → Core} (hf : (f (s.core c)).acc = (s.core c).acc) : AccStands s (s.modCore c f) := by
  refine ⟨rfl, fun k n => ?_⟩
  unfold State.acc
  by_cases h : k = c
  · rw [h, State.core_modCore_same, hf]
  · rw [State.core_modCore_other _ _ h]
theorem accStands_farOver (s : State) (who op : Nat) : AccStands s (s.farOver who op) := by
  unfold State.farOver
  split
  · exact AccStands.refl s
  · dsimp only
    split
    · exact AccStands.refl s
    · exact AccStands.refl s
theorem accStands_pieceDone (s : State) (core id idx : Nat) : AccStands s (s.pieceDone core id idx) := by
  unfold State.pieceDone
  extract_lets s1
  have h1 : AccStands s s1 := accStands_modCore s core rfl
  split
  · extract_lets s2
    have h2 : AccStands s s2 := by
      change AccStands s (if _ then _ else _)
      split
      · exact h1.trans (accStands_farOver _ _ _)
      · exact h1
    split
    · exact h2.trans (accStands_modCore s2 core rfl)
    · exact h2
  · exact h1
/-- A piece has been performed. -/
theorem accStands_pieceResult (s : State) (src : Src) (who asid : Nat) (c : Claimant) (at_ : Bool) : AccStands s (s.pieceResult src who asid c 1 at_) := by
  unfold State.pieceResult
  split
  · split
    · exact AccStands.refl s
    · rw [if_pos rfl]
      exact accStands_pieceDone _ _ _ _
  · exact AccStands.refl s

/-! ## Completion tiles -/
/-- With nothing held an engine makes its EMPTY completion tile FULL. -/
theorem State.tfull_empty {s : State} {src : Src} {core t : Nat} {w : Waiter} (hheld : s.held = []) (htag : s.tag core t = .empty) :
    s.tfull src core t w = ((s.setTag core t .full).unqueue w, true) := by
  unfold State.tfull
  extract_lets queue
  rw [State.atTurn_free hheld, if_neg (by decide), State.applyRow_go (v := .full) (by rw [htag]; rfl)]
  dsimp only
  rw [if_pos htag]
theorem State.unqueue_nil {s : State} (h : s.held = []) (w : Waiter) : s.unqueue w = s := by
  rw [State.unqueue, h, List.filter_nil, ← h]

theorem State.copyq_modCore_setTag (s : State) (k n : Nat) (v : Tag) (c : Nat) : ((s.modCore k (·.setTag n v)).core c).copyq = (s.core c).copyq := by
  by_cases h : c = k
  · rw [h, State.core_modCore_same]
    unfold Core.setTag
    split <;> rfl
  · rw [State.core_modCore_other _ _ h]
theorem State.acc_modAcc (s : State) (c n : Nat) (f : Acc → Acc) : (s.modAcc c n f).acc c n = f (s.acc c n) := by
  rw [State.acc, State.modAcc, State.core_modCore_same]
  exact Table.get_set_same _ _ _ _

/-! ## The rows -/
/-- COPY_ACCEPT: the copy takes a free slot and its instruction completes. -/
theorem copyAccept_accepts {s : State} {core : Nat} {c : Copy} {rest : List Copy} (hwait : (s.core core).copyWait = c :: rest)
    (hroom : ((s.core core).copyq.filter (fun c => decide (c.form < 5))).length < 16) (hin : ∃ e ∈ (s.proc c.pk).outs, e.id = c.op)
    (hmore : ∀ e ∈ (s.proc c.pk).outs, e.id = c.op → e.more = []) :
    ∃ t, exec (.copyAccept core) s = .next t ∧ (t.core core).copyq = (s.core core).copyq ++ [c] ∧ (t.core core).copyWait = rest ∧ ∀ e ∈ (t.proc c.pk).outs, e.id ≠ c.op := by
  have hx : execCopyAccept core s = .next ((s.setCore core { s.core core with copyq := (s.core core).copyq ++ [c], copyWait := rest }).done c.pk c.op []) := by
    unfold execCopyAccept
    dsimp only
    rw [hwait]
    dsimp only
    rw [if_neg (by omega)]
  obtain ⟨o, ho⟩ : ∃ o, (s.proc c.pk).outs.find? (fun o => decide (o.id = c.op)) = some o := by
    obtain ⟨e, he, hid⟩ := hin
    exact Option.isSome_iff_exists.mp (List.find?_isSome.mpr ⟨e, he, decide_eq_true hid⟩)
  have hr := State.done_resched (s := s.setCore core { s.core core with copyq := (s.core core).copyq ++ [c], copyWait := rest }) ho
    (hmore o (List.mem_of_find?_eq_some ho) (by simpa using List.find?_some ho)) []
  have hcore := hr.core core
  rw [show State.core (State.setProc _ _ _) core = State.core (s.setCore core { s.core core with copyq := (s.core core).copyq ++ [c], copyWait := rest }) core from rfl,
    State.core_setCore_same] at hcore
  refine ⟨_, hx, (congrArg Core.copyq hcore).trans rfl, (congrArg Core.copyWait hcore).trans rfl, ?_⟩
  rw [hr.outs, State.proc_setProc_same]
  intro e he
  obtain ⟨y, hy, rfl⟩ := List.mem_map.mp he
  have hne : y.id ≠ c.op := by simpa using (List.mem_filter.mp hy).2
  split
  · exact hne
  · exact hne

/-- A new piece of a copy has been taken up. -/
def Copy.started (c : Copy) (z : Piece) : Copy := { c with next := c.next + 1, active := c.active ++ [z] }
theorem State.copyq_modCopy {s : State} {core : Nat} {c : Copy} (hq : (s.core core).copyq = [c]) (f : Copy → Copy) :
    ((s.modCopy core c.id f).core core).copyq = [f c] := by
  rw [State.modCopy, State.core_modCore_same, hq, List.map_cons, if_pos rfl, List.map_nil]
theorem State.copyq_modPiece {s : State} {core : Nat} {c : Copy} {z : Piece} (hq : (s.core core).copyq = [c]) (hz : c.active = [z]) (f : Piece → Piece) :
    ((s.modPiece core c.id z.idx f).core core).copyq = [{ c with active := [f z] }] := by
  rw [State.modPiece, State.copyq_modCopy hq, hz, List.map_cons, if_pos rfl, List.map_nil]
/-- What a piece asks of the home of its destination tile. -/
def pieceClaim (s : State) (core : Nat) (c : Copy) (z : Piece) (pa : Nat) (u : Under) (k tile : Nat) (id : Nat) : Req :=
  ⟨id, .copyUnit core, c.who, c.id, .core k, .claim k tile (.piece s.modid core c.id z.idx), z.dst, u, false, false, none, c.pc, 0, false, false⟩
/-- A piece whose destination is a tile of this module claims it. -/
theorem dispatchDst_claims {s : State} {core : Nat} {c : Copy} {z : Piece} {pa : Nat} {u : Under} {k off tile : Nat} (hform : c.form = 0) (horigin : c.origin = s.modid)
    (hxlate : s.xlate (s.copyCtx core c) .wr z.dst.toNat = .ok pa u) (hfits : pieceFits c.form c.size true pa = true) (hhere : s.isHere pa = true)
    (hplace : placeOf (paLocal pa) = .scratch k off) (htile : tileAt (inWindow off) = some tile) :
    s.dispatchDst core c z = (({ s.modPiece core c.id z.idx (fun z => { z with stage := 1, dpa := pa, dtr := u, reported := false }) with nextId := s.nextId + 1 } : State).send
      (.copyUnit core) (.core k) (.req (pieceClaim s core c z pa u k tile s.nextId))) := by
  have hhome : s.homeOf pa = .core k := by
    rw [State.homeOf, hhere, if_neg (by decide), hplace]
  unfold State.dispatchDst
  dsimp only
  rw [hxlate]
  dsimp only
  rw [if_neg (by rw [hfits]; decide), hplace, hform]
  rw [decide_eq_false (by decide)]
  dsimp only
  rw [htile, hhome, State.copySend, horigin]
  rw [State.routeFor, decide_eq_false (by exact fun h => h rfl), Bool.false_and, if_neg Bool.false_ne_true]
  · rfl
  · exact fun _ h => nomatch h

/-- While no operation waits at a Borer record queue, its words go into the queues and nowhere else. -/
theorem State.borerWord_idle {s : State} (hidle : ∀ u ∈ s.units, u.2.unit = 9 → u.2.waiting = none ∧ u.2.sender = none) :
    ∃ us n, s.borerWord = { s with units := us, fresh := n } := by
  have hfold : ∀ (l : List (Nat × UnitSlot)) (t : State), (∀ u ∈ l, u.2.waiting = none ∧ u.2.sender = none) →
      ∃ us, l.foldl (fun (s : State) e => (s.setUnit e.1 { e.2 with inq := e.2.inq ++ [wordBytes (Config.freeReg s.fresh)] }).kickUnit e.1) t = { t with units := us } := by
    intro l
    induction l with
    | nil => exact fun t _ => ⟨t.units, rfl⟩
    | cons e l ih =>
      intro t h
      obtain ⟨hw, hs⟩ := h e List.mem_cons_self
      rw [List.foldl_cons, State.kickUnit_idle (by rw [State.unit_setUnit_same]; exact hw) (by rw [State.unit_setUnit_same]; exact hs)]
      exact ih _ fun u hu => h u (List.mem_cons_of_mem _ hu)
  unfold State.borerWord
  extract_lets qs
  obtain ⟨us, hus⟩ := hfold qs s fun u hu => by
    obtain ⟨hu1, hu2⟩ := List.mem_filter.mp hu
    exact hidle u hu1 (of_decide_eq_true hu2).1
  exact ⟨us, _, (congrArg (State.bump · 1) hus).trans rfl⟩
/-- The only request that Borer has sets its completion tile and leaves. -/
theorem State.flashTile_sets {s : State} {f : Flash} (hb : s.borer = [f]) (hheld : s.held = []) (htag : s.tag f.core f.ctile = .empty)
    (hidle : ∀ u ∈ s.units, u.2.unit = 9 → u.2.waiting = none ∧ u.2.sender = none) :
    (s.flashTile f).tag f.core f.ctile = .full ∧ (s.flashTile f).borer = [] ∧ (s.flashTile f).flash = s.flash ∧ (s.flashTile f).mem = s.mem := by
  have hset := told_setTag s f.core f.ctile .full
  have htag2 := State.tag_setTag s f.core f.ctile .full
  have hx : s.flashTile f = ((s.setTag f.core f.ctile .full).flashOver f).settle := by
    rw [State.flashTile, State.tfull_empty hheld htag, State.unqueue_nil (hset.held.trans hheld)]
  generalize State.setTag _ _ _ Tag.full = s1 at hset htag2 hx
  have hunits1 : s1.units = s.units := (congrArg State.units hset.rest).trans rfl
  have hborer1 : s1.borer = [f] := ((congrArg State.borer hset.rest).trans rfl).trans hb
  let s2 : State := { s1.dropCopy f.core f.id with borer := s1.borer.filter (fun x => x.id != f.id) }
  obtain ⟨us, n, hbw⟩ := State.borerWord_idle (s := s2) (by exact hunits1 ▸ hidle)
  have hover : s1.flashOver f = ({ s2 with units := us, fresh := n } : State).farOver f.who f.id := congrArg (State.farOver · f.who f.id) hbw
  have hfar : Told ({ s2 with units := us, fresh := n } : State) (s1.flashOver f) := hover ▸ told_farOver
  rw [State.settle_nil (by rw [hfar.held]; exact hset.held.trans hheld)] at hx
  have hdrop : (s1.dropCopy f.core f.id).tag f.core f.ctile = s1.tag f.core f.ctile := (quiet_modCore s1 f.core fun _ => rfl).2 f.core _
  rw [hx]
  refine ⟨(hfar.tag _ _).trans (hdrop.trans htag2), ?_, hfar.flash.trans hset.flash, hfar.mem.trans hset.mem⟩
  rw [hfar.rest]
  change s1.borer.filter (fun x => x.id != f.id) = []
  rw [hborer1, List.filter_cons_of_neg (by simp), List.filter_nil]

/-- Settles O32, row by row: the accepted copy, the claimed piece, the completion tile, the added cells, the drained group, and the requests of Borer. -/
theorem copyUnitAndBorerRows : Obligations.CopyUnitAndBorerRows := by
  unfold Obligations.CopyUnitAndBorerRows
  refine ⟨⟨?_, ?_, ?_, ?_, ?_⟩, ?_, ?_⟩
  · intro s core c rest hwait hroom hrun hin hmore
    exact copyAccept_accepts hwait hroom hin hmore
  · intro s core c pa u k off tile z hq hnext hactive htotal hform horigin hxlate hfits hhere hplace htile
    have hpick : nextWork [c] = some (c, none) := by
      unfold nextWork
      rw [List.flatMap_cons, List.flatMap_nil, hactive, List.find?_cons_of_pos (by rw [hnext]; exact decide_eq_true htotal)]
      rfl
    have hpick2 : nextWork [] = none := rfl
    have hx : execPieceDispatch core s = .next ((s.modCopy core c.id (·.started z)).dispatchDst core c z) := by
      unfold execPieceDispatch
      dsimp only
      rw [hq, List.filter_cons_of_neg (by simp [hform]), List.filter_nil, List.filter_cons_of_pos (by simp [hform]), List.filter_nil, hpick, hpick2]
      dsimp only
      rw [Core.parked, hq, List.foldl_cons, hactive, List.foldl_nil, if_neg (by decide)]
      dsimp only
      rw [show c.piece c.next = z by rw [hnext]]
      rfl
    have hq1 := State.copyq_modCopy hq (·.started z)
    have hxl : (s.modCopy core c.id (·.started z)).xlate (s.copyCtx core c) .wr z.dst.toNat = .ok pa u :=
      (State.xlate_modCore (by rfl) _ _ _).trans hxlate
    rw [dispatchDst_claims (s := s.modCopy core c.id (·.started z)) (z := z) (u := u) (tile := tile) hform (by exact horigin) (by exact hxl) hfits (by exact hhere) hplace htile] at hx
    refine ⟨_, _, _, hx, rfl, rfl, rfl, rfl, ?_⟩
    exact (State.copyq_modPiece hq1 (by rw [Copy.started, hactive]; rfl) _).trans (by rw [Copy.started, hnext]; rfl)
  · intro s core id c hq hid htotal hactive hform hcen hab hheld htag
    have hset := told_setTag s core (c.ctl.toNat % 2 ^ 11) .full
    have htag2 := State.tag_setTag s core (c.ctl.toNat % 2 ^ 11) .full
    have hx : execCompletionTileSet core id s = .next (((s.setTag core (c.ctl.toNat % 2 ^ 11) .full).dropCopy core id).settle) := by
      have htile : ctlTile c.ctl = c.ctl.toNat % 2 ^ 11 := by
        unfold ctlTile fld
        rw [Nat.pow_zero, Nat.div_one]
      unfold execCompletionTileSet
      rw [State.copyOf, hq, List.find?_cons_of_pos (by simpa using hid)]
      dsimp only
      rw [if_neg, htile, State.tfull_empty hheld htag, State.unqueue_nil (hset.held.trans hheld)]
      rw [Copy.finished, decide_eq_true htotal, hactive, decide_eq_true hform, show ctlCen c.ctl = true from hcen, hab]
      decide
    generalize State.setTag _ _ _ Tag.full = s1 at hset htag2 hx
    rw [State.settle_nil (by exact hset.held.trans hheld)] at hx
    refine ⟨_, hx, ?_, ?_⟩
    · exact ((quiet_modCore s1 core fun _ => rfl).2 core _).trans htag2
    · have hq1 : (s1.core core).copyq = [c] := (congrArg Core.copyq (hset.core core)).trans ((State.copyq_modCore_setTag s core _ _ core).trans hq)
      rw [State.dropCopy, State.core_modCore_same, hq1, List.filter_cons_of_neg (by simp [hid]), List.filter_nil]
  · intro s id n core m who src hm hbody hfirst hbefore htag hecce hheld hhurt
    have hin : s.inTurn id = some m := by
      rw [State.inTurn, hm, Option.filter_some, if_pos hfirst]
    have hx : execCopyaAccumulate id s = .next (State.pieceResult ((((s.take id).modAcc core n (fun _ => (s.acc core n).addCells s.fresh
        (fun k => truncAt (src.stored k) src.anchor (s.acc core n).anchor))).bump 1024)) m.src 0 0 who 1 false) := by
      unfold execCopyaAccumulate
      rw [hin]
      dsimp only
      rw [hbody]
      dsimp only
      rw [hbefore, if_neg Bool.false_ne_true, if_neg (by rw [htag, State.atTurn_free hheld]; simp), hhurt, Bool.or_false, State.unqueue_nil (by exact hheld), State.settle_nil (by exact hheld)]
    have hp := accStands_pieceResult ((((s.take id).modAcc core n (fun _ => (s.acc core n).addCells s.fresh
        (fun k => truncAt (src.stored k) src.anchor (s.acc core n).anchor))).bump 1024)) m.src 0 0 who false
    refine ⟨_, hx, fun x hxm => ?_, fun k hk => ?_⟩
    · rw [hp.1] at hxm
      simpa using (List.mem_filter.mp hxm).2
    · rw [hp.2]
      exact (congrArg (fun a : Acc => a.cell k) (State.acc_modAcc (s.take id) core n (fun _ => (s.acc core n).addCells s.fresh
        (fun k => truncAt (src.stored k) src.anchor (s.acc core n).anchor)))).trans (Acc.cell_addCells hecce _ _ hk)
  · intro s die group hst hno
    refine ⟨_, execGroupDrainComplete_drained hst hno, ?_⟩
    cases s.procs.find? (fun e => decide (e.2.state = .blocked ∧ e.2.why = 4 ∧ e.2.wait = edgeGroup die group)) with
    | none => exact congrArg Group.state (State.group_modDie s die group Group.free)
    | some e =>
      obtain ⟨pk, q⟩ := e
      dsimp only
      rw [State.die, (resched_wake _ pk).rest]
      exact congrArg Group.state (State.group_modDie s die group Group.free)
  · intro s f hb hstage hreason hreach
    have hfind : s.borer.find? (fun g => decide (g.id = f.id ∧ g.stage = 0)) = some f := by
      rw [hb, List.find?_cons_of_pos (by simp [hstage])]
    have hearly : s.borer.takeWhile (fun g => g.id != f.id) = [] := by
      rw [hb, List.takeWhile_cons_of_neg (by simp)]
    refine ⟨fun hform hhurt => ?_, fun hform hpush hgood => ?_⟩
    · have hx : execBorerRequest f.id s = .next { s with borer := s.borer.map (fun x => if x.id = f.id then { f with stage := 1, image := flashImage (fld f.word.toNat 34 2) (s.mem.bytes f.frame 65536) } else x) } := by
        unfold execBorerRequest
        rw [hfind]
        dsimp only
        rw [hearly, if_neg (by simp), if_neg (by simp [hreason]), if_neg (by simp [hreach]), if_pos hform, if_neg (by simp [hhurt])]
      refine ⟨_, hx, rfl, rfl, ?_⟩
      rw [hb, List.map_cons, if_pos rfl]
      rfl
    · have hlo : fld f.word.toNat 0 34 = f.word.toNat % 2 ^ 34 := by
        rw [fld, Nat.pow_zero, Nat.div_one]
      have hfmt : fld f.word.toNat 34 2 = f.word.toNat / 2 ^ 34 % 4 := rfl
      have hx : execBorerRequest f.id s = .next ({ (({ s with mem := s.mem.writeBytes f.frame (flashPage (fld f.word.toNat 34 2)
          (s.flash.bytes (fld f.word.toNat 0 34 * 2048) (flashSectors (fld f.word.toNat 34 2) * 2048))) } : State).heal f.frame 65536) with
          borer := s.borer.map (fun x => if x.id = f.id then { f with stage := 2 } else x) }) := by
        unfold execBorerRequest
        rw [hfind]
        dsimp only
        rw [hearly, if_neg (by simp), if_neg (by simp [hreason]), if_neg (by simp [hreach]), if_neg (by omega), if_neg (by simp), if_neg, if_neg (by exact fun h => absurd (hpush.symm.trans h) (by decide))]
        · rfl
        · rw [hlo, hfmt, List.any_eq_true]
          rintro ⟨a, ha, hin⟩
          exact hgood a ha (of_decide_eq_true hin)
      refine ⟨_, hx, ?_, rfl, ?_⟩
      · rw [hb, List.map_cons, if_pos rfl]
        rfl
      · rw [← hlo, ← hfmt]
        rfl
  · intro s f hb hheld htag hcopy hunits
    refine ⟨fun hform hstage => ?_, fun hform hstage => ?_⟩
    · have hx : execFetchinComplete f.id s = .next (s.flashTile f) := by
        unfold execFetchinComplete
        rw [hb, List.find?_cons_of_pos (by simp [hform, hstage])]
        dsimp only
        rw [hcopy]
      obtain ⟨ht, hbo, -⟩ := State.flashTile_sets hb hheld htag hunits
      exact ⟨_, hx, ht, hbo⟩
    · have hlo : fld f.word.toNat 0 34 = f.word.toNat % 2 ^ 34 := by
        rw [fld, Nat.pow_zero, Nat.div_one]
      let s1 : State := { s with
        flash := s.flash.writeBytes (fld f.word.toNat 0 34 * 2048) f.image
        flashHurt := s.flashHurt.filter (fun a => !decide (fld f.word.toNat 0 34 * 2048 ≤ a ∧ a < fld f.word.toNat 0 34 * 2048 + f.image.length)) }
      have hx : execFlushoutComplete f.id s = .next (s1.flashTile f) := by
        have hfind : s.borer.find? (fun g => decide (g.id = f.id ∧ g.form = 5 ∧ g.stage = 1)) = some f := by
          rw [hb, List.find?_cons_of_pos (by simp [hform, hstage])]
        have hfirst : s.borer.takeWhile (fun g => g.id != f.id) = [] := by
          rw [hb, List.takeWhile_cons_of_neg (by simp)]
        unfold execFlushoutComplete
        rw [hfind]
        dsimp only
        rw [hfirst, if_neg (by simp)]
      obtain ⟨ht, hbo, hfl, hm⟩ := State.flashTile_sets (s := s1) hb hheld htag hunits
      exact ⟨_, hx, ht, hbo, hlo ▸ hfl, hm⟩
end Sys2Proof.Machine
end

section
/-! Proofs about event records, the deadlock probe, the run ahead of a fault and the answers to its batch (R284, R285, R287, R288, R305 to R307). -/
set_option Elab.async false
namespace Sys2Proof.Machine
open Sys2Proof Sys2Proof.Safety

/-! ## The inbox -/
theorem Table.find?_set_same {α : Type} (t : Table α) (k : Nat) (v : α) (h : ∀ e ∈ t, e.1 ≠ k) : (t.set k v).find? (fun e => decide (e.1 = k)) = some (k, v) := by
  induction t with
  | nil => exact List.find?_cons_of_pos (by simp)
  | cons e r ih =>
    have hne : e.1 ≠ k := h e List.mem_cons_self
    rw [Table.set]
    split
    · exact List.find?_cons_of_pos (by simp)
    · rw [if_neg (Ne.symm hne), List.find?_cons_of_neg (by simp [hne])]
      exact ih fun x hx => h x (List.mem_cons_of_mem _ hx)

/-! ## The deadlock probe -/
theorem wordKey_word {s : State} {pk : Nat} (hpk : pk < 1536 * 256) : wordKey (s.word pk) = pk := by
  unfold wordKey State.word fld dieOfCore coreOf pidOf
  omega
theorem wordModule_word {s : State} {pk : Nat} (hpk : pk < 1536 * 256) (hm : s.modid < 128) : wordModule (s.word pk) = s.modid := by
  unfold wordModule State.word fld dieOfCore coreOf pidOf
  omega
/-- A record with two dwords after its header. -/
theorem record_two (a b c : Word) : (a :: [b, c] ++ List.replicate 7 0).take 8 = [a, b, c, 0, 0, 0, 0, 0] := rfl
theorem record_seven (h a b c d e f g : Word) : (h :: [a, b, c, d, e, f, g] ++ List.replicate 7 0).take 8 = [h, a, b, c, d, e, f, g] := rfl
/-- The only process of the module is no guest and runs here. -/
theorem State.one_process {s : State} {pk : Nat} {p : Proc} (hp : s.procs = [(pk, p)]) (hg : p.guest = false) (ha : p.away = none) (hpk : pk < 1536 * 256) (hm : s.modid < 128) :
    s.proc pk = p ∧ s.originWord pk = s.word pk ∧ s.keyOf (s.word pk) = pk ∧ s.moduleOf (s.word pk) = s.modid := by
  have hproc : s.proc pk = p := by
    rw [State.proc, hp, Table.get, if_pos rfl]
  refine ⟨hproc, ?_, ?_, ?_⟩
  · rw [State.originWord, hproc, hg, if_neg Bool.false_ne_true]
  · unfold State.keyOf
    rw [hp, List.find?_cons_of_neg (by simp [hg]), List.find?_nil]
    exact wordKey_word hpk
  · unfold State.moduleOf
    rw [hp, List.any_cons, hg, Bool.false_and, Bool.false_or, List.any_nil, if_neg Bool.false_ne_true, wordKey_word hpk, hproc, ha, if_pos (wordModule_word hpk hm)]
    rfl
/-- A process that waits for a group leads to no process. -/
theorem State.chain_group {s : State} {w n : Nat} {p : Proc} (hproc : s.proc (s.keyOf w) = p) (hhere : s.moduleOf w = s.modid) (hst : p.state = .blocked)
    (hq : s.quiet (dieOfCore (coreOf (s.keyOf w))) = true) (hwait : p.wait.toNat / 2 ^ 60 = 4) (hqd : s.quiet (p.wait.toNat / 2 ^ 8 % 4) = true) :
    s.chain w (n + 1) w [] = ([w], 2) := by
  have hfield : ∀ x : Nat, fld (x % 2 ^ 60) 8 2 = x / 2 ^ 8 % 4 := fun x => by
    unfold fld
    omega
  have hdie : s.edgeDie p (s.keyOf w) = some (p.wait.toNat / 2 ^ 8 % 4) := by
    unfold State.edgeDie
    dsimp only
    rw [hwait]
    exact congrArg some (hfield _)
  have hto : s.edgeTo p = .nobody := by
    unfold State.edgeTo
    dsimp only
    rw [hwait]
    rfl
  unfold State.chain
  dsimp only
  rw [hproc]
  rw [if_neg (by simp [hhere]), if_neg (by simp [hst, hq]), hdie]
  dsimp only
  rw [if_neg (by rw [hqd]; decide), hto]
  rfl

/-! ## Batches -/
/-- The pages of a batch record, 40 bits each. -/
def packPages (pages : List Nat) : Nat := pages.foldr (fun g n => n * 2 ^ 40 + g % 2 ^ 40) 0
theorem packPages_getD (pages : List Nat) : ∀ j < pages.length, packPages pages / 2 ^ (40 * j) % 2 ^ 40 = pages.getD j 0 % 2 ^ 40 := by
  induction pages with
  | nil => exact fun j h => absurd h (Nat.not_lt_zero j)
  | cons g r ih =>
    intro j hj
    have hstep : packPages (g :: r) = packPages r * 2 ^ 40 + g % 2 ^ 40 := rfl
    cases j with
    | zero =>
      rw [hstep, Nat.mul_zero, Nat.pow_zero, Nat.div_one, List.getD_cons_zero]
      omega
    | succ j =>
      have hdiv : packPages (g :: r) / 2 ^ 40 = packPages r := by
        rw [hstep]
        omega
      rw [List.getD_cons_succ, ← ih j (by simpa using hj), Nat.mul_add, Nat.mul_one, Nat.add_comm, Nat.pow_add, ← Nat.div_div_eq_div_mul, hdiv]
theorem batchDwords_pages (x : Trap) (pages : List Nat) (pc : Word) :
    batchDwords x pages pc = [BitVec.ofNat 64 (pages.length * 2 ^ 61 + x.cls * 2 ^ 58 + x.level * 2 ^ 56 + x.info.toNat % 2 ^ 56), BitVec.ofNat 64 (packPages pages),
      BitVec.ofNat 64 (packPages pages / 2 ^ 64), BitVec.ofNat 64 (packPages pages / 2 ^ 128), BitVec.ofNat 64 (packPages pages / 2 ^ 192),
      BitVec.ofNat 64 (packPages pages / 2 ^ 256), pc] := by
  unfold batchDwords
  rw [List.foldl_reverse]
  have hzero : packPages pages / 2 ^ (64 * 0) = packPages pages := Nat.div_one _
  exact congrArg (fun n => _ :: BitVec.ofNat 64 n :: _) hzero

/-! ## The answers to a batch -/
theorem Core.copyq_none {k : Core} (h : k.copyq = []) {g : List Copy → List Copy} (hg : g [] = []) : { k with copyq := g k.copyq } = k := by
  rw [h, hg, ← h]
/-- A copy whose parked pieces look again, where it is of the address space. -/
def Copy.unparked (c : Copy) (asid : Nat) : Copy :=
  if c.asid = asid then { c with active := c.active.map (fun z => if z.stage = 4 then { z with stage := 0 } else if z.stage = 5 then { z with stage := 2 } else z) } else c
theorem State.core_unpark (s : State) (asid c : Nat) : (s.unpark asid).core c = { s.core c with copyq := (s.core c).copyq.map (·.unparked asid) } :=
  Table.get_mapped s.cores (d := Core.reset) (g := fun x : Core => { x with copyq := x.copyq.map (·.unparked asid) })
    (Core.copyq_none rfl (g := List.map (·.unparked asid)) rfl) c
/-- The state once the record of a notice is posted and the parked pieces of its address space look again. -/
def State.noticed (s : State) (d asid who : Nat) (v : Word) : State := ((s.modDie d (fun x => { x with pgnote := v &&& ~~~0x3FFFFFF#64 })).post d 1 asid who [v]).unpark asid
section
variable (s : State) (d asid who : Nat) (v : Word)
theorem State.noticed_procs : (s.noticed d asid who v).procs = s.procs := State.post_procs _ _ _ _ _ _
theorem State.noticed_mem : (s.noticed d asid who v).mem = s.mem := State.post_mem _ _ _ _ _ _
theorem State.noticed_modid : (s.noticed d asid who v).modid = s.modid := by
  unfold State.noticed State.post
  dsimp only
  split <;> rfl
theorem State.noticed_proc (k : Nat) : (s.noticed d asid who v).proc k = s.proc k := by
  unfold State.proc
  rw [State.noticed_procs]
theorem State.noticed_keyOf (w : Nat) : (s.noticed d asid who v).keyOf w = s.keyOf w := by
  unfold State.keyOf
  rw [State.noticed_procs]
theorem State.noticed_moduleOf (w : Nat) : (s.noticed d asid who v).moduleOf w = s.moduleOf w := by
  unfold State.moduleOf
  rw [State.noticed_procs, State.noticed_modid, State.noticed_proc]
theorem State.noticed_resident (pk : Nat) : (s.noticed d asid who v).resident pk = s.resident pk := by
  have hcores : ((s.modDie d (fun x => { x with pgnote := v &&& ~~~0x3FFFFFF#64 })).post d 1 asid who [v]).cores = s.cores := by
    unfold State.post
    dsimp only
    split <;> rfl
  unfold State.resident State.noticed
  rw [State.core_unpark]
  unfold State.core
  rw [hcores]
end
/-- A notice for a process of this module readies it. -/
theorem State.pgnote_here {s : State} {d : Nat} {v : Word} (hact : v.toNat / 2 ^ 62 < 3) (hz : v.toNat / 2 ^ 34 % 2 ^ 22 = 0) (hmod : s.moduleOf (v.toNat % 2 ^ 26) = s.modid)
    (hword : wordModule (v.toNat % 2 ^ 26) = s.modid) :
    s.pgnote d v 0 0 = (s.noticed d (v.toNat / 2 ^ 56 % 2 ^ 6) (v.toNat % 2 ^ 26) v).readyNoted (s.keyOf (v.toNat % 2 ^ 26)) v := by
  have hf : fld v.toNat 62 2 = v.toNat / 2 ^ 62 := by unfold fld; omega
  have hw : fld v.toNat 0 26 = v.toNat % 2 ^ 26 := by rw [fld, Nat.pow_zero, Nat.div_one]
  have hcond : ¬(fld v.toNat 62 2 = 3 ∨ fld v.toNat 34 22 ≠ 0) := by
    rw [hf, fld, hz]
    omega
  unfold State.pgnote
  extract_lets act as_ who s1
  have hs1 : s1 = s.noticed d (v.toNat / 2 ^ 56 % 2 ^ 6) (v.toNat % 2 ^ 26) v := by rw [← hw]; rfl
  have htarget : s1.noteTarget v = none := by
    unfold State.noteTarget
    dsimp only
    rw [hs1, hw, State.noticed_moduleOf, State.noticed_modid, if_pos (.inr (.inr (.inl hmod)))]
  rw [if_neg hcond, htarget]
  dsimp only
  rw [if_neg (fun h => h.1 (by exact (congrArg wordModule hw).trans hword)), hs1, State.noticed_keyOf]
  exact congrArg (fun w => State.readyNoted _ (s.keyOf w) v) hw
/-- What the process of a notice is once it has been readied: without its batch, or with the trap of its answer. -/
def Proc.answered (p : Proc) (v va : Word) : Proc :=
  if v.toNat / 2 ^ 62 = 0 then { p with batch := none, walked := none }
  else { p with walked := none, pend := some ⟨if v.toNat / 2 ^ 62 = 1 then .page else .prot, va, 0, 0⟩ }
/-- A resident process that waits for the batch of a notice goes on. -/
theorem State.readyNoted_resident {s : State} {pk seq : Nat} {va v : Word} (hst : (s.proc pk).state = .blocked) (hwhy : (s.proc pk).why = 5)
    (hb : (s.proc pk).batch = some (seq, va)) (hseq : v.toNat / 2 ^ 26 % 2 ^ 8 = seq) (hres : s.resident pk = true) :
    s.readyNoted pk v = s.setProc pk { ((s.proc pk).answered v va) with state := .running, wait := 0 } := by
  have hf : fld v.toNat 62 2 = v.toNat / 2 ^ 62 := by unfold fld; omega
  have hans : (s.modProc pk fun p => p.answered v va).proc pk = (s.proc pk).answered v va := State.proc_modProc_same _ _ _
  have hst2 : ((s.proc pk).answered v va).state = .blocked := by
    unfold Proc.answered
    split <;> exact hst
  unfold State.readyNoted
  dsimp only
  rw [hb]
  dsimp only
  rw [if_neg (by rw [hst, hwhy, fld, hseq]; simp), hf]
  refine Eq.trans (b := ((s.modProc pk fun p => p.answered v va).synced pk).wake pk) rfl ?_
  rw [State.synced_resident (by exact hres), State.wake_resident (by rw [hans]; exact hst2) (by exact hres), hans]
  exact State.setProc_setProc _ _ _ _
/-- A process that runs is BLOCKED in its slot: of it its state, its wait and what is written out change. -/
theorem State.block_running_proc {s : State} {pk : Nat} (h : (s.proc pk).state = .running) (why : Nat) (edge : Word) (on : Nat) :
    ∃ q : Proc, s.block pk why edge on = s.setProc pk q ∧
      q = { s.proc pk with state := .blocked, wait := edge, why := why, on := on, since := q.since, desc := q.desc } := by
  unfold State.block
  dsimp only
  rw [h]
  dsimp only
  refine ⟨_, rfl, ?_⟩
  split <;> rfl

/-- The deadlock probe of a quiet die reports the process that waits on a group of a quiet die, once (R287, R288). -/
theorem execDeadlockProbe_reports {s : State} {pk : Nat} {p : Proc} (hprocs : s.procs = [(pk, p)]) (hst : p.state = .blocked) (hguest : p.guest = false) (haway : p.away = none)
    (hpk : pk < 1536 * 256) (hm : s.modid < 128) (hwait : p.wait.toNat / 2 ^ 60 = 4) (hquiet : s.quiet (dieOfCore (coreOf pk)) = true)
    (hqd : s.quiet (p.wait.toNat / 2 ^ 8 % 4) = true) (hdl : (s.die (dieOfCore (coreOf pk))).dlWait ≠ 0) (htime : (s.die (dieOfCore (coreOf pk))).quietSince + (s.die (dieOfCore (coreOf pk))).dlWait ≤ s.dtime) (hrep : (s.die (dieOfCore (coreOf pk))).reported = [])
    (hqueue : (s.die (dieOfCore (coreOf pk))).queue = []) (hpost : (s.die (dieOfCore (coreOf pk))).posting = []) :
    ∃ (t : State) (r : Record), execDeadlockProbe (dieOfCore (coreOf pk)) s = .next t ∧ t.mem = s.mem ∧ t.procs = s.procs ∧ (t.die (dieOfCore (coreOf pk))).queue = [r] ∧
      r.getD 0 0 = BitVec.ofNat 64 (5 * 2 ^ 56 + (s.die (dieOfCore (coreOf pk))).seq.toNat * 2 ^ 48 + p.asid * 2 ^ 26 + s.word pk) ∧ r.getD 1 0 = BitVec.ofNat 64 (2 + 1 * 2 ^ 8) ∧
      r.getD 2 0 = BitVec.ofNat 64 (s.word pk + 4 * 2 ^ 28) := by
  obtain ⟨hproc, horigin, hkey, hmod⟩ := State.one_process hprocs hguest haway hpk hm
  have hchain : s.chain (s.word pk) (s.procs.length + 1) (s.word pk) [] = ([s.word pk], 2) :=
    State.chain_group (by rw [hkey, hproc]) hmod hst (by rw [hkey]; exact hquiet) hwait hqd
  have hx : execDeadlockProbe (dieOfCore (coreOf pk)) s = .next ((s.reportChain (dieOfCore (coreOf pk)) [s.word pk] [] 2).modDie (dieOfCore (coreOf pk)) (fun v => { v with reported := v.reported ++ [2 * s.word pk + 1] })) := by
    have hprobe : s.probeFrom (dieOfCore (coreOf pk)) (s.word pk) = (s.reportChain (dieOfCore (coreOf pk)) [s.word pk] [] 2).modDie (dieOfCore (coreOf pk)) (fun v => { v with reported := v.reported ++ [2 * s.word pk + 1] }) := by
      have hlow : [s.word pk].foldl min (s.word pk) = s.word pk := Nat.min_self _
      unfold State.probeFrom
      rw [hchain]
      simp [hlow, hkey, hrep]
    unfold execDeadlockProbe
    dsimp only
    rw [if_neg, hprocs, List.filter_cons_of_pos (by simp [hst, haway]), List.filter_nil, List.map_cons, List.map_nil, List.foldl_cons, List.foldl_nil, horigin, hprobe]
    rw [hquiet]
    simp only [Bool.true_eq_false, false_or, not_or]
    exact ⟨hdl, Nat.not_lt.mpr htime⟩
  have hrec : s.reportChain (dieOfCore (coreOf pk)) [s.word pk] [] 2 = s.post (dieOfCore (coreOf pk)) 5 p.asid (s.word pk) [BitVec.ofNat 64 (2 + 1 * 2 ^ 8), BitVec.ofNat 64 (s.word pk + 4 * 2 ^ 28)] := by
    have hlinks : ([s.word pk].map (fun w => BitVec.ofNat 64 (w + (s.proc (s.keyOf w)).wait.toNat / 2 ^ 60 * 2 ^ 28)) ++ ([] : List Word)).take 6 =
        [BitVec.ofNat 64 (s.word pk + 4 * 2 ^ 28)] := by
      rw [List.map_cons, List.map_nil, List.append_nil, List.take_of_length_le (by simp), hkey, hproc, hwait]
    unfold State.reportChain
    dsimp only
    rw [hlinks, List.headD_cons, hkey, hproc, List.length_singleton]
  have hq := State.post_queue (s := s) (d := dieOfCore (coreOf pk)) 5 p.asid (s.word pk) [BitVec.ofNat 64 (2 + 1 * 2 ^ 8), BitVec.ofNat 64 (s.word pk + 4 * 2 ^ 28)] hpost
    (by rw [hqueue]; decide)
  rw [hrec] at hx
  rw [record_two, hqueue, List.nil_append] at hq
  refine ⟨_, _, hx, State.post_mem _ _ _ _ _ _, State.post_procs _ _ _ _ _ _, (congrArg Die.queue (State.die_modDie_same _ _ _)).trans hq, List.getD_cons_zero, ?_, ?_⟩
  · rw [List.getD_cons_succ, List.getD_cons_zero]
  · rw [List.getD_cons_succ, List.getD_cons_succ, List.getD_cons_zero]

/-- Settles O47, clause by clause: records, the probe, the answers to a batch, and the run ahead with the batch that it ends with. -/
theorem eventRows : Obligations.EventRows := by
  unfold Obligations.EventRows
  refine ⟨?_, ?_, ?_, ?_, ?_, ?_, ?_⟩
  · intro s die r rest d
    refine ⟨fun hp hroom => ?_, fun hq hen hvec hdrop => ?_, fun hq hen hvec hno => ?_⟩
    · show execEventRecordPost die s = _
      unfold execEventRecordPost
      dsimp only
      rw [show (s.die die).posting = r :: rest from hp]
      dsimp only
      rw [if_neg (by exact Nat.not_le.mpr hroom)]
    · show execEventRecordDeliver die s = _
      unfold execEventRecordDeliver
      dsimp only
      rw [show (s.die die).queue = r :: rest from hq]
      dsimp only
      rw [if_neg (by simp [show (s.die die).evEn = true from hen]), if_pos (by exact hvec), Nat.min_eq_left (by exact Nat.succ_le_of_lt hdrop)]
    · have hfree : ((s.core (die * 384)).inbox.all (fun e => e.1 != 7)) = true := List.all_eq_true.mpr fun e he => by simpa using hno e he
      let b : Inbox := ⟨r, true, s.nextId, 0, []⟩
      have hx : execEventRecordDeliver die s = .next (({ s with nextId := s.nextId + 1 }.setDie die { d with queue := rest }).setCore (die * 384)
          { s.core (die * 384) with inbox := (s.core (die * 384)).inbox.set 7 b }) := by
        unfold execEventRecordDeliver
        dsimp only
        rw [show (s.die die).queue = r :: rest from hq]
        dsimp only
        rw [if_neg (by simp [show (s.die die).evEn = true from hen]), if_neg (by exact hvec), List.find?_cons_of_pos (by exact hfree)]
      refine ⟨_, b, hx, rfl, rfl, ?_, ?_, rfl, rfl⟩
      · rw [State.die_setCore, State.die_setDie_same]
      · rw [State.core_setCore_same]
        exact Table.find?_set_same _ 7 b hno
  · intro s die h
    show execDeadlockProbe die s = _
    unfold execDeadlockProbe
    dsimp only
    rw [if_pos (by tauto)]
  · intro s pk p hprocs hst hguest haway hpk hm hwait hasid die d hquiet hqd hdl htime hrep hqueue hpost
    exact execDeadlockProbe_reports hprocs hst hguest haway hpk hm hwait hquiet hqd hdl htime hrep hqueue hpost
  · intro s die pk seq va v p who hkey hmod hword hwho hz hst hwhy hb hseq hres
    let s1 := s.noticed die (v.toNat / 2 ^ 56 % 2 ^ 6) who v
    have hproc : s1.proc pk = p := State.noticed_proc _ _ _ _ _ _
    have hnote : v.toNat / 2 ^ 62 < 3 → s.pgnote die v 0 0 = s1.setProc pk { (p.answered v va) with state := .running, wait := 0 } := fun hact => by
      have hready := State.readyNoted_resident (s := s1) (pk := pk) (va := va) (v := v) (seq := seq) (by rw [hproc]; exact hst) (by rw [hproc]; exact hwhy) (by rw [hproc]; exact hb) hseq
        ((State.noticed_resident _ _ _ _ _ _).trans hres)
      rw [hproc] at hready
      rw [State.pgnote_here hact hz hmod hword, show s.keyOf (v.toNat % 2 ^ 26) = pk from hkey, hready]
    have hproct : ∀ q : Proc, ((s1.setProc pk q).proc pk) = q := fun q => State.proc_setProc_same _ _ _
    have hpends : ∀ (c : Cause) (t : State), t = s1.setProc pk { (p.answered v va) with state := .running, wait := 0 } → v.toNat / 2 ^ 62 ≠ 0 →
        (if v.toNat / 2 ^ 62 = 1 then Cause.page else .prot) = c →
        t.mem = s.mem ∧ (t.proc pk).state = .running ∧ (t.proc pk).pend = some ⟨c, va, 0, 0⟩ ∧ (t.proc pk).pc = p.pc ∧ (t.proc pk).r = p.r ∧ (t.proc pk).batch = p.batch := by
      intro c t ht h0 hc
      rw [ht, hproct, Proc.answered, if_neg h0, hc]
      exact ⟨State.noticed_mem _ _ _ _ _, rfl, rfl, rfl, rfl, rfl⟩
    refine ⟨fun h0 => ?_, fun h1 => ?_, fun h2 => ?_⟩
    · have hx : execPgnoteResume die v s = .next (s.pgnote die v 0 0) := by
        rw [execPgnoteResume, if_pos (by unfold fld; omega)]
      refine ⟨_, hx, ?_⟩
      rw [hnote (by omega), hproct, Proc.answered, if_pos h0]
      exact ⟨State.noticed_mem _ _ _ _ _, rfl, rfl, rfl, rfl⟩
    · have hx : execPgnoteDeliverPage die v s = .next (s.pgnote die v 0 0) := by
        rw [execPgnoteDeliverPage, if_pos (by unfold fld; omega)]
      exact ⟨_, hx, hpends .page _ (hnote (by omega)) (by omega) (if_pos h1)⟩
    · have hx : execPgnoteDeliverProt die v s = .next (s.pgnote die v 0 0) := by
        rw [execPgnoteDeliverProt, if_pos (by unfold fld; omega)]
      exact ⟨_, hx, hpends .prot _ (hnote (by omega)) (by omega) (if_neg (by omega))⟩
  · intro s pk x p
    exact ⟨_, State.proc_setProc_same _ _ _, rfl, rfl, rfl, rfl, rfl, rfl⟩
  · intro s pk a x hcount hknown hal va
    refine ⟨fun l hl => ?_, fun c l hc hl => ?_⟩
    · have hx : s.aheadAccess pk a x = .go (((a.mark x.info.writes).next).addPage va) := by
        unfold State.aheadAccess
        dsimp only
        rw [hcount, hknown]
        dsimp only
        rw [if_neg (by simp), if_neg (by exact fun h => h hal), show s.xlate (s.ctxOf pk) x.access (x.ea (a.r.getG x.base)).toNat = _ from hl]
      refine ⟨_, hx, ?_, ?_, ?_⟩
      all_goals unfold Run.addPage
      · split <;> rfl
      · split <;> rfl
      · exact (apply_ite Run.pages _ _ _).trans (if_congr (by rw [List.contains_iff_mem]; rfl) rfl rfl)
    · unfold State.aheadAccess
      dsimp only
      rw [hcount, hknown]
      dsimp only
      rw [if_neg (by simp), if_neg (by exact fun h => h hal), show s.xlate (s.ctxOf pk) x.access (x.ea (a.r.getG x.base)).toNat = _ from hl]
      cases c with
      | page => exact absurd rfl hc
      | _ => rfl
  · intro s pk a p who die d hah hst hword hend hpost hroom
    let dw := batchDwords a.trap a.pages p.pc
    let s1 := s.post die 2 p.asid who dw
    let p1 : Proc := { p.settled with pend := none, batch := some (d.seq.toNat, a.trap.info) }
    have hgo : s.aheadGo pk a = (s1.modProc pk (fun p => { p.settled with pend := none, batch := some (d.seq.toNat, a.trap.info) })).block pk 5 (edgeBatch d.seq.toNat) := by
      rw [State.aheadGo, if_pos hend, State.endAhead, show (s.proc pk).ahead = some a from hah]
      exact if_pos hword
    have hp1 : (s1.modProc pk (fun p => { p.settled with pend := none, batch := some (d.seq.toNat, a.trap.info) })).proc pk = p1 := by
      rw [State.proc_modProc_same, State.post_proc]
    obtain ⟨q, hq, hqp⟩ := State.block_running_proc (pk := pk) (by rw [hp1]; exact hst) 5 (edgeBatch d.seq.toNat) 0
    rw [hp1] at hqp
    rw [hgo, hq]
    dsimp only
    rw [State.proc_setProc_same]
    have hrec := State.post_queue 2 p.asid who dw hpost hroom
    refine ⟨State.post_mem _ _ _ _ _ _, ?_, ?_, ?_, ?_, ?_, ?_, packPages a.pages, ?_, packPages_getD a.pages⟩
    · rw [hqp]
    · rw [hqp]
      rfl
    · rw [hqp]
      rfl
    · rw [hqp]
    · rw [hqp]
      rfl
    · rw [hqp]
      rfl
    · have hdw : dw = _ := batchDwords_pages a.trap a.pages p.pc
      exact hrec.trans (congrArg (fun r => d.queue ++ [r]) (by rw [hdw, record_seven]))
end Sys2Proof.Machine
end

section
/-! What the Launch Unit reads and writes of a queue (R318 to R324). -/
set_option Elab.async false
namespace Sys2Proof.Machine
open Sys2Proof Sys2Proof.Safety

/-! ## Queues -/
theorem State.queue_setQueue (s : State) (q : Nat) (v : Queue) : (s.setQueue q v).queue q = v := Table.get_set_same _ _ _ _
/-- An entry is written that f passes by as it passes by the entry of its key. -/
theorem Table.filter_set {α : Type} {t : Table α} {d v : α} {k : Nat} {f : Nat × α → Bool} (hv : f (k, v) = false) (hd : f (k, t.get d k) = false) :
    List.filter f (t.set k v) = List.filter f t := by
  induction t with
  | nil => exact List.filter_cons_of_neg (by simp [hv])
  | cons e r ih =>
    obtain ⟨j, w⟩ := e
    rw [Table.set]
    by_cases hlt : k < j
    · rw [if_pos hlt, List.filter_cons_of_neg (by simp [hv])]
    · rw [if_neg hlt]
      by_cases hj : k = j
      · rw [Table.get, if_pos hj.symm] at hd
        rw [if_pos hj, List.filter_cons_of_neg (by simp [hv]), List.filter_cons_of_neg (by simp [← hj, hd])]
      · rw [Table.get, if_neg (Ne.symm hj)] at hd
        rw [if_neg hj, List.filter_cons, List.filter_cons, ih hd]

/-! ## Reading ahead (R323) -/
/-- The byte that the Launch Unit reads at an address: one that it has read ahead, or the one that memory holds. -/
def State.packetByte (s : State) (v : Queue) (a : Nat) : Option Byte :=
  match v.ahead.find? (fun e => decide (e.1 = a)) with
  | some e => some e.2
  | none => if s.luAddr a && !s.hurt a 1 then some (s.mem.read a) else none
theorem State.packetBytes_eq (s : State) (v : Queue) (i n : Nat) : s.packetBytes v i n = (List.range n).mapM (fun k => s.packetByte v (v.byteAddr (i + k))) := rfl
theorem mapM_zip {α β γ : Type} {f : α → Option β} {g : α → γ} {l : List α} {r : List β} (h : l.mapM f = some r) : ∀ e ∈ (l.map g).zip r, ∃ k ∈ l, e.1 = g k ∧ f k = some e.2 := by
  induction l generalizing r with
  | nil => exact fun e he => absurd he (by simp)
  | cons a l ih =>
    rw [List.mapM_cons] at h
    obtain ⟨b, hb, h⟩ := Option.bind_eq_some_iff.mp h
    obtain ⟨r2, hr2, h⟩ := Option.bind_eq_some_iff.mp h
    obtain rfl := Option.some.inj h
    intro e he
    rw [List.map_cons, List.zip_cons_cons, List.mem_cons] at he
    rcases he with rfl | he
    · exact ⟨a, List.mem_cons_self, rfl, hb⟩
    · obtain ⟨k, hk, hek⟩ := ih hr2 e he
      exact ⟨k, List.mem_cons_of_mem _ hk, hek⟩
/-- Bytes that have been read are read again as they were. -/
theorem State.packetByte_ahead {s : State} {v : Queue} {l : List (Nat × Byte)} (h : ∀ e ∈ l, s.packetByte v e.1 = some e.2) (a : Nat) :
    s.packetByte { v with ahead := v.ahead ++ l } a = s.packetByte v a := by
  unfold State.packetByte
  dsimp only
  rw [List.find?_append]
  cases hin : v.ahead.find? (fun e => decide (e.1 = a)) with
  | some e => rfl
  | none =>
    rw [Option.none_or]
    cases hl : l.find? (fun e => decide (e.1 = a)) with
    | none => rfl
    | some e =>
      have ha : e.1 = a := by simpa using List.find?_some hl
      have hb := h e (List.mem_of_find?_eq_some hl)
      rw [State.packetByte, ha, hin] at hb
      exact hb.symm
/-- Bytes of a packet have been read: nothing but what has been read ahead changes, and what the queue reads is as it was. -/
structure PacketRead (q : Nat) (s t : State) : Prop where
  rest : t = { s with queues := t.queues }
  queue : t.queue q = { s.queue q with ahead := (t.queue q).ahead }
  bytes : ∀ i n, t.packetBytes (t.queue q) i n = s.packetBytes (s.queue q) i n
theorem packetRead_fetchPacket (s : State) (q n : Nat) : PacketRead q s (s.fetchPacket q n) := by
  unfold State.fetchPacket
  extract_lets v
  cases hall : s.packetBytes v 0 n with
  | none => exact ⟨rfl, rfl, fun _ _ => rfl⟩
  | some all =>
    dsimp only
    refine ⟨rfl, by rw [State.queue_setQueue], fun i m => ?_⟩
    rw [State.queue_setQueue, State.packetBytes_eq, State.packetBytes_eq]
    congr 1
    funext k
    refine State.packetByte_ahead (s := s) (v := v) (fun e he => ?_) _
    obtain ⟨j, -, hj, hb⟩ := mapM_zip (f := fun k => s.packetByte v (v.byteAddr (0 + k))) (g := v.byteAddr) hall e (List.mem_filter.mp he).1
    rw [hj]
    rwa [Nat.zero_add] at hb
section
variable {q : Nat} {s t : State} (h : PacketRead q s t)
include h
theorem PacketRead.body (j : Nat) : t.body q j = s.body q j := by
  rw [State.body, State.body, State.packetDword, State.packetDword, h.bytes]
theorem PacketRead.luDword (la : Nat) : t.luDword la = s.luDword la := by
  rw [h.rest]
  rfl
theorem PacketRead.luGood (la : Nat) : t.luGood la = s.luGood la := by
  rw [h.rest]
  rfl
theorem PacketRead.mem : t.mem = s.mem := (congrArg State.mem h.rest).trans rfl
theorem PacketRead.procs : t.procs = s.procs := (congrArg State.procs h.rest).trans rfl
theorem PacketRead.frames : (t.queue q).frames = (s.queue q).frames := (congrArg Queue.frames h.queue).trans rfl
theorem PacketRead.loop : (t.queue q).loop = (s.queue q).loop := (congrArg Queue.loop h.queue).trans rfl
theorem PacketRead.rptr : (t.queue q).rptr = (s.queue q).rptr := (congrArg Queue.rptr h.queue).trans rfl
theorem PacketRead.logsize : (t.queue q).logsize = (s.queue q).logsize := (congrArg Queue.logsize h.queue).trans rfl
theorem PacketRead.qcb : (t.queue q).qcb = (s.queue q).qcb := (congrArg Queue.qcb h.queue).trans rfl
end

/-! ## After a packet (R318) -/
/-- Outside INDIRECT and LOOP the cursor is RPTR. -/
theorem Queue.advance_root {v : Queue} (hf : v.frames = []) (n : Nat) :
    v.advance n = { v with ahead := (v.advance n).ahead, rptr := (v.rptr + n) % 2 ^ v.logsize } := by
  unfold Queue.advance
  dsimp only
  rw [hf]
theorem Queue.advance_ahead {v : Queue} (h : v.ahead = []) (n : Nat) : (v.advance n).ahead = [] := by
  unfold Queue.advance
  dsimp only
  rw [h]
  split <;> rfl
/-- A packet of the ring has taken effect: its queue waits no more, and RPTR moves past it, in the control block too. -/
theorem State.finishPacket_root {s : State} {q : Nat} (hf : (s.queue q).frames = []) (hl : (s.queue q).loop = none) (len : Nat) :
    s.finishPacket q len = (s.setQueue q { (s.queue q).advance (8 * len) with waiting := 0, share := none }).luWrite ((s.queue q).qcb + 24)
      (BitVec.ofNat 64 (((s.queue q).rptr + 8 * len) % 2 ^ (s.queue q).logsize)) := by
  have ha := Queue.advance_root hf (8 * len)
  have hacc : ∀ v : Queue, v.frames = [] → v.loop = none → v.account 6 = (v, true) := fun v h1 h2 => by
    unfold Queue.account
    dsimp only
    rw [h2]
    dsimp only
    rw [h1]
  unfold State.finishPacket
  dsimp only
  rw [hacc _ (by rw [ha]; exact hf) (by rw [ha]; exact hl)]
  dsimp only
  rw [State.luStore, if_pos (by rw [ha]; exact congrArg List.isEmpty hf), ha]
/-- What such a packet leaves. -/
theorem State.finishPacket_leaves {s : State} {q : Nat} (hf : (s.queue q).frames = []) (hl : (s.queue q).loop = none) (len : Nat) :
    let t := s.finishPacket q len
    let n := ((s.queue q).rptr + 8 * len) % 2 ^ (s.queue q).logsize
    t.mem = s.mem.writeN ((s.queue q).qcb + 24) 8 (BitVec.ofNat 64 n).toNat ∧ (t.queue q).rptr = n ∧ (t.queue q).waiting = 0 ∧
      t = { s with queues := t.queues, mem := t.mem, struck := t.struck } := by
  intro t n
  have ht : t = _ := State.finishPacket_root hf hl len
  refine ⟨by rw [ht]; rfl, ?_, ?_, by rw [ht]; rfl⟩
  · rw [ht]
    refine (congrArg Queue.rptr (State.queue_setQueue s q { (s.queue q).advance (8 * len) with waiting := 0, share := none })).trans ?_
    rw [Queue.advance_root hf]
  · rw [ht]
    exact congrArg Queue.waiting (State.queue_setQueue s q { (s.queue q).advance (8 * len) with waiting := 0, share := none })
theorem State.queue_luWrite (s : State) (a : Nat) (v : Word) (q : Nat) : (s.luWrite a v).queue q = s.queue q := rfl
/-- A queue that halts with a code (R322). -/
def Queue.halt (v : Queue) (code : Nat) : Queue := { v with halted := true, code := code, faultpa := v.cursor.1, frames := [], loop := none, waiting := 0, ahead := [] }
theorem State.haltQueue_halts (s : State) (q code : Nat) :
    ((s.haltQueue q code).queue q).halted = true ∧ ((s.haltQueue q code).queue q).code = code ∧ (s.queue q).vec ∈ (s.haltQueue q code).raised := by
  have hqs : (s.haltQueue q code).queues = s.queues.set q ((s.queue q).halt code) := rfl
  have hq : (s.haltQueue q code).queue q = (s.queue q).halt code := by
    rw [State.queue, hqs]
    exact Table.get_set_same _ _ _ _
  rw [hq]
  exact ⟨rfl, rfl, List.mem_append_right _ (List.mem_singleton_self _)⟩

/-! ## Rows of packets -/
/-- The turn has passed on from a queue (R320). -/
def State.turned (s : State) (q : Nat) : State := { s with luTurn := q + 1 }
section
variable {s : State} {q : Nat} (hturn : s.luNext = some q)
include hturn
theorem packetRow_halt {c : Nat} (h : s.luTodo q = .halt c) (op : Nat) (body : Word → State → State) :
    packetRow op q body s = .next ((s.haltQueue q c).turned q) := by
  rw [packetRow, if_neg (by simp [hturn]), h]
  rfl
theorem packetRow_packet {h : Word} {op : Nat} (hp : s.luTodo q = .packet h) (hop : pkOp h = op) (body : Word → State → State) :
    packetRow op q body s = .next ((body h (s.fetchPacket q (8 * pkLen h))).turned q) := by
  rw [packetRow, if_neg (by simp [hturn]), hp]
  dsimp only
  rw [if_pos hop]
  rfl
end
/-- A packet that is there is in order, and its queue does not wait. -/
theorem State.luTodo_packet {s : State} {q : Nat} {h : Word} (hp : s.luTodo q = .packet h) :
    headerCode h = 0 ∧ (s.queue q).waiting = 0 ∧ s.packetDword (s.queue q) 0 = some h := by
  unfold State.luTodo at hp
  dsimp only at hp
  split at hp
  · exact absurd hp (by simp)
  · next hno =>
    split at hp
    · exact absurd hp (by simp)
    · next x hx =>
      split at hp
      · exact absurd hp (by simp)
      · next hcode =>
        split at hp
        · exact absurd hp (by simp)
        · split at hp
          · exact absurd hp (by simp)
          · obtain rfl := LuTodo.packet.inj hp
            refine ⟨by simpa using hcode, ?_, hx⟩
            by_contra hw
            exact hno (by simp [hw])
end Sys2Proof.Machine
end

section
/-! Proofs about the Launch Unit: packets, doorbells and exit reports (R286, R317 to R326). -/
set_option Elab.async false
namespace Sys2Proof.Machine
open Sys2Proof Sys2Proof.Safety

/-! ## Packets -/
/-- How long the packets of a fixed length are, in dwords (R321). -/
theorem pkLen_of_headerCode {h : Word} (hc : headerCode h = 0) : (pkOp h = 2 → pkLen h = 4) ∧ (pkOp h = 3 → pkLen h = 3) ∧ (pkOp h = 4 → pkLen h = 3) ∧
    (pkOp h = 5 → pkLen h = 1) ∧ (pkOp h = 6 → pkLen h = 1) := by
  unfold headerCode at hc
  refine ⟨fun h2 => ?_, fun h3 => ?_, fun h4 => ?_, fun h5 => ?_, fun h6 => ?_⟩
  · rw [h2] at hc
    by_contra hne
    simp [hne] at hc
  · rw [h3] at hc
    by_contra hne
    simp [hne] at hc
  · rw [h4] at hc
    by_contra hne
    simp [hne] at hc
  · rw [h5] at hc
    by_contra hne
    simp [hne] at hc
  · rw [h6] at hc
    by_contra hne
    simp [hne] at hc
/-- Dword j of the packet at the cursor of a queue, 0 where it cannot be read. -/
def State.luArg (s : State) (q j : Nat) : Word := (s.packetDword (s.queue q) j).getD 0
theorem State.body_eq (s : State) (q j : Nat) : s.body q j = (s.luArg q j).toNat := rfl
/-- A queue of the ring that has passed a packet of n bytes. -/
def Passed (s : State) (q n : Nat) (t : State) : Prop :=
  let v := s.queue q
  let next := (v.rptr + n) % 2 ^ v.logsize
  t.mem = s.mem.writeN (v.qcb + 24) 8 (BitVec.ofNat 64 next).toNat ∧ (t.queue q).rptr = next ∧ (t.queue q).waiting = 0 ∧ t.procs = s.procs
section
variable {s t : State} {q : Nat} (h : PacketRead q s t) (hf : (s.queue q).frames = []) (hl : (s.queue q).loop = none)
include h hf hl
theorem PacketRead.passed (len : Nat) : Passed s q (8 * len) (t.finishPacket q len) := by
  obtain ⟨hm, hr, hw, hrest⟩ := State.finishPacket_leaves (h.frames.trans hf) (h.loop.trans hl) len
  rw [h.rptr, h.logsize] at hm hr
  rw [h.qcb, h.mem] at hm
  exact ⟨hm, hr, hw, ((congrArg State.procs hrest).trans rfl).trans h.procs⟩
end
/-- A WAIT whose condition holds passes; one whose condition does not hold waits. -/
theorem State.pollWait_cases {s : State} {q : Nat} {x : Word} (hx : s.luDword (s.luArg q 1).toNat = some x) :
    s.pollWait q = if waitHolds (s.body q 0 % 4) x (s.luArg q 3) (s.luArg q 2) then s.finishPacket q 4 else s.setQueue q { s.queue q with waiting := 1, lastPoll := s.dtime } := by
  unfold State.pollWait
  rw [State.body_eq s q 1, hx]
  dsimp only
  rw [State.body_eq s q 2, State.body_eq s q 3, BitVec.ofNat_toNat, BitVec.ofNat_toNat, BitVec.setWidth_eq, BitVec.setWidth_eq]

theorem State.queue_turned (s : State) (q k : Nat) : (s.turned q).queue k = s.queue k := rfl
/-- The LAUNCH of a queue has taken its number in the order of the rotation (R326). -/
def State.stamped (t : State) (q : Nat) : State := { (t.setQueue q { t.queue q with stamp := t.nextId }) with nextId := t.nextId + 1 }
theorem State.queue_stamped (t : State) (q : Nat) : (t.stamped q).queue q = { t.queue q with stamp := t.nextId } := State.queue_setQueue t q _
theorem State.mem_stamped (t : State) (q : Nat) : (t.stamped q).mem = t.mem := rfl
theorem State.mem_setQueue (t : State) (q : Nat) (v : Queue) : (t.setQueue q v).mem = t.mem := rfl
theorem State.mem_turned (t : State) (q : Nat) : (t.turned q).mem = t.mem := rfl
theorem State.launchPick_target {s : State} {q len c : Nat} (h : s.pickTarget q = .target c) :
    ∃ sh, s.launchPick q len = s.setQueue q { s.queue q with waiting := 3, target := c, share := sh } := by
  generalize hF : @State.launchPick = F
  delta State.launchPick at hF
  subst hF
  beta_reduce
  rw [h]
  exact ⟨_, rfl⟩
/-- A stamp changes nothing of what the checks of a LAUNCH give. -/
theorem State.pickTarget_stamped {t : State} {q : Nat} (hw : (t.queue q).waiting = 0) : (t.stamped q).pickTarget q = t.pickTarget q := by
  obtain ⟨u, hu⟩ : ∃ u, u = t.stamped q := ⟨_, rfl⟩
  have hq : u.queue q = { t.queue q with stamp := t.nextId } := hu ▸ State.queue_stamped t q
  rw [← hu]
  have hbody : ∀ j, u.body q j = t.body q j := fun j => by
    rw [State.body, State.body, State.packetDword, State.packetDword, hq, hu]
    rfl
  have hrec : u.launchRecord q = t.launchRecord q := by
    unfold State.launchRecord
    simp only [hbody, hq]
  have hcore : ∀ c, u.core c = t.core c := fun c => by rw [hu]; rfl
  have hdie : ∀ c, u.die c = t.die c := fun c => by rw [hu]; rfl
  have hadm : ∀ c b d, u.admits c b d = t.admits c b d := fun c b d => by
    have hsh : u.queues.filter (fun e => decide (e.2.waiting = 3 ∧ e.2.target = c)) = t.queues.filter (fun e => decide (e.2.waiting = 3 ∧ e.2.target = c)) := by
      rw [hu]
      refine Table.filter_set (d := Queue.reset) ?_ ?_
      · simp [hw]
      · rw [show Table.get t.queues Queue.reset q = t.queue q from rfl]
        simp [hw]
    have hshares : u.shares c = t.shares c := by
      rw [State.shares, State.shares, hsh, hu]
      rfl
    unfold State.admits
    rw [hshares, hdie]
  unfold State.pickTarget
  simp only [hq, hbody, hrec, hadm, hcore, hdie]

/-- The first argument of the packet is an address that the Launch Unit takes. -/
theorem luGood_first {s : State} {q : Nat} (hal : (s.luArg q 1).toNat % 8 = 0) (hgood : s.luAddr (s.luArg q 1).toNat = true) (n : Nat) :
    (s.fetchPacket q n).luGood ((s.fetchPacket q n).body q 1) = true := by
  have hread := packetRead_fetchPacket s q n
  rw [hread.body, hread.luGood, State.luGood, State.body_eq, hal, hgood]
  rfl
section
variable {s : State} {q : Nat} {h : Word} (hturn : s.luNext = some q) (hp : s.luTodo q = .packet h)
include hp
theorem State.luArg_header : s.luArg q 0 = h := by
  rw [State.luArg, (State.luTodo_packet hp).2.2]
  rfl
include hturn
theorem execNopPacket_passes (hf : (s.queue q).frames = []) (hl : (s.queue q).loop = none) (hop : pkOp h = 0) :
    ∃ t, execNopPacket q s = .next t ∧ Passed s q (8 * pkLen h) t ∧ t.luTurn = q + 1 :=
  ⟨_, packetRow_packet hturn hp hop _, (packetRead_fetchPacket s q _).passed hf hl _, rfl⟩
theorem execFetchfence_passes (hf : (s.queue q).frames = []) (hl : (s.queue q).loop = none) (hop : pkOp h = 6) :
    ∃ t, execFetchfence q s = .next t ∧ Passed s q 8 t ∧ t.luTurn = q + 1 ∧ (t.queue q).ahead = [] := by
  have hread := packetRead_fetchPacket s q (8 * pkLen h)
  have hrow : execFetchfence q s = _ := packetRow_packet hturn hp hop _
  dsimp only at hrow
  generalize s.fetchPacket q (8 * pkLen h) = t at hread hrow
  have hq : (t.setQueue q { t.queue q with ahead := [] }).queue q = { t.queue q with ahead := [] } := State.queue_setQueue _ _ _
  have hf2 : ((t.setQueue q { t.queue q with ahead := [] }).queue q).frames = [] := by
    rw [hq]
    exact hread.frames.trans hf
  have hl2 : ((t.setQueue q { t.queue q with ahead := [] }).queue q).loop = none := by
    rw [hq]
    exact hread.loop.trans hl
  obtain ⟨hm, hr, hw, hrest⟩ := State.finishPacket_leaves hf2 hl2 1
  rw [hq] at hm hr
  refine ⟨_, hrow, ⟨?_, ?_, hw, ((congrArg State.procs hrest).trans rfl).trans hread.procs⟩, rfl, ?_⟩
  · refine hm.trans ?_
    dsimp only
    rw [hread.rptr, hread.logsize, hread.qcb]
    exact congrArg (fun m : Memory => m.writeN _ 8 _) hread.mem
  · refine hr.trans ?_
    dsimp only
    rw [hread.rptr, hread.logsize]
  · change ((State.finishPacket _ q 1).queue q).ahead = []
    rw [State.finishPacket_root hf2 hl2]
    refine (congrArg Queue.ahead (State.queue_setQueue (t.setQueue q { t.queue q with ahead := [] }) q _)).trans ?_
    exact Queue.advance_ahead (by rw [hq]) 8
theorem execWait_decides {x : Word} (hop : pkOp h = 2) (hal : (s.luArg q 1).toNat % 8 = 0) (hgood : s.luAddr (s.luArg q 1).toNat = true) (hx : s.luDword (s.luArg q 1).toNat = some x) :
    execWait q s = .next ((if waitHolds (h.toNat % 4) x (s.luArg q 3) (s.luArg q 2) then (s.fetchPacket q (8 * pkLen h)).finishPacket q 4
      else (s.fetchPacket q (8 * pkLen h)).setQueue q { (s.fetchPacket q (8 * pkLen h)).queue q with waiting := 1, lastPoll := s.dtime }).turned q) := by
  have hread := packetRead_fetchPacket s q (8 * pkLen h)
  have harg : ∀ j, (s.fetchPacket q (8 * pkLen h)).luArg q j = s.luArg q j := fun j => by
    rw [State.luArg, State.packetDword, hread.bytes]
    rfl
  rw [execWait, packetRow_packet hturn hp hop, if_pos (luGood_first hal hgood _), State.pollWait_cases (x := x) (by rw [harg, hread.luDword]; exact hx), hread.body, harg, harg,
    State.body_eq, State.luArg_header hp, show (s.fetchPacket q (8 * pkLen h)).dtime = s.dtime from (congrArg State.dtime hread.rest).trans rfl]
theorem execWait_clause (hf : (s.queue q).frames = []) (hl : (s.queue q).loop = none) {x : Word} (hop : pkOp h = 2) (hal : (s.luArg q 1).toNat % 8 = 0) (hgood : s.luAddr (s.luArg q 1).toNat = true)
    (hx : s.luDword (s.luArg q 1).toNat = some x) :
    (waitHolds (h.toNat % 4) x (s.luArg q 3) (s.luArg q 2) = true → ∃ t, execWait q s = .next t ∧ Passed s q 32 t ∧ t.luTurn = q + 1) ∧
      (waitHolds (h.toNat % 4) x (s.luArg q 3) (s.luArg q 2) = false →
        ∃ t, execWait q s = .next t ∧ t.mem = s.mem ∧ (t.queue q).waiting = 1 ∧ (t.queue q).rptr = (s.queue q).rptr) := by
  have hrow := execWait_decides hturn hp hop hal hgood hx
  have hread := packetRead_fetchPacket s q (8 * pkLen h)
  generalize s.fetchPacket q (8 * pkLen h) = t at hread hrow
  refine ⟨fun hh => ?_, fun hh => ?_⟩
  · rw [if_pos hh] at hrow
    exact ⟨_, hrow, hread.passed hf hl 4, rfl⟩
  · rw [if_neg (by rw [hh]; decide)] at hrow
    refine ⟨_, hrow, ?_⟩
    rw [State.mem_turned, State.mem_setQueue, State.queue_turned, State.queue_setQueue]
    exact ⟨hread.mem, rfl, hread.rptr⟩
theorem execRelease_waits (hop : pkOp h = 3) (hal : (s.luArg q 1).toNat % 8 = 0) (hgood : s.luAddr (s.luArg q 1).toNat = true) :
    ∃ t, execRelease q s = .next t ∧ t.mem = s.mem ∧ (t.queue q).waiting = 2 ∧ (t.queue q).rptr = (s.queue q).rptr := by
  have hread := packetRead_fetchPacket s q (8 * pkLen h)
  have hrow : execRelease q s = .next (((s.fetchPacket q (8 * pkLen h)).setQueue q { (s.fetchPacket q (8 * pkLen h)).queue q with waiting := 2 }).turned q) := by
    rw [execRelease, packetRow_packet hturn hp hop, if_pos (luGood_first hal hgood _)]
  refine ⟨_, hrow, ?_⟩
  rw [State.mem_turned, State.mem_setQueue, State.queue_turned, State.queue_setQueue]
  exact ⟨hread.mem, rfl, hread.rptr⟩
theorem execIndirect_enters (hf : (s.queue q).frames = []) (hop : pkOp h = 4) (hal : (s.luArg q 1).toNat % 8 = 0) (hgood : s.luAddr (s.luArg q 1).toNat = true)
    (hn : (s.luArg q 2).toNat % 8 = 0) (h0 : s.luArg q 2 ≠ 0) :
    ∃ t, execIndirect q s = .next t ∧ t.mem = s.mem ∧ (t.queue q).frames = [((s.luArg q 1).toNat, (s.luArg q 1).toNat + (s.luArg q 2).toNat)] := by
  have hread := packetRead_fetchPacket s q (8 * pkLen h)
  have hgood1 := luGood_first hal hgood (8 * pkLen h)
  have hrow : execIndirect q s = _ := packetRow_packet hturn hp hop _
  dsimp only at hrow
  have hb2 : (s.fetchPacket q (8 * pkLen h)).body q 2 = (s.luArg q 2).toNat := hread.body 2
  have hb1 : (s.fetchPacket q (8 * pkLen h)).body q 1 = (s.luArg q 1).toNat := hread.body 1
  generalize s.fetchPacket q (8 * pkLen h) = t at hread hrow hgood1 hb1 hb2
  have hne : (s.luArg q 2).toNat ≠ 0 := fun h => h0 (BitVec.eq_of_toNat_eq h)
  rw [if_neg (by rw [hgood1, hb2]; simp [hn]), if_neg (by rw [hread.frames, hf]; decide), if_pos (by rw [hb2]; exact hne)] at hrow
  refine ⟨_, hrow, hread.mem, (congrArg Queue.frames (State.queue_setQueue t q _)).trans ?_⟩
  dsimp only
  rw [Queue.advance_root (hread.frames.trans hf), hb1, hb2]
  exact congrArg (fun l => _ :: l) (hread.frames.trans hf)
theorem execLoop_starts (hf : (s.queue q).frames = []) (hl : (s.queue q).loop = none) (hop : pkOp h = 5) :
    ∃ t, execLoop q s = .next t ∧ (t.queue q).loop = some (0, ((s.queue q).rptr + 8) % 2 ^ (s.queue q).logsize, h.toNat % 2 ^ 8, h.toNat % 2 ^ 8, h.toNat / 2 ^ 8 % 2 ^ 16) ∧
      (t.queue q).rptr = ((s.queue q).rptr + 8) % 2 ^ (s.queue q).logsize := by
  have hread := packetRead_fetchPacket s q (8 * pkLen h)
  have hrow : execLoop q s = _ := packetRow_packet hturn hp hop _
  dsimp only at hrow
  generalize s.fetchPacket q (8 * pkLen h) = t at hread hrow
  have hadv := Queue.advance_root (hread.frames.trans hf) 8
  have hfr : ((t.queue q).advance 8).frames = [] := by
    rw [hadv]
    exact hread.frames.trans hf
  have hrp : ((t.queue q).advance 8).rptr = ((s.queue q).rptr + 8) % 2 ^ (s.queue q).logsize := by
    rw [hadv, hread.rptr, hread.logsize]
  have hb : fld h.toNat 0 8 = h.toNat % 2 ^ 8 := by rw [fld, Nat.pow_zero, Nat.div_one]
  rw [if_neg (by rw [hread.loop, hl]; decide), if_neg (by rw [hfr]; decide), hfr, hrp, hb, State.luStore, if_pos (by rfl)] at hrow
  refine ⟨_, hrow, ?_, ?_⟩
  · exact congrArg Queue.loop (State.queue_setQueue t q _)
  · exact (congrArg Queue.rptr (State.queue_setQueue t q _)).trans rfl
theorem execLaunch_picks {c : Nat} (hop : pkOp h = 1) (hc : (s.fetchPacket q (8 * pkLen h)).pickTarget q = .target c) :
    ∃ t, execLaunch q s = .next t ∧ t.mem = s.mem ∧ (t.queue q).waiting = 3 ∧ (t.queue q).target = c ∧ (t.queue q).rptr = (s.queue q).rptr := by
  have hread := packetRead_fetchPacket s q (8 * pkLen h)
  have hdef : execLaunch q s = packetRow 1 q (fun h s => (s.stamped q).launchPick q (pkLen h)) s := rfl
  have hrow := hdef.trans (packetRow_packet hturn hp hop _)
  generalize s.fetchPacket q (8 * pkLen h) = t at hread hrow hc
  have hw : (t.queue q).waiting = 0 := ((congrArg Queue.waiting hread.queue).trans rfl).trans (State.luTodo_packet hp).2.1
  obtain ⟨sh, hsh⟩ := State.launchPick_target (len := pkLen h) ((State.pickTarget_stamped hw).trans hc)
  rw [hsh] at hrow
  refine ⟨_, hrow, ?_⟩
  rw [State.mem_turned, State.mem_setQueue, State.mem_stamped, State.queue_turned, State.queue_setQueue, State.queue_stamped]
  exact ⟨hread.mem, rfl, rfl, hread.rptr⟩
end

/-- The condition of a WAIT (R324). -/
theorem waitHolds_iff {n : Nat} (hn : n < 4) (x mask value : Word) : waitHolds n x mask value = true ↔
    (n = 0 ∧ (x &&& mask).toNat = value.toNat) ∨ (n = 1 ∧ (x &&& mask).toNat ≠ value.toNat) ∨ (n = 2 ∧ value.toNat ≤ (x &&& mask).toNat) ∨ (n = 3 ∧ (x &&& mask).toNat < value.toNat) := by
  unfold waitHolds
  dsimp only
  generalize x &&& mask = y
  have h4 : n = 0 ∨ n = 1 ∨ n = 2 ∨ n = 3 := by omega
  rcases h4 with rfl | rfl | rfl | rfl <;> simp [BitVec.toNat_inj]

/-! ## Waiting packets -/
theorem execWaitPoll_passes {s : State} {q : Nat} {x : Word} (hw : (s.queue q).waiting = 1)
    (hx : s.luDword (s.luArg q 1).toNat = some x) (hc : (s.luArg q 0).toNat % 4 = 0) (heq : x &&& s.luArg q 3 = s.luArg q 2) :
    execWaitPoll q s = .next (s.finishPacket q 4) := by
  rw [execWaitPoll, if_pos hw, State.pollWait_cases hx, State.body_eq, if_pos]
  rw [waitHolds_iff (by omega)]
  exact .inl ⟨hc, congrArg _ heq⟩
theorem execReleasePerform_stores {s : State} {q : Nat} (hw : (s.queue q).waiting = 2) (hno : ∀ f ∈ s.flights, f.queue ≠ q) (hmig : s.migs = []) (hlend : s.lendsHbm = []) :
    execReleasePerform q s = .next ((s.luWrite (s.luArg q 1).toNat (s.luArg q 2)).finishPacket q 3) := by
  have hfl : s.flights.any (fun f => decide (f.queue = q)) = false := by
    rw [List.any_eq_false]
    exact fun f hf => by simpa using hno f hf
  have hm : s.migrating (s.body q 1) = false := by
    rw [State.migrating, hmig, List.any_nil, Bool.and_false]
  have hh : s.hbmLent (s.body q 1) 8 = false := by
    rw [State.hbmLent, hlend, List.any_nil]
  unfold execReleasePerform
  dsimp only
  rw [if_neg (by simp [hw, hfl, hm, hh]), State.body_eq, State.body_eq, BitVec.ofNat_toNat, BitVec.setWidth_eq]

/-- The inbox slot that the LAUNCH of a queue writes (R325). -/
def State.launched (s : State) (q : Nat) : Inbox :=
  let v := s.queue q
  let r := s.launchRecord q
  let x : Ctx := ⟨v.target, v.tenant, decide (recPrio r = 3), s.modid, [], 0, none, none⟩
  ⟨r, false, s.nextId, s.nextId, ((recRanges r).flatMap (fun y => s.extentsOf x y)).take 8⟩
/-- The LAUNCH of a queue is in flight, and its record in inbox slot i of its target (R325, R326). -/
def State.launchTo (s : State) (q i : Nat) : State :=
  let v := s.queue q
  let r := s.launchRecord q
  ({ s with nextId := s.nextId + 1, flights := s.flights ++ [⟨s.nextId, q, v.target, v.tenant, recBytes r, v.share⟩] } : State).modCore v.target
    (fun k => { k with inbox := k.inbox.set i (s.launched q) })
theorem execLaunchRecordWrite_writes {s : State} {q i : Nat} {l : List Nat} (hw : (s.queue q).waiting = 3) (hfree : (s.core (s.queue q).target).inboxFree (s.queue q).target = i :: l)
    (hroom : s.flights.length < 4096) (hno : ∀ f ∈ s.flights, f.clashes (s.queue q).tenant (recBytes (s.launchRecord q)) = false) (hbefore : s.launchBefore q = false)
    (hserv : (s.die (dieOfCore (s.queue q).target)).inService = true) :
    execLaunchRecordWrite q s = .next ((s.launchTo q i).finishPacket q (if (s.queue q).share.isSome then 11 else 9)) := by
  have hfl : s.flights.any (fun f => f.clashes (s.queue q).tenant (recBytes (s.launchRecord q))) = false := by
    rw [List.any_eq_false]
    exact fun f hf => by rw [hno f hf]; decide
  unfold execLaunchRecordWrite
  dsimp only
  rw [if_neg (by rw [hw]; decide), if_neg (by rw [hw]; decide), hfree]
  dsimp only
  rw [if_neg (by rw [hfl, hbefore, hserv]; simpa using hroom)]
  rfl
section
variable (s : State) (q : Nat)
theorem State.launchRecord_length : (s.launchRecord q).length = 8 := by
  rw [State.launchRecord, List.length_map, List.length_range]
theorem State.launchRecord_getD {j : Nat} (hj : j < 7) : (s.launchRecord q).getD (j + 1) 0 = s.luArg q (j + 2) := by
  have hidx : 1 + (j + 1) = j + 2 := by omega
  rw [State.launchRecord, List.getD_eq_getElem?_getD, List.getElem?_map, List.getElem?_range (by omega), Option.map_some, Option.getD_some]
  dsimp only
  rw [if_neg (Nat.succ_ne_zero j), hidx, State.body_eq, BitVec.ofNat_toNat, BitVec.setWidth_eq]
/-- The tenant of the queue stands for the address space of the record. -/
theorem State.recAsid_launchRecord (ht : (s.queue q).tenant < 2 ^ 6) : recAsid (s.launchRecord q) = (s.queue q).tenant := by
  have hd := (s.luArg q 1).isLt
  have h0 : (s.launchRecord q).getD 0 0 = BitVec.ofNat 64 ((s.luArg q 1).toNat - fld (s.luArg q 1).toNat 50 6 * 2 ^ 50 + (s.queue q).tenant * 2 ^ 50) := rfl
  rw [recAsid, h0, BitVec.toNat_ofNat]
  unfold fld
  omega
end

/-- The record of a LAUNCH stands in the inbox slot that it took, with the number of its flight. -/
theorem State.launchTo_stands {s : State} {q i : Nat} {l : List Nat} (hfree : (s.core (s.queue q).target).inboxFree (s.queue q).target = i :: l) :
    ∃ (f : Flight) (b : Inbox), (s.launchTo q i).flights = s.flights ++ [f] ∧ f.queue = q ∧ f.core = (s.queue q).target ∧ f.asid = (s.queue q).tenant ∧
      ((s.launchTo q i).core (s.queue q).target).inbox.find? (fun e => decide (e.1 = i)) = some (i, b) ∧ b.event = false ∧ b.task = f.id ∧ b.record = s.launchRecord q := by
  have hempty : ∀ e ∈ (s.core (s.queue q).target).inbox, e.1 ≠ i := by
    have hin : i ∈ (s.core (s.queue q).target).inboxFree (s.queue q).target := hfree ▸ List.mem_cons_self
    exact fun e he => by simpa using List.all_eq_true.mp (List.mem_filter.mp hin).2 e he
  refine ⟨_, s.launched q, rfl, rfl, rfl, rfl, ?_, rfl, rfl, rfl⟩
  rw [State.launchTo, State.core_modCore_same]
  exact Table.find?_set_same _ _ _ hempty
theorem State.queue_launchTo (s : State) (q i k : Nat) : (s.launchTo q i).queue k = s.queue k := rfl

/-! ## Doorbells and arming -/
section
variable {s : State} {q : Nat} {x : Word} (harm : (s.queue q).armed = true) (hrun : (s.queue q).halted = false) (hx : s.luDword ((s.queue q).qcb + 16) = some x) (hlt : x.toNat < 2 ^ 32)
include harm hrun hx hlt
/-- A doorbell of a queue that runs reads WPTR and compares it with its ring. -/
theorem State.doorbell_reads : s.doorbell q = if x.toNat % 8 ≠ 0 ∨ 2 ^ (s.queue q).logsize ≤ x.toNat then s.haltQueue q 7
    else if (s.queue q).waiting = 1 then (s.setQueue q { s.queue q with wptr := x.toNat }).pollWait q else s.setQueue q { s.queue q with wptr := x.toNat } := by
  have h0 : fld x.toNat 0 32 = x.toNat := by
    unfold fld
    omega
  have h32 : fld x.toNat 32 32 = 0 := by
    unfold fld
    omega
  unfold State.doorbell
  dsimp only
  rw [harm, hrun, if_neg (by decide), hx]
  dsimp only
  rw [h0, h32, if_neg (by decide)]
end
section
variable {s : State} {v d0 d1 : Word} (hidle : (s.queue (v.toNat / 2 ^ 56 % 2 ^ 8)).inProgress = false) (hal : v.toNat % 2 ^ 56 % 64 = 0)
  (h0 : s.luDword (v.toNat % 2 ^ 56) = some d0) (h1 : s.luDword (v.toNat % 2 ^ 56 + 8) = some d1)
include hidle hal h0 h1
/-- A LUARM write for a queue without a packet in progress arms it from its control block (R319). -/
theorem execLuarm_arms {u : State} {n : Nat} (harm : s.arm (v.toNat / 2 ^ 56 % 2 ^ 8) (v.toNat % 2 ^ 56) d0 d1 = (u, n)) :
    ∃ t, execLuarm v s = .next t ∧ t.mem = u.mem ∧ t.luarm = BitVec.ofNat 64 n ∧ ∀ q, t.queue q = u.queue q := by
  have hq : fld v.toNat 0 56 = v.toNat % 2 ^ 56 := by rw [fld, Nat.pow_zero, Nat.div_one]
  have hn : fld v.toNat 56 8 = v.toNat / 2 ^ 56 % 2 ^ 8 := rfl
  rw [execLuarm, hn, hidle, if_neg (by decide), State.luarmWrite]
  dsimp only
  rw [hq, hn, if_neg (by rw [hal]; decide), h0, h1]
  dsimp only
  rw [harm]
  exact ⟨_, rfl, rfl, rfl, fun _ => rfl⟩
end
/-- The queue of a control block that arms it (R318). -/
def armedQueue (qcb : Nat) (d0 d1 : Word) : Queue :=
  { Queue.reset with
    armed := true, qcb := qcb, base := fld d0.toNat 12 40 * 2 ^ 12, logsize := fld d0.toNat 0 5, vec := fld d1.toNat 32 8, dies := fld d1.toNat 24 4, prioCap := fld d1.toNat 14 2
    tenant := fld d1.toNat 8 6, owner := fld d1.toNat 2 6 }
theorem State.arm_size0 (s : State) (q qcb : Nat) {d0 : Word} (d1 : Word) (h : fld d0.toNat 0 5 = 0) : s.arm q qcb d0 d1 = (s.setQueue q Queue.reset, 0) := by
  rw [State.arm]
  dsimp only
  rw [if_pos h]
theorem State.arm_good (s : State) (q qcb : Nat) {d0 d1 : Word} (hres : qcbReserved d0 d1 = false) (hlo : 12 ≤ fld d0.toNat 0 5) (hhi : fld d0.toNat 0 5 ≤ 20)
    (hplace : placeOf (fld d0.toNat 12 40 * 2 ^ 12) = .host ∨ placeOf (fld d0.toNat 12 40 * 2 ^ 12) = .hbm) (hdies : fld d1.toNat 24 4 ≠ 0) (hown : fld d1.toNat 2 6 = fld d1.toNat 8 6) :
    s.arm q qcb d0 d1 = (((s.setQueue q (armedQueue qcb d0 d1)).luWrite (qcb + 24) 0).luWrite (qcb + 32) 0, 1) := by
  rw [State.arm]
  dsimp only
  rw [if_neg (by omega), if_neg, if_neg (fun h => h.1 hown)]
  · rfl
  · rintro (h | h | h | ⟨h, h'⟩ | h)
    · rw [hres] at h
      exact absurd h (by decide)
    · omega
    · omega
    · exact hplace.elim h h'
    · exact hdies h
theorem State.queue_armed (s : State) (q qcb : Nat) (d0 d1 : Word) : ((((s.setQueue q (armedQueue qcb d0 d1)).luWrite (qcb + 24) 0).luWrite (qcb + 32) 0).queue q) = armedQueue qcb d0 d1 := by
  rw [State.queue_luWrite, State.queue_luWrite, State.queue_setQueue]

/-! ## Preemption of a die -/
/-- What holds of every entry of a table, and of an absent one, holds at every key. -/
theorem Table.get_all {α : Type} {P : α → Prop} {d : α} : ∀ {t : Table α}, (∀ e ∈ t, P e.2) → P d → ∀ k, P (t.get d k)
  | [], _, hd, _ => hd
  | e :: r, h, hd, k => by
    rw [Table.get]
    by_cases hk : e.1 = k
    · rw [if_pos hk]
      exact h e List.mem_cons_self
    · rw [if_neg hk]
      exact Table.get_all (fun x hx => h x (List.mem_cons_of_mem _ hx)) hd k
/-- A function over every core of a list gives what it makes true of each. -/
theorem State.foldl_modCore (f : Core → Core) (cs : List Nat) (s : State) : (cs.foldl (fun s c => s.modCore c f) s).mem = s.mem ∧ (cs.foldl (fun s c => s.modCore c f) s).procs = s.procs := by
  induction cs generalizing s with
  | nil => exact ⟨rfl, rfl⟩
  | cons c cs ih => exact ih (s.modCore c f)
theorem State.foldl_modCore_core {P : Core → Prop} {f : Core → Core} (hf : ∀ k, P (f k)) {c : Nat} (cs : List Nat) (s : State) (h : c ∈ cs ∨ P (s.core c)) :
    P ((cs.foldl (fun s c => s.modCore c f) s).core c) := by
  induction cs generalizing s with
  | nil => exact h.resolve_left List.not_mem_nil
  | cons d cs ih =>
    refine ih (s.modCore d f) ?_
    by_cases hd : c = d
    · subst hd
      rw [State.core_modCore_same]
      exact .inr (hf _)
    · rw [State.core_modCore_other _ _ hd]
      exact h.imp_left (fun hm => (List.mem_cons.mp hm).resolve_left hd)
/-- A core that a halt command names: halted already, or about to be. -/
def Core.stop (k : Core) : Core := if k.halted then k else { k with halting := true }
theorem Core.stop_stops (k : Core) : k.stop.halted = true ∨ k.stop.halting = true := by
  unfold Core.stop
  by_cases h : k.halted = true
  · rw [if_pos h]
    exact .inl h
  · rw [if_neg h]
    exact .inr rfl
/-- Where nothing runs ahead of a fault, a halt command stops its cores and does no more. -/
theorem State.halt_still {s : State} (h : ∀ pk, (s.proc pk).ahead = none) (d : Nat) (cs : List Nat) :
    s.halt d cs = (cs.foldl (fun s c => s.modCore c Core.stop) s).modDie d (fun v => { v with haltCores := (v.haltCores ++ cs.filter (fun c => !(s.core c).halted)).dedup }) := by
  have hfold : ∀ (cs : List Nat) (t : State), t.procs = s.procs → cs.foldl (fun s c => ((s.core c).slots.map (fun pid => c * 256 + pid)).foldl State.endAhead
      (s.modCore c (fun k => if k.halted then k else { k with halting := true }))) t = cs.foldl (fun s c => s.modCore c Core.stop) t := by
    intro cs
    induction cs with
    | nil => exact fun _ _ => rfl
    | cons c cs ih =>
      intro t ht
      rw [List.foldl_cons, List.foldl_cons, endAhead_none]
      · exact ih (t.modCore c Core.stop) ht
      · intro k _
        exact (congrArg Proc.ahead (congrArg (fun l : Table Proc => l.get Proc.reset k) ht)).trans (h k)
  rw [State.halt, hfold cs s rfl]
/-- A HALTCTL write names its core, and is not ignored. -/
theorem haltNames_mem {d i : Nat} {v : Word} (hi : i < 384) (hname : v.getLsbD 11 = true ∨ v.toNat % 2 ^ 9 = i) : d * 384 + i ∈ haltNames d v ∧ haltIgnored v = false := by
  have hlow : fld v.toNat 0 9 = v.toNat % 2 ^ 9 := by rw [fld, Nat.pow_zero, Nat.div_one]
  rw [haltNames, haltIgnored, hlow]
  by_cases hall : v.getLsbD 11 = true
  · rw [if_pos hall, hall]
    exact ⟨List.mem_map.mpr ⟨i, List.mem_range.mpr hi, rfl⟩, rfl⟩
  · rw [if_neg hall, hname.resolve_left hall, decide_eq_false (by omega), Bool.and_false]
    exact ⟨List.mem_singleton_self _, rfl⟩
section
variable {s : State} {d i : Nat} {v : Word} (hi : i < 384) (hname : v.getLsbD 11 = true ∨ v.toNat % 2 ^ 9 = i)
include hi hname
theorem State.haltctl_resumes (h10 : v.getLsbD 10 = true) : (s.haltctl d v).mem = s.mem ∧ (s.haltctl d v).procs = s.procs ∧
    ((s.haltctl d v).core (d * 384 + i)).halted = false ∧ ((s.haltctl d v).core (d * 384 + i)).halting = false := by
  obtain ⟨hmem, hnot⟩ := haltNames_mem (d := d) hi hname
  rw [State.haltctl, if_neg (by rw [hnot]; decide)]
  generalize ht : s.modDie d (fun x => { x with haltReg := v &&& 0xDFF#64 }) = t
  have hm : t.mem = s.mem := ht ▸ rfl
  have hp : t.procs = s.procs := ht ▸ rfl
  dsimp only
  obtain ⟨h1, h2⟩ := State.foldl_modCore (fun k => { k with halted := false, halting := false }) (haltNames d v) t
  rw [if_pos h10, State.resumeCores]
  exact ⟨h1.trans hm, h2.trans hp, State.foldl_modCore_core (P := fun k => k.halted = false ∧ k.halting = false) (fun _ => ⟨rfl, rfl⟩) (haltNames d v) t (.inl hmem)⟩
/-- Where nothing runs ahead of a fault. -/
theorem State.haltctl_halts (h10 : v.getLsbD 10 = false) (h : ∀ pk, (s.proc pk).ahead = none) : (s.haltctl d v).mem = s.mem ∧ (s.haltctl d v).procs = s.procs ∧
    (((s.haltctl d v).core (d * 384 + i)).halted = true ∨ ((s.haltctl d v).core (d * 384 + i)).halting = true) := by
  obtain ⟨hmem, hnot⟩ := haltNames_mem (d := d) hi hname
  rw [State.haltctl, if_neg (by rw [hnot]; decide)]
  generalize ht : s.modDie d (fun x => { x with haltReg := v &&& 0xDFF#64 }) = t
  have hm : t.mem = s.mem := ht ▸ rfl
  have hp : t.procs = s.procs := ht ▸ rfl
  dsimp only
  obtain ⟨h1, h2⟩ := State.foldl_modCore Core.stop (haltNames d v) t
  rw [if_neg (by rw [h10]; decide), State.halt_still (fun pk => (congrArg Proc.ahead (congrArg (fun l : Table Proc => l.get Proc.reset pk) hp)).trans (h pk))]
  exact ⟨h1.trans hm, h2.trans hp, State.foldl_modCore_core (P := fun k => k.halted = true ∨ k.halting = true) Core.stop_stops (haltNames d v) t (.inl hmem)⟩
end
/-- A LUPREEMPT write that names one die stops or resumes the cores that it names there (R317). -/
theorem execLupreempt_stops {s : State} (h : ∀ pk, (s.proc pk).ahead = none) {v : Word} {i : Nat} (hi : i < 384) (h14 : v.getLsbD 14 = false) (hname : v.getLsbD 11 = true ∨ v.toNat % 2 ^ 9 = i) :
    ∃ t, execLupreempt v s = .next t ∧ t.mem = s.mem ∧ t.procs = s.procs ∧
      (if v.getLsbD 10 then (t.core (v.toNat / 2 ^ 12 % 2 ^ 2 * 384 + i)).halted = false ∧ (t.core (v.toNat / 2 ^ 12 % 2 ^ 2 * 384 + i)).halting = false
        else (t.core (v.toNat / 2 ^ 12 % 2 ^ 2 * 384 + i)).halted = true ∨ (t.core (v.toNat / 2 ^ 12 % 2 ^ 2 * 384 + i)).halting = true) := by
  have h10 : (v &&& 0xDFF#64).getLsbD 10 = v.getLsbD 10 := by simp
  have h11 : (v &&& 0xDFF#64).getLsbD 11 = v.getLsbD 11 := by simp
  have hlow : (v &&& 0xDFF#64).toNat % 2 ^ 9 = v.toNat % 2 ^ 9 := by
    rw [BitVec.toNat_and, ← Nat.and_two_pow_sub_one_eq_mod, ← Nat.and_two_pow_sub_one_eq_mod, Nat.and_assoc]
    rfl
  have hx : execLupreempt v s = .next (s.haltctl (v.toNat / 2 ^ 12 % 2 ^ 2) (v &&& 0xDFF#64)) := by
    rw [execLupreempt, State.lupreempt, h14]
    rfl
  refine ⟨_, hx, ?_⟩
  rw [← h11, ← hlow] at hname
  by_cases hb : v.getLsbD 10 = true
  · rw [if_pos hb]
    exact State.haltctl_resumes hi hname (h10.trans hb)
  · rw [if_neg hb]
    exact State.haltctl_halts hi hname (h10.trans (Bool.eq_false_iff.mpr hb)) h

/-! ## The clauses -/
/-- A queue with no packet around its own serves the packet of its turn. -/
theorem launchRows_packets (s : State) (q : Nat) (h : Word) :
    let v := s.queue q
    let arg (j : Nat) : Word := (s.packetDword v j).getD 0
    let next (n : Nat) : Nat := (v.rptr + n) % 2 ^ v.logsize
    let passes (t : State) (n : Nat) : Prop := t.mem = s.mem.writeN (v.qcb + 24) 8 (BitVec.ofNat 64 (next n)).toNat ∧ (t.queue q).rptr = next n ∧ (t.queue q).waiting = 0 ∧
      t.procs = s.procs ∧ t.luTurn = q + 1
    s.luNext = some q → v.frames = [] → v.loop = none →
      (∀ c, s.luTodo q = .halt c → ∃ t, exec (.nopPacket q) s = .next t ∧ (t.queue q).halted = true ∧ (t.queue q).code = c ∧ v.vec ∈ t.raised) ∧
      (s.luTodo q = .packet h →
        (pkOp h = 0 → ∃ t, exec (.nopPacket q) s = .next t ∧ passes t (8 * pkLen h)) ∧
        (pkOp h = 1 → ∀ c, (s.fetchPacket q (8 * pkLen h)).pickTarget q = .target c →
          ∃ t, exec (.launch q) s = .next t ∧ t.mem = s.mem ∧ (t.queue q).waiting = 3 ∧ (t.queue q).target = c ∧ (t.queue q).rptr = v.rptr) ∧
        (pkOp h = 2 → (arg 1).toNat % 8 = 0 → s.luAddr (arg 1).toNat = true → ∀ x, s.luDword (arg 1).toNat = some x →
          let y := (x &&& arg 3).toNat
          let holds : Prop := (h.toNat % 4 = 0 ∧ y = (arg 2).toNat) ∨ (h.toNat % 4 = 1 ∧ y ≠ (arg 2).toNat) ∨ (h.toNat % 4 = 2 ∧ (arg 2).toNat ≤ y) ∨ (h.toNat % 4 = 3 ∧ y < (arg 2).toNat)
          (holds → ∃ t, exec (.wait q) s = .next t ∧ passes t 32) ∧
          (¬ holds → ∃ t, exec (.wait q) s = .next t ∧ t.mem = s.mem ∧ (t.queue q).waiting = 1 ∧ (t.queue q).rptr = v.rptr)) ∧
        (pkOp h = 3 → (arg 1).toNat % 8 = 0 → s.luAddr (arg 1).toNat = true →
          ∃ t, exec (.release q) s = .next t ∧ t.mem = s.mem ∧ (t.queue q).waiting = 2 ∧ (t.queue q).rptr = v.rptr) ∧
        (pkOp h = 4 → (arg 1).toNat % 8 = 0 → s.luAddr (arg 1).toNat = true → (arg 2).toNat % 8 = 0 → arg 2 ≠ 0 →
          ∃ t, exec (.indirect q) s = .next t ∧ t.mem = s.mem ∧ (t.queue q).frames = [((arg 1).toNat, (arg 1).toNat + (arg 2).toNat)]) ∧
        (pkOp h = 5 → ∃ t, exec (.loop q) s = .next t ∧ (t.queue q).loop = some (0, next 8, h.toNat % 2 ^ 8, h.toNat % 2 ^ 8, h.toNat / 2 ^ 8 % 2 ^ 16) ∧ (t.queue q).rptr = next 8) ∧
        (pkOp h = 6 → ∃ t, exec (.fetchfence q) s = .next t ∧ passes t 8 ∧ (t.queue q).ahead = [])) := by
  intro v arg next passes hturn hf hl
  have hpasses : ∀ {t n}, Passed s q n t → t.luTurn = q + 1 → passes t n := fun h ht => by
    obtain ⟨h1, h2, h3, h4⟩ := h
    exact ⟨h1, h2, h3, h4, ht⟩
  refine ⟨fun c hc => ?_, fun hp => ⟨fun hop => ?_, fun hop c hc => execLaunch_picks hturn hp hop hc, ?_, fun hop hal hgood => execRelease_waits hturn hp hop hal hgood,
    fun hop hal hgood hn h0 => execIndirect_enters hturn hp hf hop hal hgood hn h0, fun hop => execLoop_starts hturn hp hf hl hop, fun hop => ?_⟩⟩
  · obtain ⟨h1, h2, h3⟩ := State.haltQueue_halts s q c
    have hx : execNopPacket q s = .next ((s.haltQueue q c).turned q) := packetRow_halt hturn hc 0 _
    refine ⟨_, hx, ?_⟩
    rw [State.queue_turned]
    exact ⟨h1, h2, h3⟩
  · obtain ⟨t, hx, hpass, ht⟩ := execNopPacket_passes hturn hp hf hl hop
    exact ⟨t, hx, hpasses hpass ht⟩
  · intro hop hal hgood x hx y holds
    obtain ⟨hpass, hwait⟩ := execWait_clause hturn hp hf hl hop hal hgood hx
    have hiff : waitHolds (h.toNat % 4) x (s.luArg q 3) (s.luArg q 2) = true ↔ holds := waitHolds_iff (Nat.mod_lt _ (by decide)) _ _ _
    refine ⟨fun hh => ?_, fun hh => hwait (Bool.eq_false_iff.mpr fun h => hh (hiff.mp h))⟩
    obtain ⟨t, hx, hpass, ht⟩ := hpass (hiff.mpr hh)
    exact ⟨t, hx, hpasses hpass ht⟩
  · obtain ⟨t, hx, hpass, ht, ha⟩ := execFetchfence_passes hturn hp hf hl hop
    exact ⟨t, hx, hpasses hpass ht, ha⟩
/-- Packets that wait: the poll of a WAIT, the store of a RELEASE and the record of a LAUNCH. -/
theorem launchRecordWrite_clause (s : State) (q : Nat) (hf : (s.queue q).frames = []) (hl : (s.queue q).loop = none) {i : Nat} {l : List Nat} (hw : (s.queue q).waiting = 3)
    (hfree : (s.core (s.queue q).target).inboxFree (s.queue q).target = i :: l) (hroom : s.flights.length < 4096)
    (hno : ∀ f ∈ s.flights, f.clashes (s.queue q).tenant (recBytes (s.launchRecord q)) = false) (hbefore : s.launchBefore q = false) (hserv : (s.die (dieOfCore (s.queue q).target)).inService = true) :
    ∃ (t : State) (f : Flight) (b : Inbox), execLaunchRecordWrite q s = .next t ∧ t.flights = s.flights ++ [f] ∧ f.queue = q ∧ f.core = (s.queue q).target ∧ f.asid = (s.queue q).tenant ∧
      (t.queue q).waiting = 0 ∧ (t.core (s.queue q).target).inbox.find? (fun e => decide (e.1 = i)) = some (i, b) ∧ b.event = false ∧ b.task = f.id ∧ b.record.length = 8 ∧
      ((s.queue q).tenant < 2 ^ 6 → recAsid b.record = (s.queue q).tenant) ∧ ∀ j < 7, b.record.getD (j + 1) 0 = s.luArg q (j + 2) := by
  have hx := execLaunchRecordWrite_writes hw hfree hroom hno hbefore hserv
  obtain ⟨f, b, h1, h2, h3, h4, h5, h6, h7, h8⟩ := State.launchTo_stands hfree
  have hq := State.queue_launchTo s q i q
  obtain ⟨-, -, hwt, hrest⟩ := State.finishPacket_leaves (s := s.launchTo q i) (q := q) (hq ▸ hf) (hq ▸ hl) (if (s.queue q).share.isSome then 11 else 9)
  generalize s.launchTo q i = u at hx h1 h5 hwt hrest
  refine ⟨_, f, b, hx, ((congrArg State.flights hrest).trans rfl).trans h1, h2, h3, h4, hwt, ?_, h6, h7, ?_, fun ht => ?_, fun j hj => ?_⟩
  · exact ((congrArg (fun t : State => (t.core (s.queue q).target).inbox.find? (fun e => decide (e.1 = i))) hrest).trans rfl).trans h5
  · rw [h8, State.launchRecord_length]
  · rw [h8, State.recAsid_launchRecord s q ht]
  · rw [h8, State.launchRecord_getD s q hj]

/-- Settles O49: each packet by the row that its queue's turn gives it, each wait by what ends it; a LUPREEMPT through the HALTCTL of its one die. -/
theorem launchRows : Obligations.LaunchRows := by
  unfold Obligations.LaunchRows
  refine ⟨launchRows_packets, ?_, ?_, ?_, ?_, ?_⟩
  · intro s q v arg next hf hl
    refine ⟨fun hw x hx hc heq => ?_, fun hw hno hmig hlend => ?_, fun i l hw hfree hroom hno hbefore hserv => launchRecordWrite_clause s q hf hl hw hfree hroom hno hbefore hserv, fun hw hbefore => ?_⟩
    · obtain ⟨hm, hr, hwt, -⟩ := State.finishPacket_leaves hf hl 4
      exact ⟨_, execWaitPoll_passes hw hx hc heq, hm, hr, hwt⟩
    · obtain ⟨hm, hr, hwt, -⟩ := State.finishPacket_leaves (s := s.luWrite (s.luArg q 1).toNat (s.luArg q 2)) (q := q) hf hl 3
      exact ⟨_, execReleasePerform_stores hw hno hmig hlend, hr, hwt, hm⟩
    · show execLaunchRecordWrite q s = _
      unfold execLaunchRecordWrite
      dsimp only
      rw [if_neg (by rw [show (s.queue q).waiting = 3 from hw]; decide), if_neg (by rw [show (s.queue q).waiting = 3 from hw]; decide)]
      cases (s.core (s.queue q).target).inboxFree (s.queue q).target with
      | nil => rfl
      | cons i l => exact congrArg Host.Outcome.next (if_pos (.inr (.inr (.inl hbefore))))
  · intro s q x v harm hrun hx hlt
    have hrow : execDoorbell q s = .next (s.doorbell q) := rfl
    rw [State.doorbell_reads harm hrun hx hlt] at hrow
    refine ⟨fun h8 hsize hw => hrow.trans ?_, fun hbad => ⟨_, hrow, ?_⟩⟩
    · rw [if_neg (by have h : 2 ^ (s.queue q).logsize > x.toNat := hsize; omega), if_neg hw]
    · rw [if_pos hbad]
      exact State.haltQueue_halts s q 7
  · intro s v d0 d1 q qcb hidle hal h0 h1
    have hsize : fld d0.toNat 0 5 = d0.toNat % 2 ^ 5 := by rw [fld, Nat.pow_zero, Nat.div_one]
    refine ⟨fun hz => ?_, fun hres hlo hhi hplace hdies hown => ?_⟩
    · obtain ⟨t, hx, hm, hl, hq⟩ := execLuarm_arms hidle hal h0 h1 (s.arm_size0 _ _ d1 (hsize.trans hz))
      refine ⟨t, hx, hm, hl, ?_⟩
      rw [hq, State.queue_setQueue]
      rfl
    · obtain ⟨t, hx, -, hl, hq⟩ := execLuarm_arms hidle hal h0 h1 (s.arm_good _ _ hres (hsize ▸ hlo) (hsize ▸ hhi) hplace hdies hown)
      have hq := (hq q).trans (s.queue_armed q qcb d0 d1)
      exact ⟨t, hx, hl, congrArg Queue.armed hq, congrArg Queue.qcb hq, congrArg Queue.base hq, (congrArg Queue.logsize hq).trans hsize, congrArg Queue.rptr hq⟩
  · intro s v i hahead hi h14 hname c
    refine execLupreempt_stops (fun pk => ?_) hi h14 hname
    exact Table.get_all (P := fun p : Proc => p.ahead = none) hahead rfl pk
  · intro s id task from_ to_ h hin
    show execTaskExitReport id s = _
    unfold execTaskExitReport
    rw [hin]
    rfl
end Sys2Proof.Machine
end

section
/-! Counterexample to the statement about the steps of the scheduler (R272, R279): a core's slot may name a pid past the last, whose process is one of the next core, and where that
core's HOLD is set a context switch puts it out, whatever the decision says. -/
set_option Elab.async false
namespace Sys2Proof.Machine
open Sys2Proof Sys2Proof.Safety Sys2Proof.Tests

/-- Process 0 of core 0 is READY, a slot of core 0 names pid 256, and core 1 holds. -/
def wPastLast : State := { State.reset with
  cores := [(0, { Core.reset with slots := [256], queues := [[0], [], [], []] }), (1, { Core.reset with hold := true })]
  procs := [(0, { Proc.reset with state := .ready })] }
/-- The decision is that process 0 takes a free slot; the context switch leaves it READY. -/
theorem wPastLast_stays : wPastLast.decision 0 = some (1, 0, 0) ∧ ((after (exec (.contextSwitch 0) wPastLast)).proc 0).state = .ready := ⟨holds, holds⟩

/-- Refutes O46: in `wPastLast`, whose core 0 does not hold, the decision does not take effect. -/
theorem not_processRows : ¬ Obligations.ProcessRows := by
  unfold Obligations.ProcessRows
  intro h
  obtain ⟨hdecision, hstays⟩ := wPastLast_stays
  obtain ⟨t, ht, hrun, -⟩ := (h.2.1 wPastLast 0 1 0 0 hdecision holds holds holds).1 (.inl rfl) holds
  rw [ht, after, hrun] at hstays
  exact absurd hstays holds
end Sys2Proof.Machine
end

section
/-! Proofs about table walks, shoot-downs and the migration of pages (R62, R65 to R71). -/
set_option Elab.async false
namespace Sys2Proof.Machine
open Sys2Proof Sys2Proof.Safety

/-! ## A walk (R62, R65) -/
section
variable {s : State} (hstruck : s.struck = []) (hmigs : s.migs = [])
include hstruck hmigs
/-- The entry at which a walk stands is at hand: what the walk does is what its fields say. -/
theorem State.walkFrom_reads (c : Ctx) {va lvl table a e : Nat} (fuel : Nat) (ha : table + fld va (levelShift lvl) (levelBits lvl) * 8 = a)
    (hread : s.isHere a = true ∧ ∀ e ∈ touchedTiles (paLocal a) 8, s.tag e.1 e.2 = .full) (hview : s.view (paLocal a) 8 = e) :
    s.walkFrom c va (fuel + 1) lvl table =
      (let addr := e / 2 ^ 8 % 2 ^ 44 * 2 ^ 8
      let isTable := fld e 1 1 = 1
      let mg := fld e 7 1 = 1
      if fld e 0 1 = 0 then .fail .page lvl
      else if fld e 52 4 ≠ 0 ∨ s.malformed addr then .fail .prot lvl
      else if isTable then
        if lvl = 0 ∨ mg ∨ addr % tableAlign lvl ≠ 0 then .fail .prot lvl else s.walkFrom c va fuel (lvl - 1) addr
      else
        let size := 2 ^ levelShift lvl
        if lvl = 3 ∨ addr % size ≠ 0 ∨ (mg ∧ (lvl ≠ 0 ∨ s.inRegion (paLocal addr) size)) then .fail .prot lvl
        else .leaf { asid := c.asid, origin := c.origin, glob := fld e 6 1 = 1, va := va / size * size, size := size, pa := addr,
                     u := fld e 5 1 = 1, x := fld e 4 1 = 1, w := fld e 3 1 = 1, rd := fld e 2 1 = 1, leaf := a, pte := BitVec.ofNat 64 e }) := by
  have hnone : ∀ f : Nat × Nat → Bool, (∀ t ∈ touchedTiles (paLocal a) 8, f t = false) → (touchedTiles (paLocal a) 8).find? f = none := fun f hf => by
    rw [List.find?_eq_none]
    exact fun t ht => by rw [hf t ht]; decide
  rw [State.walkFrom, ha]
  dsimp only
  rw [hread.1, State.migrating_none hmigs, if_neg (by decide), hnone _ (fun t ht => by rw [hread.2 t ht]; rfl)]
  dsimp only
  rw [State.hurt_none hstruck, if_neg Bool.false_ne_true, hview]
/-- An entry that points to a table leads on to it. -/
theorem State.walkFrom_table (c : Ctx) {va lvl table a t : Nat} (fuel : Nat) (ha : table + fld va (levelShift (lvl + 1)) (levelBits (lvl + 1)) * 8 = a)
    (hread : s.isHere a = true ∧ ∀ e ∈ touchedTiles (paLocal a) 8, s.tag e.1 e.2 = .full) (hview : s.view (paLocal a) 8 = t + 3)
    (halign : t % tableAlign (lvl + 1) = 0) (h256 : t % 256 = 0) (hlt : t < 2 ^ 52) (hgood : s.malformed t = false) : s.walkFrom c va (fuel + 1) (lvl + 1) table = s.walkFrom c va fuel lvl t := by
  have h0 : fld (t + 3) 0 1 = 1 := by
    unfold fld
    omega
  have h52 : fld (t + 3) 52 4 = 0 := by
    unfold fld
    omega
  have haddr : (t + 3) / 2 ^ 8 % 2 ^ 44 * 2 ^ 8 = t := by omega
  have h1 : fld (t + 3) 1 1 = 1 := by
    unfold fld
    omega
  have h7 : fld (t + 3) 7 1 = 0 := by
    unfold fld
    omega
  rw [State.walkFrom_reads hstruck hmigs c fuel ha hread hview]
  dsimp only
  rw [haddr, h0, if_neg (by decide), h52, hgood, if_neg (by decide), h1, if_pos rfl, h7, if_neg, Nat.add_sub_cancel]
  rintro (h | h | h)
  · exact Nat.succ_ne_zero _ h
  · exact absurd h (by decide)
  · exact h halign
/-- A leaf of the last level gives its page and its permissions. -/
theorem State.walkFrom_leaf (c : Ctx) {va table a page fl : Nat} (fuel : Nat) (ha : table + fld va 16 5 * 8 = a)
    (hread : s.isHere a = true ∧ ∀ e ∈ touchedTiles (paLocal a) 8, s.tag e.1 e.2 = .full) (hview : s.view (paLocal a) 8 = page + fl)
    (halign : page % 65536 = 0) (hlt : page < 2 ^ 52) (hgood : s.malformed page = false) (hfl : fl % 4 = 1) (hsmall : fl < 128) :
    s.walkFrom c va (fuel + 1) 0 table = .leaf ⟨c.asid, c.origin, decide (fl / 64 % 2 = 1), va / 65536 * 65536, 65536, page, decide (fl / 32 % 2 = 1), decide (fl / 16 % 2 = 1),
      decide (fl / 8 % 2 = 1), decide (fl / 4 % 2 = 1), a, BitVec.ofNat 64 (page + fl)⟩ := by
  have h52 : fld (page + fl) 52 4 = 0 := by
    unfold fld
    omega
  have haddr : (page + fl) / 2 ^ 8 % 2 ^ 44 * 2 ^ 8 = page := by omega
  have hbit : ∀ i < 8, fld (page + fl) i 1 = fl / 2 ^ i % 2 := fun i hi => by
    have hcases : i = 0 ∨ i = 1 ∨ i = 2 ∨ i = 3 ∨ i = 4 ∨ i = 5 ∨ i = 6 ∨ i = 7 := by omega
    unfold fld
    rcases hcases with rfl | rfl | rfl | rfl | rfl | rfl | rfl | rfl <;> omega
  have hsize : 2 ^ levelShift 0 = 65536 := rfl
  rw [State.walkFrom_reads hstruck hmigs c (lvl := 0) fuel (a := a) (by rw [← ha]; simp only [levelShift, levelBits]) hread hview]
  dsimp only
  rw [haddr, h52, hgood, hsize, hbit 0 (by decide), hbit 1 (by decide), hbit 2 (by decide), hbit 3 (by decide), hbit 4 (by decide), hbit 5 (by decide), hbit 6 (by decide), hbit 7 (by decide),
    if_neg (by omega), if_neg (by decide), if_neg (by omega), if_neg]
  · rfl
  · rintro (h | h | ⟨h, -⟩) <;> omega
end
/-- A walk of four levels (R62). -/
theorem State.walk_leaf {s : State} (c : Ctx) {va root t2 t1 t0 page fl : Nat} (hstruck : s.struck = []) (hmigs : s.migs = []) (hroot : s.rootOf c = some root) (hgood : s.malformed root = false)
    (hread : ∀ a ∈ [root + va / 2 ^ 43 % 2 ^ 13 * 8, t2 + va / 2 ^ 30 % 2 ^ 13 * 8, t1 + va / 2 ^ 21 % 2 ^ 9 * 8, t0 + va / 2 ^ 16 % 2 ^ 5 * 8],
      s.isHere a = true ∧ ∀ e ∈ touchedTiles (paLocal a) 8, s.tag e.1 e.2 = .full)
    (h2 : t2 % 65536 = 0 ∧ t2 < 2 ^ 52 ∧ s.malformed t2 = false) (h1 : t1 % 4096 = 0 ∧ t1 < 2 ^ 52 ∧ s.malformed t1 = false) (h0 : t0 % 256 = 0 ∧ t0 < 2 ^ 52 ∧ s.malformed t0 = false)
    (hp : page % 65536 = 0 ∧ page < 2 ^ 52 ∧ s.malformed page = false) (hfl : fl % 4 = 1) (hsmall : fl < 128)
    (hv3 : s.view (paLocal (root + va / 2 ^ 43 % 2 ^ 13 * 8)) 8 = t2 + 3) (hv2 : s.view (paLocal (t2 + va / 2 ^ 30 % 2 ^ 13 * 8)) 8 = t1 + 3)
    (hv1 : s.view (paLocal (t1 + va / 2 ^ 21 % 2 ^ 9 * 8)) 8 = t0 + 3) (hv0 : s.view (paLocal (t0 + va / 2 ^ 16 % 2 ^ 5 * 8)) 8 = page + fl) :
    s.walk c va = .leaf ⟨c.asid, c.origin, decide (fl / 64 % 2 = 1), va / 65536 * 65536, 65536, page, decide (fl / 32 % 2 = 1), decide (fl / 16 % 2 = 1),
      decide (fl / 8 % 2 = 1), decide (fl / 4 % 2 = 1), t0 + va / 2 ^ 16 % 2 ^ 5 * 8, BitVec.ofNat 64 (page + fl)⟩ := by
  have hr3 := hread _ List.mem_cons_self
  have hr2 := hread _ (List.mem_cons_of_mem _ List.mem_cons_self)
  have hr1 := hread _ (List.mem_cons_of_mem _ (List.mem_cons_of_mem _ List.mem_cons_self))
  have hr0 := hread _ (List.mem_cons_of_mem _ (List.mem_cons_of_mem _ (List.mem_cons_of_mem _ List.mem_cons_self)))
  have ha3 : root + fld va (levelShift (2 + 1)) (levelBits (2 + 1)) * 8 = root + va / 2 ^ 43 % 2 ^ 13 * 8 := by simp only [fld, levelShift, levelBits]
  have ha2 : t2 + fld va (levelShift (1 + 1)) (levelBits (1 + 1)) * 8 = t2 + va / 2 ^ 30 % 2 ^ 13 * 8 := by simp only [fld, levelShift, levelBits]
  have ha1 : t1 + fld va (levelShift (0 + 1)) (levelBits (0 + 1)) * 8 = t1 + va / 2 ^ 21 % 2 ^ 9 * 8 := by simp only [fld, levelShift, levelBits]
  have ha0 : t0 + fld va 16 5 * 8 = t0 + va / 2 ^ 16 % 2 ^ 5 * 8 := by simp only [fld]
  rw [State.walk, hroot]
  dsimp only
  rw [hgood, if_neg Bool.false_ne_true, State.walkFrom_table hstruck hmigs c 3 (lvl := 2) ha3 hr3 hv3 h2.1 (by omega) h2.2.1 h2.2.2,
    State.walkFrom_table hstruck hmigs c 2 (lvl := 1) ha2 hr2 hv2 h1.1 (by omega) h1.2.1 h1.2.2,
    State.walkFrom_table hstruck hmigs c 1 (lvl := 0) ha1 hr1 hv1 h0.1 (by omega) h0.2.1 h0.2.2,
    State.walkFrom_leaf hstruck hmigs c 0 ha0 hr0 hv0 hp.1 hp.2.1 hp.2.2 hfl hsmall]

/-! ## A walker completes a walk (R66) -/

/-- The context of an engine's walk. -/
def Walk.ctx (w : Walk) : Ctx := ⟨w.core, w.asid, true, w.origin, [], w.root, none, none⟩
section
variable {s : State} {w : Walk} (hw : s.walks = [w]) (hf : w.failed = none)
include hw hf
theorem execPageWalk_leaf {e : TlbEntry} (h : s.walk w.ctx w.va = .leaf e) : ∃ t, execPageWalk w.id s = .next t ∧ t.walks = [] ∧ e ∈ (t.core w.core).tlb ∧ t.mem = s.mem := by
  have hx : execPageWalk w.id s = .next (({ s with walks := [] } : State).fillTlb w.core e) := by
    have hnone : [w].filter (fun x => x.id != w.id) = [] := by simp
    rw [execPageWalk, hw, List.find?_cons_of_pos (by simp [hf])]
    dsimp only
    rw [if_neg (by simp [hf]), show s.walk ⟨w.core, w.asid, true, w.origin, [], w.root, none, none⟩ w.va = _ from h]
    dsimp only
    rw [hnone]
  refine ⟨_, hx, rfl, ?_, rfl⟩
  have hcore : (State.fillTlb { s with walks := [] } w.core e).core w.core = (({ s with walks := [] } : State).modCore w.core (fun c => { c with tlb := c.tlb.drop (c.tlb.length + 1 - 512) ++ [e] })).core w.core := rfl
  rw [hcore, State.core_modCore_same]
  exact List.mem_append_right _ (List.mem_singleton_self _)
theorem execPageWalk_fail {x : Cause} {l : Nat} (h : s.walk w.ctx w.va = .fail x l) : execPageWalk w.id s = .next (s.failWalk w x l) := by
  rw [execPageWalk, hw, List.find?_cons_of_pos (by simp [hf])]
  dsimp only
  rw [if_neg (by simp [hf]), show s.walk ⟨w.core, w.asid, true, w.origin, [], w.root, none, none⟩ w.va = _ from h]
end

/-! ## Bytes that are written and read again -/

theorem leNat_leBytes (n v : Nat) : leNat (leBytes n v) = v % 256 ^ n := by
  induction n generalizing v with
  | zero => exact (Nat.mod_one v).symm
  | succ n ih =>
    rw [leBytes, leNat, ih, BitVec.toNat_ofNat, Nat.pow_succ' (m := 256)]
    exact Nat.mod_mul.symm
theorem leBytes_length (n v : Nat) : (leBytes n v).length = n := by
  induction n generalizing v with
  | zero => rfl
  | succ n ih => rw [leBytes, List.length_cons, ih]
theorem Memory.bytes_writeBytes (bs : List Byte) {m : Memory} (h : m.wf = true) (a : Nat) : (m.writeBytes a bs).bytes a bs.length = bs := by
  induction bs generalizing m a with
  | nil => rfl
  | cons b r ih =>
    have hshift : ∀ M : Memory, M.bytes a (r.length + 1) = M.read a :: M.bytes (a + 1) r.length := fun M => by
      rw [Memory.bytes, Memory.bytes, List.range_succ_eq_map, List.map_cons, List.map_map]
      refine congrArg (fun l => M.read a :: l) (List.map_congr_left fun i _ => congrArg M.read ?_)
      rw [Nat.add_assoc, Nat.add_comm 1 i]
    rw [List.length_cons, hshift, Memory.writeBytes, ih (Memory.wf_write h a b), Memory.read_writeBytes_other _ _ _ _ (.inl (Nat.lt_succ_self a)), Memory.read_write_same h]
theorem Memory.readN_writeN {m : Memory} (h : m.wf = true) (a n v : Nat) : (m.writeN a n v).readN a n = v % 256 ^ n := by
  have hb := Memory.bytes_writeBytes (leBytes n v) h a
  rw [leBytes_length] at hb
  have hr : (m.writeN a n v).readN a n = leNat ((m.writeBytes a (leBytes n v)).bytes a n) := rfl
  rw [hr, hb, leNat_leBytes]
theorem Memory.read_writeN_other (m : Memory) {a n x : Nat} (v : Nat) (h : x < a ∨ a + n ≤ x) : (m.writeN a n v).read x = m.read x :=
  Memory.read_writeBytes_other _ m a x (by rwa [leBytes_length])

/-! ## A page is copied (R70) -/

theorem Memory.read_absent {m : Memory} {x : Nat} (h : ∀ c ∈ m, c.1 ≠ x) : m.read x = 0 := by
  induction m with
  | nil => rfl
  | cons c r ih =>
    rw [Memory.read, if_neg (h c List.mem_cons_self)]
    exact ih fun d hd => h d (List.mem_cons_of_mem _ hd)
theorem Memory.read_listed {m : Memory} (h : m.wf = true) {c : Host.Cell} (hc : c ∈ m) : m.read c.1 = c.2 := by
  induction m with
  | nil => exact absurd hc List.not_mem_nil
  | cons d r ih =>
    rcases List.mem_cons.mp hc with rfl | hr
    · rw [Memory.read, if_pos rfl]
    · rw [Memory.read, if_neg (Nat.ne_of_lt (Memory.wf_above h c hr))]
      exact ih (Memory.wf_tail h) hr
section
variable {f : Nat → Nat}
theorem Memory.read_moved_other {l : List Host.Cell} {x : Nat} (hl : ∀ c ∈ l, f c.1 ≠ x) (a : Memory) : (l.foldl (fun (a : Memory) (c : Host.Cell) => a.write (f c.1) c.2) a).read x = a.read x := by
  induction l generalizing a with
  | nil => rfl
  | cons c l ih =>
    rw [List.foldl_cons, ih fun d hd => hl d (List.mem_cons_of_mem _ hd)]
    exact Memory.read_write_other _ _ (Ne.symm (hl c List.mem_cons_self))
/-- Cells that are written elsewhere, no two of them to one address, read there as they were listed. -/
theorem Memory.read_moved {l : Memory} (hl : l.wf = true) (hf : ∀ c ∈ l, ∀ d ∈ l, f c.1 = f d.1 → c.1 = d.1) {c : Host.Cell} (hc : c ∈ l) {a : Memory} (ha : a.wf = true) :
    (l.foldl (fun (a : Memory) (c : Host.Cell) => a.write (f c.1) c.2) a).read (f c.1) = c.2 := by
  induction l generalizing a with
  | nil => exact absurd hc List.not_mem_nil
  | cons d r ih =>
    rw [List.foldl_cons]
    rcases List.mem_cons.mp hc with rfl | hr
    · rw [Memory.read_moved_other, Memory.read_write_same ha]
      intro e he heq
      have := hf e (List.mem_cons_of_mem _ he) c List.mem_cons_self heq
      exact absurd this (Nat.ne_of_gt (Memory.wf_above hl e he))
    · exact ih (Memory.wf_tail hl) (fun x hx y hy => hf x (List.mem_cons_of_mem _ hx) y (List.mem_cons_of_mem _ hy)) hr (Memory.wf_write ha _ _)
end
/-- A page that is copied to another reads there as it did. -/
theorem Memory.read_copyPage {m : Memory} (h : m.wf = true) {old new i : Nat} (hold : old % 2 ^ 16 = 0) (hnew : new % 2 ^ 16 = 0) (hi : i < 2 ^ 16) :
    (m.copyPage old new).read (new + i) = m.read (old + i) := by
  have hmove : ∀ x, x / 2 ^ 16 = old / 2 ^ 16 → movePage old new x = new + x % 2 ^ 16 := fun x hx => by
    rw [movePage, if_pos hx]
    omega
  have hpage : ∀ {c : Host.Cell}, c ∈ m.filter (fun c => decide (c.1 / 2 ^ 16 = old / 2 ^ 16)) ↔ c ∈ m ∧ c.1 / 2 ^ 16 = old / 2 ^ 16 := fun {c} => by
    rw [List.mem_filter, decide_eq_true_eq]
  have hwf := Memory.wf_filter (fun c => decide (c.1 / 2 ^ 16 = old / 2 ^ 16)) h
  have hrest := Memory.wf_filter (fun c => decide (c.1 / 2 ^ 16 ≠ new / 2 ^ 16)) h
  unfold Memory.copyPage
  dsimp only
  by_cases hex : ∃ c ∈ m, c.1 = old + i
  · obtain ⟨c, hc, hca⟩ := hex
    have hcp : c.1 / 2 ^ 16 = old / 2 ^ 16 := by omega
    have hto : movePage old new c.1 = new + i := by
      rw [hmove _ hcp]
      omega
    have hinj : ∀ c ∈ m.filter (fun c => decide (c.1 / 2 ^ 16 = old / 2 ^ 16)), ∀ d ∈ m.filter (fun c => decide (c.1 / 2 ^ 16 = old / 2 ^ 16)),
        movePage old new c.1 = movePage old new d.1 → c.1 = d.1 := fun c hc d hd heq => by
      have h1 := (hpage.mp hc).2
      have h2 := (hpage.mp hd).2
      rw [hmove _ h1, hmove _ h2] at heq
      omega
    have hread := Memory.read_moved hwf hinj (hpage.mpr ⟨hc, hcp⟩) hrest
    rw [hto] at hread
    rw [hread, ← hca, Memory.read_listed h hc]
  · rw [Memory.read_moved_other, Memory.read_absent, Memory.read_absent]
    · exact fun c hc hca => hex ⟨c, hc, hca⟩
    · intro c hc hca
      rw [List.mem_filter, decide_eq_true_eq] at hc
      exact hc.2 (by omega)
    · intro c hc heq
      obtain ⟨hm, hp⟩ := hpage.mp hc
      rw [hmove _ hp] at heq
      exact hex ⟨c, hm, by omega⟩
end Sys2Proof.Machine
end

section
/-! Proofs about shoot-downs and the steps of a migration (R67, R70), and the statement about translation that they settle. -/
set_option Elab.async false
namespace Sys2Proof.Machine
open Sys2Proof Sys2Proof.Safety
/-! ## Shoot-downs (R67) -/

/-- Nothing on the module is on its way that was asked for under an earlier translation. -/
structure Unasked (s : State) (core : Nat) : Prop where
  net : s.net = []
  held : s.held = []
  outbox : s.outbox = []
  sent : s.sent = []
  streams : s.streamsIn = []
  copyq : (s.core core).copyq = []
  xfers : s.xfers = []
  procs : ∀ e ∈ s.procs, e.2.seen = [] ∧ ∀ o ∈ e.2.outs, o.more = [] ∧ o.kind ≠ .chan
theorem State.oldRequests_none {s : State} {core : Nat} (h : Unasked s core) (d : Shootdown) : s.oldRequests d core = false := by
  have hprocs : ∀ f : Nat × Proc → Bool, (∀ e ∈ s.procs, f e = false) → s.procs.any f = false := fun f hf => by
    rw [List.any_eq_false]
    exact fun e he => by rw [hf e he]; decide
  unfold State.oldRequests
  dsimp only
  rw [h.net, h.held, h.outbox, h.sent, h.streams, h.copyq, h.xfers, hprocs _ fun e he => ?_]
  · rfl
  · obtain ⟨hseen, houts⟩ := h.procs e he
    have hout : ∀ f : OutOp → Bool, (∀ o ∈ e.2.outs, f o = false) → e.2.outs.any f = false := fun f hf => by
      rw [List.any_eq_false]
      exact fun o ho => by rw [hf o ho]; decide
    rw [hseen, hout _ fun o ho => ?_]
    · exact Bool.and_false _
    · obtain ⟨hmore, hkind⟩ := houts o ho
      rw [hmore, decide_eq_false fun hc => hkind hc.1]
      rfl
theorem Core.eps_none {k : Core} (h : k.eps = []) (f : Nat × Endpoint → Nat × Endpoint) : { k with eps := k.eps.map f } = k := by
  rw [h, List.map_nil, ← h]
/-- A core invalidates where nothing is asked for: its TLB holds no covered entry, and nothing is asked for afterwards. -/
theorem State.invalidate_unasked {s : State} {core : Nat} (h : Unasked s core) (d : Shootdown) :
    Unasked (s.invalidate d core) core ∧ (s.invalidate d core).mem = s.mem ∧ (s.invalidate d core).shoots = s.shoots ∧ ∀ e ∈ ((s.invalidate d core).core core).tlb, d.covers e = false := by
  unfold State.invalidate
  extract_lets old isRead waitsAt pulled anew s1 stale staleIn again s2 keep s3 s4 pieces s5 chans
  have hcore : s4.core core = { s1.core core with eps := (s4.core core).eps } := by
    have h := Table.get_mapped s3.cores (d := Core.reset) (g := fun k : Core => { k with eps := k.eps.map (fun (e : Nat × Endpoint) => (e.1, { e.2 with
      waiting := e.2.waiting.map stale, lending := e.2.lending.map stale, held := e.2.held.map stale, refs := e.2.refs.map stale })) }) (Core.eps_none rfl _) core
    have h4 : s4.core core = _ := h
    rw [h4]
    rfl
  have h1 : s1.core core = _ := State.core_modCore_same s core _
  have h4 : Unasked s4 core := by
    refine ⟨?_, ?_, ?_, h.sent, h.streams, ?_, h.xfers, ?_⟩
    · have hn : s4.net = (s.net.filter (fun (m : Msg) => keep m.body)).map (fun (m : Msg) => { m with body := staleIn m.body }) := rfl
      rw [hn, h.net]
      rfl
    · have hn : s4.held = s.held.map again := rfl
      rw [hn, h.held]
      rfl
    · have hn : s4.outbox = (s.outbox.filter (fun (p : Packet) => keep p.body)).map (fun (p : Packet) => { p with body := staleIn p.body }) := rfl
      rw [hn, h.outbox]
      rfl
    · rw [hcore, h1]
      dsimp only
      rw [h.copyq]
      rfl
    · intro e he
      obtain ⟨e0, he0, heq⟩ := List.mem_map.mp he
      obtain ⟨hseen, houts⟩ := h.procs e0 he0
      by_cases hc : coreOf e0.1 = core
      · rw [if_pos hc] at heq
        rw [← heq]
        refine ⟨hseen, fun o ho => ?_⟩
        obtain ⟨o0, ho0, hoeq⟩ := List.mem_map.mp ho
        obtain ⟨hmore, hkind⟩ := houts o0 ho0
        rw [← hoeq]
        dsimp only
        rw [hmore]
        exact ⟨rfl, hkind⟩
      · rw [if_neg hc] at heq
        rw [← heq]
        exact ⟨hseen, houts⟩
  have htlb : ∀ e ∈ (s4.core core).tlb, d.covers e = false := by
    intro e he
    rw [hcore, h1] at he
    have hf := (List.mem_filter.mp he).2
    exact Bool.not_eq_true' _ ▸ hf
  have hpieces : pieces = [] := by
    have hp : pieces = (s4.core core).copyq.flatMap _ := rfl
    rw [hp, h4.copyq]
    rfl
  have h5 : s5 = s4 := by
    have hs5 : s5 = pieces.foldl _ s4 := rfl
    rw [hs5, hpieces]
    rfl
  have hchans : chans = [] := by
    have hc : chans = (s5.procs.filter (fun e => decide (coreOf e.1 = core))).flatMap (fun e =>
        (e.2.outs.filter (fun o => decide (o.kind = .chan ∧ hModule o.va ≠ s.modid) && old o.under)).map (fun o => (e.1, e.2.asid, o))) := rfl
    rw [hc, h5, List.flatMap_eq_nil_iff]
    intro e he
    have hk := (h4.procs e (List.mem_of_mem_filter he)).2
    rw [List.map_eq_nil_iff, List.filter_eq_nil_iff]
    exact fun o ho => by rw [decide_eq_false fun hc => (hk o ho).2 hc.1, Bool.false_and]; decide
  have hall : (if d.mode = 3 then s4 else chans.foldl (fun s x => s.callBack core (s.originWord x.1) (hModule x.2.2.va) x.2.1 (s.askey.get 0 x.2.1) (.chan (s.originWord x.1) x.2.2.id)) s5) = s4 := by
    rw [hchans, List.foldl_nil, h5, ite_self]
  rw [hall]
  exact ⟨h4, rfl, rfl, htlb⟩
section
variable {s : State} {d : Shootdown} (hs : s.shoots = [d])
include hs
theorem execShootdownAcknowledge_acks {core : Nat} (hlt : core < 1536) (hneed : core ∈ d.need) (hack : core ∉ d.acked) (h : Unasked s core) :
    ∃ t, execShootdownAcknowledge d.id core s = .next t ∧ t.mem = s.mem ∧ t.shoots = [{ d with acked := d.acked ++ [core] }] ∧ ∀ e ∈ (t.core core).tlb, d.covers e = false := by
  obtain ⟨hu, hm, hsh, htlb⟩ := State.invalidate_unasked h d
  have hx : execShootdownAcknowledge d.id core s = .next ((s.invalidate d core).shootAcked d.id core) := by
    rw [execShootdownAcknowledge, hs, List.find?_cons_of_pos (by simp)]
    dsimp only
    rw [if_neg (by simp [hneed, hack, hlt]), State.oldRequests_none hu, if_neg Bool.false_ne_true]
  refine ⟨_, hx, hm, ?_, htlb⟩
  have hmap : ((s.invalidate d core).shootAcked d.id core).shoots = (s.invalidate d core).shoots.map (fun x => if x.id = d.id then { x with acked := x.acked ++ [core] } else x) := rfl
  rw [hmap, hsh, hs, List.map_cons, List.map_nil, if_pos rfl]
section
variable (hall : ∀ k ∈ d.need, k ∈ d.acked) (hreply : d.reply = none)
include hall hreply
theorem execShootdownComplete_plain (hmig : d.migration = none) : execShootdownComplete d.id s = .next { s with shoots := [{ d with complete := true }] } := by
  have hdone : d.need.all (fun c => d.acked.contains c) = true := List.all_eq_true.mpr fun k hk => List.contains_iff_mem.mpr (hall k hk)
  rw [execShootdownComplete, hs, List.find?_cons_of_pos (by simp)]
  dsimp only
  rw [hdone, if_neg (by decide), hreply, hmig]
  dsimp only
  rw [List.map_cons, List.map_nil, if_pos rfl, hreply, hmig]
theorem execShootdownComplete_migration {m : Migration} (hmig : d.migration = some m.id) (hm : s.migs = [m]) :
    execShootdownComplete d.id s = .next (({ s with shoots := [], migs := [{ m with stage := 2 }] } : State).send (.scarab (scarabOf m.page)) (.scarab (scarabOf m.frame)) (.endMarker m.id)) := by
  have hdone : d.need.all (fun c => d.acked.contains c) = true := List.all_eq_true.mpr fun k hk => List.contains_iff_mem.mpr (hall k hk)
  have hnone : [d].filter (fun x => x.id != d.id) = [] := by simp
  rw [execShootdownComplete, hs, List.find?_cons_of_pos (by simp)]
  dsimp only
  rw [hdone, if_neg (by decide), hreply, hmig]
  dsimp only
  rw [hm, List.find?_cons_of_pos (by simp)]
  dsimp only
  rw [hnone, List.map_cons, List.map_nil, if_pos rfl]
end
end

/-! ## Migration (R70) -/
theorem State.startShootdown_starts (s : State) (mode asid va : Nat) (mig : Option Nat) (pte : Word) :
    ∃ d, (s.startShootdown mode asid va mig pte).1.shoots = s.shoots ++ [d] ∧ d = ⟨s.nextId, mode, asid, va, [], d.need, mig, false, s.modid, none, pte⟩ ∧ (s.startShootdown mode asid va mig pte).2 = s.nextId ∧
      (s.startShootdown mode asid va mig pte).1 = { s with shoots := s.shoots ++ [d], outbox := (s.startShootdown mode asid va mig pte).1.outbox, nextId := (s.startShootdown mode asid va mig pte).1.nextId } := by
  unfold State.startShootdown
  extract_lets away id s1
  have hfold : ∀ (l : List Nat) (t : State), l.foldl (fun s m => s.tell (m - 2000) 0 0 asid (.shoot id mode asid va pte)) t =
      { t with outbox := (l.foldl (fun s m => s.tell (m - 2000) 0 0 asid (.shoot id mode asid va pte)) t).outbox, nextId := (l.foldl (fun s m => s.tell (m - 2000) 0 0 asid (.shoot id mode asid va pte)) t).nextId } := by
    intro l
    induction l with
    | nil => exact fun _ => rfl
    | cons m l ih => exact fun t => (ih _).trans rfl
  have hall := hfold away.dedup s1
  dsimp only
  generalize away.dedup.foldl (fun s m => s.tell (m - 2000) 0 0 asid (.shoot id mode asid va pte)) s1 = t at hall
  refine ⟨_, (congrArg State.shoots hall).trans rfl, rfl, rfl, hall⟩
section
variable {s : State} {m : Migration} (hmigs : s.migs = [m]) (hheld : s.held = []) (hlends : s.lendsHbm = []) (hhere : s.isHere m.leaf = true)
include hmigs hheld hlends hhere
theorem execMigrationCopyDone_abandons (h0 : m.stage = 0) (hne : BitVec.ofNat 64 (s.mem.readN (paLocal m.leaf) 8) ≠ m.oldPte) :
    ∃ t, execMigrationCopyDone m.id s = .next t ∧ t.migs = [] ∧ t.shoots = s.shoots := by
  unfold execMigrationCopyDone
  rw [hmigs, List.find?_cons_of_pos (by simp [h0])]
  dsimp only
  rw [hlends, List.any_nil, if_neg Bool.false_ne_true, hhere, if_pos rfl, decide_eq_false hne, if_pos (by decide), State.settle_nil (by exact hheld)]
  exact ⟨_, rfl, by simp [hmigs], rfl⟩
omit hheld in
theorem execMigrationCopyDone_rewrites (h0 : m.stage = 0) (heq : BitVec.ofNat 64 (s.mem.readN (paLocal m.leaf) 8) = m.oldPte) :
    ∃ t d, execMigrationCopyDone m.id s = .next t ∧ t.migs = [{ m with stage := 1 }] ∧ t.shoots = s.shoots ++ [d] ∧ d.migration = some m.id ∧
      t.mem = (s.mem.copyPage m.page m.frame).writeN (paLocal m.leaf) 8 (m.oldPte.toNat / 2 ^ 52 * 2 ^ 52 + s.paOf m.frame + m.oldPte.toNat % 2 ^ 8) := by
  let u : State := { s with
    mem := (s.mem.copyPage m.page m.frame).writeN (paLocal m.leaf) 8 (m.oldPte.toNat / 2 ^ 52 * 2 ^ 52 + s.paOf m.frame + m.oldPte.toNat % 2 ^ 8)
    migs := [{ m with stage := 1 }] }
  have hx : execMigrationCopyDone m.id s = .next (u.startShootdown 3 0 m.leaf (some m.id) m.oldPte).1 := by
    unfold execMigrationCopyDone
    rw [hmigs, List.find?_cons_of_pos (by simp [h0])]
    dsimp only
    have hno : s.lendsHbm.any (fun e => decide (e.2.src < m.page + 2 ^ 16 ∧ m.page < e.2.src + e.2.len)) = false := by rw [hlends, List.any_nil]
    rw [hno, if_neg Bool.false_ne_true, hhere]
    simp only [↓reduceIte, heq, decide_true, Bool.not_true, Bool.false_eq_true, List.map_cons, List.map_nil]
    rfl
  obtain ⟨d, hd, hdv, -, hrest⟩ := u.startShootdown_starts 3 0 m.leaf (some m.id) m.oldPte
  refine ⟨_, d, hx, ?_, hd, ?_, ?_⟩
  · rw [hrest]
  · rw [hdv]
  · rw [hrest]
omit hhere hlends in
theorem execEndMarker_ends {id : Nat} {from_ : Src} {to_ : Home} {h : Bool} (hmsg : s.msg id = some ⟨id, from_, to_, .endMarker m.id, none, h⟩) :
    ∃ t, execEndMarker id s = .next t ∧ t.migs = [] ∧ (t.die m.die).relTail = ((s.die m.die).relTail + 1) % 8192 ∧
      t.mem = s.mem.writeN (paLocal (s.die m.die).relBase + (s.die m.die).relTail * 8) 8 (s.modid * 2 ^ 45 + m.page) := by
  unfold execEndMarker
  rw [hmsg]
  dsimp only
  rw [show (s.take id).migs = [m] from hmigs, List.find?_cons_of_pos (by simp)]
  dsimp only
  rw [show (s.take id).held = [] from hheld, List.filter_nil, List.filter_nil, State.settle_nil (by rfl)]
  refine ⟨_, rfl, by simp [State.forwardPage], ?_, rfl⟩
  exact congrArg Die.relTail (State.die_setDie_same (s.take id) m.die _)
end
/-- The leaf of a page that has moved: the frame, under the bits that the entry had besides (R62). -/
theorem newLeaf_lt {old frame modid : Nat} (hold : old < 2 ^ 64) (halign : frame % 2 ^ 16 = 0) (hframe : frame < 2 ^ 45) (hmod : modid < 128) :
    old / 2 ^ 52 * 2 ^ 52 + (modid * 2 ^ 45 + frame) + old % 2 ^ 8 < 256 ^ 8 := by
  have h256 : 256 ^ 8 = 2 ^ 64 := by decide
  rw [h256]
  omega

/-- Settles O45: a walk by its four entries, a shoot-down where nothing old is asked for, and the steps of the one migration. -/
theorem translationRows : Obligations.TranslationRows := by
  unfold Obligations.TranslationRows
  refine ⟨?_, ?_, ?_, ?_, ?_⟩
  · intro s c va root t2 t1 t0 page fl a3 a2 a1 a0 table hstruck hmigs hroot hgood hread h2 h1 h0 hp hfl hsmall hv3 hv2 hv1 hv0
    exact State.walk_leaf c hstruck hmigs hroot hgood hread h2 h1 h0 hp hfl hsmall hv3 hv2 hv1 hv0
  · intro s w hw hf c
    refine ⟨fun e he => execPageWalk_leaf hw hf he, fun x l hx => ⟨fun hby => ?_, fun pk hby => ?_⟩⟩
    · have hrow := execPageWalk_fail hw hf hx
      rw [State.failWalk, hby] at hrow
      dsimp only at hrow
      rw [hw, List.map_cons, List.map_nil, if_pos rfl] at hrow
      exact hrow
    · have hnone : [w].filter (fun y => y.id != w.id) = [] := by simp
      have hfail : s.failWalk w x l = { (s.modProc pk (fun p => { p with walked := some (w.va, x, l) })) with walks := [] } := by
        rw [State.failWalk, hby]
        dsimp only
        rw [hw, hnone]
      refine ⟨_, (execPageWalk_fail hw hf hx).trans (congrArg _ hfail), rfl, rfl, ?_⟩
      show ((s.modProc pk (fun p => { p with walked := some (w.va, x, l) })).proc pk).walked = _
      rw [State.proc_modProc_same]
  · intro s d core hs
    refine ⟨fun hlt hneed hack hnet hheld houtbox hsent hstreams hcopyq hxfers hprocs =>
      execShootdownAcknowledge_acks hs hlt hneed hack ⟨hnet, hheld, houtbox, hsent, hstreams, hcopyq, hxfers, hprocs⟩, fun hall hreply => ⟨execShootdownComplete_plain hs hall hreply, fun m hmig hm => ?_⟩⟩
    exact ⟨_, _, execShootdownComplete_migration hs hall hreply hmig hm, rfl, rfl, rfl, rfl⟩
  · intro s m hmigs hheld hlends hhere leaf
    refine ⟨fun h0 hwf hpage hframe hne hl1 hl2 heq hlt hmod => ?_, execMigrationCopyDone_abandons hmigs hheld hlends hhere, fun id from_ to_ h hmsg => execEndMarker_ends hmigs hheld hmsg⟩
    obtain ⟨t, d, hx, hm, hsh, hd, hmem⟩ := execMigrationCopyDone_rewrites hmigs hlends hhere h0 heq
    refine ⟨t, d, hx, hm, hsh, hd, fun i hi => ?_, ?_⟩
    · rw [hmem, Memory.read_writeN_other _ _ (by omega), Memory.read_copyPage hwf hpage hframe hi]
    · have hlt := newLeaf_lt (old := m.oldPte.toNat) m.oldPte.isLt hframe hlt hmod
      rw [hmem, Memory.readN_writeN (Memory.wf_copyPage _ _ hwf), State.paOf, Nat.mod_eq_of_lt hlt, ← Nat.add_assoc (m.oldPte.toNat / 2 ^ 52 * 2 ^ 52)]
  · intro s page requester
    refine ⟨_, rfl, rfl, fun c => ?_⟩
    simp only [List.mem_filter, Bool.not_eq_true', decide_eq_false_iff_not]
end Sys2Proof.Machine
end
